-- ==== Sys2Proof/Word.lean ====
section
/-! DEFINITION. The plain value types of the controller: bytes, words, keyed data, and the names (variant, requester) that
the whole model shares. -/

namespace Sys2Proof

/-- A byte. -/
abbrev Byte := BitVec 8
/-- A 16-bit field: a completion code, a quality word, a flag word. -/
abbrev Half := BitVec 16
/-- A 32-bit register or table word. -/
abbrev Word := BitVec 32
/-- A 64-bit value: a point value, a Wasa G or F register, a league time in whole nanoseconds. -/
abbrev DWord := BitVec 64

/-- Sparse data by key: rising keys, and no entry equal to what an absent key reads as (`Memory.wf`, `Regs.wf`, Machine/Ops.lean). -/
abbrev AMap (α : Type) := List (Nat × α)

namespace Machine

/-- The four variants of Table 0-1 (R1). -/
inductive Variant where
  | qv6480
  | qv6470
  | qv6460
  | qv6440
deriving DecidableEq, Repr

/-- The requesters of R25: each has one read latch, one pending pair write, one multi-word hold, its own pages. -/
inductive Req where
  | pcie
  | uart
  | debug
  | core (c : Fin 36)
  | lockstep
deriving DecidableEq, Repr

/-- The number of a requester, in the order in which R461 applies writes of one edge. -/
def Req.idx : Req → Nat
  | .pcie => 0
  | .uart => 1
  | .debug => 2
  | .core c => 3 + c.val
  | .lockstep => 39

/-- A field of a register: the word's control-space address and the field's highest and lowest bit. -/
structure FRef where
  addr : Nat
  hi : Nat
  lo : Nat
deriving DecidableEq, Repr

/-- The access types of "Scope of this manual"; a reserved field is a bit that no field row covers (R8). -/
inductive Acc where
  | ro | rw | wo | w1c | w1s | rc
deriving DecidableEq, Repr

/-- A field of a register row: highest and lowest bit, access type, and whether a write is staged (R9). -/
structure FldRow where
  hi : Nat
  lo : Nat
  acc : Acc
  staged : Bool
deriving DecidableEq, Repr

/-- What a register row is under the shared rules: a diagnostic counter with the address and bit of its SAT flag (R22, R24),
the low word of a value of n words or one of its further words (R25, R26), a half of a complement pair (R10, R18), or neither. -/
inductive RKind where
  | plain
  | counter (sat : Option (Nat × Nat))
  | mwLo (n : Nat)
  | mwHi
  | pairLo
  | pairHi
deriving DecidableEq, Repr

/-- A row of the register table: base address, repeats as (count, stride) with the widest stride first, reset value, fields,
and kind. -/
structure RegRow where
  base : Nat
  dims : List (Nat × Nat)
  reset : Nat
  fields : List FldRow
  kind : RKind
deriving DecidableEq, Repr

/-- The table windows of Table 23-3, the DRAM window apart. -/
inductive Win where
  | scanTask | guardIlt | uplAddr | loopCfg | vaultImp | uplNbr | plcAdm | lampRcp | meterChan | planOut | lampFix
  | lampZone | lampGrp | loopBank | scanImap | scanOmap | scanImg | pointDesc | pointBind | txnSta | txnRoute | planElem
  | planBind | lampFw | loopCap
deriving DecidableEq, Repr

/-- The kinds of byte storage of the device and of the memories beside it. -/
inductive Space where
  | dram              -- both DRAM packages
  | flash             -- the external NOR flash of the cairns
  | win (w : Win)     -- the applied table behind a window
  | retention         -- the keeper's 64 KiB retention SRAM
  | data (t : Nat)    -- a program's DATA, IN, OUT and CONST regions, by the address of R87
deriving DecidableEq, Repr

/-- The source of a point write (Table 2-6), in the order of the writer mask. -/
inductive Src where
  | field | unit | host | program | plan
deriving DecidableEq, Repr

/-- The requester ports of Table 2-10: transaction engine, scan clusters, units and commit engine, access ports and
service cores. -/
inductive Port where
  | txn | scan | units | access
deriving DecidableEq, Repr

/-- A point record (Table 2-2). -/
structure PointRec where
  value : DWord
  second : DWord
  stamp : DWord
  quality : Half
  flags : Half
  seq : Word
  desc : Word
  route : Word
  prev : DWord
  chg : Word
  supp : Half
  dead : Half
  gen : Word
  crc : Word
deriving DecidableEq, Repr

/-- A write offered to the point store (R43): tag, source, the writing task of a PROGRAM write, value, complement or secondary
value, the source's quality and stamp, whether that stamp was marked untrusted, the source sequence number, whether it
refreshes a mirror, and whether it is a hand-off's own write (R305). -/
structure PtWrite where
  tag : BitVec 40
  src : Src
  task : Nat := 0xFFFF
  value : DWord
  second : DWord := 0
  quality : Half := 0
  stamp : DWord := 0
  untrusted : Bool := false
  seq : Word := 0
  mirror : Bool := false
  handoff : Bool := false
deriving DecidableEq, Repr

/-- A Mirfor frame received by the transaction engine: the station it came from, the header words of Table 11-6, its payload,
the CRC it carries (R254), the buffer levels its arrival found (notes/assumptions/24.md): on-die and deep-queue occupancy
of its class in KiB, and its source MAC address on an SGMII port (R328). -/
structure RxFrame where
  station : BitVec 18
  version : Byte := 1
  seq : Word
  target : Word := 0
  device : Half := 0
  cls : Byte
  payload : List Byte
  crc : Word
  occ : Nat := 0
  deep : Nat := 0
  mac : BitVec 48 := 0
deriving DecidableEq, Repr

/-- A PTP Announce as it arrives (R319): the uplink, the sender's clockIdentity, priority1, clockClass, accuracy, variance, priority2, the
grandmaster's identity, steps removed, domain, current UTC offset, flags (bit 0 leap61, 1 leap59, 2 offset valid), and the PTP seconds of
its time. -/
structure PtpAnnounce where
  port : Fin 4
  ident : DWord
  prio1 : Byte
  cls : Byte
  accuracy : Byte
  variance : Half
  prio2 : Byte
  grandmaster : DWord
  steps : Half
  domain : Byte
  utc : Half
  flags : Byte
  seconds : Nat
deriving DecidableEq, Repr

/-- What the metering DSP has integrated over the open interval for element `elem` (0 to 2) of metering point `point` (R280): active,
reactive and apparent energy in W s, var s and VA s, as FP64. -/
structure Energy where
  point : Nat
  elem : Nat
  p : DWord
  q : DWord
  s : DWord
deriving DecidableEq, Repr

/-- An entry of an image's instance table (Table 7-1). -/
structure InstEnt where
  key : DWord
  sig : Word
  addr : Nat
  size : Nat
  kind : Nat
  noCarry : Bool
deriving DecidableEq, Repr

/-- An entry of a forerunner image's value list (R171): DATA offset, width in bytes, value. -/
structure ValEnt where
  off : Nat
  width : Nat
  value : DWord
deriving DecidableEq, Repr

/-- What a valid program image declares (R492): kind, format, code words, region sizes and initial contents, entry addresses,
trap options, timer slots, instance table, value list. The binary layout of the toolchain's file is not in the spec, so a
valid image is held as this record (`Config.imageOf`, notes/assumptions/12.md). -/
structure Image where
  service : Bool := false
  fmode : Bool := false
  code : List Word
  dataSize : Nat := 0
  inSize : Nat := 0
  outSize : Nat := 0
  constSize : Nat := 0
  dataInit : List Byte := []
  constInit : List Byte := []
  entry : Word := 0
  handler : Option Word := none
  qlevel : BitVec 2 := 0
  qtrap : Bool := false
  fptrap : Bool := false
  slots : Nat := 0
  insts : List InstEnt := []
  values : List ValEnt := []
deriving DecidableEq, Repr

/-- A CAN frame (R350): extended identifier or base, identifier (base in bits 10:0), remote, CAN FD, BRS, ESI, data length code, data, and the league
time of its SOF at the ball. -/
structure CanFrame where
  xtd : Bool
  id : BitVec 29
  rtr : Bool := false
  fdf : Bool
  brs : Bool := false
  esi : Bool := false
  dlc : BitVec 4
  data : List Byte
  sof : DWord := 0
deriving DecidableEq, Repr

/-- A variable of a planning problem (R178, R198): its element, output code (7 for a variable per horizon or per day), step (0x1FF for these), bounds (∞
for none), linear cost. -/
structure PVar where
  elem : Nat
  code : Nat
  step : Nat
  lo : DWord := 0
  hi : DWord := 0x7FF0000000000000
  cost : DWord := 0
deriving DecidableEq, Repr

/-- A general row: element, place among the element's rows of the step, step, equality or inequality (terms ≤ right-hand side), terms as variable
number and coefficient. -/
structure PRow where
  elem : Nat
  place : Nat
  step : Nat
  eq : Bool
  terms : List (Nat × DWord)
  rhs : DWord
deriving DecidableEq, Repr

/-- A convex quadratic program (R173): variables, rows, and the quadratic terms of the objective as (i, j, coefficient of x_i x_j). -/
structure Problem where
  vars : List PVar := []
  rows : List PRow := []
  quad : List (Nat × Nat × DWord) := []
deriving DecidableEq, Repr

/-- A complete iterate of the solver (R202, R203): solution, residuals, duality gap, objective, complementarity, pivots replaced, and the general
row with the largest scaled residual; for an iteration in which a column was marked, the payload and number of the first one in elimination order
and the components its NaN reaches (R205, R206). -/
structure Iterate where
  x : List DWord := []
  rP : DWord := 0
  rD : DWord := 0
  rG : DWord := 0
  obj : DWord := 0
  mu : DWord := 0
  replaced : Nat := 0
  worst : Nat := 0
  mark : Option (Nat × Nat) := none
  reach : List Nat := []
deriving DecidableEq, Repr, Inhabited

/-- What the header of a firmware image names (R252): image id, version, size in bytes, the header's bytes, the signature r then s. -/
structure FwHead where
  id : Word
  version : Word
  size : Nat
  header : List Byte
  sig : List Byte
deriving DecidableEq, Repr, Inhabited

/-- A Mirfor frame that the device sends: port code (medium × 32 + port), station where it goes to one station, type, sequence
number, target word, class, payload (Table 11-6). -/
structure MFrame where
  port : Nat
  station : Option Nat
  type : Nat
  seq : Word
  target : Word
  cls : Nat
  payload : List Byte
deriving DecidableEq, Repr

/-- A hardware timer slot (R131). Mode 0 NONE, 1 TON, 2 TOF, 3 TP. -/
structure Slot where
  mode : Nat := 0
  start : Nat := 0
  preset : Nat := 0
  run : Bool := false
  q : Bool := false
  prev : Bool := false
deriving DecidableEq, Repr

/-- What a staging bank or a frozen set holds (R56, R57): register words by address, window bytes by absolute table offset,
point writes, loops whose bank selector flips, lighting frames by handle, and the overflow mark. -/
structure Bank where
  regs : List (Nat × Word) := []
  bytes : List (Win × Nat × Byte) := []
  points : List PtWrite := []
  loops : List Nat := []
  frames : List Word := []
  ovf : Bool := false
deriving DecidableEq, Repr

/-- A lighting frame (R241 to R245, R249): handle, the factor k of a DERATE frame, target, channel mask, levels, fade time (ms), curve,
latch (ns), whether software submitted it; once pending: whether its distribution has begun, the fixtures that have not
acknowledged it, and the league time of its last transmission. -/
structure LFrame where
  handle : Word
  derate : Option Nat := none
  group : Bool
  target : Nat
  mask : Nat := 255
  levels : List Nat := []
  fade : Nat
  curve : Nat
  latch : Nat
  soft : Bool := false
  begun : Bool := false
  waiting : List Nat := []
  sentAt : Nat := 0
deriving DecidableEq, Repr

/-- A CTRL message of the saddle link (R369, R383, R386): HELLO with SADL_CTL.EN, GEN_UNITS and the capacity registers, device number,
identity, PREF, whether the sender is ACTIVE, and whether its HMAC verifies under the pair key; a health report; the instant of a SWITCH; the
twin has ended the pairing. -/
inductive SadCtrl where
  | hello (en : Bool) (units capIo capMem : Nat) (dev : Nat) (ident : DWord) (pref active mac : Bool)
  | health (w : Word)
  | handover (t : DWord)
  | ended
deriving DecidableEq, Repr

/-- A COMMIT stream message (R376, R170): a frozen set with the lighting frames it names, its mode, task and instant, and whether it is
forwarded within C9; the apply notice; an ABORT. -/
inductive SadCommit where
  | set (b : Bank) (frames : List LFrame) (mode task : Nat) (instant : DWord) (swap : Bool)
  | apply (instant : DWord)
  | abort
deriving DecidableEq, Repr

/-- An entry of a cycle's read log (R377): kind (0 point, 1 control space, 2 unit call), what was read (tag, offset, unit × 256 + function), and
what the read returned: a completion code, a record, a word, registers. -/
structure ReadEnt where
  kind : Nat
  key : Nat
  code : Half := 0
  point : Option PointRec := none
  word : Word := 0
  regs : List (Nat × DWord) := []
deriving DecidableEq, Repr

/-- An IMAGE stream message: task, cycle number, release instant, mapped IN bytes. -/
structure SadImage where
  task : Nat
  cycle : Word
  release : DWord
  bytes : List Byte
deriving DecidableEq, Repr

/-- A DELTA stream message: task, cycle number, trap code and PC of an abandoned cycle, whether BS_LEFT was posted, read log, program store log (tag,
value, complement), dirty DATA blocks by address, OUT image, changed timer slots by task-relative number, output sets (station, sequence number, payload),
whether its pairs pass their check, whether a col swap's switch follows the cycle. -/
structure SadDelta where
  task : Nat
  cycle : Word
  abandon : Option (Nat × Word) := none
  bsLeft : Bool := false
  reads : List ReadEnt := []
  stores : List (BitVec 40 × DWord × DWord) := []
  blocks : List (Nat × List Byte) := []
  image : List Byte := []
  slots : List (Nat × Slot) := []
  sets : List (Nat × Word × List Byte) := []
  pairsOk : Bool := true
  swap : Bool := false
deriving DecidableEq, Repr

/-- A LOOP stream record (R379): loop, grid instant, PV, setpoint pair, u, i, d, accumulator, state of the sample. -/
structure LoopRec where
  loop : Fin 512
  instant : DWord
  pv : DWord
  sp : DWord
  spC : DWord
  u : DWord
  i : DWord
  d : DWord
  acc : Word
  state : Nat
deriving DecidableEq, Repr

/-- A piece of the BULK copy (R388): a bound point's record, a register word, table bytes, a task's image, its DATA, IN, OUT or CONST bytes, a timer slot of
its run, loop state (i, d, last PV, sp_good), PAN state (joined stations, routes), an outbound sequence number. -/
inductive SadBulk where
  | point (i : Nat) (r : PointRec)
  | reg (a : Nat) (w : Word)
  | bytes (w : Win) (off : Nat) (b : List Byte)
  | image (t : Fin 256) (g : Image)
  | data (t : Fin 256) (off : Nat) (b : List Byte)
  | slot (n : Nat) (x : Slot)
  | loop (n : Fin 512) (i d pvPrev spGood : DWord)
  | pan (i : Fin 8) (joined : List (DWord × Nat)) (routes : List (Nat × Nat))
  | seq (station type : Nat) (q : Word)
deriving DecidableEq, Repr

/-- The execution levels of Table 4-1, in the order of TCFG.LEVEL. -/
inductive Level where
  | task | service | check | boot
deriving DecidableEq, Repr

end Machine

end Sys2Proof
end

