-- ==== Sys2Proof/Syntax.lean ====
section
/-! DEFINITION. The commands of the block: one constructor for each row of spec/opcode_table.json, in the table's order. A command
stands for what reaches the controller from outside or for an instant that has come: a request of a requester, a frame, a pin,
a measurement, the end of a piece of work. A Wasa row is the issue of that instruction on a core, with the instruction word and
its extension word as encoded (R109). -/

namespace Sys2Proof

open Sys2Proof.Machine


/-- A command. -/
inductive Instr where
  /-- REGISTER_WRITE (R461): A write to a register or table window that has no row of its own is applied, ignored or staged in the channel 0 bank by the access rules. -/
  | registerWrite (r : Req) (a : Nat) (v : Word) (full : Bool)
  /-- PAIRED_REGISTER_WRITE (R18): A write to NAME is held pending and the following write to NAME_C from the same requester applies both or discards both with PAIR_FAULT. -/
  | pairedRegisterWrite (r : Req) (a : Nat) (v : Word)
  /-- MULTIWORD_WRITE (R26): A write to the low word of a multi-word value is held for the requester and the write of the highest word applies all words on one edge. -/
  | multiwordWrite (r : Req) (a : Nat) (v : Word)
  /-- LOW_WORD_READ (R25): A read of the low word of a multi-word value latches the remaining words for that requester and releases any earlier latch. -/
  | lowWordRead (r : Req) (a : Nat)
  /-- RC_FIELD_READ (R461): A read that returns an RC field clears it, except a read of a latched word. -/
  | rcFieldRead (r : Req) (a : Nat)
  /-- DIAG_COUNTER_CLEAR (R24): A write of zero to a diagnostic counter clears it and its SAT flag, and any other value is ignored. -/
  | diagCounterClear (r : Req) (a : Nat) (v : Word)
  /-- UNIT_DISABLE_REQUEST (R19): A disable request stops a unit admitting new work and starts its drain. -/
  | unitDisableRequest (u : Fin 81)
  /-- DRAIN_LIMIT_EXPIRY (R21): When a unit's drain limit passes, work still in flight completes with CANCELLED_DISABLE. -/
  | drainLimitExpiry (u : Fin 81)
  /-- DRAIN_COMPLETE (R19): When no work remains in flight the unit sets DISABLED, posts an event and lets the governor switch its domain off. -/
  | drainComplete (u : Fin 81) (l : List Energy)
  /-- UNIT_ENABLE_REQUEST (R20): An enable request is carried out, or is held until DISABLED sets when the unit is draining. -/
  | unitEnableRequest (u : Fin 81)
  /-- EVR_CFG_WRITE (R32): A write of GEN_EVR_CFG enables, disables or changes MIN_SEV of a ring, and the first enable posts the held events. -/
  | evrCfgWrite (n : Fin 16) (w : Word)
  /-- EVR_TAIL_WRITE (R32): A write of GEN_EVR_TAIL consumes records, and is ignored if it would make HEAD − TAIL exceed the ring size. -/
  | evrTailWrite (n : Fin 16) (w : Word)
  /-- PLL_LOCK (R13): A PLL reports lock and the units it clocks leave reset. -/
  | pllLock (p : Fin 6)
  /-- POINT_READ (R46): A requester reads a point record, with the quality recomputed from its age and the pair and CRC checked. -/
  | pointRead (port : Port) (tag : BitVec 40)
  /-- POINT_WRITE (R43): A write to a point passes the admission checks in order and is applied, held or refused. -/
  | pointWrite (port : Port) (w : PtWrite)
  /-- ACC_READ (R54): Access port operation READ fills the data words from one snapshot of the record. -/
  | accRead (p : Fin 3)
  /-- ACC_WRITE (R54): Access port operation WRITE writes the data words to the point as a HOST write. -/
  | accWrite (p : Fin 3)
  /-- FORCE (R44): Access port operation FORCE holds a value in a FORCEABLE point through the force table from the next spine edge. -/
  | force (p : Fin 3) (good : Bool)
  /-- UNFORCE (R54): Access port operation UNFORCE ends a force and applies any held write or the saved value. -/
  | unforce (p : Fin 3)
  /-- SUBST (R45): Access port operation SUBST holds a substitute value against FIELD writes. -/
  | subst (p : Fin 3)
  /-- UNSUBST (R54): Access port operation UNSUBST ends a substitution. -/
  | unsubst (p : Fin 3)
  /-- CLRCHG (R128): Access port operation CLRCHG clears the record's CHG flag. -/
  | clrchg (p : Fin 3)
  /-- SWEEP_VISIT (R51): The background sweep visits the next supervised point, applies supervision and checks the CRC. -/
  | sweepVisit
  /-- SCRUB_VISIT (R51): The background scrub visits the next critical point and checks its pair and CRC. -/
  | scrubVisit
  /-- POINT_CLEAR_DONE (R52): The store finishes clearing every record after a start of PD2 and sets POINT_STAT.READY. -/
  | pointClearDone
  /-- COMMIT_GO (R58): GO freezes a channel's bank as the set of a commit and starts its hardware checks. -/
  | commitGo (k : Fin 4)
  /-- COMMIT_ABORT (R67): ABORT ends a pending commit before its apply edge with SUPERSEDED and ABORTED. -/
  | commitAbort (k : Fin 4)
  /-- DISCARD (R58): DISCARD empties the collecting bank of a channel. -/
  | discard (k : Fin 4)
  /-- COMMIT_RULES_DONE (R60): Once the checking time has passed the verdict of rules C1 to C10 is reported and the commit goes on to its check program or preparation. -/
  | commitRulesDone (k : Fin 4)
  /-- CHECK_LIMIT_EXPIRY (R61): COMMIT_CHK.LIMIT expires, the check program is stopped and the commit fails with CHK_TRAP. -/
  | checkLimitExpiry (k : Fin 4)
  /-- COMMIT_PREP_DONE (R63): Preparation of shadow registers, table banks and overlay ends, and the commit waits for its apply instant or fails C12. -/
  | commitPrepDone (k : Fin 4)
  /-- COMMIT_APPLY (R64): On the apply edge shadow registers, table banks and overlay entries of the set take effect together and the result is reported. -/
  | commitApply (k : Fin 4)
  /-- COMMIT_TASK_TIMEOUT (R62): A TASK-mode commit that finds no task boundary within twice the period plus 1 s ends with TIMEOUT. -/
  | commitTaskTimeout (k : Fin 4)
  /-- OVERLAY_FOLD (R66): An overlay entry is folded into its point record with change detection and events. -/
  | overlayFold
  /-- BOOT_START (R72): The boot ROM reads the flash, chooses and verifies a cairn set, stages its commit groups and commits them on channel 0. -/
  | bootStart (sfdp : Option (List (Nat × Bool × Nat) × Bool))
  /-- FLASH_READ (R77): CAIRN_FL_CMD operation READ reads up to 256 bytes of flash into the data words. -/
  | flashRead (len : BitVec 9)
  /-- FLASH_PROGRAM (R77): CAIRN_FL_CMD operation PROGRAM writes a page, refused where it overlaps the booted slot. -/
  | flashProgram (len : BitVec 9)
  /-- ERASE_4K (R77): CAIRN_FL_CMD operation ERASE_4K erases a 4 KiB sector, refused where it overlaps the booted slot. -/
  | erase4k
  /-- ERASE_64K (R77): CAIRN_FL_CMD operation ERASE_64K erases a 64 KiB sector, refused where it overlaps the booted slot. -/
  | erase64k
  /-- FLASH_OP_DONE (R77): A flash operation completes, clears BUSY and reports its completion code. -/
  | flashOpDone
  /-- CAIRN_FLOOR_WRITE (R70): A write to CAIRN_FLOOR replaces the floor in FRAM only if it is newer under R23. -/
  | cairnFloorWrite (w : Word)
  /-- UNDEFINED_OPCODE (R110): An instruction with an unallocated opcode or function traps with ILLEGAL, cause UNDEFINED. -/
  | undefinedOpcode (c : Fin 36) (w : Word) (x : Option Word)
  /-- CYCLE_OVERRUN (R102): The execution budget of a cycle reaches zero and the cycle is abandoned at the next instruction boundary. -/
  | cycleOverrun (c : Fin 32)
  /-- POSTED_STORE_ACK (R91): The point store acknowledges a posted point store and a refusal sets MSTAT.PREJ. -/
  | postedStoreAck (c : Fin 36)
  /-- LD (R118): Bit logic LD loads a bit into BA. -/
  | iLd (c : Fin 36) (w : Word) (x : Option Word)
  /-- LDN (R118): Bit logic LDN loads the inverse of a bit into BA. -/
  | iLdn (c : Fin 36) (w : Word) (x : Option Word)
  /-- AND (R118): Bit logic AND combines a bit into BA with AND. -/
  | iAnd (c : Fin 36) (w : Word) (x : Option Word)
  /-- ANDN (R118): Bit logic ANDN combines the inverse of a bit into BA with AND. -/
  | iAndn (c : Fin 36) (w : Word) (x : Option Word)
  /-- OR (R118): Bit logic OR combines a bit into BA with OR. -/
  | iOr (c : Fin 36) (w : Word) (x : Option Word)
  /-- ORN (R118): Bit logic ORN combines the inverse of a bit into BA with OR. -/
  | iOrn (c : Fin 36) (w : Word) (x : Option Word)
  /-- XOR (R118): Bit logic XOR combines a bit into BA with XOR. -/
  | iXor (c : Fin 36) (w : Word) (x : Option Word)
  /-- XORN (R118): Bit logic XORN combines the inverse of a bit into BA with XOR. -/
  | iXorn (c : Fin 36) (w : Word) (x : Option Word)
  /-- ST (R118): ST stores BA to a bit. -/
  | iSt (c : Fin 36) (w : Word) (x : Option Word)
  /-- STN (R118): STN stores the inverse of BA to a bit. -/
  | iStn (c : Fin 36) (w : Word) (x : Option Word)
  /-- SETB (R118): SETB sets a bit when BA is 1. -/
  | iSetb (c : Fin 36) (w : Word) (x : Option Word)
  /-- RSTB (R118): RSTB clears a bit when BA is 1. -/
  | iRstb (c : Fin 36) (w : Word) (x : Option Word)
  /-- TGLB (R118): TGLB toggles a bit when BA is 1. -/
  | iTglb (c : Fin 36) (w : Word) (x : Option Word)
  /-- NOTBA (R118): NOTBA inverts BA. -/
  | iNotba (c : Fin 36) (w : Word) (x : Option Word)
  /-- SETBA (R118): SETBA sets BA to 1. -/
  | iSetba (c : Fin 36) (w : Word) (x : Option Word)
  /-- CLRBA (R118): CLRBA sets BA to 0. -/
  | iClrba (c : Fin 36) (w : Word) (x : Option Word)
  /-- CONDBA (R117): CONDBA sets BA from a condition code. -/
  | iCondba (c : Fin 36) (w : Word) (x : Option Word)
  /-- JMP (R119): JMP branches to a word offset from the PC. -/
  | iJmp (c : Fin 36) (w : Word) (x : Option Word)
  /-- B_COND (R119): B.cond branches when its condition code is true. -/
  | iBCond (c : Fin 36) (w : Word) (x : Option Word)
  /-- CALL (R119): CALL saves the return address in g[31] and branches. -/
  | iCall (c : Fin 36) (w : Word) (x : Option Word)
  /-- RET (R120): RET branches to the address in g[31]. -/
  | iRet (c : Fin 36) (w : Word) (x : Option Word)
  /-- PUSH (R83): PUSH copies BA onto the branch stack. -/
  | iPush (c : Fin 36) (w : Word) (x : Option Word)
  /-- POP_AND (R83): POP.AND pops the branch stack and ANDs the entry into BA. -/
  | iPopAnd (c : Fin 36) (w : Word) (x : Option Word)
  /-- POP_OR (R83): POP.OR pops the branch stack and ORs the entry into BA. -/
  | iPopOr (c : Fin 36) (w : Word) (x : Option Word)
  /-- POP_XOR (R83): POP.XOR pops the branch stack and XORs the entry into BA. -/
  | iPopXor (c : Fin 36) (w : Word) (x : Option Word)
  /-- POP_ANDN (R120): POP.ANDN pops the branch stack and sets BA to the entry AND NOT BA. -/
  | iPopAndn (c : Fin 36) (w : Word) (x : Option Word)
  /-- POP_LD (R83): POP.LD pops the branch stack into BA. -/
  | iPopLd (c : Fin 36) (w : Word) (x : Option Word)
  /-- DROP (R83): DROP discards the top of the branch stack. -/
  | iDrop (c : Fin 36) (w : Word) (x : Option Word)
  /-- WLD (R121): WLD loads WA or WB from memory with sign or zero extension. -/
  | iWld (c : Fin 36) (w : Word) (x : Option Word)
  /-- WST (R121): WST stores the low bytes of WA or WB to memory. -/
  | iWst (c : Fin 36) (w : Word) (x : Option Word)
  /-- WLI (R121): WLI loads a sign-extended immediate into WA or WB. -/
  | iWli (c : Fin 36) (w : Word) (x : Option Word)
  /-- WADD (R122): WADD adds WB to WA. -/
  | iWadd (c : Fin 36) (w : Word) (x : Option Word)
  /-- WSUB (R122): WSUB subtracts WB from WA. -/
  | iWsub (c : Fin 36) (w : Word) (x : Option Word)
  /-- WMUL (R122): WMUL multiplies WA by WB. -/
  | iWmul (c : Fin 36) (w : Word) (x : Option Word)
  /-- WDIV (R122): WDIV divides WA by WB under R100. -/
  | iWdiv (c : Fin 36) (w : Word) (x : Option Word)
  /-- WREM (R122): WREM takes the remainder of WA by WB. -/
  | iWrem (c : Fin 36) (w : Word) (x : Option Word)
  /-- WAND (R122): WAND ANDs WB into WA. -/
  | iWand (c : Fin 36) (w : Word) (x : Option Word)
  /-- WOR (R122): WOR ORs WB into WA. -/
  | iWor (c : Fin 36) (w : Word) (x : Option Word)
  /-- WXOR (R122): WXOR XORs WB into WA. -/
  | iWxor (c : Fin 36) (w : Word) (x : Option Word)
  /-- WNOT (R122): WNOT inverts WA. -/
  | iWnot (c : Fin 36) (w : Word) (x : Option Word)
  /-- WNEG (R122): WNEG negates WA. -/
  | iWneg (c : Fin 36) (w : Word) (x : Option Word)
  /-- WSHL (R122): WSHL shifts WA left by WB bits 5:0. -/
  | iWshl (c : Fin 36) (w : Word) (x : Option Word)
  /-- WSHR (R122): WSHR shifts WA right logically by WB bits 5:0. -/
  | iWshr (c : Fin 36) (w : Word) (x : Option Word)
  /-- WSAR (R122): WSAR shifts WA right arithmetically by WB bits 5:0. -/
  | iWsar (c : Fin 36) (w : Word) (x : Option Word)
  /-- WCMP (R122): WCMP compares WA with WB and sets BA from a condition code. -/
  | iWcmp (c : Fin 36) (w : Word) (x : Option Word)
  /-- WSWAP (R85): WSWAP exchanges WA and WB. -/
  | iWswap (c : Fin 36) (w : Word) (x : Option Word)
  /-- WMOVG (R122): WMOVG copies WA or WB into a G register. -/
  | iWmovg (c : Fin 36) (w : Word) (x : Option Word)
  /-- GMOVW (R122): GMOVW copies a G register into WA or WB. -/
  | iGmovw (c : Fin 36) (w : Word) (x : Option Word)
  /-- WCOPY (R85): WCOPY copies WA into WB. -/
  | iWcopy (c : Fin 36) (w : Word) (x : Option Word)
  /-- ADD (R123): ADD adds two G registers. -/
  | iAdd (c : Fin 36) (w : Word) (x : Option Word)
  /-- SUB (R123): SUB subtracts two G registers. -/
  | iSub (c : Fin 36) (w : Word) (x : Option Word)
  /-- AND_REG (R123): Integer AND of two G registers. -/
  | iAndReg (c : Fin 36) (w : Word) (x : Option Word)
  /-- OR_REG (R123): Integer OR of two G registers. -/
  | iOrReg (c : Fin 36) (w : Word) (x : Option Word)
  /-- XOR_REG (R123): Integer XOR of two G registers. -/
  | iXorReg (c : Fin 36) (w : Word) (x : Option Word)
  /-- ANDNG (R123): ANDNG ANDs ga with the inverse of gb. -/
  | iAndng (c : Fin 36) (w : Word) (x : Option Word)
  /-- SHL (R123): SHL shifts a G register left. -/
  | iShl (c : Fin 36) (w : Word) (x : Option Word)
  /-- SHR (R123): SHR shifts a G register right logically. -/
  | iShr (c : Fin 36) (w : Word) (x : Option Word)
  /-- SAR (R123): SAR shifts a G register right arithmetically. -/
  | iSar (c : Fin 36) (w : Word) (x : Option Word)
  /-- ROL (R123): ROL rotates a G register left. -/
  | iRol (c : Fin 36) (w : Word) (x : Option Word)
  /-- MUL (R123): MUL gives the low 64 bits of a product. -/
  | iMul (c : Fin 36) (w : Word) (x : Option Word)
  /-- MULHS (R123): MULHS gives the high 64 bits of the signed product. -/
  | iMulhs (c : Fin 36) (w : Word) (x : Option Word)
  /-- MULHU (R123): MULHU gives the high 64 bits of the unsigned product. -/
  | iMulhu (c : Fin 36) (w : Word) (x : Option Word)
  /-- DIV (R100): DIV divides signed under R100. -/
  | iDiv (c : Fin 36) (w : Word) (x : Option Word)
  /-- DIVU (R100): DIVU divides unsigned under R100. -/
  | iDivu (c : Fin 36) (w : Word) (x : Option Word)
  /-- REM (R123): REM gives the signed remainder. -/
  | iRem (c : Fin 36) (w : Word) (x : Option Word)
  /-- REMU (R123): REMU gives the unsigned remainder. -/
  | iRemu (c : Fin 36) (w : Word) (x : Option Word)
  /-- MIN (R123): MIN gives the signed minimum. -/
  | iMin (c : Fin 36) (w : Word) (x : Option Word)
  /-- MAX (R123): MAX gives the signed maximum. -/
  | iMax (c : Fin 36) (w : Word) (x : Option Word)
  /-- MINU (R123): MINU gives the unsigned minimum. -/
  | iMinu (c : Fin 36) (w : Word) (x : Option Word)
  /-- MAXU (R123): MAXU gives the unsigned maximum. -/
  | iMaxu (c : Fin 36) (w : Word) (x : Option Word)
  /-- CMP (R116): CMP sets the flags from ga compared with gb. -/
  | iCmp (c : Fin 36) (w : Word) (x : Option Word)
  /-- TST (R123): TST sets the flags from ga and gb. -/
  | iTst (c : Fin 36) (w : Word) (x : Option Word)
  /-- SEL (R123): SEL selects ga or gb by BA. -/
  | iSel (c : Fin 36) (w : Word) (x : Option Word)
  /-- MOV (R123): MOV copies a G register. -/
  | iMov (c : Fin 36) (w : Word) (x : Option Word)
  /-- NOT (R123): NOT inverts a G register. -/
  | iNot (c : Fin 36) (w : Word) (x : Option Word)
  /-- NEG (R123): NEG negates a G register. -/
  | iNeg (c : Fin 36) (w : Word) (x : Option Word)
  /-- SETC (R123): SETC writes 1 or 0 by a condition code. -/
  | iSetc (c : Fin 36) (w : Word) (x : Option Word)
  /-- ADDI (R124): ADDI adds a sign-extended immediate without changing flags. -/
  | iAddi (c : Fin 36) (w : Word) (x : Option Word)
  /-- LIH (R124): LIH replaces the high 32 bits of a register with an immediate. -/
  | iLih (c : Fin 36) (w : Word) (x : Option Word)
  /-- LB (R124): LB loads a sign-extended byte. -/
  | iLb (c : Fin 36) (w : Word) (x : Option Word)
  /-- LBU (R124): LBU loads a zero-extended byte. -/
  | iLbu (c : Fin 36) (w : Word) (x : Option Word)
  /-- LH (R124): LH loads a sign-extended halfword. -/
  | iLh (c : Fin 36) (w : Word) (x : Option Word)
  /-- LHU (R124): LHU loads a zero-extended halfword. -/
  | iLhu (c : Fin 36) (w : Word) (x : Option Word)
  /-- LW (R124): LW loads a sign-extended word. -/
  | iLw (c : Fin 36) (w : Word) (x : Option Word)
  /-- LWU (R124): LWU loads a zero-extended word. -/
  | iLwu (c : Fin 36) (w : Word) (x : Option Word)
  /-- LDW (R124): LDW loads 8 bytes. -/
  | iLdw (c : Fin 36) (w : Word) (x : Option Word)
  /-- SB (R124): SB stores a byte. -/
  | iSb (c : Fin 36) (w : Word) (x : Option Word)
  /-- SH (R124): SH stores a halfword. -/
  | iSh (c : Fin 36) (w : Word) (x : Option Word)
  /-- SW (R124): SW stores a word. -/
  | iSw (c : Fin 36) (w : Word) (x : Option Word)
  /-- SDW (R124): SDW stores 8 bytes. -/
  | iSdw (c : Fin 36) (w : Word) (x : Option Word)
  /-- FADD (R125): FADD adds two FP64 values. -/
  | iFadd (c : Fin 36) (w : Word) (x : Option Word)
  /-- FSUB (R125): FSUB subtracts two FP64 values. -/
  | iFsub (c : Fin 36) (w : Word) (x : Option Word)
  /-- FMUL (R125): FMUL multiplies two FP64 values. -/
  | iFmul (c : Fin 36) (w : Word) (x : Option Word)
  /-- FDIV (R125): FDIV divides two FP64 values. -/
  | iFdiv (c : Fin 36) (w : Word) (x : Option Word)
  /-- FSQRT (R125): FSQRT takes an FP64 square root. -/
  | iFsqrt (c : Fin 36) (w : Word) (x : Option Word)
  /-- FMIN (R125): FMIN gives the IEEE minimum. -/
  | iFmin (c : Fin 36) (w : Word) (x : Option Word)
  /-- FMAX (R125): FMAX gives the IEEE maximum. -/
  | iFmax (c : Fin 36) (w : Word) (x : Option Word)
  /-- FABS (R125): FABS clears the sign bit, passing NaNs bit for bit. -/
  | iFabs (c : Fin 36) (w : Word) (x : Option Word)
  /-- FNEG (R125): FNEG inverts the sign bit, passing NaNs bit for bit. -/
  | iFneg (c : Fin 36) (w : Word) (x : Option Word)
  /-- FMOV (R125): FMOV copies an F register bit for bit. -/
  | iFmov (c : Fin 36) (w : Word) (x : Option Word)
  /-- FCMP (R116): FCMP sets the flags from an FP64 comparison. -/
  | iFcmp (c : Fin 36) (w : Word) (x : Option Word)
  /-- FSEL (R125): FSEL selects fa or fb by BA. -/
  | iFsel (c : Fin 36) (w : Word) (x : Option Word)
  /-- FMADD (R125): FMADD computes fa × fb + fd with one rounding. -/
  | iFmadd (c : Fin 36) (w : Word) (x : Option Word)
  /-- FMSUB (R125): FMSUB computes fa × fb − fd. -/
  | iFmsub (c : Fin 36) (w : Word) (x : Option Word)
  /-- FNMADD (R125): FNMADD computes −(fa × fb) + fd. -/
  | iFnmadd (c : Fin 36) (w : Word) (x : Option Word)
  /-- FCVTI (R126): FCVTI converts FP64 to a signed integer. -/
  | iFcvti (c : Fin 36) (w : Word) (x : Option Word)
  /-- FCVTU (R126): FCVTU converts FP64 to an unsigned integer. -/
  | iFcvtu (c : Fin 36) (w : Word) (x : Option Word)
  /-- ICVTF (R125): ICVTF converts a signed integer to FP64. -/
  | iIcvtf (c : Fin 36) (w : Word) (x : Option Word)
  /-- UCVTF (R125): UCVTF converts an unsigned integer to FP64. -/
  | iUcvtf (c : Fin 36) (w : Word) (x : Option Word)
  /-- FMVG (R125): FMVG moves the bits of an F register to a G register. -/
  | iFmvg (c : Fin 36) (w : Word) (x : Option Word)
  /-- GMVF (R125): GMVF moves the bits of a G register to an F register. -/
  | iGmvf (c : Fin 36) (w : Word) (x : Option Word)
  /-- FCLASS (R126): FCLASS classifies an FP64 value and gives a NaN's payload. -/
  | iFclass (c : Fin 36) (w : Word) (x : Option Word)
  /-- FRND (R125): FRND rounds to an integral value in the current mode. -/
  | iFrnd (c : Fin 36) (w : Word) (x : Option Word)
  /-- FLD (R125): FLD loads 8 bytes into an F register. -/
  | iFld (c : Fin 36) (w : Word) (x : Option Word)
  /-- FST (R125): FST stores an F register. -/
  | iFst (c : Fin 36) (w : Word) (x : Option Word)
  /-- PLD (R127): PLD reads a point value into a G register. -/
  | iPld (c : Fin 36) (w : Word) (x : Option Word)
  /-- PLDF (R127): PLDF reads a point value into an F register as bits. -/
  | iPldf (c : Fin 36) (w : Word) (x : Option Word)
  /-- PLDS (R127): PLDS reads bytes 8–15 of a point record. -/
  | iPlds (c : Fin 36) (w : Word) (x : Option Word)
  /-- PLDT (R127): PLDT reads a point's time stamp. -/
  | iPldt (c : Fin 36) (w : Word) (x : Option Word)
  /-- PLDQ (R127): PLDQ reads a point's quality and flags without the QUALITY trap. -/
  | iPldq (c : Fin 36) (w : Word) (x : Option Word)
  /-- PLDB (R127): PLDB sets BA from whether a point value is nonzero. -/
  | iPldb (c : Fin 36) (w : Word) (x : Option Word)
  /-- PST (R127): PST posts a store of a G register to a point. -/
  | iPst (c : Fin 36) (w : Word) (x : Option Word)
  /-- PSTF (R127): PSTF posts a store of an F register to a point. -/
  | iPstf (c : Fin 36) (w : Word) (x : Option Word)
  /-- PSTB (R127): PSTB posts a store of BA to a point. -/
  | iPstb (c : Fin 36) (w : Word) (x : Option Word)
  /-- PCLRCHG (R128): PCLRCHG returns a point's CHG in BA and clears it. -/
  | iPclrchg (c : Fin 36) (w : Word) (x : Option Word)
  /-- PLWA (R129): PLWA reads a point value into WA. -/
  | iPlwa (c : Fin 36) (w : Word) (x : Option Word)
  /-- PSWA (R129): PSWA posts a store of WA to a point. -/
  | iPswa (c : Fin 36) (w : Word) (x : Option Word)
  /-- PLBA (R129): PLBA sets BA from a point value. -/
  | iPlba (c : Fin 36) (w : Word) (x : Option Word)
  /-- PSBA (R129): PSBA posts a store of BA to a point. -/
  | iPsba (c : Fin 36) (w : Word) (x : Option Word)
  /-- PLWB (R129): PLWB reads a point value into WB. -/
  | iPlwb (c : Fin 36) (w : Word) (x : Option Word)
  /-- PSWB (R129): PSWB posts a store of WB to a point. -/
  | iPswb (c : Fin 36) (w : Word) (x : Option Word)
  /-- PPLD (R93): PPLD loads a critical point's value and complement into a G pair with pair checks. -/
  | iPpld (c : Fin 36) (w : Word) (x : Option Word)
  /-- PPLDF (R93): PPLDF loads a critical point's pair into an F pair. -/
  | iPpldf (c : Fin 36) (w : Word) (x : Option Word)
  /-- PPST (R93): PPST checks a G pair and stores it to a critical point, waiting for the acknowledgement. -/
  | iPpst (c : Fin 36) (w : Word) (x : Option Word)
  /-- PPSTF (R93): PPSTF checks an F pair and stores it to a critical point, waiting for the acknowledgement. -/
  | iPpstf (c : Fin 36) (w : Word) (x : Option Word)
  /-- MPLD (R130): MPLD loads a checked pair from memory into G registers. -/
  | iMpld (c : Fin 36) (w : Word) (x : Option Word)
  /-- MPLDF (R130): MPLDF loads a checked pair from memory into F registers. -/
  | iMpldf (c : Fin 36) (w : Word) (x : Option Word)
  /-- MPST (R130): MPST checks a G pair and stores it to memory. -/
  | iMpst (c : Fin 36) (w : Word) (x : Option Word)
  /-- MPSTF (R130): MPSTF checks an F pair and stores it to memory. -/
  | iMpstf (c : Fin 36) (w : Word) (x : Option Word)
  /-- PMOV (R130): PMOV moves a checked G pair. -/
  | iPmov (c : Fin 36) (w : Word) (x : Option Word)
  /-- PMOVF (R130): PMOVF moves a checked F pair. -/
  | iPmovf (c : Fin 36) (w : Word) (x : Option Word)
  /-- PCPL (R94): PCPL forms the complement of a G register in its odd partner. -/
  | iPcpl (c : Fin 36) (w : Word) (x : Option Word)
  /-- PCPLF (R94): PCPLF forms the complement of an F register in its odd partner. -/
  | iPcplf (c : Fin 36) (w : Word) (x : Option Word)
  /-- PTST (R130): PTST tests a G pair into BA without trapping. -/
  | iPtst (c : Fin 36) (w : Word) (x : Option Word)
  /-- TON (R132): TON runs an on-delay timer slot driven by BA. -/
  | iTon (c : Fin 36) (w : Word) (x : Option Word)
  /-- TOF (R132): TOF runs an off-delay timer slot driven by BA. -/
  | iTof (c : Fin 36) (w : Word) (x : Option Word)
  /-- TP (R132): TP runs a pulse timer slot on a rising BA. -/
  | iTp (c : Fin 36) (w : Word) (x : Option Word)
  /-- TPRE (R131): TPRE sets a timer slot's preset. -/
  | iTpre (c : Fin 36) (w : Word) (x : Option Word)
  /-- TRD (R132): TRD reads a timer slot's elapsed time. -/
  | iTrd (c : Fin 36) (w : Word) (x : Option Word)
  /-- TRST (R131): TRST resets a timer slot's RUN, Q and previous input. -/
  | iTrst (c : Fin 36) (w : Word) (x : Option Word)
  /-- TSTAT (R131): TSTAT reads a timer slot's mode, RUN and Q. -/
  | iTstat (c : Fin 36) (w : Word) (x : Option Word)
  /-- EDGR (R133): EDGR detects a rising edge of BA against a DATA bit. -/
  | iEdgr (c : Fin 36) (w : Word) (x : Option Word)
  /-- EDGF (R133): EDGF detects a falling edge of BA against a DATA bit. -/
  | iEdgf (c : Fin 36) (w : Word) (x : Option Word)
  /-- EDGB (R133): EDGB detects either edge of BA against a DATA bit. -/
  | iEdgb (c : Fin 36) (w : Word) (x : Option Word)
  /-- CSRR (R135): CSRR reads a control-space word into a G register. -/
  | iCsrr (c : Fin 36) (w : Word) (x : Option Word)
  /-- CSRW (R135): CSRW writes a G register to a control-space word. -/
  | iCsrw (c : Fin 36) (w : Word) (x : Option Word)
  /-- MFS (R135): MFS reads a special register. -/
  | iMfs (c : Fin 36) (w : Word) (x : Option Word)
  /-- MTS (R135): MTS writes a special register. -/
  | iMts (c : Fin 36) (w : Word) (x : Option Word)
  /-- END (R136): END waits for posted stores and ends the cycle or program, handing off the output image at TASK level. -/
  | iEnd (c : Fin 36) (w : Word) (x : Option Word)
  /-- SKIP (R105): Handler ending SKIP resumes after the trapping instruction. -/
  | iSkip (c : Fin 36) (w : Word) (x : Option Word)
  /-- RETRY (R105): Handler ending RETRY re-executes the trapping instruction with its check suppressed. -/
  | iRetry (c : Fin 36) (w : Word) (x : Option Word)
  /-- ABANDON (R106): Handler ending ABANDON abandons the cycle. -/
  | iAbandon (c : Fin 36) (w : Word) (x : Option Word)
  /-- FENCE (R136): FENCE waits until every posted store of the core is acknowledged. -/
  | iFence (c : Fin 36) (w : Word) (x : Option Word)
  /-- NOP (R136): NOP does nothing. -/
  | iNop (c : Fin 36) (w : Word) (x : Option Word)
  /-- TASK_RELEASE (R140): At a grid instant a task is released and its snapshot starts, or the instant counts as a missed release. -/
  | taskRelease (t : Fin 256)
  /-- SNAPSHOT_DONE (R146): The image unit completes a task's input snapshot and the task becomes ready. -/
  | snapshotDone (t : Fin 256)
  /-- TASK_DISPATCH (R142): A core takes the highest-priority ready task, preempting a lower-priority one at an instruction boundary. -/
  | taskDispatch (c : Fin 32)
  /-- HANDOFF_DONE (R147): The image unit completes a task's output hand-off, offering its module groups to the transaction engine. -/
  | handoffDone (t : Fin 256)
  /-- SCAN_START (R155): Task command START moves a STOPPED task to IDLE. -/
  | scanStart (t : Fin 256)
  /-- SCAN_STOP (R155): Task command STOP stops a task at its next boundary. -/
  | scanStop (t : Fin 256)
  /-- RESET_FAULT (R155): Task command RESET_FAULT moves a FAULTED task to STOPPED and clears its run counts. -/
  | resetFault (t : Fin 256)
  /-- SCAN_TS_MAX_CLEAR (R461): A write of 0 to SCAN_TS_MAX clears it and other writes are ignored. -/
  | scanTsMaxClear (t : Fin 256) (v : Word)
  /-- OUTPUT_LIFETIME_EXPIRY (R306): The output lifetime of a held group ends and its outputs are discarded with STATION_LOST. -/
  | outputLifetimeExpiry (n : BitVec 18) (group : Nat)
  /-- COL_SWAP_SWITCH (R164): At an affected task's boundary its image is switched and its instances carried over. -/
  | colSwapSwitch (t : Fin 256)
  /-- STANDBY_SWAP_VERDICT (R170): The standby's verdict on a forwarded col swap set arrives and passes or fails reason 10. -/
  | standbySwapVerdict (pass : Bool)
  /-- SWAP_VERDICT_TIMEOUT (R170): No standby verdict within 100 ms fails the col swap commit under reason 10. -/
  | swapVerdictTimeout
  /-- CADENCE_TICK (R187): A planner cadence tick launches a round or is skipped with ROUND_SKIPPED. -/
  | cadenceTick
  /-- LAUNCH (R187): PLAN_CMD LAUNCH launches a planning round. -/
  | launch
  /-- CANCEL (R187): PLAN_CMD CANCEL ends a running round with CANCELLED_DISABLE. -/
  | cancel
  /-- UCALL_PLAN_LAUNCH (R187): UCALL to the planner with function 1 launches a round. -/
  | ucallPlanLaunch (c : Fin 36) (w : Word) (x : Option Word)
  /-- UCALL_PLAN_CANCEL (R187): UCALL to the planner with function 2 cancels a running round. -/
  | ucallPlanCancel (c : Fin 36) (w : Word) (x : Option Word)
  /-- ASSEMBLY_DONE (R188): The model assembler finishes reading bound points and building the problem, or ends the round. -/
  | assemblyDone
  /-- SYMBOLIC_ANALYSIS_DONE (R200): The symbolic analysis of a changed structure completes and STRUCTURE_CHANGED is posted. -/
  | symbolicAnalysisDone
  /-- SOLVER_ITERATION (R202): An interior-point iteration completes with factorization, step and residuals, testing convergence, faults and infeasibility. -/
  | solverIteration
  /-- ROUND_DEADLINE (R209): A round's deadline is reached and the solver stops, offering an iterate or nothing. -/
  | roundDeadline (factoring : Bool)
  /-- PLAN_EXPIRED (R192): The plan of record passes the end of its horizon and PLAN_EXPIRED is posted. -/
  | planExpired
  /-- SCRATCH_ECC_ERROR (R197): A double-bit scratch error ends the round with CHECK_FAILED and END HARDWARE. -/
  | scratchEccError
  /-- TIE_MESSAGE (R214): A tie message from a partner is received and checked for validity. -/
  | tieMessage (f : RxFrame)
  /-- COORD_WAIT_EXPIRY (R213): The coordination wait ends, freezing ties without valid answers and taking the next coordination step. -/
  | coordWaitExpiry
  /-- GOVERNOR_EVALUATION (R224): Every 1 ms the governor reads temperature, power and supply, refills the bucket and revokes or admits jobs. -/
  | governorEvaluation (t : BitVec 10) (mw : BitVec 17)
  /-- THERMAL_TRIP (R228): At 110 °C the keeper removes PD2 to PD15 at once and the device enters HOLD. -/
  | thermalTrip
  /-- TARGET_CHANGE_DONE (R220): A state change completes and any held target write is carried out. -/
  | targetChangeDone
  /-- DOMAIN_READY (R221): A switched domain reports ready and the keeper begins the next switch-on. -/
  | domainReady (d : Fin 16)
  /-- DOMAIN_IDLE_GATE (R223): A gated domain idle for IDLE_MS is switched off. -/
  | domainIdleGate (d : Fin 16)
  /-- SCAN_CLOCK_RELOCK (R229): A scan cluster's PLL relocks after a clock change and its cores resume. -/
  | scanClockRelock (k : Fin 2)
  /-- VCORE_SETTLE (R230): A VDD_CORE step settles and the waiting clock change or quadrant switch-on proceeds. -/
  | vcoreSettle
  /-- UCALL_RIDGE_SUBMIT (R231): UCALL SUBMIT asks the governor to admit a class 4 or class 8 job. -/
  | ucallRidgeSubmit (c : Fin 36) (w : Word) (x : Option Word)
  /-- UCALL_RIDGE_RELEASE (R231): UCALL RELEASE ends the oldest admitted job of a class from the calling core. -/
  | ucallRidgeRelease (c : Fin 36) (w : Word) (x : Option Word)
  /-- JOB_RELEASE_TIMEOUT (R231): A service job not released within 60 s is ended and settled and JOB_CANCELLED is posted. -/
  | jobReleaseTimeout (c : Fin 36) (cls : Fin 16)
  /-- WAKE_PIN (R220): A falling edge on WAKE_N in HOLD starts PD2. -/
  | wakePin
  /-- DAY_START (R237): At a zone's day start the photoperiods of three days are computed and received-today restarts. -/
  | dayStart (z : Fin 8192)
  /-- ZONE_EVALUATION (R239): An automatic zone is evaluated and issues group frames when its levels change. -/
  | zoneEvaluation (z : Fin 8192)
  /-- LAMP_SUBMIT (R241): LAMP_SUB_CMD GO submits a frame, checked in order and accepted with a handle. -/
  | lampSubmit (mask : Byte) (curve : BitVec 2)
  /-- UCALL_LAMP_SUBMIT (R241): UCALL to the lighting engine with function 1 submits a frame. -/
  | ucallLampSubmit (c : Fin 36) (w : Word) (x : Option Word)
  /-- FRAME_COMMIT (R242): Accepted frames are staged and committed on channel 2 at most once per millisecond. -/
  | frameCommit
  /-- FRAME_RETRY (R245): Members not yet acknowledged are sent the frame again every 10 % of the remaining lead. -/
  | frameRetry (h : Word)
  /-- LATE_WINDOW_EXPIRY (R245): At the end of the late window unacknowledged fixtures count as MISSED and LATCH_MISSED is posted. -/
  | lateWindowExpiry (h : Word)
  /-- ACK (R245): A station's ACK for a frame is received and updates the model, late and missed counts. -/
  | ack (f : RxFrame)
  /-- REPORT (R251): A fixture REPORT is placed into the report ring. -/
  | report (f : RxFrame)
  /-- REPORT_PROCESS (R251): The engine processes queued reports, updating the model, derate factors and virtual meters. -/
  | reportProcess
  /-- FIXTURE_SILENT (R250): A fixture with no report for 3 report periods becomes SILENT in the model. -/
  | fixtureSilent (a : BitVec 22)
  /-- FW_GO (R252): LAMP_FW_CTL GO starts a firmware campaign. -/
  | fwGo (key : Byte) (group : BitVec 18)
  /-- FW_ABORT (R253): LAMP_FW_CTL ABORT stops a firmware campaign with CANCELLED_DISABLE. -/
  | fwAbort
  /-- FW_BURST_RETRY (R252): A refused FW_BURST job is tried again after 10 s. -/
  | fwBurstRetry
  /-- FW_MISSING (R252): A station's FW_MISSING bitmap is received for the resend rounds. -/
  | fwMissing (f : RxFrame)
  /-- FW_CAMPAIGN_STEP (R252): A campaign phase completes and the next of verify, offer, send, query, resend or activate begins. -/
  | fwCampaignStep
  /-- LOOP_SAMPLE (R262): At a grid instant a loop reads PV and setpoint, computes its PID law and writes its output. -/
  | loopSample (n : Fin 512)
  /-- LOOP_SWAP_GO (R268): LOOP_SWAP_CMD GO stages the edit copies of the named loops and commits a bank swap on channel 3. -/
  | loopSwapGo (at_ : Bool)
  /-- BANK_SINGLE_WRITE (R269): A write to a loop's active bank applies alone with SINGLE set or is discarded without it. -/
  | bankSingleWrite (r : Req) (n : Fin 512) (w : Fin 288) (v : Word)
  /-- LOOP_MODE_WRITE (R265): A write of LOOP_L_CTL.MODE selects AUTO or MANUAL and clears any latch. -/
  | loopModeWrite (n : Fin 512) (manual : Bool)
  /-- LOOP_RESET (R266): LOOP_L_CTL RESET clears a FOLLOW latch and restarts the loop bumplessly. -/
  | loopReset (n : Fin 512)
  /-- TEST_GO (R270): LOOP_TG_CTL GO starts a test generator on a loop. -/
  | testGo (g : Fin 4)
  /-- TEST_ABORT (R270): LOOP_TG_CTL ABORT ends a running test with SUPERSEDED. -/
  | testAbort (g : Fin 4)
  /-- CAPTURE_ARM (R272): LOOP_CAP_CTL ARM starts a capture waiting for its trigger. -/
  | captureArm
  /-- CAPTURE_STOP (R272): LOOP_CAP_CTL STOP ends the capture as DONE. -/
  | captureStop
  /-- MOD_FAULT (R276): A bitstream holding 1,024 equal bits is stuck, its channel faults and MOD_FAULT is posted. -/
  | modFault (c : Fin 64)
  /-- RMS_WINDOW_END (R279): An RMS window closes at a zero crossing and gives RMS values and frequency. -/
  | rmsWindowEnd (p : Fin 14) (rms : List DWord) (pqs : List DWord) (freq : Option DWord)
  /-- HALF_CYCLE_REFRESH (R282): The half-cycle RMS values refresh and dips, swells and interruptions start or end. -/
  | halfCycleRefresh (p : Fin 10) (v : List DWord)
  /-- PULSE_EDGE (R283): A debounced rising edge on a pulse input counts one pulse and checks chatter. -/
  | pulseEdge (p : Fin 32) (level : Bool) (t : DWord)
  /-- RESIDUE_UPDATE (R292): Every 1 ms the DSP updates the OPEN residue slots with the interval's whole LSB. -/
  | residueUpdate (l : List Energy) (ovr : List Nat)
  /-- INTERVAL_CLOSE (R288): An accumulation interval closes, energies are converted to LSB and the residue banks swap. -/
  | intervalClose (l : List Energy) (peaks : List (Nat × Nat))
  /-- TOTAL_FOLD (R289): The keeper folds an interval's counts into the FRAM totals and writes the total points. -/
  | totalFold
  /-- FLUSH_RECOVERY (R293): At the first start of PD12 the fold engine folds the flush record or marks the interval lost. -/
  | flushRecovery
  /-- LOST_MARKER_CLEAR (R293): A write of 0 to METER_LOST_CNT clears the lost-interval marker. -/
  | lostMarkerClear (v : Word)
  /-- IO_REPORT (R304): An IO_REPORT is landed as one group write of FIELD writes. -/
  | ioReport (f : RxFrame)
  /-- IO_ACK (R300): An IO_ACK completes its OUTPUT transaction. -/
  | ioAck (f : RxFrame)
  /-- HELLO (R301): A HELLO from a station clears its inbound sequence numbers. -/
  | hello (f : RxFrame)
  /-- QUENCH_ACK (R310): A QUENCH_ACK completes its QUENCH transaction. -/
  | quenchAck (f : RxFrame)
  /-- LG_READ (R35): An LG_READ from another device is answered with the record in an LG_RESP. -/
  | lgRead (f : RxFrame)
  /-- LG_WRITE (R304): An LG_WRITE is applied as a HOST write and answered with LG_RESP. -/
  | lgWrite (f : RxFrame)
  /-- LG_RESP (R300): An LG_RESP completes its league transaction. -/
  | lgResp (f : RxFrame)
  /-- LG_SUBSCRIBE (R304): An LG_SUBSCRIBE creates or renews a subscription and is answered with LG_UPDATE. -/
  | lgSubscribe (f : RxFrame)
  /-- LG_UPDATE (R304): An LG_UPDATE refreshes a mirror point. -/
  | lgUpdate (f : RxFrame)
  /-- LG_ANNOUNCE (R327): A received LG_ANNOUNCE updates the league neighbour's state. -/
  | lgAnnounce (f : RxFrame)
  /-- TIME_BEACON (R303): A received TIME_BEACON is dropped, its sequence number noted by a standby. -/
  | timeBeacon (f : RxFrame)
  /-- UNKNOWN_FRAME_TYPE (R303): A frame of unknown type is discarded and counted in TXN_CLASS_MIS_CNT. -/
  | unknownFrameType (type : Byte)
  /-- TXN_SEND (R309): A queued transaction is sent once its credit window and an entry are free. -/
  | txnSend
  /-- TXN_TIMEOUT (R299): A response timeout retransmits the request or completes it with TIMEOUT. -/
  | txnTimeout (n : BitVec 18) (seq : Word)
  /-- TXN_DEADLINE (R300): A transaction's deadline passes and it completes with DEADLINE. -/
  | txnDeadline (n : BitVec 18)
  /-- STATION_DOWN (R302): A station silent for its loss time becomes DOWN. -/
  | stationDown (n : BitVec 18)
  /-- SUBSCRIBE_REFRESH (R304): Each refresh period the engine sends LG_SUBSCRIBE for a MIRROR route. -/
  | subscribeRefresh (route : BitVec 22)
  /-- SUBSCRIPTION_EXPIRY (R304): A subscription not renewed within three refresh periods is dropped. -/
  | subscriptionExpiry
  /-- QUENCH_GO (R310): TXN_Q_CMD GO issues a QUENCH. -/
  | quenchGo (ack : Bool)
  /-- UCALL_QUENCH (R310): UCALL to the transaction engine with function 1 issues a QUENCH. -/
  | ucallQuench (c : Fin 36) (w : Word) (x : Option Word)
  /-- QUENCH_END (R312): An automatic quench's until instant passes and the station's BABBLE clears. -/
  | quenchEnd (n : BitVec 18)
  /-- PFC_REPEAT (R308): Every 0.5 ms an asserted PFC pause is sent again. -/
  | pfcRepeat (k : Fin 6) (deep : Nat)
  /-- PFC_FRAME (R308): A received PFC frame pauses the uplink's egress of classes 0 to 5. -/
  | pfcFrame (u : Fin 4) (vec : Byte) (quanta : List Nat)
  /-- PAUSE_FRAME (R321): A received 802.3x pause frame is discarded and counted. -/
  | pauseFrame (u : Fin 4)
  /-- ANNOUNCE (R319): A PTP Announce is received and may qualify and select a master. -/
  | announce (a : PtpAnnounce)
  /-- SYNC (R320): A PTP Sync gives an offset that steps or slews league time and updates LOCKED. -/
  | sync (u : Fin 4) (ident : DWord) (sec : Nat) (ns : Nat) (rx : Nat)
  /-- ANNOUNCE_TIMEOUT (R319): The selected master is lost and MASTER_CHANGE is posted. -/
  | announceTimeout
  /-- HOLDOVER_EXPIRY (R315): In SLAVE with no master for UPL_TIME_HOLD, league time becomes untrusted. -/
  | holdoverExpiry
  /-- TIME_SET (R317): A write of UPL_TIME_SET_HI steps league time or is refused. -/
  | timeSet (r : Req) (v : Word)
  /-- LEAGUE_ANNOUNCE_SEND (R327): Every 1 s the device sends LG_ANNOUNCE to each LEAGUE neighbour. -/
  | leagueAnnounceSend
  /-- PEER_LOST (R327): A MEMBER neighbour with no announce for 3 s becomes LOST. -/
  | peerLost (p : Fin 4096)
  /-- ARP_REQUEST (R322): An ARP request for an uplink address is answered. -/
  | arpRequest (u : Fin 4) (tags : List Nat) (addr : Word)
  /-- NEIGHBOR_SOLICITATION (R322): An IPv6 neighbour solicitation is answered. -/
  | neighborSolicitation (u : Fin 4) (tags : List Nat) (addr : BitVec 128)
  /-- ECHO_REQUEST (R322): An ICMP or ICMPv6 echo request is answered. -/
  | echoRequest (u : Fin 4) (tags : List Nat) (v6 : Bool) (addr : BitVec 128) (src : BitVec 128) (body : List Byte)
  /-- NEIGHBOR_RESOLVE_RETRY (R325): Unresolved link-layer addresses are requested again every 1 s. -/
  | neighborResolveRetry (answered : List (Fin 4096))
  /-- LINK_STATE (R325): A port's link goes up or down and frames move between primary and alternate uplinks. -/
  | linkState (port : Byte) (up : Bool) (speed : Fin 8) (width : Fin 8)
  /-- PCIE_LINK_DOWN (R329): A PCIe link-down releases the host's latches and pending pair writes. -/
  | pcieLinkDown
  /-- PCIE_RESET (R485): PERST_N low holds the PCIe port in reset. -/
  | pcieReset (low : Bool)
  /-- UART_READ (R330): A UART READ request reads a control-space word and answers it. -/
  | uartRead (a : Word)
  /-- UART_WRITE (R330): A UART WRITE request writes a control-space word and answers it. -/
  | uartWrite (a : Word) (v : Word)
  /-- UART_IDLE_RESET (R330): A line idle for 2 ms resets the UART receiver to byte 0. -/
  | uartIdleReset
  /-- PLCA_CYCLE (R334): The device sends the BEACON that opens a PLCA cycle and its own burst in its opportunity. -/
  | plcaCycle (g : Fin 16) (rx : List Nat)
  /-- TIME_BEACON_SEND (R336): A port sends a Mirfor time beacon with the league time inserted as it leaves. -/
  | timeBeaconSend (code : Byte)
  /-- PLC_BEACON_SEND (R342): A G3-PLC interface sends its beacon and uses the command window. -/
  | plcBeaconSend (i : Fin 8)
  /-- PLC_JOIN (R339): A station's join is admitted or refused and PLC_JOIN is posted. -/
  | plcJoin (i : Fin 8) (eui : DWord) (pass : Bool) (hop : Half)
  /-- COORD_CONFLICT (R346): A foreign BEACON quarantines the segment. -/
  | coordConflict (g : Fin 16)
  /-- RX_JABBER (R346): Carrier for more than 2.5 ms discards the frame and counts. -/
  | rxJabber (g : Fin 16)
  /-- LOCAL_COLLISION (R346): A collision in the device's opportunity resends the frame next cycle. -/
  | localCollision (g : Fin 16) (k : Fin 4)
  /-- SEGMENT_SILENT (R346): No station frame for SILENT ms sets SILENT. -/
  | segmentSilent (g : Fin 16)
  /-- AFE_FAULT (R346): PLC_FLT_N low stops the interface transmitting until 100 ms after release. -/
  | afeFault (i : Fin 8)
  /-- PAN_CONFLICT (R346): A frame of another coordinator with the same PAN ID sets PAN_CONF. -/
  | panConflict (i : Fin 8)
  /-- QCLR (R346): A write of QCLR lifts a segment quarantine and restarts the port. -/
  | qclr (g : Fin 16)
  /-- PORT_LISTEN_END (R347): A starting field port ends its listen and opens as coordinator. -/
  | portListenEnd (code : Byte)
  /-- CAN_FRAME_RECEIVE (R360): A received software frame is stored in the lowest matching receive buffer. -/
  | canFrameReceive (n : Fin 32) (f : CanFrame)
  /-- CAN_SEGMENT_RECEIVE (R357): A Mirfor segment is reassembled and a complete frame handed to the transaction engine. -/
  | canSegmentReceive (n : Fin 32) (f : CanFrame) (occ : Nat) (deep : Nat)
  /-- REASSEMBLY_TIMEOUT (R357): A reassembly not completed within 200 ms is discarded. -/
  | reassemblyTimeout (n : Fin 32)
  /-- TXB_REQ (R359): REQ on a transmit buffer checks it and makes it PENDING. -/
  | txbReq (n : Fin 32) (b : Fin 3)
  /-- TXB_ABORT (R359): ABORT on a transmit buffer ends it with SUPERSEDED and ABORTED. -/
  | txbAbort (n : Fin 32) (b : Fin 3)
  /-- CAN_TX_COMPLETE (R358): A frame on the bus ends by success, lost arbitration or error and the next frame is chosen. -/
  | canTxComplete (n : Fin 32) (how : Fin 3)
  /-- CAN_BUS_ERROR (R362): A bus error updates TEC and REC and may post ERROR_WARNING or ERROR_PASSIVE. -/
  | canBusError (n : Fin 32) (code : Fin 7) (data : Bool) (how : Fin 4)
  /-- RECOVER (R363): CAN_CMD RECOVER starts bus-off recovery. -/
  | recover (n : Fin 32)
  /-- BUS_RECOVERED (R363): After 128 occurrences of 11 recessive bits the channel is error-active again. -/
  | busRecovered (n : Fin 32)
  /-- CTRL_FRAME (R369): A saddle CTRL frame with HELLO, role, health or handover is received. -/
  | ctrlFrame (m : SadCtrl)
  /-- PAIRING_RETRY (R369): Pairing is tried again every 1 s. -/
  | pairingRetry
  /-- PAIRING_TIMEOUT (R370): A PREF 0 device unpaired 5 s after boot becomes ACTIVE UNPAIRED or STANDBY DETACHED. -/
  | pairingTimeout (hb : Bool)
  /-- TIME_FRAME (R380): A TIME stream frame disciplines the standby's league time. -/
  | timeFrame (t : DWord) (trusted : Bool) (locked : Bool) (utc : Word) (rtt : Nat)
  /-- COMMIT_FRAME (R376): A replicated commit set or apply notice is received by the standby. -/
  | commitFrame (k : Fin 4) (m : SadCommit)
  /-- FRAME_FRAME (R381): A class 7 frame in the FRAME stream is sent once by the standby. -/
  | frameFrame (f : MFrame)
  /-- IMAGE_FRAME (R377): A task's input image arrives at the standby. -/
  | imageFrame (m : SadImage)
  /-- DELTA_FRAME (R377): A cycle delta arrives at the standby. -/
  | deltaFrame (m : SadDelta)
  /-- LOOP_FRAME (R379): A LOOP record is recomputed by the standby and compared bit for bit. -/
  | loopFrame (m : LoopRec)
  /-- POINT_FRAME (R374): A POINT stream record is applied to the standby's store unchanged. -/
  | pointFrame (i : BitVec 25) (r : PointRec)
  /-- PAN_FRAME (R345): PAN state is copied to the standby's G3-PLC interface. -/
  | panFrame (i : Fin 8) (joined : List (DWord × Nat)) (routes : List (Nat × Nat)) (seq : Word) (gmk : List Byte)
  /-- BULK_FRAME (R388): A resynchronisation copy frame is applied by the standby. -/
  | bulkFrame (m : SadBulk)
  /-- ECHO_EXECUTION (R377): With image and delta present the standby echoes a cycle, compares it and sends second copies. -/
  | echoExecution (t : Fin 256)
  /-- LANE_DOWN (R372): A lane with no valid frame for 100 µs is down and LINK_LANE is posted. -/
  | laneDown (lane : Fin 2)
  /-- BACKLOG (R373): Excess link backlog loses synchronisation and the standby resynchronises. -/
  | backlog (kib : Nat) (late : Bool)
  /-- HEARTBEAT_LOSS (R371): SDL_HB_IN shows no edge for 20 µs and the heartbeat is absent. -/
  | heartbeatLoss
  /-- TAKEOVER (R385): After link silence for TMO with the heartbeat absent, a fit standby takes over as active. -/
  | takeover (hb : Bool)
  /-- SWITCH (R386): SADL_CMD SWITCH schedules a role exchange at the next whole millisecond at least 2 ms ahead. -/
  | switch
  /-- SWITCH_INSTANT (R386): At instant T the roles and field roles exchange. -/
  | switchInstant
  /-- TAKE (R387): SADL_CMD TAKE makes the device ACTIVE UNPAIRED. -/
  | take (hb : Bool)
  /-- LEAVE (R387): SADL_CMD LEAVE detaches a standby or ends the pairing of an active. -/
  | leave
  /-- RESYNC (R387): SADL_CMD RESYNC starts resynchronisation of a detached or suspect standby. -/
  | resync
  /-- RESYNC_DONE (R388): The BULK copy ends and the standby becomes SYNCED at each task's next boundary. -/
  | resyncDone
  /-- HEALTH_REPORT (R383): Every 100 ms the standby sends its health report and the active records it. -/
  | healthReport (ecc : Bool)
  /-- SELF_TEST (R383): The standby runs a logic self-test of a scan core. -/
  | selfTest (pass : Bool)
  /-- GUARD_EVALUATION (R392): Every 1 ms the guard die evaluates permits, requests, resets and faults and drives each output. -/
  | guardEvaluation (samples : List (BitVec 16 × BitVec 16)) (rb : Byte)
  /-- DISCREPANCY_TIMEOUT (R398): A discrepancy lasting its time latches FAULT on an input. -/
  | discrepancyTimeout (i : Fin 16)
  /-- CORE_LINK_FRAME (R401): Every 1 ms the safety core evaluates the table and sends a link frame. -/
  | coreLinkFrame
  /-- LINK_FRAME_RECEIVE (R402): The guard die receives a link frame and checks its CRC and sequence. -/
  | linkFrameReceive (permits : Byte) (requests : Byte) (seq : Word) (ok : Bool)
  /-- GUARD_LINK_TIMEOUT (R402): No valid link frame for 5 ms sets all core permits to 0 and latches LINK. -/
  | guardLinkTimeout
  /-- LOCKSTEP_MISMATCH (R402): A lockstep mismatch halts the safety core and LOCKSTEP_FAULT is latched. -/
  | lockstepMismatch
  /-- DISAGREE_TIMEOUT (R401): Die and core permits that differ for 20 ms latch DISAGREE. -/
  | disagreeTimeout (o : Fin 8)
  /-- OFF_PULSE (R403): A TEST output is switched off for its pulse width and its readback checked. -/
  | offPulse (o : Fin 8) (ok : Bool)
  /-- READBACK_FAULT (R403): A readback held wrong for more than 1 ms latches a fault and switches the output off. -/
  | readbackFault (o : Fin 8)
  /-- TABLE_STATE (R396): The guard die locks or refuses the table and TABLE_STATE is posted. -/
  | tableState (agree : Bool)
  /-- GUARD_SUPPLY_RETURN (R475): VDD_GUARD returns and the guard die is held in guard reset until the next start of PD2. -/
  | guardSupplyReturn
  /-- KEEPER_SUPPLY_SWITCH (R409): The keeper switches between VMAIN_KEEP and VBAT on its thresholds. -/
  | keeperSupplySwitch (mv : Nat) (held : Bool)
  /-- VBAT_MEASURE (R409): The keeper measures VBAT and sets or clears VBAT_LOW. -/
  | vbatMeasure (v : BitVec 9)
  /-- BACKUP_LOSS_LATCH (R410): VKEEP below 1.60 V for more than 2 µs sets the backup-loss latch. -/
  | backupLossLatch
  /-- MAIN_SUPPLY_VALID (R413): The main supply has been valid for 20 ms and the regulator sequence starts. -/
  | mainSupplyValid
  /-- REG_SEQUENCE_STEP (R473): A REG_PG high for 0.6 ms lets the keeper raise the next enable or OSC_EN. -/
  | regSequenceStep
  /-- REG_PG_TIMEOUT (R473): A REG_PG not high within 10 ms aborts the sequence in reverse and retries after 1 s. -/
  | regPgTimeout
  /-- PD2_START (R411): PD2 starts, retention sentinels and FRAM records are checked and league time is seeded. -/
  | pd2Start
  /-- POWER_FAIL_WARNING (R414): PF_SENSE below 1.000 V starts the flush, the shutdown record and the isolation of PD2 to PD15. -/
  | powerFailWarning
  /-- REG_PG_FAIL (R474): A REG_PG falling for more than 2 µs while PD2 is on acts as a power-fail warning. -/
  | regPgFail
  /-- PANEL_LINE_BOUNDARY (R452): The panel reports its line boundary and PD15 is isolated. -/
  | panelLineBoundary
  /-- RTC_SET (R416): A write of KEEP_RTC_SET_DATE sets the RTC from both set words or is discarded as invalid. -/
  | rtcSet (r : Req) (v : Word)
  /-- OSC_STOP (R417): The crystal makes no edge for 250 µs and OSF sets. -/
  | oscStop
  /-- RTC_COMPENSATE (R418): The keeper measures its temperature and adjusts the crystal correction. -/
  | rtcCompensate (t : BitVec 8)
  /-- RTC_FOLLOW (R419): The keeper sets the RTC from trusted league time. -/
  | rtcFollow
  /-- TSCAP_GO (R420): KEEP_TSCAP_CMD GO captures RTC and league time on the next keeper edge. -/
  | tscapGo
  /-- DST_CHANGE (R421): A daylight-saving transition is reached and DST_CHANGE is posted. -/
  | dstChange
  /-- ALARM (R423): An alarm occurrence fires at a second boundary, posting ALARM and possibly waking from HOLD. -/
  | alarm (a : Fin 32)
  /-- ALARM_WRITE (R423): A write to an alarm's CTL or TIME recomputes its next occurrence. -/
  | alarmWrite (a : Fin 32) (time : Bool) (v : Word)
  /-- VAULT_SUBMIT (R434): A write of VAULT_SUB_HI submits a request descriptor to the vault queue. -/
  | vaultSubmit (r : Req) (v : Word)
  /-- UCALL_VAULT_SUBMIT (R434): UCALL to the vault with function 1 submits a request descriptor. -/
  | ucallVaultSubmit (c : Fin 36) (w : Word) (x : Option Word)
  /-- GCM_ENC (R435): Vault operation GCM_ENC encrypts with AES-GCM. -/
  | vaultGcmEnc
  /-- GCM_DEC (R435): Vault operation GCM_DEC decrypts with AES-GCM and checks the tag. -/
  | vaultGcmDec
  /-- CTR (R435): Vault operation CTR runs AES-CTR. -/
  | vaultCtr
  /-- MAC (R435): Vault operation MAC computes a CMAC or HMAC. -/
  | vaultMac
  /-- MAC_CHECK (R435): Vault operation MAC_CHECK verifies a MAC. -/
  | vaultMacCheck
  /-- HASH (R434): Vault operation HASH computes SHA-256 or SHA-384. -/
  | vaultHash
  /-- SIGN (R435): Vault operation SIGN signs a digest with ECDSA. -/
  | vaultSign
  /-- VERIFY (R435): Vault operation VERIFY checks an ECDSA signature. -/
  | vaultVerify
  /-- HKDF (R434): Vault operation HKDF derives a key into a slot. -/
  | vaultHkdf
  /-- KDF108 (R434): Vault operation KDF108 derives a key into a slot. -/
  | vaultKdf108
  /-- WRAP (R435): Vault operation WRAP exports a key as a blob. -/
  | vaultWrap
  /-- UNWRAP (R435): Vault operation UNWRAP installs a key from a blob. -/
  | vaultUnwrap
  /-- GENERATE (R434): Vault operation GENERATE creates a random key in a slot. -/
  | vaultGenerate (healthy : Bool)
  /-- CLEAR (R435): Vault operation CLEAR empties a slot. -/
  | vaultClear
  /-- RANDOM (R434): Vault operation RANDOM returns random bytes. -/
  | vaultRandom (healthy : Bool)
  /-- PUBKEY (R435): Vault operation PUBKEY returns a slot's public key. -/
  | vaultPubkey
  /-- ATTEST (R440): Vault operation ATTEST returns an HMAC over nonce, identity, state word and generation. -/
  | vaultAttest
  /-- VRESET (R433): VAULT_CTL VRESET empties every EXPIRE slot after the running request. -/
  | vreset
  /-- REMASK (R443): Every REMASK seconds the vault rewrites all key cells under a new mask. -/
  | remask
  /-- OTP_PROGRAM (R428): VAULT_OTP_CMD GO programs a one-time field. -/
  | otpProgram (r : Req) (f : Fin 8)
  /-- OTP_PROGRAMMED (R428): One-time programming completes and OTP_PROGRAMMED is posted. -/
  | otpProgrammed
  /-- DEBUG_CHAL (R441): VAULT_DBG_CMD CHAL draws a new debug nonce. -/
  | debugChal (r : Req)
  /-- DEBUG_OPEN (R441): VAULT_DBG_CMD OPEN checks the response and grants a pending debug enable. -/
  | debugOpen (r : Req)
  /-- DEBUG_CLOSE (R442): VAULT_DBG_CMD CLOSE sets a pending debug disable. -/
  | debugClose
  /-- PANEL_UPDATE (R448): PANEL_CMD UPDATE submits an image, starting a pass or held as pending. -/
  | panelUpdate (w : Word)
  /-- PANEL_LINE (R449): A panel line completes, the integrity record is written and the next line or pass begins. -/
  | panelLine
  /-- PANEL_CRACK (R454): The crack loop shows no edge for 10 ms, CRACK sets and the pass ends. -/
  | panelCrack
  /-- MARK_CLR (R453): A write of PANEL_CTL.MARK_CLR clears MARK. -/
  | markClr
  /-- CRK_CLR (R454): A write of PANEL_CTL.CRK_CLR clears CRACK once the loop has shown edges for 1 s. -/
  | crkClr (edges : Bool)
  /-- DRAM_WINDOW_ACCESS (R467): An access through DRAM_WIN reads or writes the shared DRAM region directly. -/
  | dramWindowAccess (r : Req) (off : BitVec 22) (v : Option Word)
  /-- UCALL (R134): A UCALL naming a unit or function number that no chapter defines returns CHECK_FAILED, and one to an absent unit traps with UNIT_ABSENT. -/
  | ucall (c : Fin 36) (w : Word) (x : Option Word)
  /-- DRAM_READY (R52): DRAM training completes, DRAM becomes ready and the point store starts clearing its records. -/
  | dramReady
  /-- MOD_FAULT_CLEARED (R276): After 64 consecutive samples with a density between 8 % and 92 %, a stuck channel's MOD_FAULT clears and MOD_FAULT is posted as cleared. -/
  | modFaultCleared (c : Fin 64)
  /-- BUS_INTEGRATION (R366): A starting or retimed CAN channel sees 11 recessive bits, integrates and becomes error-active. -/
  | busIntegration (n : Fin 32) (exception : Bool)
  /-- AFE_FAULT_RELEASE (R346): PLC_FLT_N returns high, and 100 ms later the interface resumes transmitting and AFE_FAULT is posted as cleared. -/
  | afeFaultRelease (i : Fin 8)
  /-- LANE_UP (R372): A saddle lane carries valid frames again, LINK_LANE is posted as up and pairing can begin. -/
  | laneUp (lane : Fin 2)
  /-- HEALTH_REPORT_MISSING (R383): When three standby health reports in a row are missing, the active writes the health point with FIT clear. -/
  | healthReportMissing
  /-- SADDLE_CRC_ERROR (R372): A saddle link frame with a bad CRC is counted in SADL_CRC_CNT, and the sender retransmits from its sequence number. -/
  | saddleCrcError
  /-- GUARD_SUPPLY_LOSS (R475): VDD_GUARD is removed, GRD_OUT goes unpowered and the guard link falls silent. -/
  | guardSupplyLoss
  /-- TIME_FRAME_TIMEOUT (R380): A paired standby that has received no TIME frame for UPL_TIME_HOLD makes league time untrusted. -/
  | timeFrameTimeout
  /-- LEAP_SECOND (R421): At the end of a UTC day for which LI61 or LI59 is announced, the keeper's copy of OFS changes and local time moves. -/
  | leapSecond
  /-- REG_PG_DROP (R473): A REG_PG that falls before the regulator sequence ends makes the keeper lower the raised enables in reverse order and retry after 1 s. -/
  | regPgDrop
  /-- UART_BAD_REQUEST (R330): A UART request with a bad CRC or an unknown opcode gets no response and is counted in UPL_UART_CFG.ERR. -/
  | uartBadRequest
  /-- SYNC_SEND (R318): In MASTER mode, or on a port with PORT_MASTER set in SLAVE mode, the instance sends Sync at each Sync interval. -/
  | syncSend (u : Fin 4)
  /-- ANNOUNCE_SEND (R318): A port that sends time sends Announce at each Announce interval. -/
  | announceSend (u : Fin 4)
  /-- DELAY_RESP (R320): A delay response is received and gives the path delay that the servo needs before a Sync can give a valid offset. -/
  | delayResp (u : Fin 4) (d : Nat)
  /-- DELAY_REQ (R318): A delay request from a slave is received on a port that sends time and is answered. -/
  | delayReq (u : Fin 4) (seq : Half) (rx : Nat)
  /-- ARQ_GIVE_UP (R341): The G3-PLC MAC gives up a frame after its ARQ retries, and the frame is counted in FLD_PLC_TXERR_CNT and lost to the transaction engine. -/
  | arqGiveUp (i : Fin 8)
deriving DecidableEq, Repr

end Sys2Proof
end

