-- ==== Sys2Proof/Decode.lean ====
section
/-! DEFINITION. Commands by a table word: no row of spec/opcode_table.json gives bits, so no word spells a command. -/

namespace Sys2Proof

/-- The command that the bits of a table word spell: none. -/
def decodeTableWord (_nbits _w : Nat) : Option Instr := none

end Sys2Proof
end

