-- ==== Sys2Proof/Config.lean ====
section
/-! DEFINITION. What an implementation fixes and what the spec leaves open: constants with no body, so that no proof can see a
value of them. Each is named in the assumption log (notes/assumptions). Published algorithms that the spec only cites (SHA-2,
AES, ECDSA, the deterministic random generator, the physical layer codes) stand here as functions of their inputs. -/

namespace Sys2Proof.Config

open Sys2Proof.Machine

/-- A fresh free value, drawn with the state's plain counter `Clk.free` (notes/assumptions/1.md). -/
opaque freeWord : Nat → DWord
/-- SHA-384 of a byte string (R70, R434). -/
opaque sha384 : List Byte → List Byte
/-- SHA-256 of a byte string (R434). -/
opaque sha256 : List Byte → List Byte
/-- ECDSA P-384 verification: public key, digest, signature (R70, R435). -/
opaque ecdsaP384 : List Byte → List Byte → List Byte → Bool
/-- ECDSA P-256 verification: public key, digest, signature (R435). -/
opaque ecdsaP256 : List Byte → List Byte → List Byte → Bool
/-- ECDSA signature under a private key, with the deterministic nonce of the standard: key kind, key, digest. -/
opaque ecdsaSign : Nat → List Byte → List Byte → List Byte
/-- The public key of a private key: key kind, key (R435 PUBKEY). -/
opaque ecdsaPublic : Nat → List Byte → List Byte
/-- AES-GCM encryption: key, nonce, associated data, plain text; cipher text followed by the tag. -/
opaque gcmSeal : List Byte → List Byte → List Byte → List Byte → List Byte
/-- AES-GCM decryption: key, nonce, associated data, cipher text with tag; none where the tag fails. -/
opaque gcmOpen : List Byte → List Byte → List Byte → List Byte → Option (List Byte)
/-- AES-CTR: key, counter block, data. -/
opaque aesCtr : List Byte → List Byte → List Byte → List Byte
/-- AES-CMAC: key, data. -/
opaque aesCmac : List Byte → List Byte → List Byte
/-- HMAC: 256 or 384, key, data. -/
opaque hmac : Nat → List Byte → List Byte → List Byte
/-- HKDF: 256 or 384, input key, salt, info, length. -/
opaque hkdf : Nat → List Byte → List Byte → List Byte → Nat → List Byte
/-- SP 800-108 counter-mode derivation: key, fixed input, length. -/
opaque kdf108 : List Byte → List Byte → Nat → List Byte

/-- The program image that the bytes of an image slot carry (offset and byte, where not 0): none where its header, format version or
CRC does not verify (R492). The layout of the file belongs to the toolchain (notes/assumptions/12.md). -/
opaque imageOf : List (Nat × Byte) → Option Image
/-- The SWEEP test signal of R271: amplitude, f0, f1, samples N, sample period (µs), test sample j. The spec gives its formula over the
reals and no rounding of the sine, logarithm and power. -/
opaque sweep : DWord → DWord → DWord → Nat → Nat → Nat → DWord
/-- Sunrise and sunset of a local day, as league time in ns, at a latitude and longitude (10⁻⁶ degrees) for the day whose local midnight falls on
a league second; none on a day without one of them (R237: the geometry is given, the formulas are not). -/
opaque sun : Int → Int → Nat → Option (Nat × Nat)
/-- Local solar noon of the same day, as league time in ns (R237). -/
opaque solarNoon : Int → Nat → Nat
/-- What a firmware image's header names (R252): the layout of the header is not in the spec. -/
opaque fwHead : List (Nat × Byte) → FwHead
/-- The commissioned values of a CONFIG frame that no register or table holds: output watchdog (ms), T_off, and the fallback level of a
fixture's channel (Table 11-7). -/
opaque lampWatchdog : Word
opaque lampTOff : Half
opaque lampFallback : Nat → Nat → Half
/-- Iterate j of the interior-point method on a problem, under the words of PLAN_NUM and PLAN_TOL, from a warm start or from the starting point (iterate
0); R197 makes it a function of these. The elimination order and the order of the reductions are not in the spec. -/
opaque iterate : Problem → Word → Word → Option (List DWord) → Nat → Iterate
/-- The structure digest, the nonzeros of K before fill and after fill, of a model's structure (R200, R201). -/
opaque digest : List Nat → Word
opaque nonzeros : List Nat → Nat
opaque fill : List Nat → Nat
/-- The core clocks an instruction waits beyond its issue clocks: operand dependencies, store and fabric waits (R113, R114). -/
opaque stall : Nat → Nat

end Sys2Proof.Config
end

