-- ==== Sys2Proof/Machine/Regs.lean ====
section
/-! DEFINITION. The register map: one name for every register and every field of the chapters' field tables (R459, R461,
Scope), and the register table that the access rules of R461 read: for each row its base, its strides, its reset value, its
fields with access type and staging, and its kind (diagnostic counter of R22 and R24, word of a multi-word value of R25 and
R26, half of a complement pair of R18). A reset value of a field whose reset the spec gives as 'Kept' is the value at the first
power-up (notes/assumptions/3.md); a field that reads a variant's value reads through `liveReg` (Machine/Control.lean). -/

namespace Sys2Proof.Machine.R

def GEN_EVR_BASE_LO (n : Nat) : FRef := ⟨0x001000 + 0x20 * n, 31, 0⟩
def GEN_EVR_BASE_LO_ADDR (n : Nat) : FRef := ⟨0x001000 + 0x20 * n, 31, 12⟩
def GEN_EVR_BASE_HI (n : Nat) : FRef := ⟨0x001004 + 0x20 * n, 31, 0⟩
def GEN_EVR_BASE_HI_ADDR (n : Nat) : FRef := ⟨0x001004 + 0x20 * n, 2, 0⟩
def GEN_EVR_CFG (n : Nat) : FRef := ⟨0x001008 + 0x20 * n, 31, 0⟩
def GEN_EVR_CFG_EN (n : Nat) : FRef := ⟨0x001008 + 0x20 * n, 31, 31⟩
def GEN_EVR_CFG_LOST_SAT (n : Nat) : FRef := ⟨0x001008 + 0x20 * n, 16, 16⟩
def GEN_EVR_CFG_MIN_SEV (n : Nat) : FRef := ⟨0x001008 + 0x20 * n, 10, 8⟩
def GEN_EVR_CFG_SIZE (n : Nat) : FRef := ⟨0x001008 + 0x20 * n, 4, 0⟩
def GEN_EVR_HEAD (n : Nat) : FRef := ⟨0x00100C + 0x20 * n, 31, 0⟩
def GEN_EVR_TAIL (n : Nat) : FRef := ⟨0x001010 + 0x20 * n, 31, 0⟩
def GEN_EVR_LOST (n : Nat) : FRef := ⟨0x001014 + 0x20 * n, 31, 0⟩
def GEN_EVR_MAP (u : Nat) : FRef := ⟨0x001400 + 4 * u, 31, 0⟩
def GEN_EVR_MAP_RING (u : Nat) : FRef := ⟨0x001400 + 4 * u, 3, 0⟩
def POINT_CFG : FRef := ⟨0x140000, 31, 0⟩
def POINT_CFG_BG_EN : FRef := ⟨0x140000, 31, 31⟩
def POINT_CFG_DEVNUM : FRef := ⟨0x140000, 13, 0⟩
def POINT_STAT : FRef := ⟨0x140004, 31, 0⟩
def POINT_STAT_READY : FRef := ⟨0x140004, 31, 31⟩
def POINT_STAT_INIT_BUSY : FRef := ⟨0x140004, 30, 30⟩
def POINT_STAT_REJECT_SAT : FRef := ⟨0x140004, 3, 3⟩
def POINT_STAT_RANGE_SAT : FRef := ⟨0x140004, 2, 2⟩
def POINT_STAT_CRC_SAT : FRef := ⟨0x140004, 1, 1⟩
def POINT_STAT_PAIR_SAT : FRef := ⟨0x140004, 0, 0⟩
def POINT_BG : FRef := ⟨0x140008, 31, 0⟩
def POINT_BG_SCRUB_RATE : FRef := ⟨0x140008, 12, 8⟩
def POINT_BG_SWEEP_RATE : FRef := ⟨0x140008, 4, 0⟩
def POINT_FORCE_USED : FRef := ⟨0x14000C, 31, 0⟩
def POINT_FORCE_USED_USED : FRef := ⟨0x14000C, 12, 0⟩
def POINT_PAIR_CNT : FRef := ⟨0x140010, 31, 0⟩
def POINT_CRC_CNT : FRef := ⟨0x140014, 31, 0⟩
def POINT_RANGE_CNT : FRef := ⟨0x140018, 31, 0⟩
def POINT_REJECT_CNT : FRef := ⟨0x14001C, 31, 0⟩
def POINT_ACC_TAG_LO (p : Nat) : FRef := ⟨0x141000 + 0x100 * p, 31, 0⟩
def POINT_ACC_TAG_HI (p : Nat) : FRef := ⟨0x141004 + 0x100 * p, 31, 0⟩
def POINT_ACC_TAG_HI_TAG (p : Nat) : FRef := ⟨0x141004 + 0x100 * p, 7, 0⟩
def POINT_ACC_CMD (p : Nat) : FRef := ⟨0x141008 + 0x100 * p, 31, 0⟩
def POINT_ACC_CMD_QGOOD (p : Nat) : FRef := ⟨0x141008 + 0x100 * p, 8, 8⟩
def POINT_ACC_CMD_OP (p : Nat) : FRef := ⟨0x141008 + 0x100 * p, 3, 0⟩
def POINT_ACC_STAT (p : Nat) : FRef := ⟨0x14100C + 0x100 * p, 31, 0⟩
def POINT_ACC_STAT_BUSY (p : Nat) : FRef := ⟨0x14100C + 0x100 * p, 31, 31⟩
def POINT_ACC_STAT_CODE (p : Nat) : FRef := ⟨0x14100C + 0x100 * p, 15, 0⟩
def POINT_ACC_DATA (p : Nat) (w : Nat) : FRef := ⟨0x141040 + 0x100 * p + 4 * w, 31, 0⟩
def COMMIT_CTL (k : Nat) : FRef := ⟨0x040000 + 0x100 * k, 31, 0⟩
def COMMIT_CTL_DISCARD (k : Nat) : FRef := ⟨0x040000 + 0x100 * k, 2, 2⟩
def COMMIT_CTL_ABORT (k : Nat) : FRef := ⟨0x040000 + 0x100 * k, 1, 1⟩
def COMMIT_CTL_GO (k : Nat) : FRef := ⟨0x040000 + 0x100 * k, 0, 0⟩
def COMMIT_MODE (k : Nat) : FRef := ⟨0x040004 + 0x100 * k, 31, 0⟩
def COMMIT_MODE_TASK (k : Nat) : FRef := ⟨0x040004 + 0x100 * k, 15, 8⟩
def COMMIT_MODE_MODE (k : Nat) : FRef := ⟨0x040004 + 0x100 * k, 1, 0⟩
def COMMIT_AT_LO (k : Nat) : FRef := ⟨0x040008 + 0x100 * k, 31, 0⟩
def COMMIT_AT_HI (k : Nat) : FRef := ⟨0x04000C + 0x100 * k, 31, 0⟩
def COMMIT_CHK (k : Nat) : FRef := ⟨0x040010 + 0x100 * k, 31, 0⟩
def COMMIT_CHK_LIMIT (k : Nat) : FRef := ⟨0x040010 + 0x100 * k, 31, 20⟩
def COMMIT_CHK_ENTRY (k : Nat) : FRef := ⟨0x040010 + 0x100 * k, 19, 0⟩
def COMMIT_STAT (k : Nat) : FRef := ⟨0x040014 + 0x100 * k, 31, 0⟩
def COMMIT_STAT_PENDING (k : Nat) : FRef := ⟨0x040014 + 0x100 * k, 31, 31⟩
def COMMIT_STAT_PHASE (k : Nat) : FRef := ⟨0x040014 + 0x100 * k, 30, 27⟩
def COMMIT_STAT_STAGE_OVF (k : Nat) : FRef := ⟨0x040014 + 0x100 * k, 26, 26⟩
def COMMIT_STAT_REG_COUNT (k : Nat) : FRef := ⟨0x040014 + 0x100 * k, 16, 0⟩
def COMMIT_BYTES (k : Nat) : FRef := ⟨0x040018 + 0x100 * k, 31, 0⟩
def COMMIT_BYTES_BYTES (k : Nat) : FRef := ⟨0x040018 + 0x100 * k, 24, 0⟩
def COMMIT_RES (k : Nat) : FRef := ⟨0x04001C + 0x100 * k, 31, 0⟩
def COMMIT_RES_DONE (k : Nat) : FRef := ⟨0x04001C + 0x100 * k, 31, 31⟩
def COMMIT_RES_ABORTED (k : Nat) : FRef := ⟨0x04001C + 0x100 * k, 30, 30⟩
def COMMIT_RES_CHK_TRAP (k : Nat) : FRef := ⟨0x04001C + 0x100 * k, 29, 29⟩
def COMMIT_RES_PT_REJ (k : Nat) : FRef := ⟨0x04001C + 0x100 * k, 28, 28⟩
def COMMIT_RES_RULE (k : Nat) : FRef := ⟨0x04001C + 0x100 * k, 27, 24⟩
def COMMIT_RES_UNIT (k : Nat) : FRef := ⟨0x04001C + 0x100 * k, 23, 16⟩
def COMMIT_RES_CODE (k : Nat) : FRef := ⟨0x04001C + 0x100 * k, 15, 0⟩
def COMMIT_RES_OBJ_LO (k : Nat) : FRef := ⟨0x040020 + 0x100 * k, 31, 0⟩
def COMMIT_RES_OBJ_HI (k : Nat) : FRef := ⟨0x040024 + 0x100 * k, 31, 0⟩
def COMMIT_APPLIED_LO (k : Nat) : FRef := ⟨0x040028 + 0x100 * k, 31, 0⟩
def COMMIT_APPLIED_HI (k : Nat) : FRef := ⟨0x04002C + 0x100 * k, 31, 0⟩
def COMMIT_GEN (k : Nat) : FRef := ⟨0x040030 + 0x100 * k, 31, 0⟩
def COMMIT_PEEK_ADDR (k : Nat) : FRef := ⟨0x040040 + 0x100 * k, 31, 0⟩
def COMMIT_PEEK_DATA (k : Nat) : FRef := ⟨0x040044 + 0x100 * k, 31, 0⟩
def CAIRN_BOOT_STAT : FRef := ⟨0x480000, 31, 0⟩
def CAIRN_BOOT_STAT_FAIL_CODE : FRef := ⟨0x480000, 31, 16⟩
def CAIRN_BOOT_STAT_FAIL_SET : FRef := ⟨0x480000, 9, 9⟩
def CAIRN_BOOT_STAT_FALLBACK : FRef := ⟨0x480000, 8, 8⟩
def CAIRN_BOOT_STAT_DIR_COPY : FRef := ⟨0x480000, 4, 4⟩
def CAIRN_BOOT_STAT_STATE : FRef := ⟨0x480000, 3, 0⟩
def CAIRN_GEN : FRef := ⟨0x480004, 31, 0⟩
def CAIRN_FL_MODE : FRef := ⟨0x48000C, 31, 0⟩
def CAIRN_FL_MODE_CLK : FRef := ⟨0x48000C, 31, 24⟩
def CAIRN_FL_MODE_ADDR4 : FRef := ⟨0x48000C, 9, 9⟩
def CAIRN_FL_MODE_DTR : FRef := ⟨0x48000C, 8, 8⟩
def CAIRN_FL_MODE_WIDTH : FRef := ⟨0x48000C, 3, 0⟩
def CAIRN_FL_ADDR : FRef := ⟨0x480010, 31, 0⟩
def CAIRN_FL_ADDR_ADDR : FRef := ⟨0x480010, 28, 0⟩
def CAIRN_FL_CMD : FRef := ⟨0x480014, 31, 0⟩
def CAIRN_FL_CMD_LEN : FRef := ⟨0x480014, 16, 8⟩
def CAIRN_FL_CMD_OP : FRef := ⟨0x480014, 2, 0⟩
def CAIRN_FL_STAT : FRef := ⟨0x480018, 31, 0⟩
def CAIRN_FL_STAT_BUSY : FRef := ⟨0x480018, 31, 31⟩
def CAIRN_FL_STAT_CODE : FRef := ⟨0x480018, 15, 0⟩
def CAIRN_FLOOR : FRef := ⟨0x480008, 31, 0⟩
def CAIRN_FL_DATA (w : Nat) : FRef := ⟨0x480100 + 4 * w, 31, 0⟩
def SCAN_CTL : FRef := ⟨0x100000, 31, 0⟩
def SCAN_CTL_FIND_EN : FRef := ⟨0x100000, 31, 31⟩
def SCAN_CTL_FIND_POL : FRef := ⟨0x100000, 30, 30⟩
def SCAN_TCMD : FRef := ⟨0x100004, 31, 0⟩
def SCAN_TCMD_TASK : FRef := ⟨0x100004, 15, 8⟩
def SCAN_TCMD_OP : FRef := ⟨0x100004, 1, 0⟩
def SCAN_TCMD_RES : FRef := ⟨0x100008, 31, 0⟩
def SCAN_TCMD_RES_PENDING : FRef := ⟨0x100008, 31, 31⟩
def SCAN_TCMD_RES_CODE : FRef := ⟨0x100008, 15, 0⟩
def SCAN_STAT : FRef := ⟨0x10000C, 31, 0⟩
def SCAN_STAT_FORCE_ACTIVE : FRef := ⟨0x10000C, 31, 31⟩
def SCAN_STAT_SLOTS_USED : FRef := ⟨0x10000C, 22, 9⟩
def SCAN_STAT_ACTIVE : FRef := ⟨0x10000C, 8, 0⟩
def SCAN_TS_STATE (t : Nat) : FRef := ⟨0x101000 + 0x20 * t, 31, 0⟩
def SCAN_TS_STATE_STATE (t : Nat) : FRef := ⟨0x101000 + 0x20 * t, 31, 28⟩
def SCAN_TS_STATE_MISS_SAT (t : Nat) : FRef := ⟨0x101000 + 0x20 * t, 27, 27⟩
def SCAN_TS_STATE_ABN_SAT (t : Nat) : FRef := ⟨0x101000 + 0x20 * t, 26, 26⟩
def SCAN_TS_STATE_MISS_RUN (t : Nat) : FRef := ⟨0x101000 + 0x20 * t, 23, 16⟩
def SCAN_TS_STATE_ABN_RUN (t : Nat) : FRef := ⟨0x101000 + 0x20 * t, 15, 8⟩
def SCAN_TS_STATE_CORE (t : Nat) : FRef := ⟨0x101000 + 0x20 * t, 4, 0⟩
def SCAN_TS_CYCLES (t : Nat) : FRef := ⟨0x101004 + 0x20 * t, 31, 0⟩
def SCAN_TS_LAST (t : Nat) : FRef := ⟨0x101008 + 0x20 * t, 31, 0⟩
def SCAN_TS_MAX (t : Nat) : FRef := ⟨0x10100C + 0x20 * t, 31, 0⟩
def SCAN_TS_MISS (t : Nat) : FRef := ⟨0x101010 + 0x20 * t, 31, 0⟩
def SCAN_TS_ABAN (t : Nat) : FRef := ⟨0x101014 + 0x20 * t, 31, 0⟩
def SCAN_TS_FORCED (t : Nat) : FRef := ⟨0x101018 + 0x20 * t, 31, 0⟩
def SCAN_TS_FORCED_FORCED_OUT (t : Nat) : FRef := ⟨0x101018 + 0x20 * t, 31, 16⟩
def SCAN_TS_FORCED_FORCED_IN (t : Nat) : FRef := ⟨0x101018 + 0x20 * t, 15, 0⟩
def SCAN_TS_SLOTS (t : Nat) : FRef := ⟨0x10101C + 0x20 * t, 31, 0⟩
def SCAN_TS_SLOTS_COUNT (t : Nat) : FRef := ⟨0x10101C + 0x20 * t, 31, 16⟩
def SCAN_TS_SLOTS_BASE (t : Nat) : FRef := ⟨0x10101C + 0x20 * t, 15, 0⟩
def SCAN_CORE_LOAD (c : Nat) : FRef := ⟨0x103000 + 4 * c, 31, 0⟩
def SCAN_CORE_LOAD_LOAD (c : Nat) : FRef := ⟨0x103000 + 4 * c, 9, 0⟩
def SCAN_SWAP_COLD (w : Nat) : FRef := ⟨0x104000 + 4 * w, 31, 0⟩
def SCAN_SW_STAT (t : Nat) : FRef := ⟨0x105000 + 0x10 * t, 31, 0⟩
def SCAN_SW_STAT_PENDING (t : Nat) : FRef := ⟨0x105000 + 0x10 * t, 31, 31⟩
def SCAN_SW_STAT_COLD_LAST (t : Nat) : FRef := ⟨0x105000 + 0x10 * t, 30, 30⟩
def SCAN_SW_STAT_FMODE_LAST (t : Nat) : FRef := ⟨0x105000 + 0x10 * t, 29, 29⟩
def SCAN_SW_STAT_REINIT (t : Nat) : FRef := ⟨0x105000 + 0x10 * t, 28, 28⟩
def SCAN_SW_STAT_REASON (t : Nat) : FRef := ⟨0x105000 + 0x10 * t, 27, 24⟩
def SCAN_SW_STAT_CODE (t : Nat) : FRef := ⟨0x105000 + 0x10 * t, 15, 0⟩
def SCAN_SW_CNT1 (t : Nat) : FRef := ⟨0x105004 + 0x10 * t, 31, 0⟩
def SCAN_SW_CNT1_CARRIED (t : Nat) : FRef := ⟨0x105004 + 0x10 * t, 31, 16⟩
def SCAN_SW_CNT1_NEW (t : Nat) : FRef := ⟨0x105004 + 0x10 * t, 15, 0⟩
def SCAN_SW_CNT2 (t : Nat) : FRef := ⟨0x105008 + 0x10 * t, 31, 0⟩
def SCAN_SW_CNT2_REINIT (t : Nat) : FRef := ⟨0x105008 + 0x10 * t, 31, 16⟩
def SCAN_SW_CNT2_DROPPED (t : Nat) : FRef := ⟨0x105008 + 0x10 * t, 15, 0⟩
def SCAN_SW_CYCLE (t : Nat) : FRef := ⟨0x10500C + 0x10 * t, 31, 0⟩
def PLAN_CTL : FRef := ⟨0x280000, 31, 0⟩
def PLAN_CTL_EN : FRef := ⟨0x280000, 31, 31⟩
def PLAN_CTL_CAD_EN : FRef := ⟨0x280000, 30, 30⟩
def PLAN_CMD : FRef := ⟨0x280004, 31, 0⟩
def PLAN_CMD_OP : FRef := ⟨0x280004, 1, 0⟩
def PLAN_CMD_RES : FRef := ⟨0x280008, 31, 0⟩
def PLAN_CMD_RES_CODE : FRef := ⟨0x280008, 15, 0⟩
def PLAN_CADENCE : FRef := ⟨0x28000C, 31, 0⟩
def PLAN_CADENCE_PHASE : FRef := ⟨0x28000C, 27, 16⟩
def PLAN_CADENCE_PERIOD : FRef := ⟨0x28000C, 15, 0⟩
def PLAN_TIMING : FRef := ⟨0x280010, 31, 0⟩
def PLAN_TIMING_LEAD : FRef := ⟨0x280010, 31, 20⟩
def PLAN_TIMING_GRID : FRef := ⟨0x280010, 19, 8⟩
def PLAN_TIMING_MARGIN : FRef := ⟨0x280010, 7, 0⟩
def PLAN_SKIP_CNT : FRef := ⟨0x280014, 31, 0⟩
def PLAN_STEP_SEG (n : Nat) : FRef := ⟨0x280020 + 4 * n, 31, 0⟩
def PLAN_STEP_SEG_LEN (n : Nat) : FRef := ⟨0x280020 + 4 * n, 21, 16⟩
def PLAN_STEP_SEG_COUNT (n : Nat) : FRef := ⟨0x280020 + 4 * n, 8, 0⟩
def PLAN_ELEM_CNT : FRef := ⟨0x280040, 31, 0⟩
def PLAN_ELEM_CNT_COUNT : FRef := ⟨0x280040, 18, 0⟩
def PLAN_BIND_CNT : FRef := ⟨0x280044, 31, 0⟩
def PLAN_BIND_CNT_COUNT : FRef := ⟨0x280044, 18, 0⟩
def PLAN_OUT_CNT : FRef := ⟨0x280048, 31, 0⟩
def PLAN_OUT_CNT_COUNT : FRef := ⟨0x280048, 18, 0⟩
def PLAN_ACC_PRI_LO : FRef := ⟨0x280050, 31, 0⟩
def PLAN_ACC_PRI_HI : FRef := ⟨0x280054, 31, 0⟩
def PLAN_ACC_DUA_LO : FRef := ⟨0x280058, 31, 0⟩
def PLAN_ACC_DUA_HI : FRef := ⟨0x28005C, 31, 0⟩
def PLAN_ACC_GAP_LO : FRef := ⟨0x280060, 31, 0⟩
def PLAN_ACC_GAP_HI : FRef := ⟨0x280064, 31, 0⟩
def PLAN_NUM : FRef := ⟨0x280080, 31, 0⟩
def PLAN_NUM_ITER_MAX : FRef := ⟨0x280080, 31, 24⟩
def PLAN_NUM_REFINE : FRef := ⟨0x280080, 17, 16⟩
def PLAN_NUM_REG_EXP : FRef := ⟨0x280080, 15, 8⟩
def PLAN_NUM_PIV_EXP : FRef := ⟨0x280080, 7, 0⟩
def PLAN_TOL : FRef := ⟨0x280084, 31, 0⟩
def PLAN_TOL_GAP : FRef := ⟨0x280084, 23, 16⟩
def PLAN_TOL_DUA : FRef := ⟨0x280084, 15, 8⟩
def PLAN_TOL_PRI : FRef := ⟨0x280084, 7, 0⟩
def PLAN_LEAGUE : FRef := ⟨0x280088, 31, 0⟩
def PLAN_LEAGUE_EN : FRef := ⟨0x280088, 31, 31⟩
def PLAN_LEAGUE_STRICT : FRef := ⟨0x280088, 30, 30⟩
def PLAN_LEAGUE_MAX_ROUNDS : FRef := ⟨0x280088, 20, 16⟩
def PLAN_LEAGUE_WAIT : FRef := ⟨0x280088, 15, 0⟩
def PLAN_TIE : FRef := ⟨0x28008C, 31, 0⟩
def PLAN_TIE_RHO_EXP : FRef := ⟨0x28008C, 31, 24⟩
def PLAN_TIE_TOL : FRef := ⟨0x28008C, 15, 0⟩
def PLAN_DIAG_LO : FRef := ⟨0x280090, 31, 0⟩
def PLAN_DIAG_HI : FRef := ⟨0x280094, 31, 0⟩
def PLAN_DIAG_HI_TAG : FRef := ⟨0x280094, 7, 0⟩
def PLAN_STAT : FRef := ⟨0x281000, 31, 0⟩
def PLAN_STAT_PHASE : FRef := ⟨0x281000, 31, 28⟩
def PLAN_STAT_QUADS : FRef := ⟨0x281000, 27, 25⟩
def PLAN_STAT_LEAGUE : FRef := ⟨0x281000, 24, 24⟩
def PLAN_STAT_ITER : FRef := ⟨0x281000, 23, 16⟩
def PLAN_STAT_CROUND : FRef := ⟨0x281000, 15, 11⟩
def PLAN_STAT_DEGRADED : FRef := ⟨0x281000, 10, 0⟩
def PLAN_RES : FRef := ⟨0x281004, 31, 0⟩
def PLAN_RES_DONE : FRef := ⟨0x281004, 31, 31⟩
def PLAN_RES_ADOPTED : FRef := ⟨0x281004, 30, 30⟩
def PLAN_RES_CAUSE : FRef := ⟨0x281004, 29, 27⟩
def PLAN_RES_END : FRef := ⟨0x281004, 26, 24⟩
def PLAN_RES_ITERS : FRef := ⟨0x281004, 23, 16⟩
def PLAN_RES_CODE : FRef := ⟨0x281004, 15, 0⟩
def PLAN_RES_COL : FRef := ⟨0x281008, 31, 0⟩
def PLAN_RES_COL_VALID : FRef := ⟨0x281008, 31, 31⟩
def PLAN_RES_COL_COL : FRef := ⟨0x281008, 21, 0⟩
def PLAN_RES_WHERE : FRef := ⟨0x28100C, 31, 0⟩
def PLAN_RES_WHERE_ROW : FRef := ⟨0x28100C, 31, 31⟩
def PLAN_RES_WHERE_CODE : FRef := ⟨0x28100C, 30, 28⟩
def PLAN_RES_WHERE_STEP : FRef := ⟨0x28100C, 24, 16⟩
def PLAN_RES_WHERE_ELEM : FRef := ⟨0x28100C, 15, 0⟩
def PLAN_RES_PRI_LO : FRef := ⟨0x281010, 31, 0⟩
def PLAN_RES_PRI_HI : FRef := ⟨0x281014, 31, 0⟩
def PLAN_RES_DUA_LO : FRef := ⟨0x281018, 31, 0⟩
def PLAN_RES_DUA_HI : FRef := ⟨0x28101C, 31, 0⟩
def PLAN_RES_GAP_LO : FRef := ⟨0x281020, 31, 0⟩
def PLAN_RES_GAP_HI : FRef := ⟨0x281024, 31, 0⟩
def PLAN_RES_OBJ_LO : FRef := ⟨0x281028, 31, 0⟩
def PLAN_RES_OBJ_HI : FRef := ⟨0x28102C, 31, 0⟩
def PLAN_RES_TIME : FRef := ⟨0x281030, 31, 0⟩
def PLAN_RES_ENERGY : FRef := ⟨0x281034, 31, 0⟩
def PLAN_RES_INPUTS : FRef := ⟨0x281038, 31, 0⟩
def PLAN_RES_INPUTS_TRAJ_SHORT : FRef := ⟨0x281038, 31, 16⟩
def PLAN_RES_INPUTS_DEGRADED : FRef := ⟨0x281038, 15, 0⟩
def PLAN_RES_FILL : FRef := ⟨0x28103C, 31, 0⟩
def PLAN_RES_REGCNT : FRef := ⟨0x281040, 31, 0⟩
def PLAN_RES_TIES : FRef := ⟨0x281044, 31, 0⟩
def PLAN_RES_TIES_ROUNDS : FRef := ⟨0x281044, 31, 27⟩
def PLAN_RES_TIES_CLOSED : FRef := ⟨0x281044, 26, 26⟩
def PLAN_RES_TIES_AGREED : FRef := ⟨0x281044, 25, 25⟩
def PLAN_RES_TIES_LOST : FRef := ⟨0x281044, 12, 0⟩
def PLAN_RES_TIEMIS_LO : FRef := ⟨0x281048, 31, 0⟩
def PLAN_RES_TIEMIS_HI : FRef := ⟨0x28104C, 31, 0⟩
def RIDGE_CTL : FRef := ⟨0x080000, 31, 0⟩
def RIDGE_CTL_GATE_EN : FRef := ⟨0x080000, 31, 31⟩
def RIDGE_CTL_IDLE_MS : FRef := ⟨0x080000, 23, 8⟩
def RIDGE_CTL_TARGET : FRef := ⟨0x080000, 1, 0⟩
def RIDGE_STAT : FRef := ⟨0x080004, 31, 0⟩
def RIDGE_STAT_STATE : FRef := ⟨0x080004, 31, 29⟩
def RIDGE_STAT_CHANGING : FRef := ⟨0x080004, 28, 28⟩
def RIDGE_STAT_PROFILE : FRef := ⟨0x080004, 27, 26⟩
def RIDGE_STAT_SUP_UNK : FRef := ⟨0x080004, 25, 25⟩
def RIDGE_STAT_ZONE : FRef := ⟨0x080004, 24, 23⟩
def RIDGE_STAT_BORROWED : FRef := ⟨0x080004, 22, 22⟩
def RIDGE_STAT_QGRANT : FRef := ⟨0x080004, 21, 19⟩
def RIDGE_STAT_VCORE : FRef := ⟨0x080004, 18, 16⟩
def RIDGE_STAT_TEMP : FRef := ⟨0x080004, 9, 0⟩
def RIDGE_DOM : FRef := ⟨0x080008, 31, 0⟩
def RIDGE_DOM_READY : FRef := ⟨0x080008, 31, 16⟩
def RIDGE_DOM_ON : FRef := ⟨0x080008, 15, 0⟩
def RIDGE_CAB_LIMIT : FRef := ⟨0x08000C, 31, 0⟩
def RIDGE_CAB_LIMIT_LIMIT : FRef := ⟨0x08000C, 16, 0⟩
def RIDGE_BUCKET : FRef := ⟨0x080010, 31, 0⟩
def RIDGE_BUCKET_CAP : FRef := ⟨0x080010, 31, 16⟩
def RIDGE_BUCKET_FLOOR : FRef := ⟨0x080010, 15, 0⟩
def RIDGE_LEVEL : FRef := ⟨0x080014, 31, 0⟩
def RIDGE_RATE : FRef := ⟨0x080018, 31, 0⟩
def RIDGE_RATE_MW : FRef := ⟨0x080018, 16, 0⟩
def RIDGE_POWER : FRef := ⟨0x08001C, 31, 0⟩
def RIDGE_POWER_MW : FRef := ⟨0x08001C, 16, 0⟩
def RIDGE_THERM : FRef := ⟨0x080020, 31, 0⟩
def RIDGE_THERM_RIDGE : FRef := ⟨0x080020, 15, 8⟩
def RIDGE_THERM_BAND : FRef := ⟨0x080020, 7, 0⟩
def RIDGE_SUPPLY_TAG_LO : FRef := ⟨0x080024, 31, 0⟩
def RIDGE_SUPPLY_TAG_HI : FRef := ⟨0x080028, 31, 0⟩
def RIDGE_SUPPLY_TAG_HI_TAG : FRef := ⟨0x080028, 7, 0⟩
def RIDGE_PROF_LIM (s : Nat) : FRef := ⟨0x080030 + 8 * s, 31, 0⟩
def RIDGE_PROF_LIM_CEIL (s : Nat) : FRef := ⟨0x080030 + 8 * s, 31, 30⟩
def RIDGE_PROF_LIM_LIMIT (s : Nat) : FRef := ⟨0x080030 + 8 * s, 16, 0⟩
def RIDGE_PROF_PLAN (s : Nat) : FRef := ⟨0x080034 + 8 * s, 31, 0⟩
def RIDGE_PROF_PLAN_QMAX (s : Nat) : FRef := ⟨0x080034 + 8 * s, 29, 27⟩
def RIDGE_PROF_PLAN_DIV (s : Nat) : FRef := ⟨0x080034 + 8 * s, 19, 12⟩
def RIDGE_PROF_PLAN_LEAD_ADD (s : Nat) : FRef := ⟨0x080034 + 8 * s, 9, 0⟩
def RIDGE_SCAN_CLK (c : Nat) : FRef := ⟨0x080050 + 4 * c, 31, 0⟩
def RIDGE_SCAN_CLK_CUR (c : Nat) : FRef := ⟨0x080050 + 4 * c, 11, 8⟩
def RIDGE_SCAN_CLK_CEIL (c : Nat) : FRef := ⟨0x080050 + 4 * c, 7, 4⟩
def RIDGE_SCAN_CLK_FLOOR (c : Nat) : FRef := ⟨0x080050 + 4 * c, 3, 0⟩
def RIDGE_CLS_CFG (k : Nat) : FRef := ⟨0x080100 + 0x10 * k, 31, 0⟩
def RIDGE_CLS_CFG_EN (k : Nat) : FRef := ⟨0x080100 + 0x10 * k, 31, 31⟩
def RIDGE_CLS_CFG_REF_SAT (k : Nat) : FRef := ⟨0x080100 + 0x10 * k, 30, 30⟩
def RIDGE_CLS_CFG_PRIO (k : Nat) : FRef := ⟨0x080100 + 0x10 * k, 2, 0⟩
def RIDGE_CLS_COST (k : Nat) : FRef := ⟨0x080104 + 0x10 * k, 31, 0⟩
def RIDGE_CLS_DRAW (k : Nat) : FRef := ⟨0x080108 + 0x10 * k, 31, 0⟩
def RIDGE_CLS_REFUSED (k : Nat) : FRef := ⟨0x08010C + 0x10 * k, 31, 0⟩
def LAMP_CTL : FRef := ⟨0x2C0000, 31, 0⟩
def LAMP_CTL_AUTO_EN : FRef := ⟨0x2C0000, 31, 31⟩
def LAMP_CTL_FIX_PAGE : FRef := ⟨0x2C0000, 6, 0⟩
def LAMP_STAT : FRef := ⟨0x2C0004, 31, 0⟩
def LAMP_STAT_DISABLED : FRef := ⟨0x2C0004, 31, 31⟩
def LAMP_STAT_SAT : FRef := ⟨0x2C0004, 30, 27⟩
def LAMP_STAT_PENDING : FRef := ⟨0x2C0004, 16, 0⟩
def LAMP_DERATE : FRef := ⟨0x2C0008, 31, 0⟩
def LAMP_DERATE_T_STOP : FRef := ⟨0x2C0008, 31, 16⟩
def LAMP_DERATE_T_START : FRef := ⟨0x2C0008, 15, 0⟩
def LAMP_DERATE_MIN : FRef := ⟨0x2C000C, 31, 0⟩
def LAMP_DERATE_MIN_K_MIN : FRef := ⟨0x2C000C, 15, 0⟩
def LAMP_SUB_TGT : FRef := ⟨0x2C0010, 31, 0⟩
def LAMP_SUB_TGT_GROUP : FRef := ⟨0x2C0010, 31, 31⟩
def LAMP_SUB_TGT_TARGET : FRef := ⟨0x2C0010, 21, 0⟩
def LAMP_SUB_LATCH_LO : FRef := ⟨0x2C0014, 31, 0⟩
def LAMP_SUB_LATCH_HI : FRef := ⟨0x2C0018, 31, 0⟩
def LAMP_SUB_FADE : FRef := ⟨0x2C001C, 31, 0⟩
def LAMP_SUB_LVL (i : Nat) : FRef := ⟨0x2C0020 + 8 * i, 31, 0⟩
def LAMP_SUB_LVL_LVL_ODD (i : Nat) : FRef := ⟨0x2C0020 + 8 * i, 31, 16⟩
def LAMP_SUB_LVL_LVL_EVEN (i : Nat) : FRef := ⟨0x2C0020 + 8 * i, 15, 0⟩
def LAMP_SUB_LVL_C (i : Nat) : FRef := ⟨0x2C0024 + 8 * i, 31, 0⟩
def LAMP_SUB_LVL_C_LVL_ODD (i : Nat) : FRef := ⟨0x2C0024 + 8 * i, 31, 16⟩
def LAMP_SUB_LVL_C_LVL_EVEN (i : Nat) : FRef := ⟨0x2C0024 + 8 * i, 15, 0⟩
def LAMP_SUB_CMD : FRef := ⟨0x2C0040, 31, 0⟩
def LAMP_SUB_CMD_GO : FRef := ⟨0x2C0040, 31, 31⟩
def LAMP_SUB_CMD_MASK : FRef := ⟨0x2C0040, 15, 8⟩
def LAMP_SUB_CMD_CURVE : FRef := ⟨0x2C0040, 1, 0⟩
def LAMP_SUB_RES : FRef := ⟨0x2C0044, 31, 0⟩
def LAMP_SUB_RES_CODE : FRef := ⟨0x2C0044, 15, 0⟩
def LAMP_SUB_HANDLE : FRef := ⟨0x2C0048, 31, 0⟩
def LAMP_LATE_CNT : FRef := ⟨0x2C0050, 31, 0⟩
def LAMP_MISS_CNT : FRef := ⟨0x2C0054, 31, 0⟩
def LAMP_RPT_DROP_CNT : FRef := ⟨0x2C0058, 31, 0⟩
def LAMP_EVAL_SKIP_CNT : FRef := ⟨0x2C005C, 31, 0⟩
def LAMP_FW_CTL : FRef := ⟨0x2C0080, 31, 0⟩
def LAMP_FW_CTL_GO : FRef := ⟨0x2C0080, 31, 31⟩
def LAMP_FW_CTL_ABORT : FRef := ⟨0x2C0080, 30, 30⟩
def LAMP_FW_CTL_KEY : FRef := ⟨0x2C0080, 25, 18⟩
def LAMP_FW_CTL_GROUP : FRef := ⟨0x2C0080, 17, 0⟩
def LAMP_FW_STAT : FRef := ⟨0x2C0084, 31, 0⟩
def LAMP_FW_STAT_STATE : FRef := ⟨0x2C0084, 31, 28⟩
def LAMP_FW_STAT_ROUND : FRef := ⟨0x2C0084, 27, 25⟩
def LAMP_FW_STAT_CODE : FRef := ⟨0x2C0084, 15, 0⟩
def LAMP_FW_ACT_LO : FRef := ⟨0x2C0088, 31, 0⟩
def LAMP_FW_ACT_HI : FRef := ⟨0x2C008C, 31, 0⟩
def LOOP_CTL : FRef := ⟨0x300000, 31, 0⟩
def LOOP_CTL_RUN : FRef := ⟨0x300000, 31, 31⟩
def LOOP_STAT : FRef := ⟨0x300004, 31, 0⟩
def LOOP_STAT_DISABLED : FRef := ⟨0x300004, 31, 31⟩
def LOOP_STAT_SAT : FRef := ⟨0x300004, 30, 28⟩
def LOOP_STAT_LOAD : FRef := ⟨0x300004, 18, 0⟩
def LOOP_PAIR_CNT : FRef := ⟨0x300010, 31, 0⟩
def LOOP_FE_CNT : FRef := ⟨0x300014, 31, 0⟩
def LOOP_REJ_CNT : FRef := ⟨0x300018, 31, 0⟩
def LOOP_SWAP_SET (w : Nat) : FRef := ⟨0x300100 + 4 * w, 31, 0⟩
def LOOP_SWAP_CMD : FRef := ⟨0x300140, 31, 0⟩
def LOOP_SWAP_CMD_GO : FRef := ⟨0x300140, 31, 31⟩
def LOOP_SWAP_CMD_MODE : FRef := ⟨0x300140, 0, 0⟩
def LOOP_SWAP_AT_LO : FRef := ⟨0x300144, 31, 0⟩
def LOOP_SWAP_AT_HI : FRef := ⟨0x300148, 31, 0⟩
def LOOP_SWAP_RES : FRef := ⟨0x30014C, 31, 0⟩
def LOOP_SWAP_RES_DONE : FRef := ⟨0x30014C, 31, 31⟩
def LOOP_SWAP_RES_CODE : FRef := ⟨0x30014C, 15, 0⟩
def LOOP_TG_CTL (g : Nat) : FRef := ⟨0x300200 + 0x40 * g, 31, 0⟩
def LOOP_TG_CTL_GO (g : Nat) : FRef := ⟨0x300200 + 0x40 * g, 31, 31⟩
def LOOP_TG_CTL_ABORT (g : Nat) : FRef := ⟨0x300200 + 0x40 * g, 30, 30⟩
def LOOP_TG_CTL_TYPE (g : Nat) : FRef := ⟨0x300200 + 0x40 * g, 29, 28⟩
def LOOP_TG_CTL_TARGET (g : Nat) : FRef := ⟨0x300200 + 0x40 * g, 27, 27⟩
def LOOP_TG_CTL_ORDER (g : Nat) : FRef := ⟨0x300200 + 0x40 * g, 26, 23⟩
def LOOP_TG_CTL_LOOP (g : Nat) : FRef := ⟨0x300200 + 0x40 * g, 8, 0⟩
def LOOP_TG_STAT (g : Nat) : FRef := ⟨0x300204 + 0x40 * g, 31, 0⟩
def LOOP_TG_STAT_RUNNING (g : Nat) : FRef := ⟨0x300204 + 0x40 * g, 31, 31⟩
def LOOP_TG_STAT_ABORTED (g : Nat) : FRef := ⟨0x300204 + 0x40 * g, 30, 30⟩
def LOOP_TG_STAT_CODE (g : Nat) : FRef := ⟨0x300204 + 0x40 * g, 15, 0⟩
def LOOP_TG_LEN (g : Nat) : FRef := ⟨0x300208 + 0x40 * g, 31, 0⟩
def LOOP_TG_LEN_REPEAT (g : Nat) : FRef := ⟨0x300208 + 0x40 * g, 31, 24⟩
def LOOP_TG_LEN_LEN (g : Nat) : FRef := ⟨0x300208 + 0x40 * g, 23, 0⟩
def LOOP_TG_AMP_LO (g : Nat) : FRef := ⟨0x300210 + 0x40 * g, 31, 0⟩
def LOOP_TG_AMP_HI (g : Nat) : FRef := ⟨0x300214 + 0x40 * g, 31, 0⟩
def LOOP_TG_F0_LO (g : Nat) : FRef := ⟨0x300218 + 0x40 * g, 31, 0⟩
def LOOP_TG_F0_HI (g : Nat) : FRef := ⟨0x30021C + 0x40 * g, 31, 0⟩
def LOOP_TG_F1_LO (g : Nat) : FRef := ⟨0x300220 + 0x40 * g, 31, 0⟩
def LOOP_TG_F1_HI (g : Nat) : FRef := ⟨0x300224 + 0x40 * g, 31, 0⟩
def LOOP_CAP_CTL : FRef := ⟨0x300400, 31, 0⟩
def LOOP_CAP_CTL_ARM : FRef := ⟨0x300400, 31, 31⟩
def LOOP_CAP_CTL_STOP : FRef := ⟨0x300400, 30, 30⟩
def LOOP_CAP_CTL_TRIG : FRef := ⟨0x300400, 29, 28⟩
def LOOP_CAP_CTL_ARG : FRef := ⟨0x300400, 24, 16⟩
def LOOP_CAP_CTL_PRE : FRef := ⟨0x300400, 15, 0⟩
def LOOP_CAP_STAT : FRef := ⟨0x300404, 31, 0⟩
def LOOP_CAP_STAT_STATE : FRef := ⟨0x300404, 31, 30⟩
def LOOP_CAP_STAT_FILL : FRef := ⟨0x300404, 16, 0⟩
def LOOP_CAP_TRIG_LO : FRef := ⟨0x300408, 31, 0⟩
def LOOP_CAP_TRIG_HI : FRef := ⟨0x30040C, 31, 0⟩
def LOOP_CAP_CH (c : Nat) : FRef := ⟨0x300440 + 4 * c, 31, 0⟩
def LOOP_CAP_CH_EN (c : Nat) : FRef := ⟨0x300440 + 4 * c, 31, 31⟩
def LOOP_CAP_CH_SIG (c : Nat) : FRef := ⟨0x300440 + 4 * c, 11, 9⟩
def LOOP_CAP_CH_LOOP (c : Nat) : FRef := ⟨0x300440 + 4 * c, 8, 0⟩
def LOOP_L_CTL (n : Nat) : FRef := ⟨0x301000 + 0x10 * n, 31, 0⟩
def LOOP_L_CTL_RESET (n : Nat) : FRef := ⟨0x301000 + 0x10 * n, 31, 31⟩
def LOOP_L_CTL_MODE (n : Nat) : FRef := ⟨0x301000 + 0x10 * n, 0, 0⟩
def LOOP_L_STAT (n : Nat) : FRef := ⟨0x301004 + 0x10 * n, 31, 0⟩
def LOOP_L_STAT_STATE (n : Nat) : FRef := ⟨0x301004 + 0x10 * n, 31, 29⟩
def LOOP_L_STAT_BANK (n : Nat) : FRef := ⟨0x301004 + 0x10 * n, 28, 28⟩
def LOOP_L_STAT_TEST (n : Nat) : FRef := ⟨0x301004 + 0x10 * n, 27, 27⟩
def LOOP_L_STAT_SAT_HI (n : Nat) : FRef := ⟨0x301004 + 0x10 * n, 26, 26⟩
def LOOP_L_STAT_SAT_LO (n : Nat) : FRef := ⟨0x301004 + 0x10 * n, 25, 25⟩
def LOOP_L_STAT_FLAGS (n : Nat) : FRef := ⟨0x301004 + 0x10 * n, 5, 0⟩
def LOOP_L_MAN_LO (n : Nat) : FRef := ⟨0x301008 + 0x10 * n, 31, 0⟩
def LOOP_L_MAN_HI (n : Nat) : FRef := ⟨0x30100C + 0x10 * n, 31, 0⟩
def METER_CTL : FRef := ⟨0x340000, 31, 0⟩
def METER_CTL_SDM_EN : FRef := ⟨0x340000, 31, 31⟩
def METER_STAT : FRef := ⟨0x340004, 31, 0⟩
def METER_STAT_DISABLED : FRef := ⟨0x340004, 31, 31⟩
def METER_STAT_FOLDING : FRef := ⟨0x340004, 30, 30⟩
def METER_STAT_LOST : FRef := ⟨0x340004, 29, 29⟩
def METER_STAT_SAT : FRef := ⟨0x340004, 28, 26⟩
def METER_STAT_CHANNELS : FRef := ⟨0x340004, 14, 0⟩
def METER_VM_TOL : FRef := ⟨0x340008, 31, 0⟩
def METER_VM_TOL_ABS : FRef := ⟨0x340008, 31, 16⟩
def METER_VM_TOL_PCT : FRef := ⟨0x340008, 7, 0⟩
def METER_WRAP_CNT : FRef := ⟨0x340010, 31, 0⟩
def METER_PAIR_CNT : FRef := ⟨0x340014, 31, 0⟩
def METER_CLAMP_CNT : FRef := ⟨0x340018, 31, 0⟩
def METER_LOST_START_LO : FRef := ⟨0x340020, 31, 0⟩
def METER_LOST_START_HI : FRef := ⟨0x340024, 31, 0⟩
def METER_LOST_LEN : FRef := ⟨0x340028, 31, 0⟩
def METER_LOST_CNT : FRef := ⟨0x34002C, 31, 0⟩
def METER_LOST_CNT_CHANNELS : FRef := ⟨0x34002C, 15, 0⟩
def METER_SDM_CFG (c : Nat) : FRef := ⟨0x340100 + 0x10 * c, 31, 0⟩
def METER_SDM_CFG_EN (c : Nat) : FRef := ⟨0x340100 + 0x10 * c, 31, 31⟩
def METER_SDM_CFG_INV (c : Nat) : FRef := ⟨0x340100 + 0x10 * c, 30, 30⟩
def METER_SDM_CFG_HPF (c : Nat) : FRef := ⟨0x340100 + 0x10 * c, 29, 29⟩
def METER_SDM_CFG_DELAY (c : Nat) : FRef := ⟨0x340100 + 0x10 * c, 10, 0⟩
def METER_SDM_STAT (c : Nat) : FRef := ⟨0x340104 + 0x10 * c, 31, 0⟩
def METER_SDM_STAT_MOD_FAULT (c : Nat) : FRef := ⟨0x340104 + 0x10 * c, 31, 31⟩
def METER_SDM_STAT_OVR (c : Nat) : FRef := ⟨0x340104 + 0x10 * c, 30, 30⟩
def METER_SDM_STAT_PEAK (c : Nat) : FRef := ⟨0x340104 + 0x10 * c, 23, 0⟩
def METER_SDM_GAIN_LO (c : Nat) : FRef := ⟨0x340108 + 0x10 * c, 31, 0⟩
def METER_SDM_GAIN_HI (c : Nat) : FRef := ⟨0x34010C + 0x10 * c, 31, 0⟩
def METER_MP_CFG (m : Nat) : FRef := ⟨0x340800 + 0x20 * m, 31, 0⟩
def METER_MP_CFG_EN (m : Nat) : FRef := ⟨0x340800 + 0x20 * m, 31, 31⟩
def METER_MP_CFG_WIRING (m : Nat) : FRef := ⟨0x340800 + 0x20 * m, 30, 29⟩
def METER_MP_CFG_FNOM (m : Nat) : FRef := ⟨0x340800 + 0x20 * m, 28, 28⟩
def METER_MP_THR (m : Nat) : FRef := ⟨0x340804 + 0x20 * m, 31, 0⟩
def METER_MP_THR_SWELL (m : Nat) : FRef := ⟨0x340804 + 0x20 * m, 31, 24⟩
def METER_MP_THR_DIP (m : Nat) : FRef := ⟨0x340804 + 0x20 * m, 23, 16⟩
def METER_MP_THR_INTR (m : Nat) : FRef := ⟨0x340804 + 0x20 * m, 15, 8⟩
def METER_MP_THR_HYST (m : Nat) : FRef := ⟨0x340804 + 0x20 * m, 7, 0⟩
def METER_MP_UDECL_LO (m : Nat) : FRef := ⟨0x340808 + 0x20 * m, 31, 0⟩
def METER_MP_UDECL_HI (m : Nat) : FRef := ⟨0x34080C + 0x20 * m, 31, 0⟩
def METER_MP_TAG_LO (m : Nat) : FRef := ⟨0x340810 + 0x20 * m, 31, 0⟩
def METER_MP_TAG_HI (m : Nat) : FRef := ⟨0x340814 + 0x20 * m, 31, 0⟩
def METER_AUX_TAG_LO (a : Nat) : FRef := ⟨0x340A00 + 8 * a, 31, 0⟩
def METER_AUX_TAG_HI (a : Nat) : FRef := ⟨0x340A04 + 8 * a, 31, 0⟩
def METER_PI_CFG (p : Nat) : FRef := ⟨0x340C00 + 8 * p, 31, 0⟩
def METER_PI_CFG_EN (p : Nat) : FRef := ⟨0x340C00 + 8 * p, 31, 31⟩
def METER_PI_CFG_POL (p : Nat) : FRef := ⟨0x340C00 + 8 * p, 30, 30⟩
def METER_PI_CFG_MINPER (p : Nat) : FRef := ⟨0x340C00 + 8 * p, 29, 16⟩
def METER_PI_CFG_DEB (p : Nat) : FRef := ⟨0x340C00 + 8 * p, 15, 0⟩
def METER_PI_STAT (p : Nat) : FRef := ⟨0x340C04 + 8 * p, 31, 0⟩
def METER_PI_STAT_LEVEL (p : Nat) : FRef := ⟨0x340C04 + 8 * p, 31, 31⟩
def METER_PI_STAT_CHATTER (p : Nat) : FRef := ⟨0x340C04 + 8 * p, 30, 30⟩
def TXN_CTL : FRef := ⟨0x180000, 31, 0⟩
def TXN_CTL_AUTOQ_EN : FRef := ⟨0x180000, 31, 31⟩
def TXN_CTL_LG_DEADLINE : FRef := ⟨0x180000, 15, 0⟩
def TXN_STAT : FRef := ⟨0x180004, 31, 0⟩
def TXN_STAT_SAT : FRef := ⟨0x180004, 31, 25⟩
def TXN_STAT_XOFF : FRef := ⟨0x180004, 22, 17⟩
def TXN_STAT_USED : FRef := ⟨0x180004, 16, 0⟩
def TXN_DQ_USED : FRef := ⟨0x180008, 31, 0⟩
def TXN_DQ_USED_KIB : FRef := ⟨0x180008, 20, 0⟩
def TXN_DUP_CNT : FRef := ⟨0x180010, 31, 0⟩
def TXN_LATE_CNT : FRef := ⟨0x180014, 31, 0⟩
def TXN_OVF_CNT : FRef := ⟨0x180018, 31, 0⟩
def TXN_DQ_DROP_CNT : FRef := ⟨0x18001C, 31, 0⟩
def TXN_CLASS_MIS_CNT : FRef := ⟨0x180020, 31, 0⟩
def TXN_PFC_IGN_CNT : FRef := ⟨0x180024, 31, 0⟩
def TXN_NOROUTE_CNT : FRef := ⟨0x180028, 31, 0⟩
def TXN_CLS_PFC (k : Nat) : FRef := ⟨0x180040 + 0x10 * k, 31, 0⟩
def TXN_CLS_PFC_XOFF (k : Nat) : FRef := ⟨0x180040 + 0x10 * k, 31, 16⟩
def TXN_CLS_PFC_XON (k : Nat) : FRef := ⟨0x180040 + 0x10 * k, 15, 0⟩
def TXN_CLS_MIN (k : Nat) : FRef := ⟨0x180044 + 0x10 * k, 31, 0⟩
def TXN_CLS_MIN_KIB (k : Nat) : FRef := ⟨0x180044 + 0x10 * k, 14, 0⟩
def TXN_CLS_OCC (k : Nat) : FRef := ⟨0x180048 + 0x10 * k, 31, 0⟩
def TXN_CLS_OCC_SPILL (k : Nat) : FRef := ⟨0x180048 + 0x10 * k, 31, 31⟩
def TXN_CLS_OCC_KIB (k : Nat) : FRef := ⟨0x180048 + 0x10 * k, 14, 0⟩
def TXN_CLS_DQ (k : Nat) : FRef := ⟨0x18004C + 0x10 * k, 31, 0⟩
def TXN_CLS_DQ_KIB (k : Nat) : FRef := ⟨0x18004C + 0x10 * k, 20, 0⟩
def TXN_Q_TGT : FRef := ⟨0x180100, 31, 0⟩
def TXN_Q_TGT_PORT : FRef := ⟨0x180100, 31, 31⟩
def TXN_Q_TGT_TARGET : FRef := ⟨0x180100, 17, 0⟩
def TXN_Q_PARAM : FRef := ⟨0x180104, 31, 0⟩
def TXN_Q_PARAM_RATE : FRef := ⟨0x180104, 31, 8⟩
def TXN_Q_PARAM_MASK : FRef := ⟨0x180104, 5, 0⟩
def TXN_Q_UNTIL_LO : FRef := ⟨0x180108, 31, 0⟩
def TXN_Q_UNTIL_HI : FRef := ⟨0x18010C, 31, 0⟩
def TXN_Q_CMD : FRef := ⟨0x180110, 31, 0⟩
def TXN_Q_CMD_GO : FRef := ⟨0x180110, 31, 31⟩
def TXN_Q_CMD_ACK_REQ : FRef := ⟨0x180110, 0, 0⟩
def TXN_Q_RES : FRef := ⟨0x180114, 31, 0⟩
def TXN_Q_RES_DONE : FRef := ⟨0x180114, 31, 31⟩
def TXN_Q_RES_CODE : FRef := ⟨0x180114, 15, 0⟩
def TXN_STA_SEL : FRef := ⟨0x180200, 31, 0⟩
def TXN_STA_SEL_STATION : FRef := ⟨0x180200, 17, 0⟩
def TXN_STA_STAT : FRef := ⟨0x180204, 31, 0⟩
def TXN_STA_STAT_UP : FRef := ⟨0x180204, 31, 31⟩
def TXN_STA_STAT_QUENCHED : FRef := ⟨0x180204, 30, 30⟩
def TXN_STA_STAT_BABBLE : FRef := ⟨0x180204, 29, 29⟩
def TXN_STA_STAT_OUT : FRef := ⟨0x180204, 28, 22⟩
def TXN_STA_STAT_QUEUED : FRef := ⟨0x180204, 15, 0⟩
def TXN_STA_HEARD_LO : FRef := ⟨0x180208, 31, 0⟩
def TXN_STA_HEARD_HI : FRef := ⟨0x18020C, 31, 0⟩
def UPL_CTL : FRef := ⟨0x1C0000, 31, 0⟩
def UPL_CTL_ETYPE : FRef := ⟨0x1C0000, 31, 16⟩
def UPL_CTL_UDP_PORT : FRef := ⟨0x1C0000, 15, 0⟩
def UPL_PCP_MAP : FRef := ⟨0x1C0004, 31, 0⟩
def UPL_P_CFG (u : Nat) : FRef := ⟨0x1C0010 + 0x10 * u, 31, 0⟩
def UPL_P_CFG_EN (u : Nat) : FRef := ⟨0x1C0010 + 0x10 * u, 31, 31⟩
def UPL_P_CFG_PTP (u : Nat) : FRef := ⟨0x1C0010 + 0x10 * u, 30, 30⟩
def UPL_P_CFG_PORT_MASTER (u : Nat) : FRef := ⟨0x1C0010 + 0x10 * u, 29, 29⟩
def UPL_P_CFG_UNTAG (u : Nat) : FRef := ⟨0x1C0010 + 0x10 * u, 28, 28⟩
def UPL_P_CFG_FEC (u : Nat) : FRef := ⟨0x1C0010 + 0x10 * u, 27, 26⟩
def UPL_P_CFG_VID (u : Nat) : FRef := ⟨0x1C0010 + 0x10 * u, 11, 0⟩
def UPL_P_STAT (u : Nat) : FRef := ⟨0x1C0014 + 0x10 * u, 31, 0⟩
def UPL_P_STAT_LINK (u : Nat) : FRef := ⟨0x1C0014 + 0x10 * u, 31, 31⟩
def UPL_P_STAT_DROP_SAT (u : Nat) : FRef := ⟨0x1C0014 + 0x10 * u, 30, 30⟩
def UPL_P_STAT_PTP_STATE (u : Nat) : FRef := ⟨0x1C0014 + 0x10 * u, 29, 27⟩
def UPL_P_DROP (u : Nat) : FRef := ⟨0x1C0018 + 0x10 * u, 31, 0⟩
def UPL_SG_CFG (s : Nat) : FRef := ⟨0x1C0100 + 0x10 * s, 31, 0⟩
def UPL_SG_CFG_EN (s : Nat) : FRef := ⟨0x1C0100 + 0x10 * s, 31, 31⟩
def UPL_SG_CFG_MODE (s : Nat) : FRef := ⟨0x1C0100 + 0x10 * s, 30, 30⟩
def UPL_SG_CFG_BEACON (s : Nat) : FRef := ⟨0x1C0100 + 0x10 * s, 7, 0⟩
def UPL_SG_STAT (s : Nat) : FRef := ⟨0x1C0104 + 0x10 * s, 31, 0⟩
def UPL_SG_STAT_LINK (s : Nat) : FRef := ⟨0x1C0104 + 0x10 * s, 31, 31⟩
def UPL_SG_STAT_SPEED (s : Nat) : FRef := ⟨0x1C0104 + 0x10 * s, 30, 29⟩
def UPL_TIME_CTL : FRef := ⟨0x1C0200, 31, 0⟩
def UPL_TIME_CTL_MODE : FRef := ⟨0x1C0200, 31, 30⟩
def UPL_TIME_CTL_TRUST_NS : FRef := ⟨0x1C0200, 19, 0⟩
def UPL_TIME_STAT : FRef := ⟨0x1C0204, 31, 0⟩
def UPL_TIME_STAT_TRUSTED : FRef := ⟨0x1C0204, 31, 31⟩
def UPL_TIME_STAT_LG_DROP_SAT : FRef := ⟨0x1C0204, 30, 30⟩
def UPL_TIME_STAT_LOCKED : FRef := ⟨0x1C0204, 29, 29⟩
def UPL_TIME_STAT_SET_REF : FRef := ⟨0x1C0204, 28, 28⟩
def UPL_TIME_STAT_MASTER_PORT : FRef := ⟨0x1C0204, 25, 24⟩
def UPL_TIME_STAT_HAS_MASTER : FRef := ⟨0x1C0204, 23, 23⟩
def UPL_TIME_NOW_LO : FRef := ⟨0x1C0208, 31, 0⟩
def UPL_TIME_NOW_HI : FRef := ⟨0x1C020C, 31, 0⟩
def UPL_TIME_SET_LO : FRef := ⟨0x1C0210, 31, 0⟩
def UPL_TIME_SET_HI : FRef := ⟨0x1C0214, 31, 0⟩
def UPL_TIME_OFS : FRef := ⟨0x1C0218, 31, 0⟩
def UPL_TIME_HOLD : FRef := ⟨0x1C021C, 31, 0⟩
def UPL_PTP_CFG : FRef := ⟨0x1C0220, 31, 0⟩
def UPL_PTP_CFG_TRANSPORT : FRef := ⟨0x1C0220, 31, 30⟩
def UPL_PTP_CFG_DELAY : FRef := ⟨0x1C0220, 29, 29⟩
def UPL_PTP_CFG_SYNC_LOG : FRef := ⟨0x1C0220, 28, 25⟩
def UPL_PTP_CFG_ANN_LOG : FRef := ⟨0x1C0220, 24, 23⟩
def UPL_PTP_CFG_DOMAIN : FRef := ⟨0x1C0220, 22, 16⟩
def UPL_PTP_CFG_PRIO1 : FRef := ⟨0x1C0220, 15, 8⟩
def UPL_PTP_CFG_STEP_THR : FRef := ⟨0x1C0220, 7, 0⟩
def UPL_UTC : FRef := ⟨0x1C0224, 31, 0⟩
def UPL_UTC_VALID : FRef := ⟨0x1C0224, 31, 31⟩
def UPL_UTC_LI61 : FRef := ⟨0x1C0224, 30, 30⟩
def UPL_UTC_LI59 : FRef := ⟨0x1C0224, 29, 29⟩
def UPL_UTC_OFS : FRef := ⟨0x1C0224, 15, 0⟩
def UPL_LEAGUE_ID : FRef := ⟨0x1C0300, 31, 0⟩
def UPL_LG_DROP : FRef := ⟨0x1C0304, 31, 0⟩
def UPL_PCIE_STAT : FRef := ⟨0x1C0400, 31, 0⟩
def UPL_PCIE_STAT_LINK : FRef := ⟨0x1C0400, 31, 31⟩
def UPL_PCIE_STAT_GEN : FRef := ⟨0x1C0400, 30, 28⟩
def UPL_PCIE_STAT_WIDTH : FRef := ⟨0x1C0400, 27, 25⟩
def UPL_PCIE_STAT_PARTIAL : FRef := ⟨0x1C0400, 15, 0⟩
def UPL_UART_CFG : FRef := ⟨0x1C0404, 31, 0⟩
def UPL_UART_CFG_RATE : FRef := ⟨0x1C0404, 31, 28⟩
def UPL_UART_CFG_ERR : FRef := ⟨0x1C0404, 15, 0⟩
def FLD_T1S_CFG (s : Nat) : FRef := ⟨0x200000 + 0x40 * s, 31, 0⟩
def FLD_T1S_CFG_EN (s : Nat) : FRef := ⟨0x200000 + 0x40 * s, 31, 31⟩
def FLD_T1S_CFG_QCLR (s : Nat) : FRef := ⟨0x200000 + 0x40 * s, 30, 30⟩
def FLD_T1S_CFG_BCN (s : Nat) : FRef := ⟨0x200000 + 0x40 * s, 23, 16⟩
def FLD_T1S_CFG_SILENT (s : Nat) : FRef := ⟨0x200000 + 0x40 * s, 15, 0⟩
def FLD_T1S_PLCA (s : Nat) : FRef := ⟨0x200004 + 0x40 * s, 31, 0⟩
def FLD_T1S_PLCA_NCNT (s : Nat) : FRef := ⟨0x200004 + 0x40 * s, 31, 24⟩
def FLD_T1S_PLCA_TO (s : Nat) : FRef := ⟨0x200004 + 0x40 * s, 23, 16⟩
def FLD_T1S_PLCA_BURST (s : Nat) : FRef := ⟨0x200004 + 0x40 * s, 1, 0⟩
def FLD_T1S_STAT (s : Nat) : FRef := ⟨0x200008 + 0x40 * s, 31, 0⟩
def FLD_T1S_STAT_QUAR (s : Nat) : FRef := ⟨0x200008 + 0x40 * s, 31, 31⟩
def FLD_T1S_STAT_SILENT (s : Nat) : FRef := ⟨0x200008 + 0x40 * s, 30, 30⟩
def FLD_T1S_STAT_NODE (s : Nat) : FRef := ⟨0x200008 + 0x40 * s, 29, 29⟩
def FLD_T1S_STAT_COL_SAT (s : Nat) : FRef := ⟨0x200008 + 0x40 * s, 28, 28⟩
def FLD_T1S_STAT_RXERR_SAT (s : Nat) : FRef := ⟨0x200008 + 0x40 * s, 27, 27⟩
def FLD_T1S_STAT_CYCLE (s : Nat) : FRef := ⟨0x200008 + 0x40 * s, 15, 0⟩
def FLD_T1S_COL_CNT (s : Nat) : FRef := ⟨0x20000C + 0x40 * s, 31, 0⟩
def FLD_T1S_RXERR_CNT (s : Nat) : FRef := ⟨0x200010 + 0x40 * s, 31, 0⟩
def FLD_PLC_CFG (i : Nat) : FRef := ⟨0x201000 + 0x40 * i, 31, 0⟩
def FLD_PLC_CFG_EN (i : Nat) : FRef := ⟨0x201000 + 0x40 * i, 31, 31⟩
def FLD_PLC_CFG_QCLR (i : Nat) : FRef := ⟨0x201000 + 0x40 * i, 30, 30⟩
def FLD_PLC_CFG_BAND (i : Nat) : FRef := ⟨0x201000 + 0x40 * i, 29, 29⟩
def FLD_PLC_CFG_BHOPS (i : Nat) : FRef := ⟨0x201000 + 0x40 * i, 25, 24⟩
def FLD_PLC_CFG_PAN_ID (i : Nat) : FRef := ⟨0x201000 + 0x40 * i, 15, 0⟩
def FLD_PLC_BCN (i : Nat) : FRef := ⟨0x201004 + 0x40 * i, 31, 0⟩
def FLD_PLC_BCN_PERIOD (i : Nat) : FRef := ⟨0x201004 + 0x40 * i, 31, 16⟩
def FLD_PLC_BCN_CFW (i : Nat) : FRef := ⟨0x201004 + 0x40 * i, 15, 0⟩
def FLD_PLC_KEY (i : Nat) : FRef := ⟨0x201008 + 0x40 * i, 31, 0⟩
def FLD_PLC_KEY_PSK_SLOT (i : Nat) : FRef := ⟨0x201008 + 0x40 * i, 15, 8⟩
def FLD_PLC_KEY_GMK_SLOT (i : Nat) : FRef := ⟨0x201008 + 0x40 * i, 7, 0⟩
def FLD_PLC_STAT (i : Nat) : FRef := ⟨0x20100C + 0x40 * i, 31, 0⟩
def FLD_PLC_STAT_AFE_FLT (i : Nat) : FRef := ⟨0x20100C + 0x40 * i, 31, 31⟩
def FLD_PLC_STAT_PAN_CONF (i : Nat) : FRef := ⟨0x20100C + 0x40 * i, 30, 30⟩
def FLD_PLC_STAT_COORD (i : Nat) : FRef := ⟨0x20100C + 0x40 * i, 29, 29⟩
def FLD_PLC_STAT_TXERR_SAT (i : Nat) : FRef := ⟨0x20100C + 0x40 * i, 28, 28⟩
def FLD_PLC_STAT_JOINREF_SAT (i : Nat) : FRef := ⟨0x20100C + 0x40 * i, 27, 27⟩
def FLD_PLC_STAT_JOINED (i : Nat) : FRef := ⟨0x20100C + 0x40 * i, 10, 0⟩
def FLD_PLC_TXERR_CNT (i : Nat) : FRef := ⟨0x201010 + 0x40 * i, 31, 0⟩
def FLD_PLC_JOINREF_CNT (i : Nat) : FRef := ⟨0x201014 + 0x40 * i, 31, 0⟩
def FLD_MAC_LO : FRef := ⟨0x202000, 31, 0⟩
def FLD_MAC_HI : FRef := ⟨0x202004, 31, 0⟩
def FLD_MAC_HI_MAC : FRef := ⟨0x202004, 15, 0⟩
def CAN_CFG (n : Nat) : FRef := ⟨0x240000 + 0x1000 * n, 31, 0⟩
def CAN_CFG_EN (n : Nat) : FRef := ⟨0x240000 + 0x1000 * n, 31, 31⟩
def CAN_CFG_MODE (n : Nat) : FRef := ⟨0x240000 + 0x1000 * n, 30, 29⟩
def CAN_CFG_PXE (n : Nat) : FRef := ⟨0x240000 + 0x1000 * n, 28, 28⟩
def CAN_CFG_TXORD (n : Nat) : FRef := ⟨0x240000 + 0x1000 * n, 27, 27⟩
def CAN_CFG_STB_POL (n : Nat) : FRef := ⟨0x240000 + 0x1000 * n, 26, 26⟩
def CAN_CFG_BCN (n : Nat) : FRef := ⟨0x240000 + 0x1000 * n, 15, 8⟩
def CAN_NBT (n : Nat) : FRef := ⟨0x240004 + 0x1000 * n, 31, 0⟩
def CAN_NBT_NBRP (n : Nat) : FRef := ⟨0x240004 + 0x1000 * n, 31, 23⟩
def CAN_NBT_NSEG1 (n : Nat) : FRef := ⟨0x240004 + 0x1000 * n, 22, 15⟩
def CAN_NBT_NSEG2 (n : Nat) : FRef := ⟨0x240004 + 0x1000 * n, 14, 8⟩
def CAN_NBT_NSJW (n : Nat) : FRef := ⟨0x240004 + 0x1000 * n, 6, 0⟩
def CAN_DBT (n : Nat) : FRef := ⟨0x240008 + 0x1000 * n, 31, 0⟩
def CAN_DBT_DBRP (n : Nat) : FRef := ⟨0x240008 + 0x1000 * n, 28, 24⟩
def CAN_DBT_DSEG1 (n : Nat) : FRef := ⟨0x240008 + 0x1000 * n, 23, 19⟩
def CAN_DBT_DSEG2 (n : Nat) : FRef := ⟨0x240008 + 0x1000 * n, 18, 15⟩
def CAN_DBT_DSJW (n : Nat) : FRef := ⟨0x240008 + 0x1000 * n, 14, 11⟩
def CAN_DBT_TDC (n : Nat) : FRef := ⟨0x240008 + 0x1000 * n, 7, 7⟩
def CAN_DBT_TDCO (n : Nat) : FRef := ⟨0x240008 + 0x1000 * n, 6, 0⟩
def CAN_STAT (n : Nat) : FRef := ⟨0x24000C + 0x1000 * n, 31, 0⟩
def CAN_STAT_STATE (n : Nat) : FRef := ⟨0x24000C + 0x1000 * n, 31, 29⟩
def CAN_STAT_EW (n : Nat) : FRef := ⟨0x24000C + 0x1000 * n, 28, 28⟩
def CAN_STAT_DISABLED (n : Nat) : FRef := ⟨0x24000C + 0x1000 * n, 27, 27⟩
def CAN_STAT_SAT (n : Nat) : FRef := ⟨0x24000C + 0x1000 * n, 26, 24⟩
def CAN_STAT_REASM (n : Nat) : FRef := ⟨0x24000C + 0x1000 * n, 8, 0⟩
def CAN_ERR (n : Nat) : FRef := ⟨0x240010 + 0x1000 * n, 31, 0⟩
def CAN_ERR_RP (n : Nat) : FRef := ⟨0x240010 + 0x1000 * n, 31, 31⟩
def CAN_ERR_REC (n : Nat) : FRef := ⟨0x240010 + 0x1000 * n, 30, 24⟩
def CAN_ERR_TEC (n : Nat) : FRef := ⟨0x240010 + 0x1000 * n, 23, 16⟩
def CAN_ERR_LEC (n : Nat) : FRef := ⟨0x240010 + 0x1000 * n, 15, 12⟩
def CAN_ERR_DLEC (n : Nat) : FRef := ⟨0x240010 + 0x1000 * n, 11, 8⟩
def CAN_CMD (n : Nat) : FRef := ⟨0x240014 + 0x1000 * n, 31, 0⟩
def CAN_CMD_RECOVER (n : Nat) : FRef := ⟨0x240014 + 0x1000 * n, 31, 31⟩
def CAN_SEG_CNT (n : Nat) : FRef := ⟨0x240018 + 0x1000 * n, 31, 0⟩
def CAN_RSV_CNT (n : Nat) : FRef := ⟨0x24001C + 0x1000 * n, 31, 0⟩
def CAN_PEX_CNT (n : Nat) : FRef := ⟨0x240020 + 0x1000 * n, 31, 0⟩
def CAN_TXB_ID (n : Nat) (b : Nat) : FRef := ⟨0x240100 + 0x1000 * n + 0x80 * b, 31, 0⟩
def CAN_TXB_ID_XTD (n : Nat) (b : Nat) : FRef := ⟨0x240100 + 0x1000 * n + 0x80 * b, 31, 31⟩
def CAN_TXB_ID_ID (n : Nat) (b : Nat) : FRef := ⟨0x240100 + 0x1000 * n + 0x80 * b, 28, 0⟩
def CAN_TXB_CTL (n : Nat) (b : Nat) : FRef := ⟨0x240104 + 0x1000 * n + 0x80 * b, 31, 0⟩
def CAN_TXB_CTL_FDF (n : Nat) (b : Nat) : FRef := ⟨0x240104 + 0x1000 * n + 0x80 * b, 31, 31⟩
def CAN_TXB_CTL_BRS (n : Nat) (b : Nat) : FRef := ⟨0x240104 + 0x1000 * n + 0x80 * b, 30, 30⟩
def CAN_TXB_CTL_ONESHOT (n : Nat) (b : Nat) : FRef := ⟨0x240104 + 0x1000 * n + 0x80 * b, 29, 29⟩
def CAN_TXB_CTL_DLC (n : Nat) (b : Nat) : FRef := ⟨0x240104 + 0x1000 * n + 0x80 * b, 3, 0⟩
def CAN_TXB_CMD (n : Nat) (b : Nat) : FRef := ⟨0x240108 + 0x1000 * n + 0x80 * b, 31, 0⟩
def CAN_TXB_CMD_REQ (n : Nat) (b : Nat) : FRef := ⟨0x240108 + 0x1000 * n + 0x80 * b, 31, 31⟩
def CAN_TXB_CMD_ABORT (n : Nat) (b : Nat) : FRef := ⟨0x240108 + 0x1000 * n + 0x80 * b, 30, 30⟩
def CAN_TXB_STAT (n : Nat) (b : Nat) : FRef := ⟨0x24010C + 0x1000 * n + 0x80 * b, 31, 0⟩
def CAN_TXB_STAT_PENDING (n : Nat) (b : Nat) : FRef := ⟨0x24010C + 0x1000 * n + 0x80 * b, 31, 31⟩
def CAN_TXB_STAT_ACTIVE (n : Nat) (b : Nat) : FRef := ⟨0x24010C + 0x1000 * n + 0x80 * b, 30, 30⟩
def CAN_TXB_STAT_ABORTED (n : Nat) (b : Nat) : FRef := ⟨0x24010C + 0x1000 * n + 0x80 * b, 29, 29⟩
def CAN_TXB_STAT_ARB_LOST (n : Nat) (b : Nat) : FRef := ⟨0x24010C + 0x1000 * n + 0x80 * b, 28, 28⟩
def CAN_TXB_STAT_CODE (n : Nat) (b : Nat) : FRef := ⟨0x24010C + 0x1000 * n + 0x80 * b, 15, 0⟩
def CAN_RXB_FLT (n : Nat) (r : Nat) : FRef := ⟨0x240400 + 0x1000 * n + 0x80 * r, 31, 0⟩
def CAN_RXB_FLT_EN (n : Nat) (r : Nat) : FRef := ⟨0x240400 + 0x1000 * n + 0x80 * r, 31, 31⟩
def CAN_RXB_FLT_XTD (n : Nat) (r : Nat) : FRef := ⟨0x240400 + 0x1000 * n + 0x80 * r, 30, 30⟩
def CAN_RXB_FLT_FILTER (n : Nat) (r : Nat) : FRef := ⟨0x240400 + 0x1000 * n + 0x80 * r, 28, 0⟩
def CAN_RXB_MASK (n : Nat) (r : Nat) : FRef := ⟨0x240404 + 0x1000 * n + 0x80 * r, 31, 0⟩
def CAN_RXB_MASK_MASK (n : Nat) (r : Nat) : FRef := ⟨0x240404 + 0x1000 * n + 0x80 * r, 28, 0⟩
def CAN_RXB_STAT (n : Nat) (r : Nat) : FRef := ⟨0x240408 + 0x1000 * n + 0x80 * r, 31, 0⟩
def CAN_RXB_STAT_NEW (n : Nat) (r : Nat) : FRef := ⟨0x240408 + 0x1000 * n + 0x80 * r, 31, 31⟩
def CAN_RXB_STAT_LOST (n : Nat) (r : Nat) : FRef := ⟨0x240408 + 0x1000 * n + 0x80 * r, 30, 30⟩
def CAN_RXB_ID (n : Nat) (r : Nat) : FRef := ⟨0x24040C + 0x1000 * n + 0x80 * r, 31, 0⟩
def CAN_RXB_ID_XTD (n : Nat) (r : Nat) : FRef := ⟨0x24040C + 0x1000 * n + 0x80 * r, 31, 31⟩
def CAN_RXB_ID_ID (n : Nat) (r : Nat) : FRef := ⟨0x24040C + 0x1000 * n + 0x80 * r, 28, 0⟩
def CAN_RXB_CTL (n : Nat) (r : Nat) : FRef := ⟨0x240410 + 0x1000 * n + 0x80 * r, 31, 0⟩
def CAN_RXB_CTL_FDF (n : Nat) (r : Nat) : FRef := ⟨0x240410 + 0x1000 * n + 0x80 * r, 31, 31⟩
def CAN_RXB_CTL_BRS (n : Nat) (r : Nat) : FRef := ⟨0x240410 + 0x1000 * n + 0x80 * r, 30, 30⟩
def CAN_RXB_CTL_ESI (n : Nat) (r : Nat) : FRef := ⟨0x240410 + 0x1000 * n + 0x80 * r, 29, 29⟩
def CAN_RXB_CTL_DLC (n : Nat) (r : Nat) : FRef := ⟨0x240410 + 0x1000 * n + 0x80 * r, 3, 0⟩
def CAN_RXB_STAMP_LO (n : Nat) (r : Nat) : FRef := ⟨0x240418 + 0x1000 * n + 0x80 * r, 31, 0⟩
def CAN_RXB_STAMP_HI (n : Nat) (r : Nat) : FRef := ⟨0x24041C + 0x1000 * n + 0x80 * r, 31, 0⟩
def CAN_TXB_DATA (n : Nat) (b : Nat) (w : Nat) : FRef := ⟨0x240140 + 0x1000 * n + 0x80 * b + 4 * w, 31, 0⟩
def CAN_RXB_DATA (n : Nat) (r : Nat) (w : Nat) : FRef := ⟨0x240440 + 0x1000 * n + 0x80 * r + 4 * w, 31, 0⟩
def SADL_CTL : FRef := ⟨0x380000, 31, 0⟩
def SADL_CTL_EN : FRef := ⟨0x380000, 31, 31⟩
def SADL_CTL_PREF : FRef := ⟨0x380000, 30, 30⟩
def SADL_CTL_TMO : FRef := ⟨0x380000, 15, 0⟩
def SADL_STAT : FRef := ⟨0x380004, 31, 0⟩
def SADL_STAT_ROLE : FRef := ⟨0x380004, 31, 30⟩
def SADL_STAT_SYNC : FRef := ⟨0x380004, 29, 27⟩
def SADL_STAT_LANE0 : FRef := ⟨0x380004, 26, 26⟩
def SADL_STAT_LANE1 : FRef := ⟨0x380004, 25, 25⟩
def SADL_STAT_HB_IN : FRef := ⟨0x380004, 24, 24⟩
def SADL_STAT_SUSPECT : FRef := ⟨0x380004, 23, 23⟩
def SADL_STAT_DISABLED : FRef := ⟨0x380004, 22, 22⟩
def SADL_STAT_SAT : FRef := ⟨0x380004, 21, 18⟩
def SADL_STAT_BACKLOG : FRef := ⟨0x380004, 17, 0⟩
def SADL_CMD : FRef := ⟨0x380008, 31, 0⟩
def SADL_CMD_SWITCH : FRef := ⟨0x380008, 31, 31⟩
def SADL_CMD_TAKE : FRef := ⟨0x380008, 30, 30⟩
def SADL_CMD_LEAVE : FRef := ⟨0x380008, 29, 29⟩
def SADL_CMD_RESYNC : FRef := ⟨0x380008, 28, 28⟩
def SADL_CMD_RES : FRef := ⟨0x38000C, 31, 0⟩
def SADL_CMD_RES_DONE : FRef := ⟨0x38000C, 31, 31⟩
def SADL_CMD_RES_CODE : FRef := ⟨0x38000C, 15, 0⟩
def SADL_PEER_ID_LO : FRef := ⟨0x380010, 31, 0⟩
def SADL_PEER_ID_HI : FRef := ⟨0x380014, 31, 0⟩
def SADL_HEALTH : FRef := ⟨0x380018, 31, 0⟩
def SADL_HEALTH_TAG_LO : FRef := ⟨0x38001C, 31, 0⟩
def SADL_HEALTH_TAG_HI : FRef := ⟨0x380020, 31, 0⟩
def SADL_HEALTH_TAG_HI_TAG : FRef := ⟨0x380020, 7, 0⟩
def SADL_MISM_LIM : FRef := ⟨0x380024, 31, 0⟩
def SADL_MISM_LIM_LIM : FRef := ⟨0x380024, 15, 0⟩
def SADL_MISM_CNT : FRef := ⟨0x380030, 31, 0⟩
def SADL_CRC_CNT : FRef := ⟨0x380034, 31, 0⟩
def SADL_RESYNC_CNT : FRef := ⟨0x380038, 31, 0⟩
def SADL_TAKEOVER_CNT : FRef := ⟨0x38003C, 31, 0⟩
def GUARD_STAT : FRef := ⟨0x3C0000, 31, 0⟩
def GUARD_STAT_LOCK : FRef := ⟨0x3C0000, 31, 31⟩
def GUARD_STAT_LINK : FRef := ⟨0x3C0000, 30, 30⟩
def GUARD_STAT_CORE : FRef := ⟨0x3C0000, 29, 29⟩
def GUARD_STAT_STALE : FRef := ⟨0x3C0000, 28, 28⟩
def GUARD_STAT_TABLE : FRef := ⟨0x3C0000, 27, 26⟩
def GUARD_STAT_SAT : FRef := ⟨0x3C0000, 25, 23⟩
def GUARD_TABLE_ID : FRef := ⟨0x3C0004, 31, 0⟩
def GUARD_TABLE_CRC : FRef := ⟨0x3C0008, 31, 0⟩
def GUARD_IN : FRef := ⟨0x3C000C, 31, 0⟩
def GUARD_IN_RAW : FRef := ⟨0x3C0010, 31, 0⟩
def GUARD_IN_RAW_B : FRef := ⟨0x3C0010, 31, 16⟩
def GUARD_IN_RAW_A : FRef := ⟨0x3C0010, 15, 0⟩
def GUARD_OUT : FRef := ⟨0x3C0014, 31, 0⟩
def GUARD_OUT_FLT : FRef := ⟨0x3C0018, 31, 0⟩
def GUARD_TRIP_CNT : FRef := ⟨0x3C0020, 31, 0⟩
def GUARD_FLT_CNT : FRef := ⟨0x3C0024, 31, 0⟩
def GUARD_LINK_CNT : FRef := ⟨0x3C0028, 31, 0⟩
def KEEP_CTL : FRef := ⟨0x0C0000, 31, 0⟩
def KEEP_CTL_FOLLOW_EN : FRef := ⟨0x0C0000, 31, 31⟩
def KEEP_CTL_AUTO_WAKE : FRef := ⟨0x0C0000, 30, 30⟩
def KEEP_CTL_WAKE_EN : FRef := ⟨0x0C0000, 29, 29⟩
def KEEP_STAT : FRef := ⟨0x0C0004, 31, 0⟩
def KEEP_STAT_OSF : FRef := ⟨0x0C0004, 31, 31⟩
def KEEP_STAT_BKLOSS : FRef := ⟨0x0C0004, 30, 30⟩
def KEEP_STAT_COLD : FRef := ⟨0x0C0004, 29, 29⟩
def KEEP_STAT_SENT_BAD : FRef := ⟨0x0C0004, 28, 28⟩
def KEEP_STAT_VBAT_LOW : FRef := ⟨0x0C0004, 27, 27⟩
def KEEP_STAT_SET_INV : FRef := ⟨0x0C0004, 26, 26⟩
def KEEP_STAT_PF_SAT : FRef := ⟨0x0C0004, 25, 25⟩
def KEEP_STAT_BK_SAT : FRef := ⟨0x0C0004, 24, 24⟩
def KEEP_STAT_VBAT : FRef := ⟨0x0C0004, 8, 0⟩
def KEEP_CAUSE : FRef := ⟨0x0C0008, 31, 0⟩
def KEEP_CAUSE_THERMAL_TRIP : FRef := ⟨0x0C0008, 31, 31⟩
def KEEP_CAUSE_PF : FRef := ⟨0x0C0008, 30, 30⟩
def KEEP_CAUSE_HOLD : FRef := ⟨0x0C0008, 29, 29⟩
def KEEP_CAUSE_FALLBACK : FRef := ⟨0x0C0008, 28, 28⟩
def KEEP_CAUSE_WAKE : FRef := ⟨0x0C0008, 23, 20⟩
def KEEP_CAUSE_ALARM : FRef := ⟨0x0C0008, 4, 0⟩
def KEEP_PF_TIME_LO : FRef := ⟨0x0C0010, 31, 0⟩
def KEEP_PF_TIME_HI : FRef := ⟨0x0C0014, 31, 0⟩
def KEEP_PF_CNT : FRef := ⟨0x0C0018, 31, 0⟩
def KEEP_BKLOSS_CNT : FRef := ⟨0x0C001C, 31, 0⟩
def KEEP_RTC_SUB : FRef := ⟨0x0C0020, 31, 0⟩
def KEEP_RTC_SUB_SUB : FRef := ⟨0x0C0020, 14, 0⟩
def KEEP_RTC_TIME : FRef := ⟨0x0C0024, 31, 0⟩
def KEEP_RTC_TIME_HOUR : FRef := ⟨0x0C0024, 20, 16⟩
def KEEP_RTC_TIME_MIN : FRef := ⟨0x0C0024, 13, 8⟩
def KEEP_RTC_TIME_SEC : FRef := ⟨0x0C0024, 5, 0⟩
def KEEP_RTC_DATE : FRef := ⟨0x0C0028, 31, 0⟩
def KEEP_RTC_DATE_YEAR : FRef := ⟨0x0C0028, 31, 24⟩
def KEEP_RTC_DATE_WDAY : FRef := ⟨0x0C0028, 22, 20⟩
def KEEP_RTC_DATE_MONTH : FRef := ⟨0x0C0028, 11, 8⟩
def KEEP_RTC_DATE_DAY : FRef := ⟨0x0C0028, 4, 0⟩
def KEEP_RTC_SEC : FRef := ⟨0x0C002C, 31, 0⟩
def KEEP_RTC_SET_TIME : FRef := ⟨0x0C0030, 31, 0⟩
def KEEP_RTC_SET_DATE : FRef := ⟨0x0C0034, 31, 0⟩
def KEEP_TSCAP_CMD : FRef := ⟨0x0C0040, 31, 0⟩
def KEEP_TSCAP_CMD_GO : FRef := ⟨0x0C0040, 31, 31⟩
def KEEP_TSCAP_CMD_DONE : FRef := ⟨0x0C0040, 30, 30⟩
def KEEP_TSCAP_SUB : FRef := ⟨0x0C0044, 31, 0⟩
def KEEP_TSCAP_SEC : FRef := ⟨0x0C0048, 31, 0⟩
def KEEP_TSCAP_LT_LO : FRef := ⟨0x0C004C, 31, 0⟩
def KEEP_TSCAP_LT_HI : FRef := ⟨0x0C0050, 31, 0⟩
def KEEP_COMP : FRef := ⟨0x0C0060, 31, 0⟩
def KEEP_COMP_AGE : FRef := ⟨0x0C0060, 31, 16⟩
def KEEP_COMP_TEMP : FRef := ⟨0x0C0060, 15, 8⟩
def KEEP_COMP_CORR : FRef := ⟨0x0C0060, 7, 0⟩
def KEEP_TZ_STD : FRef := ⟨0x0C0064, 31, 0⟩
def KEEP_TZ_STD_STD : FRef := ⟨0x0C0064, 31, 16⟩
def KEEP_TZ_STD_DST : FRef := ⟨0x0C0064, 15, 8⟩
def KEEP_TZ_STD_DST_EN : FRef := ⟨0x0C0064, 0, 0⟩
def KEEP_TZ_START : FRef := ⟨0x0C0068, 31, 0⟩
def KEEP_TZ_START_MONTH : FRef := ⟨0x0C0068, 31, 28⟩
def KEEP_TZ_START_WEEK : FRef := ⟨0x0C0068, 27, 25⟩
def KEEP_TZ_START_WDAY : FRef := ⟨0x0C0068, 24, 22⟩
def KEEP_TZ_START_MINUTE : FRef := ⟨0x0C0068, 10, 0⟩
def KEEP_TZ_END : FRef := ⟨0x0C006C, 31, 0⟩
def KEEP_TZ_END_MONTH : FRef := ⟨0x0C006C, 31, 28⟩
def KEEP_TZ_END_WEEK : FRef := ⟨0x0C006C, 27, 25⟩
def KEEP_TZ_END_WDAY : FRef := ⟨0x0C006C, 24, 22⟩
def KEEP_TZ_END_MINUTE : FRef := ⟨0x0C006C, 10, 0⟩
def KEEP_LOCAL : FRef := ⟨0x0C0070, 31, 0⟩
def KEEP_LOCAL_DST : FRef := ⟨0x0C0070, 31, 31⟩
def KEEP_LOCAL_OFFSET : FRef := ⟨0x0C0070, 15, 0⟩
def KEEP_CURVE (k : Nat) : FRef := ⟨0x0C0100 + 4 * k, 31, 0⟩
def KEEP_CURVE_ODD (k : Nat) : FRef := ⟨0x0C0100 + 4 * k, 31, 16⟩
def KEEP_CURVE_EVEN (k : Nat) : FRef := ⟨0x0C0100 + 4 * k, 15, 0⟩
def KEEP_ALM_CTL (a : Nat) : FRef := ⟨0x0C0200 + 0x10 * a, 31, 0⟩
def KEEP_ALM_CTL_EN (a : Nat) : FRef := ⟨0x0C0200 + 0x10 * a, 31, 31⟩
def KEEP_ALM_CTL_LOCAL (a : Nat) : FRef := ⟨0x0C0200 + 0x10 * a, 30, 30⟩
def KEEP_ALM_CTL_REWIND (a : Nat) : FRef := ⟨0x0C0200 + 0x10 * a, 29, 29⟩
def KEEP_ALM_CTL_WAKE (a : Nat) : FRef := ⟨0x0C0200 + 0x10 * a, 28, 28⟩
def KEEP_ALM_CTL_OVL (a : Nat) : FRef := ⟨0x0C0200 + 0x10 * a, 27, 26⟩
def KEEP_ALM_CTL_DAYS (a : Nat) : FRef := ⟨0x0C0200 + 0x10 * a, 6, 0⟩
def KEEP_ALM_TIME (a : Nat) : FRef := ⟨0x0C0204 + 0x10 * a, 31, 0⟩
def KEEP_ALM_STAT (a : Nat) : FRef := ⟨0x0C0208 + 0x10 * a, 31, 0⟩
def KEEP_ALM_STAT_FIRED (a : Nat) : FRef := ⟨0x0C0208 + 0x10 * a, 31, 31⟩
def KEEP_ALM_STAT_SKIPPED (a : Nat) : FRef := ⟨0x0C0208 + 0x10 * a, 30, 30⟩
def KEEP_ALM_STAT_REWOUND (a : Nat) : FRef := ⟨0x0C0208 + 0x10 * a, 29, 29⟩
def KEEP_ALM_STAT_SKIPCNT (a : Nat) : FRef := ⟨0x0C0208 + 0x10 * a, 15, 0⟩
def KEEP_ALM_LAST (a : Nat) : FRef := ⟨0x0C020C + 0x10 * a, 31, 0⟩
def VAULT_CTL : FRef := ⟨0x400000, 31, 0⟩
def VAULT_CTL_VRESET : FRef := ⟨0x400000, 31, 31⟩
def VAULT_CTL_REMASK : FRef := ⟨0x400000, 11, 0⟩
def VAULT_STAT : FRef := ⟨0x400004, 31, 0⟩
def VAULT_STAT_DEBUG : FRef := ⟨0x400004, 31, 31⟩
def VAULT_STAT_DBG_PEND : FRef := ⟨0x400004, 30, 30⟩
def VAULT_STAT_SET : FRef := ⟨0x400004, 29, 26⟩
def VAULT_STAT_ENTROPY_OK : FRef := ⟨0x400004, 25, 25⟩
def VAULT_STAT_DISABLED : FRef := ⟨0x400004, 24, 24⟩
def VAULT_STAT_AUTH_SAT : FRef := ⟨0x400004, 23, 23⟩
def VAULT_STAT_QUEUED : FRef := ⟨0x400004, 6, 0⟩
def VAULT_STATE : FRef := ⟨0x400008, 31, 0⟩
def VAULT_ID_LO : FRef := ⟨0x400010, 31, 0⟩
def VAULT_ID_HI : FRef := ⟨0x400014, 31, 0⟩
def VAULT_OWNER (w : Nat) : FRef := ⟨0x400020 + 4 * w, 31, 0⟩
def VAULT_SUB_LO : FRef := ⟨0x400060, 31, 0⟩
def VAULT_SUB_HI : FRef := ⟨0x400064, 31, 0⟩
def VAULT_SUB_HI_ADDR : FRef := ⟨0x400064, 2, 0⟩
def VAULT_SUB_RES : FRef := ⟨0x400068, 31, 0⟩
def VAULT_SUB_RES_CODE : FRef := ⟨0x400068, 15, 0⟩
def VAULT_SLOT_SEL : FRef := ⟨0x400080, 31, 0⟩
def VAULT_SLOT_SEL_SLOT : FRef := ⟨0x400080, 7, 0⟩
def VAULT_SLOT_INFO : FRef := ⟨0x400084, 31, 0⟩
def VAULT_SLOT_INFO_KIND : FRef := ⟨0x400084, 31, 28⟩
def VAULT_SLOT_INFO_RIGHTS : FRef := ⟨0x400084, 27, 21⟩
def VAULT_SLOT_INFO_EXPIRE : FRef := ⟨0x400084, 20, 20⟩
def VAULT_SLOT_INFO_HELD : FRef := ⟨0x400084, 19, 19⟩
def VAULT_SLOT_INFO_ORIGIN : FRef := ⟨0x400084, 18, 16⟩
def VAULT_SLOT_CNT : FRef := ⟨0x400088, 31, 0⟩
def VAULT_AUTH_CNT : FRef := ⟨0x40008C, 31, 0⟩
def VAULT_OTP_CMD : FRef := ⟨0x4000A0, 31, 0⟩
def VAULT_OTP_CMD_GO : FRef := ⟨0x4000A0, 31, 31⟩
def VAULT_OTP_CMD_FIELD : FRef := ⟨0x4000A0, 2, 0⟩
def VAULT_OTP_RES : FRef := ⟨0x4000A4, 31, 0⟩
def VAULT_OTP_RES_BUSY : FRef := ⟨0x4000A4, 31, 31⟩
def VAULT_OTP_RES_CODE : FRef := ⟨0x4000A4, 15, 0⟩
def VAULT_OTP_DATA (w : Nat) : FRef := ⟨0x4000C0 + 4 * w, 31, 0⟩
def VAULT_DBG_CMD : FRef := ⟨0x400100, 31, 0⟩
def VAULT_DBG_CMD_CHAL : FRef := ⟨0x400100, 31, 31⟩
def VAULT_DBG_CMD_OPEN : FRef := ⟨0x400100, 30, 30⟩
def VAULT_DBG_CMD_CLOSE : FRef := ⟨0x400100, 29, 29⟩
def VAULT_DBG_RES : FRef := ⟨0x400104, 31, 0⟩
def VAULT_DBG_RES_CODE : FRef := ⟨0x400104, 15, 0⟩
def VAULT_DBG_NONCE (w : Nat) : FRef := ⟨0x400110 + 4 * w, 31, 0⟩
def VAULT_DBG_RESP (w : Nat) : FRef := ⟨0x400130 + 4 * w, 31, 0⟩
def PANEL_CTL : FRef := ⟨0x440000, 31, 0⟩
def PANEL_CTL_EN : FRef := ⟨0x440000, 31, 31⟩
def PANEL_CTL_CRK_EN : FRef := ⟨0x440000, 30, 30⟩
def PANEL_CTL_MARK_CLR : FRef := ⟨0x440000, 29, 29⟩
def PANEL_CTL_CRK_CLR : FRef := ⟨0x440000, 28, 28⟩
def PANEL_CTL_INV : FRef := ⟨0x440000, 1, 0⟩
def PANEL_TIMING : FRef := ⟨0x440004, 31, 0⟩
def PANEL_TIMING_CLK : FRef := ⟨0x440004, 31, 28⟩
def PANEL_TIMING_DRIVE_US : FRef := ⟨0x440004, 27, 14⟩
def PANEL_TIMING_LINE_US : FRef := ⟨0x440004, 10, 0⟩
def PANEL_CHAIN : FRef := ⟨0x440008, 31, 0⟩
def PANEL_CHAIN_COL_BITS : FRef := ⟨0x440008, 24, 16⟩
def PANEL_CHAIN_ROW_BITS : FRef := ⟨0x440008, 7, 0⟩
def PANEL_SRC_LO : FRef := ⟨0x44000C, 31, 0⟩
def PANEL_SRC_HI : FRef := ⟨0x440010, 31, 0⟩
def PANEL_SRC_HI_ADDR : FRef := ⟨0x440010, 2, 0⟩
def PANEL_CMD : FRef := ⟨0x440014, 31, 0⟩
def PANEL_CMD_UPDATE : FRef := ⟨0x440014, 31, 31⟩
def PANEL_CMD_FULL : FRef := ⟨0x440014, 30, 30⟩
def PANEL_CMD_GEN : FRef := ⟨0x440014, 15, 0⟩
def PANEL_RES : FRef := ⟨0x440018, 31, 0⟩
def PANEL_RES_DONE : FRef := ⟨0x440018, 31, 31⟩
def PANEL_RES_ACC : FRef := ⟨0x440018, 30, 30⟩
def PANEL_RES_CODE : FRef := ⟨0x440018, 15, 0⟩
def PANEL_STAT : FRef := ⟨0x44001C, 31, 0⟩
def PANEL_STAT_BUSY : FRef := ⟨0x44001C, 31, 31⟩
def PANEL_STAT_PENDING : FRef := ⟨0x44001C, 30, 30⟩
def PANEL_STAT_MARK : FRef := ⟨0x44001C, 29, 29⟩
def PANEL_STAT_CRACK : FRef := ⟨0x44001C, 28, 28⟩
def PANEL_STAT_DISABLED : FRef := ⟨0x44001C, 27, 27⟩
def PANEL_STAT_ROW : FRef := ⟨0x44001C, 22, 16⟩
def PANEL_STAT_GEN : FRef := ⟨0x44001C, 15, 0⟩
def GEN_ID : FRef := ⟨0x000000, 31, 0⟩
def GEN_ID_PART : FRef := ⟨0x000000, 15, 0⟩
def GEN_STEP : FRef := ⟨0x000004, 31, 0⟩
def GEN_STEP_METAL : FRef := ⟨0x000004, 11, 8⟩
def GEN_STEP_LETTER : FRef := ⟨0x000004, 7, 0⟩
def GEN_UNITS : FRef := ⟨0x000008, 31, 0⟩
def GEN_UNITS_WAVE : FRef := ⟨0x000008, 24, 24⟩
def GEN_UNITS_UNIT : FRef := ⟨0x000008, 19, 0⟩
def GEN_CAP_PTS : FRef := ⟨0x00000C, 31, 0⟩
def GEN_CAP_IO : FRef := ⟨0x000010, 31, 0⟩
def GEN_CAP_IO_PLC : FRef := ⟨0x000010, 19, 16⟩
def GEN_CAP_IO_T1S : FRef := ⟨0x000010, 12, 8⟩
def GEN_CAP_IO_CAN : FRef := ⟨0x000010, 5, 0⟩
def GEN_CAP_MEM : FRef := ⟨0x000014, 31, 0⟩
def GEN_CAP_MEM_GIB : FRef := ⟨0x000014, 7, 0⟩
def GEN_WPAGE (w : Nat) : FRef := ⟨0x000100 + 4 * w, 31, 0⟩
def GEN_WPAGE_PAGE (w : Nat) : FRef := ⟨0x000100 + 4 * w, 9, 0⟩
def GEN_DWIN : FRef := ⟨0x000180, 31, 0⟩
def GEN_DWIN_PAGE : FRef := ⟨0x000180, 7, 0⟩

end Sys2Proof.Machine.R

namespace Sys2Proof.Machine

/-- Rows of GEN. -/
def regRows0 : List RegRow := [
  ⟨0x001000, [(16, 0x20)], 0x0, [⟨31, 12, .rw, false⟩], .mwLo 2⟩,
  ⟨0x001004, [(16, 0x20)], 0x0, [⟨2, 0, .rw, false⟩], .mwHi⟩,
  ⟨0x001008, [(16, 0x20)], 0x8, [⟨31, 31, .rw, false⟩, ⟨16, 16, .ro, false⟩, ⟨10, 8, .rw, false⟩, ⟨4, 0, .rw, false⟩], .plain⟩,
  ⟨0x00100C, [(16, 0x20)], 0x0, [⟨31, 0, .ro, false⟩], .plain⟩,
  ⟨0x001010, [(16, 0x20)], 0x0, [⟨31, 0, .rw, false⟩], .plain⟩,
  ⟨0x001014, [(16, 0x20)], 0x0, [⟨31, 0, .rw, false⟩], .counter (some (0x001008, 16))⟩,
  ⟨0x001400, [(20, 0x4)], 0x0, [⟨3, 0, .rw, false⟩], .plain⟩,
  ⟨0x000000, [], 0x6480, [⟨15, 0, .ro, false⟩], .plain⟩,
  ⟨0x000004, [], 0x41, [⟨11, 8, .ro, false⟩, ⟨7, 0, .ro, false⟩], .plain⟩,
  ⟨0x000008, [], 0x0, [⟨24, 24, .ro, false⟩, ⟨19, 0, .ro, false⟩], .plain⟩,
  ⟨0x00000C, [], 0x0, [⟨31, 0, .ro, false⟩], .plain⟩,
  ⟨0x000010, [], 0x0, [⟨19, 16, .ro, false⟩, ⟨12, 8, .ro, false⟩, ⟨5, 0, .ro, false⟩], .plain⟩,
  ⟨0x000014, [], 0x0, [⟨7, 0, .ro, false⟩], .plain⟩,
  ⟨0x000100, [(11, 0x4)], 0x0, [⟨9, 0, .rw, false⟩], .plain⟩,
  ⟨0x000180, [], 0x0, [⟨7, 0, .rw, false⟩], .plain⟩]

/-- Rows of COMMIT. -/
def regRows1 : List RegRow := [
  ⟨0x040000, [(4, 0x100)], 0x0, [⟨2, 2, .w1s, false⟩, ⟨1, 1, .w1s, false⟩, ⟨0, 0, .w1s, false⟩], .plain⟩,
  ⟨0x040004, [(4, 0x100)], 0x0, [⟨15, 8, .rw, false⟩, ⟨1, 0, .rw, false⟩], .plain⟩,
  ⟨0x040008, [(4, 0x100)], 0x0, [⟨31, 0, .rw, false⟩], .mwLo 2⟩,
  ⟨0x04000C, [(4, 0x100)], 0x0, [⟨31, 0, .rw, false⟩], .mwHi⟩,
  ⟨0x040010, [(4, 0x100)], 0xA00000, [⟨31, 20, .rw, false⟩, ⟨19, 0, .rw, false⟩], .plain⟩,
  ⟨0x040014, [(4, 0x100)], 0x0, [⟨31, 31, .ro, false⟩, ⟨30, 27, .ro, false⟩, ⟨26, 26, .ro, false⟩, ⟨16, 0, .ro, false⟩], .plain⟩,
  ⟨0x040018, [(4, 0x100)], 0x0, [⟨24, 0, .ro, false⟩], .plain⟩,
  ⟨0x04001C, [(4, 0x100)], 0x0, [⟨31, 31, .rc, false⟩, ⟨30, 30, .ro, false⟩, ⟨29, 29, .ro, false⟩, ⟨28, 28, .ro, false⟩, ⟨27, 24, .ro, false⟩, ⟨23, 16, .ro, false⟩, ⟨15, 0, .ro, false⟩], .plain⟩,
  ⟨0x040020, [(4, 0x100)], 0x0, [⟨31, 0, .ro, false⟩], .mwLo 2⟩,
  ⟨0x040024, [(4, 0x100)], 0x0, [⟨31, 0, .ro, false⟩], .mwHi⟩,
  ⟨0x040028, [(4, 0x100)], 0x0, [⟨31, 0, .ro, false⟩], .mwLo 2⟩,
  ⟨0x04002C, [(4, 0x100)], 0x0, [⟨31, 0, .ro, false⟩], .mwHi⟩,
  ⟨0x040030, [(4, 0x100)], 0x0, [⟨31, 0, .ro, false⟩], .plain⟩,
  ⟨0x040040, [(4, 0x100)], 0x0, [⟨31, 0, .rw, false⟩], .plain⟩,
  ⟨0x040044, [(4, 0x100)], 0x0, [⟨31, 0, .ro, false⟩], .plain⟩]

/-- Rows of RIDGE, part 1. -/
def regRows2_1 : List RegRow := [
  ⟨0x080000, [], 0x80000502, [⟨31, 31, .rw, true⟩, ⟨23, 8, .rw, true⟩, ⟨1, 0, .rw, true⟩], .plain⟩,
  ⟨0x080004, [], 0x60010000, [⟨31, 29, .ro, false⟩, ⟨28, 28, .ro, false⟩, ⟨27, 26, .ro, false⟩, ⟨25, 25, .ro, false⟩, ⟨24, 23, .ro, false⟩, ⟨22, 22, .ro, false⟩, ⟨21, 19, .ro, false⟩, ⟨18, 16, .ro, false⟩, ⟨9, 0, .ro, false⟩], .plain⟩,
  ⟨0x080008, [], 0x50005, [⟨31, 16, .ro, false⟩, ⟨15, 0, .ro, false⟩], .plain⟩,
  ⟨0x08000C, [], 0x3A98, [⟨16, 0, .rw, true⟩], .plain⟩,
  ⟨0x080010, [], 0xC8003C, [⟨31, 16, .rw, true⟩, ⟨15, 0, .rw, true⟩], .plain⟩,
  ⟨0x080014, [], 0x30D40, [⟨31, 0, .ro, false⟩], .plain⟩,
  ⟨0x080018, [], 0x0, [⟨16, 0, .ro, false⟩], .plain⟩,
  ⟨0x08001C, [], 0x0, [⟨16, 0, .ro, false⟩], .plain⟩,
  ⟨0x080020, [], 0x5F0A, [⟨15, 8, .rw, true⟩, ⟨7, 0, .rw, true⟩], .plain⟩,
  ⟨0x080024, [], 0x0, [⟨31, 0, .rw, true⟩], .mwLo 2⟩,
  ⟨0x080028, [], 0x0, [⟨7, 0, .rw, true⟩], .mwHi⟩,
  ⟨0x080030, [(1, 0x8)], 0x8000BB80, [⟨31, 30, .rw, true⟩, ⟨16, 0, .rw, true⟩], .plain⟩,
  ⟨0x080038, [(3, 0x8)], 0x80003A98, [⟨31, 30, .rw, true⟩, ⟨16, 0, .rw, true⟩], .plain⟩,
  ⟨0x080034, [(1, 0x8)], 0x20001000, [⟨29, 27, .rw, true⟩, ⟨19, 12, .rw, true⟩, ⟨9, 0, .rw, true⟩], .plain⟩,
  ⟨0x08003C, [(3, 0x8)], 0x800401E, [⟨29, 27, .rw, true⟩, ⟨19, 12, .rw, true⟩, ⟨9, 0, .rw, true⟩], .plain⟩,
  ⟨0x080050, [(2, 0x4)], 0xCC, [⟨11, 8, .ro, false⟩, ⟨7, 4, .rw, true⟩, ⟨3, 0, .rw, true⟩], .plain⟩,
  ⟨0x080100, [(1, 0x10)], 0x80000000, [⟨31, 31, .rw, true⟩, ⟨30, 30, .ro, false⟩, ⟨2, 0, .rw, true⟩], .plain⟩,
  ⟨0x080110, [(1, 0x10)], 0x80000001, [⟨31, 31, .rw, true⟩, ⟨30, 30, .ro, false⟩, ⟨2, 0, .rw, true⟩], .plain⟩,
  ⟨0x080120, [(1, 0x10)], 0x80000002, [⟨31, 31, .rw, true⟩, ⟨30, 30, .ro, false⟩, ⟨2, 0, .rw, true⟩], .plain⟩,
  ⟨0x080130, [(1, 0x10)], 0x80000003, [⟨31, 31, .rw, true⟩, ⟨30, 30, .ro, false⟩, ⟨2, 0, .rw, true⟩], .plain⟩,
  ⟨0x080140, [(1, 0x10)], 0x80000004, [⟨31, 31, .rw, true⟩, ⟨30, 30, .ro, false⟩, ⟨2, 0, .rw, true⟩], .plain⟩,
  ⟨0x080150, [(1, 0x10)], 0x80000005, [⟨31, 31, .rw, true⟩, ⟨30, 30, .ro, false⟩, ⟨2, 0, .rw, true⟩], .plain⟩,
  ⟨0x080160, [(1, 0x10)], 0x80000006, [⟨31, 31, .rw, true⟩, ⟨30, 30, .ro, false⟩, ⟨2, 0, .rw, true⟩], .plain⟩,
  ⟨0x080170, [(2, 0x10)], 0x80000007, [⟨31, 31, .rw, true⟩, ⟨30, 30, .ro, false⟩, ⟨2, 0, .rw, true⟩], .plain⟩]

/-- Rows of RIDGE, part 2. -/
def regRows2_2 : List RegRow := [
  ⟨0x080104, [(9, 0x10)], 0x1388, [⟨31, 0, .rw, true⟩], .plain⟩,
  ⟨0x080108, [(9, 0x10)], 0x7D0, [⟨31, 0, .rw, true⟩], .plain⟩,
  ⟨0x08010C, [(9, 0x10)], 0x0, [⟨31, 0, .rw, false⟩], .counter (some (0x080100, 30))⟩]

/-- Rows of KEEP, part 1. -/
def regRows3_1 : List RegRow := [
  ⟨0x0C0000, [], 0xA0000000, [⟨31, 31, .rw, true⟩, ⟨30, 30, .rw, true⟩, ⟨29, 29, .rw, true⟩], .plain⟩,
  ⟨0x0C0004, [], 0xC0000000, [⟨31, 31, .ro, false⟩, ⟨30, 30, .w1c, false⟩, ⟨29, 29, .ro, false⟩, ⟨28, 28, .ro, false⟩, ⟨27, 27, .ro, false⟩, ⟨26, 26, .w1c, false⟩, ⟨25, 25, .ro, false⟩, ⟨24, 24, .ro, false⟩, ⟨8, 0, .ro, false⟩], .plain⟩,
  ⟨0x0C0008, [], 0x0, [⟨31, 31, .ro, false⟩, ⟨30, 30, .ro, false⟩, ⟨29, 29, .ro, false⟩, ⟨28, 28, .ro, false⟩, ⟨23, 20, .ro, false⟩, ⟨4, 0, .ro, false⟩], .plain⟩,
  ⟨0x0C0010, [], 0x0, [⟨31, 0, .ro, false⟩], .mwLo 2⟩,
  ⟨0x0C0014, [], 0x0, [⟨31, 0, .ro, false⟩], .mwHi⟩,
  ⟨0x0C0018, [], 0x0, [⟨31, 0, .rw, false⟩], .counter (some (0x0C0004, 25))⟩,
  ⟨0x0C001C, [], 0x0, [⟨31, 0, .rw, false⟩], .counter (some (0x0C0004, 24))⟩,
  ⟨0x0C0020, [], 0x0, [⟨14, 0, .ro, false⟩], .mwLo 4⟩,
  ⟨0x0C0024, [], 0x0, [⟨20, 16, .ro, false⟩, ⟨13, 8, .ro, false⟩, ⟨5, 0, .ro, false⟩], .mwHi⟩,
  ⟨0x0C0028, [], 0x0, [⟨31, 24, .ro, false⟩, ⟨22, 20, .ro, false⟩, ⟨11, 8, .ro, false⟩, ⟨4, 0, .ro, false⟩], .mwHi⟩,
  ⟨0x0C002C, [], 0x0, [⟨31, 0, .ro, false⟩], .mwHi⟩,
  ⟨0x0C0030, [], 0x0, [⟨31, 0, .rw, false⟩], .plain⟩,
  ⟨0x0C0034, [], 0x0, [⟨31, 0, .rw, false⟩], .plain⟩,
  ⟨0x0C0040, [], 0x0, [⟨31, 31, .w1s, false⟩, ⟨30, 30, .ro, false⟩], .plain⟩,
  ⟨0x0C0044, [], 0x0, [⟨31, 0, .ro, false⟩], .plain⟩,
  ⟨0x0C0048, [], 0x0, [⟨31, 0, .ro, false⟩], .plain⟩,
  ⟨0x0C004C, [], 0x0, [⟨31, 0, .ro, false⟩], .mwLo 2⟩,
  ⟨0x0C0050, [], 0x0, [⟨31, 0, .ro, false⟩], .mwHi⟩,
  ⟨0x0C0060, [], 0x0, [⟨31, 16, .rw, true⟩, ⟨15, 8, .ro, false⟩, ⟨7, 0, .ro, false⟩], .plain⟩,
  ⟨0x0C0064, [], 0x0, [⟨31, 16, .rw, true⟩, ⟨15, 8, .rw, true⟩, ⟨0, 0, .rw, true⟩], .plain⟩,
  ⟨0x0C0068, [], 0x0, [⟨31, 28, .rw, true⟩, ⟨27, 25, .rw, true⟩, ⟨24, 22, .rw, true⟩, ⟨10, 0, .rw, true⟩], .plain⟩,
  ⟨0x0C006C, [], 0x0, [⟨31, 28, .rw, true⟩, ⟨27, 25, .rw, true⟩, ⟨24, 22, .rw, true⟩, ⟨10, 0, .rw, true⟩], .plain⟩,
  ⟨0x0C0070, [], 0x0, [⟨31, 31, .ro, false⟩, ⟨15, 0, .ro, false⟩], .plain⟩,
  ⟨0x0C0100, [(1, 0x4)], 0xD030C7E3, [⟨31, 16, .rw, true⟩, ⟨15, 0, .rw, true⟩], .plain⟩]

/-- Rows of KEEP, part 2. -/
def regRows3_2 : List RegRow := [
  ⟨0x0C0104, [(1, 0x4)], 0xDECCD7D3, [⟨31, 16, .rw, true⟩, ⟨15, 0, .rw, true⟩], .plain⟩,
  ⟨0x0C0108, [(1, 0x4)], 0xEAC0E51B, [⟨31, 16, .rw, true⟩, ⟨15, 0, .rw, true⟩], .plain⟩,
  ⟨0x0C010C, [(1, 0x4)], 0xF40CEFBB, [⟨31, 16, .rw, true⟩, ⟨15, 0, .rw, true⟩], .plain⟩,
  ⟨0x0C0110, [(1, 0x4)], 0xFAB0F7B3, [⟨31, 16, .rw, true⟩, ⟨15, 0, .rw, true⟩], .plain⟩,
  ⟨0x0C0114, [(1, 0x4)], 0xFEACFD03, [⟨31, 16, .rw, true⟩, ⟨15, 0, .rw, true⟩], .plain⟩,
  ⟨0x0C0118, [(1, 0x4)], 0xFFAB, [⟨31, 16, .rw, true⟩, ⟨15, 0, .rw, true⟩], .plain⟩,
  ⟨0x0C011C, [(1, 0x4)], 0xFEACFFAB, [⟨31, 16, .rw, true⟩, ⟨15, 0, .rw, true⟩], .plain⟩,
  ⟨0x0C0120, [(1, 0x4)], 0xFAB0FD03, [⟨31, 16, .rw, true⟩, ⟨15, 0, .rw, true⟩], .plain⟩,
  ⟨0x0C0124, [(1, 0x4)], 0xF40CF7B3, [⟨31, 16, .rw, true⟩, ⟨15, 0, .rw, true⟩], .plain⟩,
  ⟨0x0C0128, [(1, 0x4)], 0xEAC0EFBB, [⟨31, 16, .rw, true⟩, ⟨15, 0, .rw, true⟩], .plain⟩,
  ⟨0x0C012C, [(1, 0x4)], 0xDECCE51B, [⟨31, 16, .rw, true⟩, ⟨15, 0, .rw, true⟩], .plain⟩,
  ⟨0x0C0130, [(1, 0x4)], 0xD030D7D3, [⟨31, 16, .rw, true⟩, ⟨15, 0, .rw, true⟩], .plain⟩,
  ⟨0x0C0200, [(32, 0x10)], 0x0, [⟨31, 31, .rw, false⟩, ⟨30, 30, .rw, false⟩, ⟨29, 29, .rw, false⟩, ⟨28, 28, .rw, false⟩, ⟨27, 26, .rw, false⟩, ⟨6, 0, .rw, false⟩], .plain⟩,
  ⟨0x0C0204, [(32, 0x10)], 0x0, [⟨31, 0, .rw, false⟩], .plain⟩,
  ⟨0x0C0208, [(32, 0x10)], 0x0, [⟨31, 31, .w1c, false⟩, ⟨30, 30, .w1c, false⟩, ⟨29, 29, .w1c, false⟩, ⟨15, 0, .ro, false⟩], .plain⟩,
  ⟨0x0C020C, [(32, 0x10)], 0x0, [⟨31, 0, .ro, false⟩], .plain⟩]

/-- Rows of SCAN. -/
def regRows4 : List RegRow := [
  ⟨0x100000, [], 0x80000000, [⟨31, 31, .rw, true⟩, ⟨30, 30, .rw, true⟩], .plain⟩,
  ⟨0x100004, [], 0x0, [⟨15, 8, .wo, false⟩, ⟨1, 0, .wo, false⟩], .plain⟩,
  ⟨0x100008, [], 0x0, [⟨31, 31, .ro, false⟩, ⟨15, 0, .ro, false⟩], .plain⟩,
  ⟨0x10000C, [], 0x0, [⟨31, 31, .ro, false⟩, ⟨22, 9, .ro, false⟩, ⟨8, 0, .ro, false⟩], .plain⟩,
  ⟨0x101000, [(256, 0x20)], 0x0, [⟨31, 28, .ro, false⟩, ⟨27, 27, .ro, false⟩, ⟨26, 26, .ro, false⟩, ⟨23, 16, .ro, false⟩, ⟨15, 8, .ro, false⟩, ⟨4, 0, .ro, false⟩], .plain⟩,
  ⟨0x101004, [(256, 0x20)], 0x0, [⟨31, 0, .ro, false⟩], .plain⟩,
  ⟨0x101008, [(256, 0x20)], 0x0, [⟨31, 0, .ro, false⟩], .plain⟩,
  ⟨0x10100C, [(256, 0x20)], 0x0, [⟨31, 0, .rw, false⟩], .plain⟩,
  ⟨0x101010, [(256, 0x20)], 0x0, [⟨31, 0, .rw, false⟩], .counter (some (0x101000, 27))⟩,
  ⟨0x101014, [(256, 0x20)], 0x0, [⟨31, 0, .rw, false⟩], .counter (some (0x101000, 26))⟩,
  ⟨0x101018, [(256, 0x20)], 0x0, [⟨31, 16, .ro, false⟩, ⟨15, 0, .ro, false⟩], .plain⟩,
  ⟨0x10101C, [(256, 0x20)], 0x0, [⟨31, 16, .ro, false⟩, ⟨15, 0, .ro, false⟩], .plain⟩,
  ⟨0x103000, [(36, 0x4)], 0x0, [⟨9, 0, .ro, false⟩], .plain⟩,
  ⟨0x104000, [(8, 0x4)], 0x0, [⟨31, 0, .rw, true⟩], .plain⟩,
  ⟨0x105000, [(256, 0x10)], 0x0, [⟨31, 31, .ro, false⟩, ⟨30, 30, .ro, false⟩, ⟨29, 29, .ro, false⟩, ⟨28, 28, .ro, false⟩, ⟨27, 24, .ro, false⟩, ⟨15, 0, .ro, false⟩], .plain⟩,
  ⟨0x105004, [(256, 0x10)], 0x0, [⟨31, 16, .ro, false⟩, ⟨15, 0, .ro, false⟩], .plain⟩,
  ⟨0x105008, [(256, 0x10)], 0x0, [⟨31, 16, .ro, false⟩, ⟨15, 0, .ro, false⟩], .plain⟩,
  ⟨0x10500C, [(256, 0x10)], 0x0, [⟨31, 0, .ro, false⟩], .plain⟩]

/-- Rows of POINT. -/
def regRows5 : List RegRow := [
  ⟨0x140000, [], 0x80000000, [⟨31, 31, .rw, true⟩, ⟨13, 0, .rw, true⟩], .plain⟩,
  ⟨0x140004, [], 0x0, [⟨31, 31, .ro, false⟩, ⟨30, 30, .ro, false⟩, ⟨3, 3, .ro, false⟩, ⟨2, 2, .ro, false⟩, ⟨1, 1, .ro, false⟩, ⟨0, 0, .ro, false⟩], .plain⟩,
  ⟨0x140008, [], 0x410, [⟨12, 8, .rw, true⟩, ⟨4, 0, .rw, true⟩], .plain⟩,
  ⟨0x14000C, [], 0x0, [⟨12, 0, .ro, false⟩], .plain⟩,
  ⟨0x140010, [], 0x0, [⟨31, 0, .rw, false⟩], .counter (some (0x140004, 0))⟩,
  ⟨0x140014, [], 0x0, [⟨31, 0, .rw, false⟩], .counter (some (0x140004, 1))⟩,
  ⟨0x140018, [], 0x0, [⟨31, 0, .rw, false⟩], .counter (some (0x140004, 2))⟩,
  ⟨0x14001C, [], 0x0, [⟨31, 0, .rw, false⟩], .counter (some (0x140004, 3))⟩,
  ⟨0x141000, [(3, 0x100)], 0x0, [⟨31, 0, .rw, false⟩], .mwLo 2⟩,
  ⟨0x141004, [(3, 0x100)], 0x0, [⟨7, 0, .rw, false⟩], .mwHi⟩,
  ⟨0x141008, [(3, 0x100)], 0x0, [⟨8, 8, .wo, false⟩, ⟨3, 0, .wo, false⟩], .plain⟩,
  ⟨0x14100C, [(3, 0x100)], 0x0, [⟨31, 31, .ro, false⟩, ⟨15, 0, .ro, false⟩], .plain⟩,
  ⟨0x141040, [(3, 0x100), (16, 0x4)], 0x0, [⟨31, 0, .rw, false⟩], .plain⟩]

/-- Rows of TXN, part 1. -/
def regRows6_1 : List RegRow := [
  ⟨0x180000, [], 0x80000064, [⟨31, 31, .rw, true⟩, ⟨15, 0, .rw, true⟩], .plain⟩,
  ⟨0x180004, [], 0x0, [⟨31, 25, .ro, false⟩, ⟨22, 17, .ro, false⟩, ⟨16, 0, .ro, false⟩], .plain⟩,
  ⟨0x180008, [], 0x0, [⟨20, 0, .ro, false⟩], .plain⟩,
  ⟨0x180010, [], 0x0, [⟨31, 0, .rw, false⟩], .counter (some (0x180004, 25))⟩,
  ⟨0x180014, [], 0x0, [⟨31, 0, .rw, false⟩], .counter (some (0x180004, 26))⟩,
  ⟨0x180018, [], 0x0, [⟨31, 0, .rw, false⟩], .counter (some (0x180004, 27))⟩,
  ⟨0x18001C, [], 0x0, [⟨31, 0, .rw, false⟩], .counter (some (0x180004, 28))⟩,
  ⟨0x180020, [], 0x0, [⟨31, 0, .rw, false⟩], .counter (some (0x180004, 29))⟩,
  ⟨0x180024, [], 0x0, [⟨31, 0, .rw, false⟩], .counter (some (0x180004, 30))⟩,
  ⟨0x180028, [], 0x0, [⟨31, 0, .rw, false⟩], .counter (some (0x180004, 31))⟩,
  ⟨0x180040, [(6, 0x10)], 0x800060, [⟨31, 16, .rw, true⟩, ⟨15, 0, .rw, true⟩], .plain⟩,
  ⟨0x1800A0, [(2, 0x10)], 0x0, [⟨31, 16, .ro, true⟩, ⟨15, 0, .ro, true⟩], .plain⟩,
  ⟨0x180044, [(1, 0x10)], 0x100, [⟨14, 0, .rw, true⟩], .plain⟩,
  ⟨0x180054, [(1, 0x10)], 0x400, [⟨14, 0, .rw, true⟩], .plain⟩,
  ⟨0x180064, [(1, 0x10)], 0x200, [⟨14, 0, .rw, true⟩], .plain⟩,
  ⟨0x180074, [(1, 0x10)], 0x800, [⟨14, 0, .rw, true⟩], .plain⟩,
  ⟨0x180084, [(1, 0x10)], 0x200, [⟨14, 0, .rw, true⟩], .plain⟩,
  ⟨0x180094, [(1, 0x10)], 0x800, [⟨14, 0, .rw, true⟩], .plain⟩,
  ⟨0x1800A4, [(1, 0x10)], 0x400, [⟨14, 0, .ro, true⟩], .plain⟩,
  ⟨0x1800B4, [(1, 0x10)], 0x200, [⟨14, 0, .ro, true⟩], .plain⟩,
  ⟨0x180048, [(8, 0x10)], 0x0, [⟨31, 31, .ro, false⟩, ⟨14, 0, .ro, false⟩], .plain⟩,
  ⟨0x18004C, [(8, 0x10)], 0x0, [⟨20, 0, .ro, false⟩], .plain⟩,
  ⟨0x180100, [], 0x0, [⟨31, 31, .rw, false⟩, ⟨17, 0, .rw, false⟩], .plain⟩,
  ⟨0x180104, [], 0x3F, [⟨31, 8, .rw, false⟩, ⟨5, 0, .rw, false⟩], .plain⟩]

/-- Rows of TXN, part 2. -/
def regRows6_2 : List RegRow := [
  ⟨0x180108, [], 0x0, [⟨31, 0, .rw, false⟩], .mwLo 2⟩,
  ⟨0x18010C, [], 0x0, [⟨31, 0, .rw, false⟩], .mwHi⟩,
  ⟨0x180110, [], 0x1, [⟨31, 31, .w1s, false⟩, ⟨0, 0, .rw, false⟩], .plain⟩,
  ⟨0x180114, [], 0x0, [⟨31, 31, .rc, false⟩, ⟨15, 0, .ro, false⟩], .plain⟩,
  ⟨0x180200, [], 0x0, [⟨17, 0, .rw, false⟩], .plain⟩,
  ⟨0x180204, [], 0x0, [⟨31, 31, .ro, false⟩, ⟨30, 30, .ro, false⟩, ⟨29, 29, .ro, false⟩, ⟨28, 22, .ro, false⟩, ⟨15, 0, .ro, false⟩], .plain⟩,
  ⟨0x180208, [], 0x0, [⟨31, 0, .ro, false⟩], .mwLo 2⟩,
  ⟨0x18020C, [], 0x0, [⟨31, 0, .ro, false⟩], .mwHi⟩]

/-- Rows of UPL. -/
def regRows7 : List RegRow := [
  ⟨0x1C0000, [], 0x88B5BD7E, [⟨31, 16, .rw, true⟩, ⟨15, 0, .rw, true⟩], .plain⟩,
  ⟨0x1C0004, [], 0x76543210, [⟨31, 0, .rw, true⟩], .plain⟩,
  ⟨0x1C0010, [(4, 0x10)], 0x1, [⟨31, 31, .rw, true⟩, ⟨30, 30, .rw, true⟩, ⟨29, 29, .rw, true⟩, ⟨28, 28, .rw, true⟩, ⟨27, 26, .rw, true⟩, ⟨11, 0, .rw, true⟩], .plain⟩,
  ⟨0x1C0014, [(4, 0x10)], 0x0, [⟨31, 31, .ro, false⟩, ⟨30, 30, .ro, false⟩, ⟨29, 27, .ro, false⟩], .plain⟩,
  ⟨0x1C0018, [(4, 0x10)], 0x0, [⟨31, 0, .rw, false⟩], .counter (some (0x1C0014, 30))⟩,
  ⟨0x1C0100, [(8, 0x10)], 0x19, [⟨31, 31, .rw, true⟩, ⟨30, 30, .rw, true⟩, ⟨7, 0, .rw, true⟩], .plain⟩,
  ⟨0x1C0104, [(8, 0x10)], 0x0, [⟨31, 31, .ro, false⟩, ⟨30, 29, .ro, false⟩], .plain⟩,
  ⟨0x1C0200, [], 0x3E8, [⟨31, 30, .rw, true⟩, ⟨19, 0, .rw, true⟩], .plain⟩,
  ⟨0x1C0204, [], 0x0, [⟨31, 31, .ro, false⟩, ⟨30, 30, .ro, false⟩, ⟨29, 29, .ro, false⟩, ⟨28, 28, .w1c, false⟩, ⟨25, 24, .ro, false⟩, ⟨23, 23, .ro, false⟩], .plain⟩,
  ⟨0x1C0208, [], 0x0, [⟨31, 0, .ro, false⟩], .mwLo 2⟩,
  ⟨0x1C020C, [], 0x0, [⟨31, 0, .ro, false⟩], .mwHi⟩,
  ⟨0x1C0210, [], 0x0, [⟨31, 0, .rw, false⟩], .mwLo 2⟩,
  ⟨0x1C0214, [], 0x0, [⟨31, 0, .rw, false⟩], .mwHi⟩,
  ⟨0x1C0218, [], 0x0, [⟨31, 0, .ro, false⟩], .plain⟩,
  ⟨0x1C021C, [], 0x15180, [⟨31, 0, .rw, true⟩], .plain⟩,
  ⟨0x1C0220, [], 0x1A00800A, [⟨31, 30, .rw, true⟩, ⟨29, 29, .rw, true⟩, ⟨28, 25, .rw, true⟩, ⟨24, 23, .rw, true⟩, ⟨22, 16, .rw, true⟩, ⟨15, 8, .rw, true⟩, ⟨7, 0, .rw, true⟩], .plain⟩,
  ⟨0x1C0224, [], 0x25, [⟨31, 31, .ro, false⟩, ⟨30, 30, .ro, false⟩, ⟨29, 29, .ro, false⟩, ⟨15, 0, .rw, true⟩], .plain⟩,
  ⟨0x1C0300, [], 0x0, [⟨31, 0, .rw, true⟩], .plain⟩,
  ⟨0x1C0304, [], 0x0, [⟨31, 0, .rw, false⟩], .counter (some (0x1C0204, 30))⟩,
  ⟨0x1C0400, [], 0x0, [⟨31, 31, .ro, false⟩, ⟨30, 28, .ro, false⟩, ⟨27, 25, .ro, false⟩, ⟨15, 0, .ro, false⟩], .plain⟩,
  ⟨0x1C0404, [], 0x40000000, [⟨31, 28, .rw, true⟩, ⟨15, 0, .ro, false⟩], .plain⟩]

/-- Rows of FLD. -/
def regRows8 : List RegRow := [
  ⟨0x200000, [(16, 0x40)], 0x1903E8, [⟨31, 31, .rw, true⟩, ⟨30, 30, .w1s, false⟩, ⟨23, 16, .rw, true⟩, ⟨15, 0, .rw, true⟩], .plain⟩,
  ⟨0x200004, [(16, 0x40)], 0x8200003, [⟨31, 24, .rw, true⟩, ⟨23, 16, .rw, true⟩, ⟨1, 0, .rw, true⟩], .plain⟩,
  ⟨0x200008, [(16, 0x40)], 0x0, [⟨31, 31, .ro, false⟩, ⟨30, 30, .ro, false⟩, ⟨29, 29, .ro, false⟩, ⟨28, 28, .ro, false⟩, ⟨27, 27, .ro, false⟩, ⟨15, 0, .ro, false⟩], .plain⟩,
  ⟨0x20000C, [(16, 0x40)], 0x0, [⟨31, 0, .rw, false⟩], .counter (some (0x200008, 28))⟩,
  ⟨0x200010, [(16, 0x40)], 0x0, [⟨31, 0, .rw, false⟩], .counter (some (0x200008, 27))⟩,
  ⟨0x201000, [(8, 0x40)], 0x1000000, [⟨31, 31, .rw, true⟩, ⟨30, 30, .w1s, false⟩, ⟨29, 29, .rw, true⟩, ⟨25, 24, .rw, true⟩, ⟨15, 0, .rw, true⟩], .plain⟩,
  ⟨0x201004, [(8, 0x40)], 0x140064, [⟨31, 16, .rw, true⟩, ⟨15, 0, .rw, true⟩], .plain⟩,
  ⟨0x201008, [(8, 0x40)], 0x0, [⟨15, 8, .rw, true⟩, ⟨7, 0, .rw, true⟩], .plain⟩,
  ⟨0x20100C, [(8, 0x40)], 0x0, [⟨31, 31, .ro, false⟩, ⟨30, 30, .w1c, false⟩, ⟨29, 29, .ro, false⟩, ⟨28, 28, .ro, false⟩, ⟨27, 27, .ro, false⟩, ⟨10, 0, .ro, false⟩], .plain⟩,
  ⟨0x201010, [(8, 0x40)], 0x0, [⟨31, 0, .rw, false⟩], .counter (some (0x20100C, 28))⟩,
  ⟨0x201014, [(8, 0x40)], 0x0, [⟨31, 0, .rw, false⟩], .counter (some (0x20100C, 27))⟩,
  ⟨0x202000, [], 0x0, [⟨31, 0, .rw, true⟩], .mwLo 2⟩,
  ⟨0x202004, [], 0x0, [⟨15, 0, .rw, true⟩], .mwHi⟩]

/-- Rows of CAN. -/
def regRows9 : List RegRow := [
  ⟨0x240000, [(32, 0x1000)], 0x1900, [⟨31, 31, .rw, true⟩, ⟨30, 29, .rw, true⟩, ⟨28, 28, .rw, true⟩, ⟨27, 27, .rw, true⟩, ⟨26, 26, .rw, true⟩, ⟨15, 8, .rw, true⟩], .plain⟩,
  ⟨0x240004, [(32, 0x1000)], 0x938A0A, [⟨31, 23, .rw, true⟩, ⟨22, 15, .rw, true⟩, ⟨14, 8, .rw, true⟩, ⟨6, 0, .rw, true⟩], .plain⟩,
  ⟨0x240008, [(32, 0x1000)], 0x1188884, [⟨28, 24, .rw, true⟩, ⟨23, 19, .rw, true⟩, ⟨18, 15, .rw, true⟩, ⟨14, 11, .rw, true⟩, ⟨7, 7, .rw, true⟩, ⟨6, 0, .rw, true⟩], .plain⟩,
  ⟨0x24000C, [(32, 0x1000)], 0x0, [⟨31, 29, .ro, false⟩, ⟨28, 28, .ro, false⟩, ⟨27, 27, .ro, false⟩, ⟨26, 24, .ro, false⟩, ⟨8, 0, .ro, false⟩], .plain⟩,
  ⟨0x240010, [(32, 0x1000)], 0x0, [⟨31, 31, .ro, false⟩, ⟨30, 24, .ro, false⟩, ⟨23, 16, .ro, false⟩, ⟨15, 12, .ro, false⟩, ⟨11, 8, .ro, false⟩], .plain⟩,
  ⟨0x240014, [(32, 0x1000)], 0x0, [⟨31, 31, .w1s, false⟩], .plain⟩,
  ⟨0x240018, [(32, 0x1000)], 0x0, [⟨31, 0, .rw, false⟩], .counter (some (0x24000C, 24))⟩,
  ⟨0x24001C, [(32, 0x1000)], 0x0, [⟨31, 0, .rw, false⟩], .counter (some (0x24000C, 25))⟩,
  ⟨0x240020, [(32, 0x1000)], 0x0, [⟨31, 0, .rw, false⟩], .counter (some (0x24000C, 26))⟩,
  ⟨0x240100, [(32, 0x1000), (3, 0x80)], 0x0, [⟨31, 31, .rw, false⟩, ⟨28, 0, .rw, false⟩], .plain⟩,
  ⟨0x240104, [(32, 0x1000), (3, 0x80)], 0x0, [⟨31, 31, .rw, false⟩, ⟨30, 30, .rw, false⟩, ⟨29, 29, .rw, false⟩, ⟨3, 0, .rw, false⟩], .plain⟩,
  ⟨0x240108, [(32, 0x1000), (3, 0x80)], 0x0, [⟨31, 31, .w1s, false⟩, ⟨30, 30, .w1s, false⟩], .plain⟩,
  ⟨0x24010C, [(32, 0x1000), (3, 0x80)], 0x0, [⟨31, 31, .ro, false⟩, ⟨30, 30, .ro, false⟩, ⟨29, 29, .ro, false⟩, ⟨28, 28, .ro, false⟩, ⟨15, 0, .ro, false⟩], .plain⟩,
  ⟨0x240400, [(32, 0x1000), (16, 0x80)], 0x0, [⟨31, 31, .rw, false⟩, ⟨30, 30, .rw, false⟩, ⟨28, 0, .rw, false⟩], .plain⟩,
  ⟨0x240404, [(32, 0x1000), (16, 0x80)], 0x0, [⟨28, 0, .rw, false⟩], .plain⟩,
  ⟨0x240408, [(32, 0x1000), (16, 0x80)], 0x0, [⟨31, 31, .w1c, false⟩, ⟨30, 30, .w1c, false⟩], .plain⟩,
  ⟨0x24040C, [(32, 0x1000), (16, 0x80)], 0x0, [⟨31, 31, .ro, false⟩, ⟨28, 0, .ro, false⟩], .plain⟩,
  ⟨0x240410, [(32, 0x1000), (16, 0x80)], 0x0, [⟨31, 31, .ro, false⟩, ⟨30, 30, .ro, false⟩, ⟨29, 29, .ro, false⟩, ⟨3, 0, .ro, false⟩], .plain⟩,
  ⟨0x240418, [(32, 0x1000), (16, 0x80)], 0x0, [⟨31, 0, .ro, false⟩], .mwLo 2⟩,
  ⟨0x24041C, [(32, 0x1000), (16, 0x80)], 0x0, [⟨31, 0, .ro, false⟩], .mwHi⟩,
  ⟨0x240140, [(32, 0x1000), (3, 0x80), (16, 0x4)], 0x0, [⟨31, 0, .rw, false⟩], .plain⟩,
  ⟨0x240440, [(32, 0x1000), (16, 0x80), (16, 0x4)], 0x0, [⟨31, 0, .ro, false⟩], .plain⟩]

/-- Rows of PLAN, part 1. -/
def regRows10_1 : List RegRow := [
  ⟨0x280000, [], 0x0, [⟨31, 31, .rw, true⟩, ⟨30, 30, .rw, true⟩], .plain⟩,
  ⟨0x280004, [], 0x0, [⟨1, 0, .wo, false⟩], .plain⟩,
  ⟨0x280008, [], 0x0, [⟨15, 0, .ro, false⟩], .plain⟩,
  ⟨0x28000C, [], 0x12C, [⟨27, 16, .rw, true⟩, ⟨15, 0, .rw, true⟩], .plain⟩,
  ⟨0x280010, [], 0x1403C14, [⟨31, 20, .rw, true⟩, ⟨19, 8, .rw, true⟩, ⟨7, 0, .rw, true⟩], .plain⟩,
  ⟨0x280014, [], 0x0, [⟨31, 0, .rw, false⟩], .counter none⟩,
  ⟨0x280020, [(1, 0x4)], 0xF00C0, [⟨21, 16, .rw, true⟩, ⟨8, 0, .rw, true⟩], .plain⟩,
  ⟨0x280024, [(7, 0x4)], 0x0, [⟨21, 16, .rw, true⟩, ⟨8, 0, .rw, true⟩], .plain⟩,
  ⟨0x280040, [], 0x0, [⟨18, 0, .rw, true⟩], .plain⟩,
  ⟨0x280044, [], 0x0, [⟨18, 0, .rw, true⟩], .plain⟩,
  ⟨0x280048, [], 0x0, [⟨18, 0, .rw, true⟩], .plain⟩,
  ⟨0x280050, [], 0xA0B5ED8D, [⟨31, 0, .rw, true⟩], .mwLo 2⟩,
  ⟨0x280054, [], 0x3EB0C6F7, [⟨31, 0, .rw, true⟩], .mwHi⟩,
  ⟨0x280058, [], 0xA0B5ED8D, [⟨31, 0, .rw, true⟩], .mwLo 2⟩,
  ⟨0x28005C, [], 0x3EB0C6F7, [⟨31, 0, .rw, true⟩], .mwHi⟩,
  ⟨0x280060, [], 0x88E368F1, [⟨31, 0, .rw, true⟩], .mwLo 2⟩,
  ⟨0x280064, [], 0x3EE4F8B5, [⟨31, 0, .rw, true⟩], .mwHi⟩,
  ⟨0x280080, [], 0x3C01002C, [⟨31, 24, .rw, true⟩, ⟨17, 16, .rw, true⟩, ⟨15, 8, .rw, true⟩, ⟨7, 0, .rw, true⟩], .plain⟩,
  ⟨0x280084, [], 0x141717, [⟨23, 16, .rw, true⟩, ⟨15, 8, .rw, true⟩, ⟨7, 0, .rw, true⟩], .plain⟩,
  ⟨0x280088, [], 0x401401F4, [⟨31, 31, .rw, true⟩, ⟨30, 30, .rw, true⟩, ⟨20, 16, .rw, true⟩, ⟨15, 0, .rw, true⟩], .plain⟩,
  ⟨0x28008C, [], 0xFC000064, [⟨31, 24, .rw, true⟩, ⟨15, 0, .rw, true⟩], .plain⟩,
  ⟨0x280090, [], 0x0, [⟨31, 0, .rw, true⟩], .mwLo 2⟩,
  ⟨0x280094, [], 0x0, [⟨7, 0, .rw, true⟩], .mwHi⟩,
  ⟨0x281000, [], 0x0, [⟨31, 28, .ro, false⟩, ⟨27, 25, .ro, false⟩, ⟨24, 24, .ro, false⟩, ⟨23, 16, .ro, false⟩, ⟨15, 11, .ro, false⟩, ⟨10, 0, .ro, false⟩], .plain⟩]

/-- Rows of PLAN, part 2. -/
def regRows10_2 : List RegRow := [
  ⟨0x281004, [], 0x0, [⟨31, 31, .rc, false⟩, ⟨30, 30, .ro, false⟩, ⟨29, 27, .ro, false⟩, ⟨26, 24, .ro, false⟩, ⟨23, 16, .ro, false⟩, ⟨15, 0, .ro, false⟩], .plain⟩,
  ⟨0x281008, [], 0x0, [⟨31, 31, .ro, false⟩, ⟨21, 0, .ro, false⟩], .plain⟩,
  ⟨0x28100C, [], 0x0, [⟨31, 31, .ro, false⟩, ⟨30, 28, .ro, false⟩, ⟨24, 16, .ro, false⟩, ⟨15, 0, .ro, false⟩], .plain⟩,
  ⟨0x281010, [], 0x0, [⟨31, 0, .ro, false⟩], .mwLo 2⟩,
  ⟨0x281014, [], 0x0, [⟨31, 0, .ro, false⟩], .mwHi⟩,
  ⟨0x281018, [], 0x0, [⟨31, 0, .ro, false⟩], .mwLo 2⟩,
  ⟨0x28101C, [], 0x0, [⟨31, 0, .ro, false⟩], .mwHi⟩,
  ⟨0x281020, [], 0x0, [⟨31, 0, .ro, false⟩], .mwLo 2⟩,
  ⟨0x281024, [], 0x0, [⟨31, 0, .ro, false⟩], .mwHi⟩,
  ⟨0x281028, [], 0x0, [⟨31, 0, .ro, false⟩], .mwLo 2⟩,
  ⟨0x28102C, [], 0x0, [⟨31, 0, .ro, false⟩], .mwHi⟩,
  ⟨0x281030, [], 0x0, [⟨31, 0, .ro, false⟩], .plain⟩,
  ⟨0x281034, [], 0x0, [⟨31, 0, .ro, false⟩], .plain⟩,
  ⟨0x281038, [], 0x0, [⟨31, 16, .ro, false⟩, ⟨15, 0, .ro, false⟩], .plain⟩,
  ⟨0x28103C, [], 0x0, [⟨31, 0, .ro, false⟩], .plain⟩,
  ⟨0x281040, [], 0x0, [⟨31, 0, .ro, false⟩], .plain⟩,
  ⟨0x281044, [], 0x0, [⟨31, 27, .ro, false⟩, ⟨26, 26, .ro, false⟩, ⟨25, 25, .ro, false⟩, ⟨12, 0, .ro, false⟩], .plain⟩,
  ⟨0x281048, [], 0x0, [⟨31, 0, .ro, false⟩], .mwLo 2⟩,
  ⟨0x28104C, [], 0x0, [⟨31, 0, .ro, false⟩], .mwHi⟩]

/-- Rows of LAMP. -/
def regRows11 : List RegRow := [
  ⟨0x2C0000, [], 0x80000000, [⟨31, 31, .rw, true⟩, ⟨6, 0, .rw, false⟩], .plain⟩,
  ⟨0x2C0004, [], 0x0, [⟨31, 31, .ro, false⟩, ⟨30, 27, .ro, false⟩, ⟨16, 0, .ro, false⟩], .plain⟩,
  ⟨0x2C0008, [], 0x50003C0, [⟨31, 16, .rw, true⟩, ⟨15, 0, .rw, true⟩], .plain⟩,
  ⟨0x2C000C, [], 0x2000, [⟨15, 0, .rw, true⟩], .plain⟩,
  ⟨0x2C0010, [], 0x0, [⟨31, 31, .rw, false⟩, ⟨21, 0, .rw, false⟩], .plain⟩,
  ⟨0x2C0014, [], 0x0, [⟨31, 0, .rw, false⟩], .mwLo 2⟩,
  ⟨0x2C0018, [], 0x0, [⟨31, 0, .rw, false⟩], .mwHi⟩,
  ⟨0x2C001C, [], 0x0, [⟨31, 0, .rw, false⟩], .plain⟩,
  ⟨0x2C0020, [(4, 0x8)], 0x0, [⟨31, 16, .rw, false⟩, ⟨15, 0, .rw, false⟩], .pairLo⟩,
  ⟨0x2C0024, [(4, 0x8)], 0xFFFFFFFF, [⟨31, 16, .rw, false⟩, ⟨15, 0, .rw, false⟩], .pairHi⟩,
  ⟨0x2C0040, [], 0x0, [⟨31, 31, .w1s, false⟩, ⟨15, 8, .wo, false⟩, ⟨1, 0, .wo, false⟩], .plain⟩,
  ⟨0x2C0044, [], 0x0, [⟨15, 0, .ro, false⟩], .plain⟩,
  ⟨0x2C0048, [], 0x0, [⟨31, 0, .ro, false⟩], .plain⟩,
  ⟨0x2C0050, [], 0x0, [⟨31, 0, .rw, false⟩], .counter (some (0x2C0004, 27))⟩,
  ⟨0x2C0054, [], 0x0, [⟨31, 0, .rw, false⟩], .counter (some (0x2C0004, 28))⟩,
  ⟨0x2C0058, [], 0x0, [⟨31, 0, .rw, false⟩], .counter (some (0x2C0004, 29))⟩,
  ⟨0x2C005C, [], 0x0, [⟨31, 0, .rw, false⟩], .counter (some (0x2C0004, 30))⟩,
  ⟨0x2C0080, [], 0x0, [⟨31, 31, .w1s, false⟩, ⟨30, 30, .w1s, false⟩, ⟨25, 18, .rw, false⟩, ⟨17, 0, .rw, false⟩], .plain⟩,
  ⟨0x2C0084, [], 0x0, [⟨31, 28, .ro, false⟩, ⟨27, 25, .ro, false⟩, ⟨15, 0, .ro, false⟩], .plain⟩,
  ⟨0x2C0088, [], 0x0, [⟨31, 0, .rw, false⟩], .mwLo 2⟩,
  ⟨0x2C008C, [], 0x0, [⟨31, 0, .rw, false⟩], .mwHi⟩]

/-- Rows of LOOP, part 1. -/
def regRows12_1 : List RegRow := [
  ⟨0x300000, [], 0x80000000, [⟨31, 31, .rw, true⟩], .plain⟩,
  ⟨0x300004, [], 0x0, [⟨31, 31, .ro, false⟩, ⟨30, 28, .ro, false⟩, ⟨18, 0, .ro, false⟩], .plain⟩,
  ⟨0x300010, [], 0x0, [⟨31, 0, .rw, false⟩], .counter (some (0x300004, 28))⟩,
  ⟨0x300014, [], 0x0, [⟨31, 0, .rw, false⟩], .counter (some (0x300004, 29))⟩,
  ⟨0x300018, [], 0x0, [⟨31, 0, .rw, false⟩], .counter (some (0x300004, 30))⟩,
  ⟨0x300100, [(16, 0x4)], 0x0, [⟨31, 0, .rw, false⟩], .plain⟩,
  ⟨0x300140, [], 0x0, [⟨31, 31, .w1s, false⟩, ⟨0, 0, .rw, false⟩], .plain⟩,
  ⟨0x300144, [], 0x0, [⟨31, 0, .rw, false⟩], .mwLo 2⟩,
  ⟨0x300148, [], 0x0, [⟨31, 0, .rw, false⟩], .mwHi⟩,
  ⟨0x30014C, [], 0x0, [⟨31, 31, .rc, false⟩, ⟨15, 0, .ro, false⟩], .plain⟩,
  ⟨0x300200, [(4, 0x40)], 0x3800000, [⟨31, 31, .w1s, false⟩, ⟨30, 30, .w1s, false⟩, ⟨29, 28, .rw, false⟩, ⟨27, 27, .rw, false⟩, ⟨26, 23, .rw, false⟩, ⟨8, 0, .rw, false⟩], .plain⟩,
  ⟨0x300204, [(4, 0x40)], 0x0, [⟨31, 31, .ro, false⟩, ⟨30, 30, .ro, false⟩, ⟨15, 0, .ro, false⟩], .plain⟩,
  ⟨0x300208, [(4, 0x40)], 0x1000001, [⟨31, 24, .rw, false⟩, ⟨23, 0, .rw, false⟩], .plain⟩,
  ⟨0x300210, [(4, 0x40)], 0x0, [⟨31, 0, .rw, false⟩], .mwLo 2⟩,
  ⟨0x300214, [(4, 0x40)], 0x0, [⟨31, 0, .rw, false⟩], .mwHi⟩,
  ⟨0x300218, [(4, 0x40)], 0x0, [⟨31, 0, .rw, false⟩], .mwLo 2⟩,
  ⟨0x30021C, [(4, 0x40)], 0x0, [⟨31, 0, .rw, false⟩], .mwHi⟩,
  ⟨0x300220, [(4, 0x40)], 0x0, [⟨31, 0, .rw, false⟩], .mwLo 2⟩,
  ⟨0x300224, [(4, 0x40)], 0x0, [⟨31, 0, .rw, false⟩], .mwHi⟩,
  ⟨0x300400, [], 0x0, [⟨31, 31, .w1s, false⟩, ⟨30, 30, .w1s, false⟩, ⟨29, 28, .rw, false⟩, ⟨24, 16, .rw, false⟩, ⟨15, 0, .rw, false⟩], .plain⟩,
  ⟨0x300404, [], 0x0, [⟨31, 30, .ro, false⟩, ⟨16, 0, .ro, false⟩], .plain⟩,
  ⟨0x300408, [], 0x0, [⟨31, 0, .ro, false⟩], .mwLo 2⟩,
  ⟨0x30040C, [], 0x0, [⟨31, 0, .ro, false⟩], .mwHi⟩,
  ⟨0x300440, [(16, 0x4)], 0x0, [⟨31, 31, .rw, false⟩, ⟨11, 9, .rw, false⟩, ⟨8, 0, .rw, false⟩], .plain⟩]

/-- Rows of LOOP, part 2. -/
def regRows12_2 : List RegRow := [
  ⟨0x301000, [(512, 0x10)], 0x0, [⟨31, 31, .w1s, false⟩, ⟨0, 0, .rw, false⟩], .plain⟩,
  ⟨0x301004, [(512, 0x10)], 0x0, [⟨31, 29, .ro, false⟩, ⟨28, 28, .ro, false⟩, ⟨27, 27, .ro, false⟩, ⟨26, 26, .ro, false⟩, ⟨25, 25, .ro, false⟩, ⟨5, 0, .w1c, false⟩], .plain⟩,
  ⟨0x301008, [(512, 0x10)], 0x0, [⟨31, 0, .rw, false⟩], .mwLo 2⟩,
  ⟨0x30100C, [(512, 0x10)], 0x0, [⟨31, 0, .rw, false⟩], .mwHi⟩]

/-- Rows of METER. -/
def regRows13 : List RegRow := [
  ⟨0x340000, [], 0x80000000, [⟨31, 31, .rw, true⟩], .plain⟩,
  ⟨0x340004, [], 0x0, [⟨31, 31, .ro, false⟩, ⟨30, 30, .ro, false⟩, ⟨29, 29, .ro, false⟩, ⟨28, 26, .ro, false⟩, ⟨14, 0, .ro, false⟩], .plain⟩,
  ⟨0x340008, [], 0x14000A, [⟨31, 16, .rw, true⟩, ⟨7, 0, .rw, true⟩], .plain⟩,
  ⟨0x340010, [], 0x0, [⟨31, 0, .rw, false⟩], .counter (some (0x340004, 26))⟩,
  ⟨0x340014, [], 0x0, [⟨31, 0, .rw, false⟩], .counter (some (0x340004, 27))⟩,
  ⟨0x340018, [], 0x0, [⟨31, 0, .rw, false⟩], .counter (some (0x340004, 28))⟩,
  ⟨0x340020, [], 0x0, [⟨31, 0, .ro, false⟩], .mwLo 2⟩,
  ⟨0x340024, [], 0x0, [⟨31, 0, .ro, false⟩], .mwHi⟩,
  ⟨0x340028, [], 0x0, [⟨31, 0, .ro, false⟩], .plain⟩,
  ⟨0x34002C, [], 0x0, [⟨15, 0, .rw, false⟩], .plain⟩,
  ⟨0x340100, [(64, 0x10)], 0x20000000, [⟨31, 31, .rw, true⟩, ⟨30, 30, .rw, true⟩, ⟨29, 29, .rw, true⟩, ⟨10, 0, .rw, true⟩], .plain⟩,
  ⟨0x340104, [(64, 0x10)], 0x0, [⟨31, 31, .ro, false⟩, ⟨30, 30, .w1c, false⟩, ⟨23, 0, .ro, false⟩], .plain⟩,
  ⟨0x340108, [(64, 0x10)], 0x0, [⟨31, 0, .rw, true⟩], .mwLo 2⟩,
  ⟨0x34010C, [(64, 0x10)], 0x0, [⟨31, 0, .rw, true⟩], .mwHi⟩,
  ⟨0x340800, [(10, 0x20)], 0x0, [⟨31, 31, .rw, true⟩, ⟨30, 29, .rw, true⟩, ⟨28, 28, .rw, true⟩], .plain⟩,
  ⟨0x340804, [(10, 0x20)], 0x6E5A0514, [⟨31, 24, .rw, true⟩, ⟨23, 16, .rw, true⟩, ⟨15, 8, .rw, true⟩, ⟨7, 0, .rw, true⟩], .plain⟩,
  ⟨0x340808, [(10, 0x20)], 0x0, [⟨31, 0, .rw, true⟩], .mwLo 2⟩,
  ⟨0x34080C, [(10, 0x20)], 0x0, [⟨31, 0, .rw, true⟩], .mwHi⟩,
  ⟨0x340810, [(10, 0x20)], 0x0, [⟨31, 0, .rw, true⟩], .mwLo 2⟩,
  ⟨0x340814, [(10, 0x20)], 0x0, [⟨31, 0, .rw, true⟩], .mwHi⟩,
  ⟨0x340A00, [(4, 0x8)], 0x0, [⟨31, 0, .rw, true⟩], .mwLo 2⟩,
  ⟨0x340A04, [(4, 0x8)], 0x0, [⟨31, 0, .rw, true⟩], .mwHi⟩,
  ⟨0x340C00, [(32, 0x8)], 0x4E20, [⟨31, 31, .rw, true⟩, ⟨30, 30, .rw, true⟩, ⟨29, 16, .rw, true⟩, ⟨15, 0, .rw, true⟩], .plain⟩,
  ⟨0x340C04, [(32, 0x8)], 0x0, [⟨31, 31, .ro, false⟩, ⟨30, 30, .w1c, false⟩], .plain⟩]

/-- Rows of SADL. -/
def regRows14 : List RegRow := [
  ⟨0x380000, [], 0x3E8, [⟨31, 31, .rw, true⟩, ⟨30, 30, .rw, true⟩, ⟨15, 0, .rw, true⟩], .plain⟩,
  ⟨0x380004, [], 0x0, [⟨31, 30, .ro, false⟩, ⟨29, 27, .ro, false⟩, ⟨26, 26, .ro, false⟩, ⟨25, 25, .ro, false⟩, ⟨24, 24, .ro, false⟩, ⟨23, 23, .ro, false⟩, ⟨22, 22, .ro, false⟩, ⟨21, 18, .ro, false⟩, ⟨17, 0, .ro, false⟩], .plain⟩,
  ⟨0x380008, [], 0x0, [⟨31, 31, .w1s, false⟩, ⟨30, 30, .w1s, false⟩, ⟨29, 29, .w1s, false⟩, ⟨28, 28, .w1s, false⟩], .plain⟩,
  ⟨0x38000C, [], 0x0, [⟨31, 31, .rc, false⟩, ⟨15, 0, .ro, false⟩], .plain⟩,
  ⟨0x380010, [], 0x0, [⟨31, 0, .ro, false⟩], .mwLo 2⟩,
  ⟨0x380014, [], 0x0, [⟨31, 0, .ro, false⟩], .mwHi⟩,
  ⟨0x380018, [], 0x0, [⟨31, 0, .ro, false⟩], .plain⟩,
  ⟨0x38001C, [], 0x0, [⟨31, 0, .rw, true⟩], .mwLo 2⟩,
  ⟨0x380020, [], 0x0, [⟨7, 0, .rw, true⟩], .mwHi⟩,
  ⟨0x380024, [], 0x3, [⟨15, 0, .rw, true⟩], .plain⟩,
  ⟨0x380030, [], 0x0, [⟨31, 0, .rw, false⟩], .counter (some (0x380004, 18))⟩,
  ⟨0x380034, [], 0x0, [⟨31, 0, .rw, false⟩], .counter (some (0x380004, 19))⟩,
  ⟨0x380038, [], 0x0, [⟨31, 0, .rw, false⟩], .counter (some (0x380004, 20))⟩,
  ⟨0x38003C, [], 0x0, [⟨31, 0, .rw, false⟩], .counter (some (0x380004, 21))⟩]

/-- Rows of GUARD. -/
def regRows15 : List RegRow := [
  ⟨0x3C0000, [], 0x0, [⟨31, 31, .ro, false⟩, ⟨30, 30, .ro, false⟩, ⟨29, 29, .ro, false⟩, ⟨28, 28, .ro, false⟩, ⟨27, 26, .ro, false⟩, ⟨25, 23, .ro, false⟩], .plain⟩,
  ⟨0x3C0004, [], 0x0, [⟨31, 0, .ro, false⟩], .plain⟩,
  ⟨0x3C0008, [], 0x0, [⟨31, 0, .ro, false⟩], .plain⟩,
  ⟨0x3C000C, [], 0xFFFFFFFF, [⟨31, 0, .ro, false⟩], .plain⟩,
  ⟨0x3C0010, [], 0x0, [⟨31, 16, .ro, false⟩, ⟨15, 0, .ro, false⟩], .plain⟩,
  ⟨0x3C0014, [], 0x0, [⟨31, 0, .ro, false⟩], .plain⟩,
  ⟨0x3C0018, [], 0x0, [⟨31, 0, .ro, false⟩], .plain⟩,
  ⟨0x3C0020, [], 0x0, [⟨31, 0, .rw, false⟩], .counter (some (0x3C0000, 23))⟩,
  ⟨0x3C0024, [], 0x0, [⟨31, 0, .rw, false⟩], .counter (some (0x3C0000, 24))⟩,
  ⟨0x3C0028, [], 0x0, [⟨31, 0, .rw, false⟩], .counter (some (0x3C0000, 25))⟩]

/-- Rows of VAULT. -/
def regRows16 : List RegRow := [
  ⟨0x400000, [], 0x3C, [⟨31, 31, .w1s, false⟩, ⟨11, 0, .rw, true⟩], .plain⟩,
  ⟨0x400004, [], 0x0, [⟨31, 31, .ro, false⟩, ⟨30, 30, .ro, false⟩, ⟨29, 26, .ro, false⟩, ⟨25, 25, .ro, false⟩, ⟨24, 24, .ro, false⟩, ⟨23, 23, .ro, false⟩, ⟨6, 0, .ro, false⟩], .plain⟩,
  ⟨0x400008, [], 0x0, [⟨31, 0, .ro, false⟩], .plain⟩,
  ⟨0x400010, [], 0x0, [⟨31, 0, .ro, false⟩], .mwLo 2⟩,
  ⟨0x400014, [], 0x0, [⟨31, 0, .ro, false⟩], .mwHi⟩,
  ⟨0x400020, [(12, 0x4)], 0x0, [⟨31, 0, .ro, false⟩], .plain⟩,
  ⟨0x400060, [], 0x0, [⟨31, 0, .rw, false⟩], .mwLo 2⟩,
  ⟨0x400064, [], 0x0, [⟨2, 0, .rw, false⟩], .mwHi⟩,
  ⟨0x400068, [], 0x0, [⟨15, 0, .ro, false⟩], .plain⟩,
  ⟨0x400080, [], 0x0, [⟨7, 0, .rw, false⟩], .plain⟩,
  ⟨0x400084, [], 0x0, [⟨31, 28, .ro, false⟩, ⟨27, 21, .ro, false⟩, ⟨20, 20, .ro, false⟩, ⟨19, 19, .ro, false⟩, ⟨18, 16, .ro, false⟩], .plain⟩,
  ⟨0x400088, [], 0x0, [⟨31, 0, .ro, false⟩], .plain⟩,
  ⟨0x40008C, [], 0x0, [⟨31, 0, .rw, false⟩], .counter (some (0x400004, 23))⟩,
  ⟨0x4000A0, [], 0x0, [⟨31, 31, .w1s, false⟩, ⟨2, 0, .wo, false⟩], .plain⟩,
  ⟨0x4000A4, [], 0x0, [⟨31, 31, .ro, false⟩, ⟨15, 0, .ro, false⟩], .plain⟩,
  ⟨0x4000C0, [(12, 0x4)], 0x0, [⟨31, 0, .wo, false⟩], .plain⟩,
  ⟨0x400100, [], 0x0, [⟨31, 31, .w1s, false⟩, ⟨30, 30, .w1s, false⟩, ⟨29, 29, .w1s, false⟩], .plain⟩,
  ⟨0x400104, [], 0x0, [⟨15, 0, .ro, false⟩], .plain⟩,
  ⟨0x400110, [(8, 0x4)], 0x0, [⟨31, 0, .ro, false⟩], .plain⟩,
  ⟨0x400130, [(8, 0x4)], 0x0, [⟨31, 0, .wo, false⟩], .plain⟩]

/-- Rows of PANEL. -/
def regRows17 : List RegRow := [
  ⟨0x440000, [], 0x40000002, [⟨31, 31, .rw, true⟩, ⟨30, 30, .rw, true⟩, ⟨29, 29, .w1s, false⟩, ⟨28, 28, .w1s, false⟩, ⟨1, 0, .rw, true⟩], .plain⟩,
  ⟨0x440004, [], 0xA12C05DC, [⟨31, 28, .rw, true⟩, ⟨27, 14, .rw, true⟩, ⟨10, 0, .rw, true⟩], .plain⟩,
  ⟨0x440008, [], 0xF00060, [⟨24, 16, .rw, true⟩, ⟨7, 0, .rw, true⟩], .plain⟩,
  ⟨0x44000C, [], 0x0, [⟨31, 0, .rw, false⟩], .mwLo 2⟩,
  ⟨0x440010, [], 0x0, [⟨2, 0, .rw, false⟩], .mwHi⟩,
  ⟨0x440014, [], 0x0, [⟨31, 31, .w1s, false⟩, ⟨30, 30, .wo, false⟩, ⟨15, 0, .wo, false⟩], .plain⟩,
  ⟨0x440018, [], 0x0, [⟨31, 31, .rc, false⟩, ⟨30, 30, .ro, false⟩, ⟨15, 0, .ro, false⟩], .plain⟩,
  ⟨0x44001C, [], 0x0, [⟨31, 31, .ro, false⟩, ⟨30, 30, .ro, false⟩, ⟨29, 29, .ro, false⟩, ⟨28, 28, .ro, false⟩, ⟨27, 27, .ro, false⟩, ⟨22, 16, .ro, false⟩, ⟨15, 0, .ro, false⟩], .plain⟩]

/-- Rows of CAIRN. -/
def regRows18 : List RegRow := [
  ⟨0x480000, [], 0x0, [⟨31, 16, .ro, false⟩, ⟨9, 9, .ro, false⟩, ⟨8, 8, .ro, false⟩, ⟨4, 4, .ro, false⟩, ⟨3, 0, .ro, false⟩], .plain⟩,
  ⟨0x480004, [], 0x0, [⟨31, 0, .ro, false⟩], .plain⟩,
  ⟨0x48000C, [], 0x0, [⟨31, 24, .ro, false⟩, ⟨9, 9, .ro, false⟩, ⟨8, 8, .ro, false⟩, ⟨3, 0, .ro, false⟩], .plain⟩,
  ⟨0x480010, [], 0x0, [⟨28, 0, .rw, false⟩], .plain⟩,
  ⟨0x480014, [], 0x0, [⟨16, 8, .wo, false⟩, ⟨2, 0, .wo, false⟩], .plain⟩,
  ⟨0x480018, [], 0x0, [⟨31, 31, .ro, false⟩, ⟨15, 0, .ro, false⟩], .plain⟩,
  ⟨0x480008, [], 0x0, [⟨31, 0, .rw, false⟩], .plain⟩,
  ⟨0x480100, [(64, 0x4)], 0x0, [⟨31, 0, .rw, false⟩], .plain⟩]

/-- Every register of the control space, by block of 256 KiB. -/
def regBlocks : List (Nat × List RegRow) := [
  ⟨0, regRows0⟩,
  ⟨1, regRows1⟩,
  ⟨2, regRows2_1 ++ regRows2_2⟩,
  ⟨3, regRows3_1 ++ regRows3_2⟩,
  ⟨4, regRows4⟩,
  ⟨5, regRows5⟩,
  ⟨6, regRows6_1 ++ regRows6_2⟩,
  ⟨7, regRows7⟩,
  ⟨8, regRows8⟩,
  ⟨9, regRows9⟩,
  ⟨10, regRows10_1 ++ regRows10_2⟩,
  ⟨11, regRows11⟩,
  ⟨12, regRows12_1 ++ regRows12_2⟩,
  ⟨13, regRows13⟩,
  ⟨14, regRows14⟩,
  ⟨15, regRows15⟩,
  ⟨16, regRows16⟩,
  ⟨17, regRows17⟩,
  ⟨18, regRows18⟩]

end Sys2Proof.Machine
end

