-- ==== Sys2Proof/Machine/State.lean ====
section
/-! DEFINITION. The state of the controller as plain data, the reasons a step can stop, and the state after reset. A register
of the control space has its one home in `Chip.regs` (Machine/Regs.lean gives each a name and a reset value); what the spec
gives the machine beside its registers stands in the groups below, one group for each chapter. -/

namespace Sys2Proof.Machine

/-- The reasons a step can fault. No meaning of this model faults: every command the spec describes has an effect. -/
inductive Fault where
deriving DecidableEq, Repr

/-- The reasons a step can refuse. -/
inductive Refusal where
  /-- Raised only by an arm of `exec` whose command has no meaning yet: safe. -/
  | notModelled (mnemonic : String)
deriving DecidableEq, Repr

/-- An event before it is written (Table 1-10). -/
structure Event where
  unit : Nat
  code : Half
  sev : Nat
  time : DWord := 0
  untrusted : Bool := false
  cc : Half := 0
  sub : Word := 0
  object : DWord := 0
  detail : List Byte := []
deriving DecidableEq, Repr

/-- What leaves the block: answers to requesters and frames on its ports. The model's own record (notes/assumptions/2.md). -/
inductive Out where
  /-- A word answered to a requester's read. -/
  | word (r : Req) (addr : Nat) (w : Word)
  /-- A record answered to a requester's point read. -/
  | point (code : Half) (rec : Option PointRec)
  /-- A Mirfor frame on its port. -/
  | mirfor (f : MFrame)
  /-- A frame of another protocol on a port: unit, port, what it is, its fields. -/
  | frame (unit : Nat) (port : Nat) (kind : String) (body : List Nat)
deriving DecidableEq, Repr

/-- Time and clocks (R13, R141, R314). League time is held in units of 2^-32 ns, the rate word in the same units for each tick of
PLL_AUX, and the monotonic count of the spine in quarters of a nanosecond since the start of PD2. -/
structure Clk where
  league : Nat := 0
  rate : Nat := 21845333333
  auxPhase : Nat := 0
  mono : Nat := 0
  fast : Bool := true
  locked : List Nat := []
  free : Nat := 0
deriving DecidableEq, Repr

/-- What the spine keeps for a requester: read latch (R25), pending pair write (R18), held low words (R26), window pages (R464). -/
structure ReqSt where
  latch : List (Nat × Word) := []
  pair : Option (Nat × Word) := none
  held : List (Nat × Word) := []
  pages : AMap Nat := []
deriving DecidableEq, Repr

/-- The drain of a unit (R19 to R21). -/
structure UnitRun where
  draining : Bool := false
  disabled : Bool := false
  heldEnable : Bool := false
deriving DecidableEq, Repr

/-- Event rings beyond their registers (R31, R32, R491): rings that owe LOSS_BEFORE, the size exponent that each ring took when it was last
enabled, held events, whether a ring was ever enabled. -/
structure Rings where
  owed : AMap Bool := []
  size : AMap Nat := []
  held : List Event := []
  opened : Bool := false
deriving DecidableEq, Repr

/-- A write held in the force table (R44). -/
structure HeldWrite where
  src : Src
  value : DWord
  second : DWord
  quality : Half
  stamp : DWord
  untrusted : Bool
  seq : Word
  mirror : Bool := false
deriving DecidableEq, Repr

/-- A force-table entry (R44, R45): kind, and what was saved when the first hold began. -/
structure Force where
  subst : Bool
  value : DWord
  second : DWord
  quality : Half
  stamp : DWord
  flags : Half
  held : Option HeldWrite := none
deriving DecidableEq, Repr

/-- An overlay entry not yet folded (R63, R66). -/
structure Overlay where
  idx : Nat
  value : DWord
  second : DWord
  quality : Half
  stamp : DWord
  untrusted : Bool
deriving DecidableEq, Repr

/-- The point store beyond its registers (chapter 2). -/
structure Points where
  recs : AMap PointRec := []
  forces : List (Nat × Force) := []
  overlay : List Overlay := []
  sweepAt : Option Nat := none
  scrubAt : Option Nat := none
deriving DecidableEq, Repr

/-- How a set is judged at GO (R60): nothing failed, or code, rule, unit, object. -/
structure Verdict where
  code : Half
  rule : Nat
  unit : Nat
  object : DWord
deriving DecidableEq, Repr

/-- A pending commit (R58 to R63): its set, its mode word and instant as GO took them, its check program and limit, the verdict of
C1 to C10, the instant it started waiting, the league time at which its check program started, whether it waits for the
twin's verdict on a col swap (R170), whether the set has gone to the twin within C9, and the task, reason and code of a refused col swap (R162). -/
structure PendCommit where
  set : Bank
  mode : Nat
  task : Nat
  instant : DWord
  entry : Nat
  limit : Nat
  verdict : Option Verdict
  waitFrom : Nat := 0
  taskEnded : Bool := false
  checkAt : Nat := 0
  awaitTwin : Bool := false
  forwarded : Bool := false
  swap : Option (Nat × Nat × Half) := none
deriving DecidableEq, Repr

/-- The commit engine (chapter 3). -/
structure Commit where
  banks : AMap Bank := []
  pend : List (Nat × PendCommit) := []
deriving DecidableEq, Repr

/-- A flash operation in progress (R77): operation (CAIRN_FL_CMD.OP), address, length, data to program. -/
structure FlashOp where
  op : Nat
  addr : Nat
  len : Nat
  data : List Byte := []
deriving DecidableEq, Repr

/-- The boot (chapter 3): whether it holds channel 0 and the flash lock; the slot it commits from (0 A, 1 B) and that set's generation; the
groups left with their check programs; whether a group's commit runs; the slots that have failed with their codes, oldest first; offset and length of
slots A and B as the directory gave them; and the flash operation in progress. -/
structure Boot where
  running : Bool := false
  slot : Nat := 0
  gen : Word := 0
  groups : List (Bank × Nat) := []
  going : Bool := false
  tried : List (Nat × Half) := []
  ranges : List (Nat × Nat) := []
  flash : Option FlashOp := none
deriving DecidableEq, Repr

/-- A plain point store that the core has issued and the store has not yet acknowledged (R91). -/
structure Posted where
  tag : BitVec 40
  value : DWord
deriving DecidableEq, Repr

/-- A trap whose handler runs, for its event and its endings (R105, R108): address and length of the trapping instruction, trap code, CYCLE
at the trap. -/
structure TrapCtx where
  pc : Word
  len : Nat
  code : Nat
  cycle : DWord
deriving DecidableEq, Repr

/-- An echo in progress on a core of the standby (R377, R378): the read log still to come, the point stores made (tag, value,
complement), whether a read differed, whether BS_LEFT arose, and the trap code and PC of an abandon. -/
structure Echo where
  reads : List ReadEnt := []
  stores : List (BitVec 40 × DWord × DWord) := []
  bad : Bool := false
  bsLeft : Bool := false
  trap : Option (Nat × Word) := none
deriving DecidableEq, Repr

/-- A Wasa core (Tables 4-2 and 4-3). `level` is none while nothing runs on it. -/
structure Core where
  level : Option Level := none
  prog : Nat := 0
  img : Image := { code := [] }
  ba : Bool := false
  bs : List Bool := []
  wa : DWord := 0
  wb : DWord := 0
  g : AMap DWord := []
  f : AMap DWord := []
  pc : Word := 0
  z : Bool := false
  n : Bool := false
  c : Bool := false
  v : Bool := false
  idz : Bool := false
  prej : Bool := false
  rm : BitVec 2 := 0
  fflags : BitVec 5 := 0
  tcfg : Word := 0
  pq : Word := 0xC0000000
  trec : DWord := 0
  tinsn : DWord := 0
  taddr : DWord := 0
  cycle : DWord := 0
  ltime : DWord := 0
  trap : Option TrapCtx := none
  suppress : Bool := false
  budget : Nat := 0
  posted : List Posted := []
  echo : Option Echo := none
deriving DecidableEq, Repr

/-- A map entry of R143. -/
structure MapEnt where
  tag : BitVec 40
  high : Nat
  addr : Nat
  kind : Nat
  flags : Nat
  group : Nat
deriving DecidableEq, Repr

/-- A scan task table entry (Table 6-1). -/
structure TaskEnt where
  flags : Nat := 0
  core : Nat := 0
  prio : Nat := 0
  life : Nat := 0
  period : Nat := 0
  phase : Nat := 0
  budget : Nat := 0
  image : Nat := 0
  imap : Nat := 0
  imapN : Nat := 0
  omap : Nat := 0
  omapN : Nat := 0
  overLim : Nat := 0
  abnLim : Nat := 0
deriving DecidableEq, Repr

/-- A col swap applied and not yet switched (R164, R165): the new image, cold or not, the new slot run. -/
structure Swap where
  img : Image
  cold : Bool
  base : Nat
  count : Nat
deriving DecidableEq, Repr

/-- A scan task beyond its registers (R137 to R165): the entry and maps of its cycle, its image, the grid instant last dealt with, the
release instant of the cycle and its spine instant, the spine instant of the previous release, the number of the next cycle,
a STOP or a fault that waits for the boundary, a pending swap, a preempted core context, the hand-off buffer, and whether the
next release is the first under a new image. -/
structure Task where
  ent : TaskEnt := {}
  imap : List MapEnt := []
  omap : List MapEnt := []
  img : Image := { code := [] }
  gridDone : Option Nat := none
  release : DWord := 0
  releasedAt : Nat := 0
  prevMono : Option Nat := none
  next : Word := 0
  stopReq : Bool := false
  faultReq : Bool := false
  swap : Option Swap := none
  ctx : Option Core := none
  buf : List (MapEnt × DWord × DWord) := []
  firstNew : Bool := false
deriving DecidableEq, Repr

/-- A word of 64 bits of a core's SRAM whose cells have changed (R88): the program whose memory holds it, whether it lies in the code or the data SRAM, its
address divided by 8, and whether two bits have changed or one. -/
structure Upset where
  key : Nat
  code : Bool
  word : Nat
  double : Bool
deriving DecidableEq, Repr

/-- The scan engine and the Wasa cores (chapters 4 to 7): the cores, a SERVICE program that a check program has displaced (R61), the
tasks, the hardware timer slots by device slot. -/
structure Scan where
  cores : AMap Core := []
  saved : List (Nat × Core) := []
  tasks : AMap Task := []
  slots : AMap Slot := []
  upsets : List Upset := []
deriving DecidableEq, Repr

/-- The kinds of transaction (Table 14-3). -/
inductive TxKind where
  | output | hello | lgRead | lgWrite | lgSubscribe | quench
deriving DecidableEq, Repr

/-- The states of a transaction that is not DONE (Table 14-4). -/
inductive TxState where
  | queued | sent | retry
deriving DecidableEq, Repr

/-- A transaction (R299, R300): kind, station, state, sequence number once sent, instant of the last transmission (ns), retries
left, deadline (ns, 0 none), payload; for an OUTPUT its module group, first output tag, hand-off instant and output lifetime
(ns); who asked: an access port 0 to 2, the TXN_Q registers (3), or nobody. -/
structure Tx where
  kind : TxKind
  station : Nat
  state : TxState := .queued
  seq : Word := 0
  sentAt : Nat := 0
  retries : Nat := 0
  deadline : Nat := 0
  payload : List Byte := []
  group : Nat := 0
  tag : Nat := 0
  since : Nat := 0
  life : Nat := 0
  reqPort : Option Nat := none
deriving DecidableEq, Repr

/-- What the engine keeps for a station (R301, R302, R310, R312): whether it is UP, the last number accepted and the last number
sent of each frame type, the league time it was last heard, the spine instant from which its loss time runs, the instants of the frames accepted
in the last second, and until when a QUENCH and an automatic QUENCH of it run. -/
structure Station where
  up : Bool := true
  inSeq : AMap (Option Word) := []
  outSeq : AMap Word := []
  heard : Nat := 0
  heardAt : Nat := 0
  recent : List Nat := []
  quenchUntil : Nat := 0
  babbleUntil : Nat := 0
deriving DecidableEq, Repr

/-- A module group held for a lost station (R306). -/
structure HeldOut where
  station : Nat
  group : Nat
  tag : Nat
  payload : List Byte
  since : Nat
  life : Nat
  expired : Bool := false
deriving DecidableEq, Repr

/-- A subscription that this device serves (R304). -/
structure Subscr where
  station : Nat
  tag : Nat
  refresh : Nat
  renewed : Nat
deriving DecidableEq, Repr

/-- The transaction engine beyond its registers (chapter 14): transactions in acceptance order, stations, held groups,
subscriptions, the instants of the deep-queue drops of the last second and of the last DEEP_QUEUE_FULL, until when each port
is quenched as a whole, the uplinks' egress pauses by uplink × 8 + class, and the frames that wait for egress on the T1S, PLC
and CAN ports by port code. Durations are held on the spine's count. -/
structure Txn where
  txs : List Tx := []
  stations : AMap Station := []
  held : List HeldOut := []
  subs : List Subscr := []
  dqDrops : List Nat := []
  dqPosted : Option Nat := none
  portQuench : AMap Nat := []
  paused : AMap Nat := []
  egress : AMap (List MFrame) := []
deriving DecidableEq, Repr

/-- A LEAGUE neighbour (R327): state (0 UNKNOWN, 1 MEMBER, 2 FOREIGN, 3 CONFLICT, 4 LOST), the identity of its last MEMBER announce
and the twin that announce carried, the spine instant of its last announce. -/
structure Peer where
  state : Nat := 0
  ident : Option DWord := none
  twin : DWord := 0
  last : Nat := 0
deriving DecidableEq, Repr

/-- A foreign PTP master (R319): uplink, clockIdentity, its data set (priority1, class, accuracy, variance, priority2, steps
removed), its UTC offset and flags, the spine instants of its last Announces, whether it is qualified. -/
structure PtpMaster where
  port : Nat
  ident : DWord
  rank : List Nat
  cls : Nat
  utc : Nat
  flags : Nat
  heard : List Nat
deriving DecidableEq, Repr

/-- Uplinks, host port and league time beyond the registers (chapter 15). `noMaster` is the spine instant since when SLAVE has had
no master; `calibrated` whether the selected port has left UNCALIBRATED; `delay` the measured path delay of each uplink in ns; the three
counters are those of R320; `utcOwn` is the UTC offset that software has applied; `macs` the learned MAC address of each SGMII station. -/
structure Upl where
  peers : AMap Peer := []
  resolved : AMap Bool := []
  masters : List PtpMaster := []
  selected : Option (Nat × DWord) := none
  noMaster : Option Nat := none
  calibrated : Bool := false
  utcOwn : Option Nat := none
  delay : AMap (Option Nat) := []
  inLock : Nat := 0
  outLock : Nat := 0
  aboveStep : Nat := 0
  ptpSeq : AMap Nat := []
  macs : AMap Nat := []
  uartByte : Nat := 0
  pcieReset : Bool := false
deriving DecidableEq, Repr

/-- The saddle link beyond its registers (chapter 18): the identity of the last twin, the frames of the last 2 ms and the last beacon numbers that a
standby keeps, when each port was last heard, the apply of the boot commit while the role is undecided, since when the link is silent, the last
TIME frame and the last health report (spine instants), the health word last judged, whether a self-test failed, the mismatches of the last
60 s and the last cycle of each task that mismatched, the instant of a SWITCH, and the images and deltas that wait for the echo. -/
structure Saddle where
  twin : DWord := 0
  rxBuf : List (Nat × Nat × RxFrame) := []
  beaconSeen : AMap Word := []
  heardPort : AMap Nat := []
  bootAt : Option Nat := none
  silentAt : Nat := 0
  timeAt : Option Nat := none
  healthAt : Nat := 0
  shown : Word := 0
  selfFail : Bool := false
  mism : List Nat := []
  lastBad : List (Nat × Word) := []
  switchAt : Option Nat := none
  images : List SadImage := []
  deltas : List SadDelta := []
deriving DecidableEq, Repr

/-- A job that the governor has admitted (R225): class, declared cost (mJ) and draw (mW), deadline-critical or not, the unit, core,
cluster or channel it belongs to, the planner quadrants granted, and the spine instant of its admission. -/
structure Job where
  cls : Nat
  cost : Nat
  draw : Nat
  crit : Bool := false
  owner : Nat := 0
  q : Nat := 0
  since : Nat := 0
deriving DecidableEq, Repr

/-- The ridge governor beyond its registers (chapter 10): running jobs in order of admission, the bucket level in microjoules, base
power and power limit of the last evaluation, the last 100 readings of device power beside the draws declared then, a target change in
progress and a held one, domains being switched on (the first is switching), when each gated domain fell idle, scan clocks that wait for VDD_CORE and clocks that
relock, a VDD_CORE step, quadrants that wait for it, and the last upgrade attempt of each cluster. -/
structure Ridge where
  jobs : List Job := []
  level : Int := 200000000
  pBase : Nat := 0
  pLim : Nat := 15000
  samples : List (Nat × Nat) := []
  changing : Option Nat := none
  held : Option Nat := none
  switching : List Nat := []
  idleAt : AMap Nat := []
  wantClk : List (Nat × Nat) := []
  relock : List (Nat × Nat) := []
  vcoreTo : Option Nat := none
  wantQ : List Nat := []
  upAt : List (Nat × Nat) := []
deriving DecidableEq, Repr

/-- A copy of a totals record (Table 13-5). -/
structure TotRec where
  total : DWord
  totalC : DWord
  wrap : Half
  wrapC : Half
  last : Word
  ended : DWord
  lostStart : DWord
  lost : Half
  flags : Half
  entry : Word
  gen : Word
  crc : Word
deriving DecidableEq, Repr

/-- The record that the factory programs. -/
def zeroTot : TotRec :=
  { total := 0, totalC := 0xFFFFFFFFFFFFFFFF, wrap := 0, wrapC := 0xFFFF, last := 0, ended := 0, lostStart := 0, lost := 0,
    flags := 0, entry := 0, gen := 0, crc := 0x3ECC42B }

/-- A valid flush record (R292): interval number, interval start, PF time, whether CLOSING was unfolded, both banks by channel. -/
structure Flush where
  interval : Nat
  start : Nat
  pf : Nat
  closingDue : Bool
  opened : AMap Nat
  closing : AMap Nat
deriving DecidableEq, Repr

/-- What the keeper holds for metering in FRAM and retention SRAM (R288 to R293): primary and mirror of each total, the
slot-to-channel map and its generation, the OPEN and CLOSING banks by channel, whether CLOSING is unfolded and the start of its interval, the
VIRTUAL channels whose fold a stop of PD2 cut off, whether a cold start has discarded the slots, the interval number and start, whether an
interval is open, the flush record. -/
structure Totals where
  recs : AMap (TotRec × TotRec) := []
  map : List Nat := []
  mapGen : Nat := 0
  opened : AMap Nat := []
  closing : AMap Nat := []
  closingDue : Bool := false
  closeStart : Nat := 0
  virt : List Nat := []
  slotsLost : Bool := false
  interval : Nat := 0
  start : Nat := 0
  isOpen : Bool := false
  flush : Option Flush := none
deriving DecidableEq, Repr

/-- The last completed RMS window of a metering point or auxiliary channel (R279): RMS values, then P, Q and S of each element, and the
frequency where it is valid. -/
structure MWindow where
  rms : List DWord := []
  pqs : List DWord := []
  freq : Option DWord := none
deriving DecidableEq, Repr

/-- A voltage event in progress (R282): start (ns), extreme (%), phases. -/
structure VoltEv where
  start : Nat
  extreme : DWord
  mask : Nat
deriving DecidableEq, Repr

/-- A virtual-meter baseline (R284): counter, power, stamp. -/
structure VmBase where
  cnt : Nat
  pwr : Nat
  t : Nat
deriving DecidableEq, Repr

/-- The metering DSP beyond its registers (chapter 13): last windows, dips, swells and interruptions in progress, pulses of the open
interval by input, the last pulse of each input, inputs whose chatter has been posted this interval, fractions below one LSB by
channel, virtual accumulators and clamp marks by channel, the VIRTUAL fold list, baselines by fixture, the last grid number and the spine instant of
the last close, whether a step of league time has closed the interval, since when metering is disabled, and whether the flush record has been dealt with. -/
structure Meter where
  windows : AMap MWindow := []
  dips : List (Nat × VoltEv) := []
  swells : List (Nat × VoltEv) := []
  intrs : List (Nat × VoltEv) := []
  pulses : AMap Nat := []
  lastPulse : List (Nat × Nat) := []
  chatter : List Nat := []
  frac : AMap DWord := []
  vacc : AMap DWord := []
  vclamp : List Nat := []
  foldV : List (Nat × Nat) := []
  foldClamp : List Nat := []
  base : List (Nat × VmBase) := []
  grid : Nat := 0
  openedAt : Nat := 0
  stepClose : Bool := false
  gapFrom : Option Nat := none
  gapRecs : Bool := false
  recovered : Bool := false
deriving DecidableEq, Repr

/-- An alarm beyond its registers (R423, R424): the RTC second at or before which no occurrence fires, occurrences that are owed (due
second, flag bits, number skipped), up to which second an occurrence fires as rewound, and the second of its last write. -/
structure Alarm where
  from_ : Nat := 0
  owed : List (Nat × Nat × Nat) := []
  rewound : Nat := 0
  base : Nat := 0
deriving DecidableEq, Repr

/-- The keeper die beyond its registers (chapter 20, R473): whether it runs from VMAIN_KEEP, the backup-loss latch, what PD2 is waiting
for (0 nothing, 1 a wake from HOLD, 2 a valid main supply), enables raised and OSC_EN, whether PD2_START has run, whether PD15 is still
powered, the RTC seconds, prescaler and the phase within a prescaler tick (quarter-nanoseconds × 32,768), its copy of the UTC
offset, the frequency correction in force (0.01 ppm), the alarms, whether VBAT_LOW has been posted since the start, and the shutdown
record: stop cause bits and wake source for KEEP_CAUSE, and the alarm number; and the offsets of the system FRAM records both of whose copies are
broken (R412). -/
structure Keep where
  onMain : Bool := true
  bkLatch : Bool := true
  waits : Nat := 0
  enables : Nat := 6
  osc : Bool := true
  started : Bool := false
  pd15 : Bool := true
  sec : Nat := 0
  sub : Nat := 0
  phase : Nat := 0
  ofs : Nat := 37
  comp : Int := 0
  alarms : AMap Alarm := []
  vbatPosted : Bool := false
  stop : Nat := 0
  wake : Nat := 0
  wakeAlarm : Nat := 0
  sysBad : List Nat := []
deriving DecidableEq, Repr

/-- A loop beyond its registers (R262 to R266): the grid instant last dealt with and the spine instant of the last sample, `first`, i, d,
the last PV, sp_good, whether each exists, the following-error accumulator (µs) and whether it has reported, whether a run of
broken setpoint pairs or of holds is on, the latch (0 none, 1 HOLD, 2 SAFE), the eight capture signals, and the edit copy of the inactive bank
where it differs from the applied bytes (R268). -/
structure LoopSt where
  gridDone : Option Nat := none
  prevMono : Option Nat := none
  first : Bool := true
  i : DWord := 0
  d : DWord := 0
  pvPrev : DWord := 0
  havePrev : Bool := false
  spGood : DWord := 0
  haveSp : Bool := false
  acc : Nat := 0
  fired : Bool := false
  pairRun : Bool := false
  holdRun : Bool := false
  latch : Nat := 0
  sig : List DWord := []
  edit : List (Nat × Byte) := []
deriving DecidableEq, Repr

/-- A test generator that runs (R270, R271): its loop and target, type, PRBS order, amplitude, samples N, repetitions, f0 and f1, the next test
sample and the PRBS register. -/
structure Gen where
  loop : Nat
  out : Bool
  typ : Nat
  order : Nat
  amp : DWord
  n : Nat
  rep : Nat
  f0 : DWord
  f1 : DWord
  j : Nat := 0
  r : Nat := 0
deriving DecidableEq, Repr

/-- The loop engine beyond its registers (chapter 12): loops, running generators, captured samples by channel, oldest first, and how many of
them came before the trigger. -/
structure LoopEng where
  loops : AMap LoopSt := []
  gens : List (Nat × Gen) := []
  cap : AMap (List DWord) := []
deriving DecidableEq, Repr

/-- A 10BASE-T1S segment beyond its registers (R334, R346, R347): whether it listens, whether it is open, the spine instant of the last station
frame, the device's frames of the last cycle, the jabbers of the last second and the instant of the last RX_JABBER. -/
structure Seg where
  listening : Bool := false
  isOpen : Bool := false
  lastFrame : Nat := 0
  burst : List MFrame := []
  jabs : List Nat := []
  jabPosted : Option Nat := none
deriving DecidableEq, Repr

/-- A G3-PLC interface beyond its registers (R339, R345, R347): whether it listens, the joined stations (EUI-64, short address), the routing
table (destination, next hop). -/
structure Plc where
  listening : Bool := false
  joined : List (DWord × Nat) := []
  routes : List (Nat × Nat) := []
deriving DecidableEq, Repr

/-- A reassembly (R357): sender (256 × STN + SRC) and class, last index, the spine instant of its FIRST segment, bytes so far. -/
structure Reasm where
  sender : Nat
  cls : Nat
  index : Nat
  since : Nat
  data : List Byte
deriving DecidableEq, Repr

/-- What a CAN channel has on its bus: a whole Mirfor frame in the command lane, a segment of one, or a software buffer. -/
inductive CanTx where
  | lane (f : MFrame)
  | segment (f : MFrame) (k : Nat)
  | buffer (b : Nat)
deriving DecidableEq, Repr

/-- A CAN channel beyond its registers (chapter 17): reassemblies; the frame on the bus; for each class the Mirfor frame begun and its
next segment; transmit buffers whose ABORT waits for the end of their attempt; TEC and REC; the instant of bus-off; a change of
bit timing that waits for the frame on the bus. -/
structure Can where
  reasm : List Reasm := []
  bus : Option CanTx := none
  begun : List (Nat × MFrame × Nat) := []
  aborts : List Nat := []
  tec : Nat := 0
  rec_ : Nat := 0
  offAt : Nat := 0
  retune : Bool := false
deriving DecidableEq, Repr

/-- The field ports (chapters 16 and 17). -/
structure Fld where
  segs : AMap Seg := []
  plcs : AMap Plc := []
  cans : AMap Can := []
deriving DecidableEq, Repr

/-- A plan (R191, R192): anchor (ns), step lengths (s), values by element × 4096 + output code × 512 + step, whether its horizon has passed. -/
structure PlanRec where
  anchor : Nat
  lens : List Nat
  vals : AMap DWord
  expired : Bool := false
deriving DecidableEq, Repr

/-- A partner's answer for a tie (R214): its x and λ, or the cause for which its message is not valid. -/
structure TieMsg where
  cause : Option Nat
  x : List DWord := []
  price : List DWord := []
deriving DecidableEq, Repr

/-- A tie in coordination (R213): element, price, consensus, trajectory it is fixed at, last mismatch, and this round's answer. -/
structure Tie where
  elem : Nat
  price : List DWord
  hat : List DWord := []
  fixed : Option (List DWord) := none
  frozen : Bool := false
  answer : Option TieMsg := none
deriving DecidableEq, Repr

/-- A planning round (R187 to R217): spine instants of its launch, of the end of assembly and of solving; anchor, deadline, step lengths; stale or
not; input counts; structure and problem; warm start, iterate and number of the current iteration, r_P of the last iterations; whether prices
are in force, the coordination round, ties, the mismatch, the start of the wait, whether the closing solve runs; the solution vector; the last
solve that converged; the result noted for its end: offer and END, code, output writes. -/
structure Round where
  launched : Nat
  assembled : Nat := 0
  solved : Nat := 0
  anchor : Nat
  deadline : Nat
  lens : List Nat
  stale : Bool := false
  degraded : Nat := 0
  short : Nat := 0
  struct : List Nat := []
  problem : Problem := {}
  warm : Option (List DWord) := none
  it : Iterate := {}
  j : Nat := 0
  hist : List DWord := []
  replaced : Nat := 0
  priced : Bool := false
  c : Nat := 0
  ties : List Tie := []
  lost : Nat := 0
  mis : DWord := 0
  misTie : Nat := 0
  waitFrom : Nat := 0
  closing : Bool := false
  agreed : Bool := false
  closed : Bool := false
  sol : List DWord := []
  good : Option Iterate := none
  fin : Nat := 0
  points : Nat := 0
  plan : Option PlanRec := none
deriving DecidableEq, Repr

/-- The planner beyond its registers (chapters 8 and 9): the round, the plan of record, the structure whose analysis is cached, the last measured
energy (mJ) with its structure, draw (mW per quadrant) and warm-solve energy, the last cadence tick and the ticks since the supply profile
changed, and the prices with which the last round's ties ended (anchor, step lengths, by element). -/
structure Planner where
  round : Option Round := none
  plan : Option PlanRec := none
  struct : Option (List Nat) := none
  energy : Option (List Nat × Nat) := none
  draw : Option Nat := none
  warm : Option Nat := none
  lastTick : Option Nat := none
  ticks : Nat := 0
  prices : Option (Nat × List Nat × List (Nat × List DWord)) := none
deriving DecidableEq, Repr

/-- A fade of one commanded value (R247): from, to, latch (ns of league time), fade time (ms), curve. -/
structure Fade where
  y0 : Nat := 0
  y1 : Nat := 0
  latch : Nat := 0
  time : Nat := 10
  curve : Nat := 0
deriving DecidableEq, Repr

/-- A REPORT as the ring holds it (Table 11-9). -/
structure LReport where
  stamp : Nat
  levels : List Nat
  energy : Nat
  flags : Nat
  temp : Nat
  power : Nat
  handle : Word
  fw : Nat
deriving DecidableEq, Repr

/-- The model of a fixture (R250): state (0 CONFIRMED, 1 UNCONFIRMED, 2 SILENT, 3 THERMAL_OFF, 4 FALLBACK), the fades of its channels and
those before the last applied frame, the last applied handle, pending frames, the fade of its derate factor, the factor last sent, the number of
a CONFIG frame not yet acknowledged, its last report and the spine instant of it. -/
structure Fix where
  state : Nat := 1
  chans : List Fade := []
  before : List Fade := []
  applied : Word := 0
  pend : List LFrame := []
  k : Fade := { y0 := 32768, y1 := 32768 }
  kSent : Nat := 32768
  config : Option Word := none
  report : Option LReport := none
  heard : Nat := 0
deriving DecidableEq, Repr

/-- A lighting zone beyond its entry (R237 to R240): photoperiods (ns) of the day before, of the local day begun and of the two after it, that
day's number, light received today, last evaluation, intensity and levels last issued, whether PAR_LOST and ALLOC_ZERO were posted
today, and whether a commit has changed the zone. -/
structure Zone where
  photo : List (Nat × Nat) := []
  day : Option Nat := none
  received : Option DWord := none
  tPrev : Option Nat := none
  i : DWord := 0
  last : Option (List Nat) := none
  parLost : Bool := false
  allocZero : Bool := false
  touched : Bool := false
deriving DecidableEq, Repr

/-- A firmware campaign that runs (R252): group, key slot, blocks still to send in this round, blocks reported missing, fixtures that
acknowledged FW_ACTIVATE, the number of FW_ACTIVATE, until when a refused burst waits, and the resend rounds so far. -/
structure Campaign where
  group : Nat
  key : Nat
  todo : List Nat := []
  missing : List Nat := []
  took : List Nat := []
  act : Option Word := none
  retryAt : Option Nat := none
  round : Nat := 0
deriving DecidableEq, Repr

/-- The lighting engine beyond its registers (chapter 11): the last frame number, frames accepted, frames staged on channel 2, frames
pending or in distribution, the instant of the last commit, fixtures, zones, the report ring, the last measured energy (mJ) of
evaluations, report processing and distributions, the campaign. -/
structure Lamp where
  seq : Word := 0
  accepted : List LFrame := []
  staged : List LFrame := []
  frames : List LFrame := []
  committed : Option Nat := none
  fix : AMap Fix := []
  zones : AMap Zone := []
  ring : List (Nat × LReport) := []
  cost : AMap (Option Nat) := []
  fw : Option Campaign := none
deriving DecidableEq, Repr

/-- The guard die and the lockstep core (chapter 19): whether VDD_GUARD is there, whether the die is held in guard reset, its 1 ms evaluations so
far, a table sent to it, the locked table, the evaluation at which it locked; filtered levels of channels A and B, samples for which a channel (A i, B 16 + i) has differed;
since when an input has a discrepancy, input faults (1 latched, 2 both unsafe levels seen since), since when a RESET input is high; the die's
permits, the causes latched on each output in order (codes of GUARD_OUT_FLT), outputs driven; permits and requests of the last
valid frame, its number, its evaluation, whether frames arrive; since when permits differ; whether the core runs and the number of its last frame;
what the main die is still to learn (counter, event). -/
structure Guard where
  power : Bool := true
  held : Bool := false
  tick : Nat := 0
  sent : Option (List Byte) := none
  table : Option (List Byte) := none
  lockedAt : Nat := 0
  filtA : Nat := 0
  filtB : Nat := 0
  cnt : AMap Nat := []
  disc : List (Nat × Nat) := []
  inFault : AMap Nat := []
  high : List (Nat × Nat) := []
  permits : Nat := 0
  causes : AMap (List Nat) := []
  driven : Nat := 0
  corePermits : Nat := 0
  requests : Nat := 0
  seqIn : Option Word := none
  validAt : Nat := 0
  linkUp : Bool := false
  differ : List (Nat × Nat) := []
  core : Bool := true
  seqOut : Word := 0
  owed : List (Nat × Event) := []
deriving DecidableEq, Repr

/-- A panel request (R446 to R448): image as drawn, generation, full or not. -/
structure PanelReq where
  image : List Byte
  gen : Nat
  full : Bool
deriving DecidableEq, Repr

/-- The panel beyond its registers (chapter 22): the image of the last completed pass, the running pass with the rows it has still to write and the code
it ends with, the pending request, the phase bit of each row, whether the next pass is full, and the integrity record in FRAM (STARTED, generation,
last row). -/
structure Panel where
  image : Option (List Byte) := none
  run : Option (PanelReq × List Nat × Half) := none
  pend : Option PanelReq := none
  phases : AMap Bool := []
  full : Bool := true
  started : Bool := false
  gen : Nat := 0
  row : Nat := 0
deriving DecidableEq, Repr

/-- A key slot of the vault (R431): kind, rights, use counter, EXPIRE, origin, key material. -/
structure VSlot where
  kind : Nat := 0
  rights : Nat := 0
  count : Nat := 0
  expire : Bool := false
  origin : Nat := 0
  key : List Byte := []
deriving DecidableEq, Repr

/-- A request in the vault's queue (R434): descriptor address, whether it lies in the caller's DATA, the caller's data region (key and
declared size) where a program submitted it, whether a VAULT_BULK job runs for it. -/
structure VReq where
  addr : Nat
  inData : Bool := false
  caller : Option (Nat × Nat) := none
  bulk : Bool := false
deriving DecidableEq, Repr

/-- The key vault beyond its registers (chapter 21): IDENTITY; the one-time fields 1 to 4 as programmed, as in force since the last start of
PD2, those whose programming was cut off, the one being programmed; slots; the queue; the debug nonce, the failed OPENs, debug as
in force and as keeper retention holds it; the mask of the key cells. -/
structure Vault where
  ident : DWord := 0x004816A200002904
  otp : AMap (List Byte) := []
  eff : AMap (List Byte) := []
  burnt : List Nat := []
  otpRun : Option (Nat × List Byte) := none
  slots : AMap VSlot := []
  queue : List VReq := []
  nonce : Option (List Byte) := none
  fails : Nat := 0
  debug : Bool := false
  debugKept : Bool := false
  mask : DWord := 0
deriving DecidableEq, Repr

/-- The chip: everything the spec gives the device. `pd2` is whether domain PD2 is on. -/
structure Chip where
  variant : Variant := .qv6480
  pd2 : Bool := true
  clk : Clk := {}
  regs : AMap Word := []
  mem : AMap Byte := []
  reqs : AMap ReqSt := []
  units : AMap UnitRun := []
  rings : Rings := {}
  pts : Points := {}
  com : Commit := {}
  boot : Boot := {}
  scan : Scan := {}
  txn : Txn := {}
  upl : Upl := {}
  sadl : Saddle := {}
  ridge : Ridge := {}
  keep : Keep := {}
  totals : Totals := {}
  meter : Meter := {}
  vault : Vault := {}
  loop : LoopEng := {}
  ports : Fld := {}
  lamp : Lamp := {}
  plan : Planner := {}
  guard : Guard := {}
  panel : Panel := {}
  out : List Out := []
deriving DecidableEq, Repr

/-! The chip with one part replaced. -/

def Chip.withPd2 (m : Chip) (x : Bool) : Chip := { m with pd2 := x }
def Chip.withClk (m : Chip) (x : Clk) : Chip := { m with clk := x }
def Chip.withReqs (m : Chip) (x : AMap ReqSt) : Chip := { m with reqs := x }
def Chip.withUnits (m : Chip) (x : AMap UnitRun) : Chip := { m with units := x }
def Chip.withRings (m : Chip) (x : Rings) : Chip := { m with rings := x }
def Chip.withPts (m : Chip) (x : Points) : Chip := { m with pts := x }
def Chip.withCom (m : Chip) (x : Commit) : Chip := { m with com := x }
def Chip.withBoot (m : Chip) (x : Boot) : Chip := { m with boot := x }
def Chip.withScan (m : Chip) (x : Scan) : Chip := { m with scan := x }
def Chip.withTxn (m : Chip) (x : Txn) : Chip := { m with txn := x }
def Chip.withUpl (m : Chip) (x : Upl) : Chip := { m with upl := x }
def Chip.withSadl (m : Chip) (x : Saddle) : Chip := { m with sadl := x }
def Chip.withRidge (m : Chip) (x : Ridge) : Chip := { m with ridge := x }
def Chip.withKeep (m : Chip) (x : Keep) : Chip := { m with keep := x }
def Chip.withTotals (m : Chip) (x : Totals) : Chip := { m with totals := x }
def Chip.withMeter (m : Chip) (x : Meter) : Chip := { m with meter := x }
def Chip.withVault (m : Chip) (x : Vault) : Chip := { m with vault := x }
def Chip.withLoop (m : Chip) (x : LoopEng) : Chip := { m with loop := x }
def Chip.withPorts (m : Chip) (x : Fld) : Chip := { m with ports := x }
def Chip.withLamp (m : Chip) (x : Lamp) : Chip := { m with lamp := x }
def Chip.withPlan (m : Chip) (x : Planner) : Chip := { m with plan := x }
def Chip.withGuard (m : Chip) (x : Guard) : Chip := { m with guard := x }
def Chip.withPanel (m : Chip) (x : Panel) : Chip := { m with panel := x }
def Chip.withOut (m : Chip) (x : List Out) : Chip := { m with out := x }

/-- The machine: the commands that wait, first in first out, and the chip. -/
structure State where
  pending : List Instr
  chip : Chip
deriving DecidableEq, Repr

/-- The machine right after reset: no command waits, and every part of the chip stands at its reset value (INVENTORY.md, State). -/
def State.reset : State := ⟨[], {}⟩

/-- What a meaning answers: the chip changed by `f`, the queue as it stands. -/
def State.actAll (s : State) (f : Chip → Chip) : Host.Outcome State Fault Refusal :=
  .next ⟨s.pending, f s.chip⟩

/-- The same for a command of the main die: while PD2 is off nothing happens. -/
def State.act (s : State) (f : Chip → Chip) : Host.Outcome State Fault Refusal :=
  s.actAll (fun m => if m.pd2 then f m else m)

end Sys2Proof.Machine
end

