-- ==== Sys2Proof/Machine/Ops.lean ====
section
/-! DEFINITION. The named operations that every meaning is built from: keyed data, registers and their fields, bytes of memory,
time, completion codes, diagnostic counters, events and event rings, and what a variant has. -/

namespace Sys2Proof.Machine

open Sys2Proof

/-! ### Keyed data -/

/-- The value at a key, where `d` is what an absent key reads as. -/
def AMap.get {α : Type} (d : α) : AMap α → Nat → α
  | [], _ => d
  | (k, v) :: t, i => if i = k then v else AMap.get d t i

/-- A map without a key. -/
def AMap.drop {α : Type} (i : Nat) (m : AMap α) : AMap α := m.filter (fun e => decide (e.1 ≠ i))

/-- Set a key, keeping the keys rising and listing no entry equal to `d`; every older entry of the key goes. -/
def AMap.put {α : Type} [DecidableEq α] (d : α) (i : Nat) (v : α) : AMap α → AMap α
  | [] => if v = d then [] else [(i, v)]
  | (k, u) :: t =>
    if i < k then (if v = d then (k, u) :: AMap.drop i t else (i, v) :: (k, u) :: t)
    else if i = k then AMap.put d i v t
    else (k, u) :: AMap.put d i v t

/-- Whether every key lies above `b` and the keys rise. -/
def AMap.above {α : Type} : Nat → AMap α → Bool
  | _, [] => true
  | b, (k, _) :: t => decide (b < k) && AMap.above k t

/-- Look a key up in a list of pairs that has no default. -/
def assoc {α : Type} (l : List (Nat × α)) (i : Nat) : Option α := (l.find? (fun e => e.1 = i)).map (·.2)

/-- Remove a key from a list of pairs. -/
def unassoc {α : Type} (l : List (Nat × α)) (i : Nat) : List (Nat × α) := l.filter (fun e => e.1 ≠ i)

/-- Set a key of a list of pairs, at the key's place in rising order. -/
def reassoc {α : Type} (l : List (Nat × α)) (i : Nat) (v : α) : List (Nat × α) :=
  (unassoc l i).filter (fun e => e.1 < i) ++ (i, v) :: (unassoc l i).filter (fun e => i < e.1)

/-- Change the element at place `i` of a list. -/
def modAt {α : Type} (f : α → α) : Nat → List α → List α
  | _, [] => []
  | 0, a :: t => f a :: t
  | n + 1, a :: t => a :: modAt f n t

/-! ### Numbers and bytes -/

/-- `v` in `n` little-endian bytes. -/
def le : Nat → Nat → List Byte
  | 0, _ => []
  | n + 1, v => BitVec.ofNat 8 v :: le n (v / 256)

/-- The number that little-endian bytes spell. -/
def ofLe : List Byte → Nat
  | [] => 0
  | b :: t => b.toNat + 256 * ofLe t

/-- The bits hi:lo of a number. -/
def bits (v hi lo : Nat) : Nat := v / 2 ^ lo % 2 ^ (hi + 1 - lo)

/-- A number with its bits hi:lo replaced by `x`. -/
def setBits (v hi lo x : Nat) : Nat :=
  v % 2 ^ lo + x % 2 ^ (hi + 1 - lo) * 2 ^ lo + v / 2 ^ (hi + 1) * 2 ^ (hi + 1)

/-- Bytes `off` to `off + n - 1` of a byte string as a number; bytes beyond its end read zero. -/
def fld (bs : List Byte) (off n : Nat) : Nat := ofLe ((bs.drop off).take n)

/-- 1 or 0. -/
def bit (b : Bool) : Nat := if b then 1 else 0

/-- Eight shifts of the reflected Castagnoli polynomial. -/
def crcByte : Nat → Nat → Nat
  | 0, c => c
  | n + 1, c => crcByte n (if c % 2 = 1 then (c / 2) ^^^ 0x82F63B78 else c / 2)

/-- CRC-32C of a byte string. -/
def crc32c (bs : List Byte) : Word :=
  BitVec.ofNat 32 (bs.foldl (fun c b => crcByte 8 (c ^^^ b.toNat)) 0xFFFFFFFF ^^^ 0xFFFFFFFF)

/-- Whether sequence number a is newer than b (R23). -/
def newer (a b : Word) : Bool := decide (1 ≤ (a - b).toNat ∧ (a - b).toNat ≤ 2 ^ 31 - 1)

/-- The signed reading of a 64-bit value. -/
def sint (v : DWord) : Int := v.toInt

/-! ### Registers -/

/-- Whether an offset from a row's base is one of its repeats. -/
def dimsHit : List (Nat × Nat) → Nat → Bool
  | [], o => o == 0
  | (n, st) :: t, o => decide (o / st < n) && dimsHit t (o % st)

/-- The register row of an address. -/
def rowOf (a : Nat) : Option RegRow :=
  match regBlocks.find? (fun b => b.1 == a / 0x40000) with
  | some b => b.2.find? (fun r => decide (r.base ≤ a) && dimsHit r.dims (a - r.base))
  | none => none

/-- What a register that nothing has changed holds. -/
def regReset (a : Nat) : Word :=
  match rowOf a with
  | some r => BitVec.ofNat 32 r.reset
  | none => 0

/-- The word at a register's address. -/
def Chip.reg (m : Chip) (a : Nat) : Word := AMap.get (regReset a) m.regs a

/-- Set the word at a register's address. -/
def Chip.setReg (m : Chip) (a : Nat) (w : Word) : Chip := { m with regs := AMap.put (regReset a) a w m.regs }

/-- The value of a register field. -/
def Chip.get (m : Chip) (f : FRef) : Nat := bits (m.reg f.addr).toNat f.hi f.lo

/-- Set a register field. -/
def Chip.put (m : Chip) (f : FRef) (v : Nat) : Chip :=
  m.setReg f.addr (BitVec.ofNat 32 (setBits (m.reg f.addr).toNat f.hi f.lo v))

/-- Whether a one-bit field is set. -/
def Chip.on (m : Chip) (f : FRef) : Bool := m.get f == 1

/-- A 64-bit value from its low word's address. -/
def Chip.get64 (m : Chip) (f : FRef) : DWord := m.reg (f.addr + 4) ++ m.reg f.addr

/-- Set a 64-bit value at its low word's address. -/
def Chip.put64 (m : Chip) (f : FRef) (v : DWord) : Chip :=
  (m.setReg f.addr (v.extractLsb' 0 32)).setReg (f.addr + 4) (v.extractLsb' 32 32)

/-- A field of a word as a number. -/
def fieldOf (f : FRef) (w : Word) : Nat := bits w.toNat f.hi f.lo

/-- Count in a diagnostic counter: it sticks at its largest value and sets its SAT flag there (R22). -/
def Chip.count (m : Chip) (cnt : FRef) (sat : Option FRef) : Chip :=
  let v := m.get cnt
  let m1 := if v < 0xFFFFFFFF then m.put cnt (v + 1) else m
  match sat with
  | some s => if 0xFFFFFFFF ≤ v + 1 then m1.put s 1 else m1
  | none => m1

/-- Count n times at once. -/
def Chip.countN (m : Chip) (cnt : FRef) (sat : Option FRef) (n : Nat) : Chip :=
  let v := m.get cnt
  let w := min (v + n) 0xFFFFFFFF
  let m1 := m.put cnt w
  match sat with
  | some s => if w = 0xFFFFFFFF then m1.put s 1 else m1
  | none => m1

/-- Whether the boot has not ended yet: CAIRN_BOOT_STAT.STATE is BOOTING (R72). -/
def Chip.booting (m : Chip) : Bool := m.get R.CAIRN_BOOT_STAT_STATE == 0

/-! ### Memory -/

/-- The number of a window, in the order of Table 23-3. -/
def Win.idx : Win → Nat
  | .scanTask => 0 | .guardIlt => 1 | .uplAddr => 2 | .loopCfg => 3 | .vaultImp => 4 | .uplNbr => 5 | .plcAdm => 6
  | .lampRcp => 7 | .meterChan => 8 | .planOut => 9 | .lampFix => 10 | .lampZone => 11 | .lampGrp => 12 | .loopBank => 13
  | .scanImap => 14 | .scanOmap => 15 | .scanImg => 16 | .pointDesc => 17 | .pointBind => 18 | .txnSta => 19 | .txnRoute => 20
  | .planElem => 21 | .planBind => 22 | .lampFw => 23 | .loopCap => 24

/-- The number of a space: the high part of a memory key. -/
def Space.idx : Space → Nat
  | .dram => 0
  | .flash => 1
  | .retention => 2
  | .win w => 4 + w.idx
  | .data t => 32 + t

/-- The memory key of a byte: 2^40 keys to a space. -/
def Space.key (sp : Space) (off : Nat) : Nat := sp.idx * 2 ^ 40 + off % 2 ^ 40

/-- What a byte that nothing has written reads as: erased flash 0xFF, every other memory 0 (notes/assumptions/4.md). -/
def memDefault (key : Nat) : Byte := if key / 2 ^ 40 = 1 then 0xFF else 0

/-- One byte of memory. -/
def Chip.byte (m : Chip) (sp : Space) (off : Nat) : Byte := AMap.get (memDefault (sp.key off)) m.mem (sp.key off)

/-- Write one byte. -/
def Chip.setByte (m : Chip) (sp : Space) (off : Nat) (b : Byte) : Chip :=
  { m with mem := AMap.put (memDefault (sp.key off)) (sp.key off) b m.mem }

/-- `n` bytes from an offset. -/
def Chip.bytes (m : Chip) (sp : Space) (off : Nat) : Nat → List Byte
  | 0 => []
  | n + 1 => m.byte sp off :: m.bytes sp (off + 1) n

/-- Write bytes from an offset. -/
def Chip.setBytes (m : Chip) (sp : Space) (off : Nat) : List Byte → Chip
  | [] => m
  | b :: t => (m.setByte sp off b).setBytes sp (off + 1) t

/-- An n-byte little-endian number of memory. -/
def Chip.rd (m : Chip) (sp : Space) (off n : Nat) : Nat := ofLe (m.bytes sp off n)

/-- Write an n-byte little-endian number. -/
def Chip.wr (m : Chip) (sp : Space) (off n v : Nat) : Chip := m.setBytes sp off (le n v)

/-- Forget every byte of a space (an image load or a power-off). -/
def Chip.clearSpace (m : Chip) (sp : Space) : Chip :=
  { m with mem := m.mem.filter (fun e => decide (e.1 / 2 ^ 40 ≠ sp.idx)) }

/-- Whether the keys of a map rise. -/
def AMap.rising {α : Type} : AMap α → Bool
  | [] => true
  | (k, _) :: t => AMap.above k t

/-- Every memory of the chip in canonical form: rising keys, and no entry equal to what an unlisted byte reads as. -/
def Memory.wf (mem : AMap Byte) : Bool := AMap.rising mem && mem.all (fun e => decide (e.2 ≠ memDefault e.1))

/-- The registers in canonical form: rising addresses, and no entry equal to its reset value. -/
def Regs.wf (regs : AMap Word) : Bool := AMap.rising regs && regs.all (fun e => decide (e.2 ≠ regReset e.1))

/-! ### Time -/

/-- League time in nanoseconds, with its fraction dropped (R314). -/
def Chip.now (m : Chip) : Nat := m.clk.league / 2 ^ 32

/-- League time as stamps and registers record it. -/
def Chip.stamp (m : Chip) : DWord := BitVec.ofNat 64 m.now

/-- Whether the league time with its fraction is at or after an instant in nanoseconds (R13, R314). -/
def Chip.reached (m : Chip) (t : Nat) : Bool := decide (t * 2 ^ 32 ≤ m.clk.league)

/-- Whether league time is trusted (R315). -/
def Chip.trusted (m : Chip) : Bool := m.on R.UPL_TIME_STAT_TRUSTED

/-- The spine's monotonic count in nanoseconds since the start of PD2. -/
def Chip.monoNs (m : Chip) : Nat := m.clk.mono / 4

/-- A fresh free value and the chip that has drawn it. -/
def Chip.fresh (m : Chip) : DWord × Chip :=
  (Config.freeWord m.clk.free, (m.withClk { m.clk with free := m.clk.free + 1 }))

/-! ### Completion codes (Table 1-8) -/

namespace CC

def ok : Half := 0x0000
def cancelled : Half := 0x0001
def timeout : Half := 0x0002
def deadline : Half := 0x0003
def pairFault : Half := 0x0004
def noBudget : Half := 0x0005
def superseded : Half := 0x0006
def absent : Half := 0x0007
def checkFailed : Half := 0x0008
def nanResult : Half := 0x0009
def stationLost : Half := 0x000A
def authFail : Half := 0x000B
def keyExhausted : Half := 0x000C
def duplicate : Half := 0x000D
def busy : Half := 0x000E
def overflow : Half := 0x000F

end CC

/-! ### Variants (R1, R468) -/

/-- GEN_UNITS of a variant (Table 23-4). -/
def Variant.units : Variant → Nat
  | .qv6480 => 0x010FFFFF
  | .qv6470 => 0x010F7FFF
  | .qv6460 => 0x010FBBFF
  | .qv6440 => 0x000D3BFF

/-- Whether the variant has the unit of a number. -/
def Chip.hasUnit (m : Chip) (u : Nat) : Bool := decide (u < 20) && m.variant.units.testBit u

/-- Whether waveform metering is present. -/
def Chip.hasWave (m : Chip) : Bool := m.variant.units.testBit 24

/-- The point capacity. -/
def Chip.capPts (m : Chip) : Nat :=
  match m.variant with
  | .qv6440 => 0x00800000
  | _ => 0x02000000

/-- CAN channels, T1S segments, PLC interfaces. -/
def Chip.canN (m : Chip) : Nat := match m.variant with | .qv6440 => 16 | _ => 32
def Chip.t1sN (m : Chip) : Nat := match m.variant with | .qv6440 => 8 | _ => 16
def Chip.plcN (m : Chip) : Nat := match m.variant with | .qv6440 => 4 | _ => 8

/-- GEN_CAP_IO and GEN_CAP_MEM. -/
def Chip.capIo (m : Chip) : Nat := match m.variant with | .qv6440 => 0x00040810 | _ => 0x00081020
def Chip.capMem (m : Chip) : Nat := match m.variant with | .qv6440 => 0x10 | _ => 0x20

/-- Where the shared DRAM region starts; it is 1 GiB long (R466). -/
def Chip.sharedBase (m : Chip) : Nat := match m.variant with | .qv6440 => 0x3C0000000 | _ => 0x7C0000000

/-- Whether n bytes from an address lie wholly in the shared DRAM region. -/
def Chip.inShared (m : Chip) (a n : Nat) : Bool := decide (m.sharedBase ≤ a ∧ a + n ≤ m.sharedBase + 2 ^ 30)

/-! ### What leaves the block -/

/-- Record something that leaves the block. -/
def Chip.emit (m : Chip) (o : Out) : Chip := m.withOut (m.out ++ [o])

/-! ### Events and event rings (R30 to R32, R491) -/

/-- The bytes of an event record before its CRC (Table 1-10). -/
def Event.body (e : Event) (seq : Word) (loss : Bool) : List Byte :=
  le 4 (e.unit * 2 ^ 24 + e.code.toNat * 2 ^ 8 + e.sev) ++ le 4 seq.toNat ++ le 8 e.time.toNat ++ le 2 e.cc.toNat ++
  le 2 (bit e.untrusted + 2 * bit loss) ++ le 4 e.sub.toNat ++ le 8 e.object.toNat ++
  (e.detail ++ List.replicate 28 0).take 28

/-- An event of a unit. -/
def ev (unit : Nat) (code : Half) (sev : Nat) (sub object : Nat) (detail : List Byte) (cc : Half := 0) : Event :=
  { unit := unit, code := code, sev := sev, cc := cc, sub := BitVec.ofNat 32 sub, object := BitVec.ofNat 64 object,
    detail := detail }

/-- The size exponent a ring runs with: values outside 8 to 20 act as 8. -/
def ringSize (v : Nat) : Nat := if 8 ≤ v ∧ v ≤ 20 then v else 8

/-- The ring's base address in DRAM. -/
def Chip.ringBase (m : Chip) (n : Nat) : Nat :=
  m.get (R.GEN_EVR_BASE_LO_ADDR n) * 2 ^ 12 + m.get (R.GEN_EVR_BASE_HI_ADDR n) * 2 ^ 32

/-- Records a ring holds. -/
def Chip.ringLen (m : Chip) (n : Nat) : Nat := 2 ^ ringSize (m.get (R.GEN_EVR_CFG_SIZE n))

/-- Whether a ring is full: HEAD − TAIL equals its size. -/
def Chip.ringFull (m : Chip) (n : Nat) : Bool :=
  (m.get (R.GEN_EVR_HEAD n) + 2 ^ 32 - m.get (R.GEN_EVR_TAIL n)) % 2 ^ 32 == m.ringLen n

/-- Discard an event: it is counted in the ring's GEN_EVR_LOST, and the next record carries LOSS_BEFORE (R31). -/
def Chip.ringLose (m : Chip) (n : Nat) : Chip :=
  let m1 := m.count (R.GEN_EVR_LOST n) (some (R.GEN_EVR_CFG_LOST_SAT n))
  m1.withRings { m1.rings with owed := AMap.put false n true m1.rings.owed }

/-- Write a record into a ring's next slot; vector n of the PCIe port signals it (R329). -/
def Chip.ringWrite (m : Chip) (n : Nat) (e : Event) : Chip :=
  let head := m.get (R.GEN_EVR_HEAD n)
  let body := e.body (BitVec.ofNat 32 head) (AMap.get false m.rings.owed n)
  let m1 := m.setBytes .dram (m.ringBase n + 64 * (head % m.ringLen n)) (body ++ le 4 (crc32c body).toNat)
  let m2 := m1.put (R.GEN_EVR_HEAD n) (head + 1)
  let m3 := m2.withRings { m2.rings with owed := AMap.put false n false m2.rings.owed }
  if m3.on R.UPL_PCIE_STAT_LINK then m3.emit (.frame 7 8 "MSI-X" [n]) else m3

/-- Judge an event against the ring of its unit (R31): severity first, then room. -/
def Chip.judge (m : Chip) (e : Event) : Chip :=
  let n := m.get (R.GEN_EVR_MAP_RING e.unit)
  if e.sev < m.get (R.GEN_EVR_CFG_MIN_SEV n) then m
  else if !m.on (R.GEN_EVR_CFG_EN n) || m.ringFull n then m.ringLose n
  else m.ringWrite n e

/-- Take an event that arises: held until the first ring is enabled, up to 256 (R491), then judged as it arises. -/
def Chip.arise (m : Chip) (e : Event) : Chip :=
  if m.rings.opened then m.judge e
  else if m.rings.held.length < 256 then (m.withRings { m.rings with held := m.rings.held ++ [e] })
  else m.ringLose 0

/-- Post an event: it takes the league time and its trust of this edge. -/
def Chip.post (m : Chip) (e : Event) : Chip := m.arise { e with time := m.stamp, untrusted := !m.trusted }

/-- Post an event that carries a league time of its own. -/
def Chip.postAt (m : Chip) (t : DWord) (e : Event) : Chip := m.arise { e with time := t, untrusted := !m.trusted }

/-- Pad a detail field so that a value starts at its byte of the record (byte 32 is the first). -/
def pad (bs : List Byte) (n : Nat) : List Byte := (bs ++ List.replicate n 0).take n

/-! ### Requesters -/

/-- What the spine keeps for a requester. -/
def Chip.req (m : Chip) (r : Req) : ReqSt := AMap.get {} m.reqs r.idx

/-- Change what the spine keeps for a requester. -/
def Chip.setReq (m : Chip) (r : Req) (x : ReqSt) : Chip := m.withReqs (AMap.put {} r.idx x m.reqs)

/-- The low word that a requester's write of a high word completes (R26): the word it holds, or the register's own; the hold ends. -/
def Chip.heldWord (m : Chip) (r : Req) (a : Nat) : Word × Chip :=
  let x := m.req r
  match assoc x.held a with
  | some w => (w, m.setReq r { x with held := unassoc x.held a })
  | none => (m.reg a, m)

/-! ### Units that can be disabled (R19 to R21) -/

/-! The keys of the units of Table 1-6, one for each that is disabled by itself. -/

namespace UK

def scan (k : Nat) : Nat := k
def quad (q : Nat) : Nat := 2 + q
def lamp : Nat := 6
def loop : Nat := 7
def meter : Nat := 8
def vault : Nat := 9
def sadl : Nat := 10
def uplink (u : Nat) : Nat := 11 + u
def sgmii (s : Nat) : Nat := 15 + s
def pcie : Nat := 23
def t1s (s : Nat) : Nat := 24 + s
def plc (i : Nat) : Nat := 40 + i
def can (n : Nat) : Nat := 48 + n
def panel : Nat := 80

end UK

/-- The drain of a unit, by the unit's key. -/
def Chip.unitRun (m : Chip) (u : Nat) : UnitRun := AMap.get {} m.units u

def Chip.setUnitRun (m : Chip) (u : Nat) (x : UnitRun) : Chip := m.withUnits (AMap.put {} u x m.units)

/-- Whether a unit takes new work: neither draining nor disabled (R19). -/
def Chip.unitOpen (m : Chip) (u : Nat) : Bool := !(m.unitRun u).draining && !(m.unitRun u).disabled

end Sys2Proof.Machine
end

