-- ==== Sys2Proof/Machine/LocalTime.lean ====
section
/-! DEFINITION. Calendar and local time (R416, R421, R422): dates, weekdays, the daylight-saving rules, and the instants that a local wall
time names. Days and seconds count from 2000-01-01 00:00:00. -/

namespace Sys2Proof.Machine

open Sys2Proof

/-! ### The calendar -/

def leapYear (y : Nat) : Bool := y % 4 == 0 && (y % 100 != 0 || y % 400 == 0)

def monthDays (y mo : Nat) : Nat :=
  if mo = 2 then (if leapYear y then 29 else 28) else if mo = 4 ∨ mo = 6 ∨ mo = 9 ∨ mo = 11 then 30 else 31

/-- Days from 2000-01-01 to 1 January of year 2000 + y. -/
def yearStart : Nat → Nat
  | 0 => 0
  | n + 1 => yearStart n + (if leapYear (2000 + n) then 366 else 365)

/-- Days from 1 January to the first of month mo of a year. -/
def monthStart (y : Nat) : Nat → Nat
  | 0 => 0
  | n + 1 => if n = 0 then 0 else monthStart y n + monthDays y n

/-- The day number of a date; y counts from 2000. -/
def dayOf (y mo d : Nat) : Nat := yearStart y + monthStart (2000 + y) mo + (d - 1)

/-- The year of a day number, counting from 2000. -/
def yearOf (n : Nat) : Nat := ((List.range 140).filter (fun y => decide (yearStart y ≤ n))).length - 1

/-- The month of a day number. -/
def monthOf (n : Nat) : Nat :=
  let y := yearOf n
  ((List.range 12).filter (fun k => decide (yearStart y + monthStart (2000 + y) (k + 1) ≤ n))).length

/-- The day of the month of a day number. -/
def mdayOf (n : Nat) : Nat := n - (yearStart (yearOf n) + monthStart (2000 + yearOf n) (monthOf n)) + 1

/-- The weekday of a day number, 0 Monday to 6 Sunday; 2000-01-01 was a Saturday. -/
def wdayOf (n : Nat) : Nat := (n + 5) % 7

/-- The KEEP_RTC_TIME and KEEP_RTC_DATE words of a second (Table 20-6). -/
def rtcTimeWord (s : Nat) : Word :=
  BitVec.ofNat 32 (s % 86400 / 3600 * 2 ^ 16 + s % 3600 / 60 * 2 ^ 8 + s % 60)

def rtcDateWord (s : Nat) : Word :=
  let n := s / 86400
  BitVec.ofNat 32 (yearOf n * 2 ^ 24 + wdayOf n * 2 ^ 20 + monthOf n * 2 ^ 8 + mdayOf n)

/-- The second that a pair of set words names, if they name a valid date and time (R416). -/
def rtcOfWords (time date : Word) : Option Nat :=
  let h := fieldOf R.KEEP_RTC_TIME_HOUR time
  let mi := fieldOf R.KEEP_RTC_TIME_MIN time
  let se := fieldOf R.KEEP_RTC_TIME_SEC time
  let y := fieldOf R.KEEP_RTC_DATE_YEAR date
  let mo := fieldOf R.KEEP_RTC_DATE_MONTH date
  let d := fieldOf R.KEEP_RTC_DATE_DAY date
  if h < 24 ∧ mi < 60 ∧ se < 60 ∧ y ≤ 135 ∧ 1 ≤ mo ∧ mo ≤ 12 ∧ 1 ≤ d ∧ d ≤ monthDays (2000 + y) mo then
    some (dayOf y mo d * 86400 + h * 3600 + mi * 60 + se)
  else none

/-! ### The time zone (R421) -/

/-- A signed field of n bits. -/
def sfield (n v : Nat) : Int := if v < 2 ^ (n - 1) then v else (v : Int) - 2 ^ n

/-- The offset of local standard time from TAI, in seconds. -/
def Chip.stdOffset (m : Chip) : Int := sfield 16 (m.get R.KEEP_TZ_STD_STD) * 60 - m.keep.ofs

/-- The saving, in seconds; 0 where DST_EN is 0. -/
def Chip.saving (m : Chip) : Nat := if m.on R.KEEP_TZ_STD_DST_EN then m.get R.KEEP_TZ_STD_DST * 60 else 0

/-- The day of a rule in a year: week 1 to 4 of a weekday, or 5 for the last. -/
def ruleDay (y month week wday : Nat) : Nat :=
  let first := dayOf y month 1
  let d := first + (wday + 7 - wdayOf first) % 7
  let n := monthDays (2000 + y) month
  if week = 5 then d + 7 * ((first + n - 1 - d) / 7) else d + 7 * (week - 1)

/-- The start and the end of saving in a year, in seconds of local standard time. -/
def Chip.dstStart (m : Chip) (y : Nat) : Nat :=
  ruleDay y (m.get R.KEEP_TZ_START_MONTH) (m.get R.KEEP_TZ_START_WEEK) (m.get R.KEEP_TZ_START_WDAY) * 86400 +
    m.get R.KEEP_TZ_START_MINUTE * 60

def Chip.dstEnd (m : Chip) (y : Nat) : Nat :=
  ruleDay y (m.get R.KEEP_TZ_END_MONTH) (m.get R.KEEP_TZ_END_WEEK) (m.get R.KEEP_TZ_END_WDAY) * 86400 +
    m.get R.KEEP_TZ_END_MINUTE * 60

/-- Whether saving is in force at a second of local standard time. -/
def Chip.inSaving (m : Chip) (std : Nat) : Bool :=
  let y := yearOf (std / 86400)
  if m.saving = 0 then false
  else if m.get R.KEEP_TZ_START_MONTH ≤ m.get R.KEEP_TZ_END_MONTH then decide (m.dstStart y ≤ std ∧ std < m.dstEnd y)
  else decide (m.dstStart y ≤ std ∨ std < m.dstEnd y)

/-- Local standard time of a TAI second. -/
def Chip.stdOf (m : Chip) (tai : Nat) : Nat := ((tai : Int) + m.stdOffset).toNat

/-- The TAI second of a second of local standard time. -/
def Chip.taiOf (m : Chip) (std : Nat) : Nat := ((std : Int) - m.stdOffset).toNat

/-- Local wall time of a TAI second. -/
def Chip.wallOf (m : Chip) (tai : Nat) : Nat :=
  let s := m.stdOf tai
  s + (if m.inSaving s then m.saving else 0)

/-- The instants of a wall time, in TAI seconds: two where it occurs twice, and the transition instant where it falls in the gap (R422).
The flag says that it fell in the gap. -/
def Chip.wallInstants (m : Chip) (wall : Nat) : List Nat × Bool :=
  let a := wall - m.saving
  let l := (if m.inSaving a then [m.taiOf a] else []) ++ (if m.inSaving wall then [] else [m.taiOf wall])
  if l.isEmpty then ([m.taiOf (m.dstStart (yearOf (wall / 86400)))], true) else (l, false)

/-- The instant of a wall time for every user but alarms: the first occurrence. -/
def Chip.wallInstant (m : Chip) (wall : Nat) : Nat := (m.wallInstants wall).1.headD 0

/-- The TAI second at which the local day of a day number starts. -/
def Chip.localMidnight (m : Chip) (day : Nat) : Nat := m.wallInstant (day * 86400)

/-- The local day number of a TAI second. -/
def Chip.localDay (m : Chip) (tai : Nat) : Nat := m.wallOf tai / 86400

/-- League time in whole seconds. -/
def Chip.nowSec (m : Chip) : Nat := m.now / 1000000000

/-- KEEP_LOCAL follows the RTC, the zone registers and the UTC offset. -/
def Chip.setLocal (m : Chip) : Chip :=
  let d := m.inSaving (m.stdOf m.keep.sec)
  let off : Int := sfield 16 (m.get R.KEEP_TZ_STD_STD) + (if d then m.saving / 60 else 0 : Nat)
  (m.put R.KEEP_LOCAL_DST (bit d)).put R.KEEP_LOCAL_OFFSET (BitVec.ofInt 16 off).toNat

end Sys2Proof.Machine
end

