-- ==== Sys2Proof/Machine/Keeper.lean ====
section
/-! DEFINITION. The keeper's clock (R409, R416 to R425): backup supply, the real-time clock, its follow and capture, daylight saving and
the alarms. Starts and stops of PD2 are in Machine/Power.lean. -/

namespace Sys2Proof.Machine

open Sys2Proof

def Chip.setKeep (m : Chip) (k : Keep) : Chip := m.withKeep k

/-! ### Supply (R409, R410) -/

/-- KEEPER_SUPPLY_SWITCH: VBAT below 2.80 V of VMAIN_KEEP, VMAIN_KEEP again after 1 ms at or above 2.90 V. `mv` is VMAIN_KEEP. -/
def Chip.supplySwitch (m : Chip) (mv : Nat) (held : Bool) : Chip :=
  if mv < 2800 then m.setKeep { m.keep with onMain := false }
  else if 2900 ≤ mv ∧ held then m.setKeep { m.keep with onMain := true }
  else m

/-- VBAT_MEASURE: the reading in 10 mV, with VBAT_LOW below 2.30 V and clear at or above 2.40 V; posted once for each start of PD2. -/
def Chip.vbat (m : Chip) (v : Nat) : Chip :=
  let m1 := m.put R.KEEP_STAT_VBAT v
  if v < 230 then
    let m2 := m1.put R.KEEP_STAT_VBAT_LOW 1
    if m.keep.vbatPosted then m2
    else (m2.setKeep { m2.keep with vbatPosted := true }).post (ev 3 0x0E04 2 0 0 (le 2 v))
  else if 240 ≤ v then m1.put R.KEEP_STAT_VBAT_LOW 0
  else m1

/-- VKEEP has fallen: the latch sets, and the eight sentinel pairs hold free words. -/
def Chip.backupLoss (m : Chip) : Chip :=
  (List.range 8).foldl (fun a k => (a.fresh.2).wr .retention (8 * k) 8 a.fresh.1.toNat) (m.setKeep { m.keep with bkLatch := true })

/-! ### Alarm occurrences (R423) -/

def Chip.alarm (m : Chip) (a : Nat) : Alarm := AMap.get {} m.keep.alarms a
def Chip.setAlarm (m : Chip) (a : Nat) (x : Alarm) : Chip :=
  m.setKeep { m.keep with alarms := AMap.put {} a x m.keep.alarms }

/-- An occurrence: due second, whether it is the second of its wall time, whether its wall time fell in a gap. -/
structure Occur where
  due : Nat
  second : Bool := false
  gap : Bool := false
deriving DecidableEq, Repr

/-- The occurrences of a local alarm on a local day. -/
def Chip.dayOccurs (m : Chip) (a day : Nat) : List Occur :=
  let days := m.get (R.KEEP_ALM_CTL_DAYS a)
  if days ≠ 0 ∧ !days.testBit (wdayOf day) then []
  else
    let (l, gap) := m.wallInstants (day * 86400 + m.get (R.KEEP_ALM_TIME a))
    let first := { due := l.headD 0, gap := gap : Occur }
    match l with
    | _ :: t :: _ =>
      let second := { due := t, second := true : Occur }
      (match m.get (R.KEEP_ALM_CTL_OVL a) with
        | 1 => [second]
        | 2 => [first, second]
        | _ => [first])
    | _ => [first]

/-- The occurrences of an armed alarm with due seconds in (lo, hi], in rising order. -/
def Chip.occurs (m : Chip) (a lo hi : Nat) : List Occur :=
  if !m.on (R.KEEP_ALM_CTL_EN a) || decide (hi ≤ lo) then []
  else
    let l := if m.on (R.KEEP_ALM_CTL_LOCAL a) then
        let d0 := m.localDay lo - 1
        ((List.range (m.localDay hi - d0 + 2)).map (fun i => m.dayOccurs a (d0 + i))).flatten
      else [{ due := m.get (R.KEEP_ALM_TIME a) }]
    l.filter (fun o => decide (lo < o.due ∧ o.due ≤ hi))

/-! ### Clock steps (R424, R425) -/

/-- What a step from `old` to `new` does to one alarm. Occurrences due up to `old` that have not fired yet still fire without a flag;
a forward step makes one skipped firing of those in (old, new]; a backward step re-arms, with REWIND, those in (new, old]. -/
def Chip.alarmStep (m : Chip) (old new a : Nat) : Chip :=
  let x := m.alarm a
  let late := (m.occurs a x.from_ old).map (fun o => (o.due, bit o.second * 4 + bit o.gap * 8, 0))
  let x1 := { x with owed := x.owed ++ late, from_ := max x.from_ old }
  if old ≤ new then
    let skipped := m.occurs a x1.from_ new
    match skipped.getLast? with
    | some o => m.setAlarm a { x1 with owed := x1.owed ++ [(o.due, 1 + bit o.second * 4 + bit o.gap * 8, skipped.length)],
                                       from_ := new }
    | none => m.setAlarm a { x1 with from_ := max x1.from_ new }
  else if m.on (R.KEEP_ALM_CTL_REWIND a) then
    let due := m.get (R.KEEP_ALM_TIME a)
    let again := !m.on (R.KEEP_ALM_CTL_LOCAL a) && decide (new < due ∧ due ≤ old ∧ m.get (R.KEEP_ALM_LAST a) = due)
    let m1 := if again then m.put (R.KEEP_ALM_CTL_EN a) 1 else m
    m1.setAlarm a { x1 with from_ := max new x.base, rewound := max x1.rewound old }
  else m.setAlarm a x1

/-- Any change of the RTC other than its counting. -/
def Chip.setRtc (m : Chip) (sec sub : Nat) : Chip :=
  let old := m.keep.sec
  let m1 := (List.range 32).foldl (fun a i => a.alarmStep old sec i) m
  (m1.setKeep { m1.keep with sec := sec, sub := sub, phase := 0 }).setLocal

/-- RTC_SET (R416): the DATE word of a write, with the TIME word held before it. -/
def Chip.rtcSet (m : Chip) (r : Req) (v : Word) : Chip :=
  let (t, m1) := m.heldWord r R.KEEP_RTC_SET_TIME.addr
  let m2 := (m1.setReg R.KEEP_RTC_SET_TIME.addr t).setReg R.KEEP_RTC_SET_DATE.addr v
  match rtcOfWords t v with
  | some s => (m2.setRtc s 0).put R.KEEP_STAT_OSF 0
  | none => m2.put R.KEEP_STAT_SET_INV 1

/-- RTC_FOLLOW (R419): the RTC takes trusted league time; CORR takes the correction, and 1 ms or more is posted. -/
def Chip.rtcFollow (m : Chip) : Chip :=
  if !m.on R.KEEP_CTL_FOLLOW_EN || !m.trusted then m else
  let t := m.now
  let sub := t % 1000000000 * 32768 / 1000000000
  let old : Int := (m.keep.sec : Int) * 1000000000 + (m.keep.sub * 1000000000 / 32768 : Nat)
  let corr : Int := (t : Int) - old
  let ms := max (-127) (min 127 (corr.tdiv 1000000))
  let m1 := ((m.setRtc (t / 1000000000) sub).put R.KEEP_STAT_OSF 0).put R.KEEP_COMP_CORR (BitVec.ofInt 8 ms).toNat
  if 1000000 ≤ corr.natAbs then m1.post (ev 3 0x0E05 1 0 0 (le 4 (BitVec.ofInt 32 (corr.tdiv 1000)).toNat)) else m1

/-- The curve at point k, in 0.01 ppm. -/
def Chip.curve (m : Chip) (k : Nat) : Int :=
  sfield 16 (m.get (if k % 2 = 0 then R.KEEP_CURVE_EVEN (k / 2) else R.KEEP_CURVE_ODD (k / 2)))

/-- RTC_COMPENSATE (R418): the correction e(T) + AGE, by linear interpolation in the curve, held at its end points. -/
def Chip.compensate (m : Chip) (t : BitVec 8) : Chip :=
  let x := t.toInt + 40
  let e : Int := if x ≤ 0 then m.curve 0
    else if 125 ≤ x then m.curve 25
    else
      let k := (x / 5).toNat
      m.curve k + ((m.curve (k + 1) - m.curve k) * (x % 5)).tdiv 5
  (m.setKeep { m.keep with comp := e + sfield 16 (m.get R.KEEP_COMP_AGE) }).put R.KEEP_COMP_TEMP t.toNat

/-- TSCAP_GO (R420): RTC and league time of the next keeper edge; ignored while an earlier capture is not done. -/
def Chip.tscap (m : Chip) : Chip :=
  let m1 := (m.setReg R.KEEP_TSCAP_SUB.addr (BitVec.ofNat 32 m.keep.sub)).setReg R.KEEP_TSCAP_SEC.addr
    (BitVec.ofNat 32 m.keep.sec)
  (m1.put64 R.KEEP_TSCAP_LT_LO m.stamp).put R.KEEP_TSCAP_CMD_DONE 1

/-! ### Daylight saving and leap seconds (R421) -/

/-- DST_CHANGE: where saving at the RTC's second differs from KEEP_LOCAL, the transition is posted and KEEP_LOCAL updated. -/
def Chip.dstChange (m : Chip) : Chip :=
  let std := m.stdOf m.keep.sec
  let d := m.inSaving std
  if d == m.on R.KEEP_LOCAL_DST then m
  else
    let y := yearOf (std / 86400)
    let t := m.taiOf (if d then m.dstStart y else m.dstEnd y)
    m.setLocal.post (ev 3 0x0E07 0 0 (t * 1000000000) (le 1 (bit d)))

/-- LEAP_SECOND: at the end of a UTC day the keeper's copy of OFS changes as announced, and local time moves. -/
def Chip.leapSecond (m : Chip) : Chip :=
  let ofs := if m.on R.UPL_UTC_LI61 then m.keep.ofs + 1 else if m.on R.UPL_UTC_LI59 then m.keep.ofs - 1 else m.keep.ofs
  (m.setKeep { m.keep with ofs := ofs }).setLocal

/-! ### Alarms (R423 to R425) -/

/-- Report a firing: FIRED, LAST, flags, and the event with the due instant. -/
def Chip.fire (m : Chip) (a due flags skip : Nat) : Chip :=
  let m1 := (m.put (R.KEEP_ALM_STAT_FIRED a) 1).put (R.KEEP_ALM_LAST a) due
  let m2 := if flags.testBit 0 then
      (m1.put (R.KEEP_ALM_STAT_SKIPPED a) 1).put (R.KEEP_ALM_STAT_SKIPCNT a) (min 65535 skip) else m1
  let m3 := if flags.testBit 1 then m2.put (R.KEEP_ALM_STAT_REWOUND a) 1 else m2
  let m4 := if m3.on (R.KEEP_ALM_CTL_LOCAL a) then m3 else m3.put (R.KEEP_ALM_CTL_EN a) 0
  let m5 := if m4.on (R.KEEP_ALM_CTL_WAKE a) && !m4.pd2 && m4.keep.waits == 1 && m4.keep.enables == 0 then
      m4.setKeep { m4.keep with enables := 1, wake := 2, wakeAlarm := a } else m4
  m5.post (ev 3 0x0E00 0 a (due * 1000000000)
    (le 1 (flags + (if m.pd2 then 0 else 16)) ++ le 1 0 ++ le 2 (if flags.testBit 0 then min 65535 skip else 0)))

/-- ALARM: an owed occurrence, or the next one that the RTC has reached. -/
def Chip.alarmFire (m : Chip) (a : Nat) : Chip :=
  let x := m.alarm a
  match x.owed with
  | (due, flags, n) :: rest => (m.setAlarm a { x with owed := rest }).fire a due flags n
  | [] =>
    match m.occurs a x.from_ m.keep.sec with
    | o :: _ =>
      (m.setAlarm a { x with from_ := o.due }).fire a o.due
        (bit (decide (o.due ≤ x.rewound)) * 2 + bit o.second * 4 + bit o.gap * 8) 0
    | [] => m

/-- ALARM_WRITE: a write to an alarm's CTL (`time` false) or TIME; the next occurrence is computed from the current RTC second. A local
time above 86,399 is ignored, and so is a write to alarm 31 while the keeper owns it. -/
def Chip.alarmWrite (m : Chip) (a : Nat) (time : Bool) (v : Word) : Chip :=
  if a = 31 ∧ m.on R.KEEP_CTL_AUTO_WAKE then m
  else if time && m.on (R.KEEP_ALM_CTL_LOCAL a) && decide (86399 < v.toNat) then m
  else
    let m1 := m.setReg (if time then R.KEEP_ALM_TIME a else R.KEEP_ALM_CTL a).addr (if time then v else v &&& 0xFC00007F)
    m1.setAlarm a { from_ := m1.keep.sec, base := m1.keep.sec }

/-! ### Counting -/

/-- The RTC counts a length of time (quarter-nanoseconds). -/
def Chip.rtcCount (m : Chip) (q : Nat) : Chip :=
  let p := m.keep.phase + q * 32768
  let t := m.keep.sub + p / 4000000000
  m.setKeep { m.keep with phase := p % 4000000000, sub := t % 32768, sec := m.keep.sec + t / 32768 }

/-! ### Commands -/

def execKeeperSupplySwitch (mv : Nat) (held : Bool) (s : State) : Host.Outcome State Fault Refusal :=
  s.actAll (·.supplySwitch mv held)
def execVbatMeasure (v : BitVec 9) (s : State) : Host.Outcome State Fault Refusal := s.actAll (·.vbat v.toNat)
/-- BACKUP_LOSS_LATCH (R410). What the fall leaves in the sentinel cells is free; the next start of PD2 reads them (notes/assumptions/103.md). -/
def execBackupLossLatch (s : State) : Host.Outcome State Fault Refusal :=
  s.actAll Chip.backupLoss
def execRtcSet (r : Req) (v : Word) (s : State) : Host.Outcome State Fault Refusal := s.act (·.rtcSet r v)
/-- OSC_STOP (R417). -/
def execOscStop (s : State) : Host.Outcome State Fault Refusal := s.actAll (·.put R.KEEP_STAT_OSF 1)
def execRtcCompensate (t : BitVec 8) (s : State) : Host.Outcome State Fault Refusal := s.actAll (·.compensate t)
def execRtcFollow (s : State) : Host.Outcome State Fault Refusal := s.act Chip.rtcFollow
def execTscapGo (s : State) : Host.Outcome State Fault Refusal := s.act Chip.tscap
def execDstChange (s : State) : Host.Outcome State Fault Refusal := s.actAll Chip.dstChange
def execLeapSecond (s : State) : Host.Outcome State Fault Refusal := s.actAll Chip.leapSecond
def execAlarm (a : Fin 32) (s : State) : Host.Outcome State Fault Refusal := s.actAll (·.alarmFire a.val)
def execAlarmWrite (a : Fin 32) (time : Bool) (v : Word) (s : State) : Host.Outcome State Fault Refusal :=
  s.act (·.alarmWrite a.val time v)

end Sys2Proof.Machine
end

