-- ==== Sys2Proof/Machine/Fp.lean ====
section
/-! DEFINITION. IEEE 754-2019 binary64 as R101, R28, R29, R125 and R126 lay it down: values are taken apart into sign, integer
significand and exponent, computed exactly, and rounded once. Each operation answers the result and the flags it raises, as
FCSR bits 4:0 (NV 16, DZ 8, OF 4, UF 2, NX 1). -/

namespace Sys2Proof.Machine.Fp

open Sys2Proof

/-- A result and the flags it raised. -/
abbrev Res := DWord × Nat

def sign (x : DWord) : Bool := x.getLsbD 63
def expo (x : DWord) : Nat := bits x.toNat 62 52
def man (x : DWord) : Nat := bits x.toNat 51 0
def isNan (x : DWord) : Bool := expo x == 2047 && man x != 0
def isSnan (x : DWord) : Bool := isNan x && !x.getLsbD 51
def isInf (x : DWord) : Bool := expo x == 2047 && man x == 0
def isZero (x : DWord) : Bool := expo x == 0 && man x == 0

/-- The significand of a finite value as an integer. -/
def sig (x : DWord) : Nat := if expo x = 0 then man x else man x + 2 ^ 52

/-- The exponent of that integer: the value is sig · 2^ex. -/
def ex (x : DWord) : Int := (max (expo x) 1 : Nat) - 1075

/-- Put sign, exponent field and mantissa field together. -/
def pack (s : Bool) (e m : Nat) : DWord := BitVec.ofNat 64 (bit s * 2 ^ 63 + e * 2 ^ 52 + m)

def inf (s : Bool) : DWord := pack s 2047 0
def zero (s : Bool) : DWord := pack s 0 0
def maxFinite (s : Bool) : DWord := pack s 2046 (2 ^ 52 - 1)

/-- The default NaN, payload 0 (R28). -/
def defaultNan : DWord := 0x7FF8000000000000

/-- The NaN of a cause of Table 1-9. -/
def causeNan (payload : Nat) : DWord := BitVec.ofNat 64 (0x7FF8000000000000 + payload)

/-- A NaN operand returned by an operation: quieted, payload kept (R29). -/
def quiet (x : DWord) : DWord := x ||| 0x0008000000000000

/-- The first NaN among the operands, with NV for any signalling one. -/
def nanOf (ops : List DWord) : Option Res :=
  match ops.find? isNan with
  | some x => some (quiet x, if ops.any isSnan then 16 else 0)
  | none => none

/-- Whether rounding adds one unit: mode, sign, odd, remainder against half (0 below, 1 equal, 2 above), inexact. -/
def roundsUp (rm : BitVec 2) (s odd : Bool) (half : Nat) (inexact : Bool) : Bool :=
  if rm = 0 then half == 2 || (half == 1 && odd)
  else if rm = 1 then false
  else if rm = 2 then !s && inexact
  else s && inexact

/-- m · 2^e (a bit more when `sticky`) as an integer multiple of 2^q: the integer, and whether it is inexact. -/
def roundAt (rm : BitVec 2) (s : Bool) (m : Nat) (e q : Int) (sticky : Bool) : Nat × Bool :=
  if q ≤ e then
    (m * 2 ^ (e - q).toNat + bit (roundsUp rm s (m * 2 ^ (e - q).toNat % 2 == 1) 0 sticky), sticky)
  else
    let k := (q - e).toNat
    let t := m / 2 ^ k
    let r := m % 2 ^ k
    let h := 2 ^ (k - 1)
    let half := if r < h then 0 else if r = h then (if sticky then 2 else 1) else 2
    let inexact := r != 0 || sticky
    (t + bit (roundsUp rm s (t % 2 == 1) half inexact), inexact)

/-- The number of bits of a number. -/
def len (m : Nat) : Nat := if m = 0 then 0 else Nat.log2 m + 1

/-- Round (−1)^s · m · 2^e to binary64, with gradual underflow, and tininess detected after rounding (R101). -/
def round (rm : BitVec 2) (s : Bool) (m : Nat) (e : Int) (sticky : Bool) : Res :=
  if m = 0 ∧ !sticky then (zero s, 0)
  else
    let q0 : Int := e + len m - 53
    let q := max q0 (-1074)
    let (t, inexact) := roundAt rm s m e q sticky
    let (t, q) := if t = 2 ^ 53 then (2 ^ 52, q + 1) else (t, q)
    let nx := bit inexact
    if 971 < q then
      (if rm = 0 ∨ (rm = 2 ∧ !s) ∨ (rm = 3 ∧ s) then inf s else maxFinite s, 5)
    else
      let free := (roundAt rm s m e q0 sticky).1
      let tiny := decide (e + len m - 1 < -1022) && !(free == 2 ^ 53 && decide (q0 + 53 = -1022))
      let uf := if tiny && inexact then 2 else 0
      if t < 2 ^ 52 then (pack s 0 t, nx + uf)
      else (pack s (q + 1075).toNat (t - 2 ^ 52), nx + uf)

/-- Round an exact integer multiple of 2^e; a zero takes sign `zs`. -/
def roundInt (rm : BitVec 2) (v : Int) (e : Int) (zs : Bool) : Res :=
  if v = 0 then (zero zs, 0) else round rm (decide (v < 0)) v.natAbs e false

/-- The signed integer significand. -/
def sv (x : DWord) : Int := if sign x then -(sig x : Int) else (sig x : Int)

/-- The exact sum of two multiples of powers of two, with its exponent. -/
def sumAt (a : Int) (ea : Int) (b : Int) (eb : Int) : Int × Int :=
  let e := min ea eb
  (a * 2 ^ (ea - e).toNat + b * 2 ^ (eb - e).toNat, e)

def add (rm : BitVec 2) (a b : DWord) : Res :=
  match nanOf [a, b] with
  | some r => r
  | none =>
    if isInf a then (if isInf b && sign a != sign b then (defaultNan, 16) else (a, 0))
    else if isInf b then (b, 0)
    else
      let (v, e) := sumAt (sv a) (ex a) (sv b) (ex b)
      roundInt rm v e (if isZero a && isZero b && sign a == sign b then sign a else rm == 3)

/-- The same value with the sign inverted, a NaN apart. -/
def negate (x : DWord) : DWord := if isNan x then x else x ^^^ 0x8000000000000000

/-- The same value with the sign cleared, a NaN apart. -/
def absolute (x : DWord) : DWord := if isNan x then x else x &&& 0x7FFFFFFFFFFFFFFF

def sub (rm : BitVec 2) (a b : DWord) : Res :=
  match nanOf [a, b] with
  | some r => r
  | none => add rm a (negate b)

def mul (rm : BitVec 2) (a b : DWord) : Res :=
  match nanOf [a, b] with
  | some r => r
  | none =>
    let s := sign a != sign b
    if isInf a || isInf b then (if isZero a || isZero b then (defaultNan, 16) else (inf s, 0))
    else round rm s (sig a * sig b) (ex a + ex b) false

def div (rm : BitVec 2) (a b : DWord) : Res :=
  match nanOf [a, b] with
  | some r => r
  | none =>
    let s := sign a != sign b
    if isInf a then (if isInf b then (defaultNan, 16) else (inf s, 0))
    else if isInf b then (zero s, 0)
    else if isZero b then (if isZero a then (defaultNan, 16) else (inf s, 8))
    else
      let n := sig a * 2 ^ 120
      round rm s (n / sig b) (ex a - ex b - 120) (n % sig b != 0)

/-- The integer square root, one bit of the root at a time. -/
def isqrt (v : Nat) : Nat → Nat → Nat
  | 0, r => r
  | n + 1, r => isqrt v n (if (r + 2 ^ n) * (r + 2 ^ n) ≤ v then r + 2 ^ n else r)

def sqrt (rm : BitVec 2) (a : DWord) : Res :=
  match nanOf [a] with
  | some r => r
  | none =>
    if isZero a then (a, 0)
    else if sign a then (defaultNan, 16)
    else if isInf a then (a, 0)
    else
      let odd := (ex a) % 2 ≠ 0
      let m := (if odd then 2 * sig a else sig a) * 2 ^ 120
      let e := (if odd then ex a - 1 else ex a) - 120
      let r := isqrt m 90 0
      round rm false r (e / 2) (r * r != m)

/-- a · b + c with one rounding (R101); 0 × ∞ plus a quiet NaN signals invalid (R125). -/
def fma (rm : BitVec 2) (a b c : DWord) : Res :=
  let bad := (isInf a && isZero b) || (isZero a && isInf b)
  match nanOf [a, b, c] with
  | some r => (r.1, if bad then 16 else r.2)
  | none =>
    let s := sign a != sign b
    if bad then (defaultNan, 16)
    else if isInf a || isInf b then
      (if isInf c && sign c != s then (defaultNan, 16) else (inf s, 0))
    else if isInf c then (c, 0)
    else
      let p : Int := if s then -((sig a * sig b : Nat) : Int) else ((sig a * sig b : Nat) : Int)
      let (v, e) := sumAt p (ex a + ex b) (sv c) (ex c)
      let pz := isZero a || isZero b
      roundInt rm v e (if pz && isZero c && s == sign c then s else rm == 3)

/-- x < y for two values that are not NaN; +0 and −0 are equal. -/
def lt (x y : DWord) : Bool :=
  if isZero x && isZero y then false
  else if sign x != sign y then sign x
  else if sign x then decide (y.toNat < x.toNat)
  else decide (x.toNat < y.toNat)

/-- x = y numerically. -/
def eq (x y : DWord) : Bool := !isNan x && !isNan y && ((isZero x && isZero y) || x == y)

/-- x > y, false when either is a NaN. -/
def gt (x y : DWord) : Bool := !isNan x && !isNan y && lt y x

/-- The minimum operation of IEEE 754-2019: −0 below +0. -/
def minimum (a b : DWord) : Res :=
  match nanOf [a, b] with
  | some r => r
  | none => (if isZero a && isZero b then (if sign a then a else b) else if lt b a then b else a, 0)

/-- The maximum operation of IEEE 754-2019. -/
def maximum (a b : DWord) : Res :=
  match nanOf [a, b] with
  | some r => r
  | none => (if isZero a && isZero b then (if sign a then b else a) else if lt a b then b else a, 0)

/-- The value rounded to an integer in a mode: the integer and whether it is inexact. -/
def toInteger (rm : BitVec 2) (x : DWord) : Int × Bool :=
  let (n, nx) := roundAt rm (sign x) (sig x) (ex x) 0 false
  (if sign x then -(n : Int) else (n : Int), nx)

/-- Conversion to a 64-bit integer between lo and hi (R126). -/
def toBounded (rm : BitVec 2) (lo hi : Int) (x : DWord) : DWord × Nat :=
  if isNan x then (0, 16)
  else if isInf x then (BitVec.ofInt 64 (if sign x then lo else hi), 16)
  else
    let (v, nx) := toInteger rm x
    if v < lo then (BitVec.ofInt 64 lo, 16)
    else if hi < v then (BitVec.ofInt 64 hi, 16)
    else (BitVec.ofInt 64 v, bit nx)

def toSigned (rm : BitVec 2) (x : DWord) : DWord × Nat := toBounded rm (-(2 ^ 63)) (2 ^ 63 - 1) x
def toUnsigned (rm : BitVec 2) (x : DWord) : DWord × Nat := toBounded rm 0 (2 ^ 64 - 1) x

/-- An integer as binary64. -/
def ofInt (rm : BitVec 2) (v : Int) : Res := roundInt rm v 0 false

/-- roundToIntegralExact. -/
def rnd (rm : BitVec 2) (x : DWord) : Res :=
  match nanOf [x] with
  | some r => r
  | none =>
    if isInf x || isZero x then (x, 0)
    else
      let (v, nx) := toInteger rm x
      ((roundInt 0 v 0 (sign x)).1, bit nx)

/-- FCLASS of R126. -/
def fclass (x : DWord) : DWord :=
  let b : Nat :=
    if isNan x then (if isSnan x then 8 else 9)
    else if isInf x then (if sign x then 0 else 7)
    else if isZero x then (if sign x then 3 else 4)
    else if expo x = 0 then (if sign x then 2 else 5)
    else (if sign x then 1 else 6)
  BitVec.ofNat 64 (2 ^ b + if isNan x then man x % 256 * 2 ^ 16 else 0)

/-- Whether a value is finite. -/
def finite (x : DWord) : Bool := expo x != 2047

/-! The units outside the Wasa cores compute in roundTiesToEven and keep no flags (notes/assumptions/5.md). -/

def fadd (a b : DWord) : DWord := (add 0 a b).1
def fsub (a b : DWord) : DWord := (sub 0 a b).1
def fmul (a b : DWord) : DWord := (mul 0 a b).1
def fdiv (a b : DWord) : DWord := (div 0 a b).1
def fofNat (n : Nat) : DWord := (ofInt 0 n).1
def fofInt (n : Int) : DWord := (ofInt 0 n).1
/-- The larger and the smaller of two, an ordered comparison. -/
def fmax (a b : DWord) : DWord := (maximum a b).1
def fmin (a b : DWord) : DWord := (minimum a b).1
def one : DWord := 0x3FF0000000000000

end Sys2Proof.Machine.Fp
end

