-- ==== Sys2Proof/Machine/Tables.lean ====
section
/-! DEFINITION. The records behind the table windows that more than one unit reads: descriptors and bindings of the point store
(Table 2-5, R40), station and route entries of the transaction engine (Tables 14-1 and 14-2), and point tags (Table 2-1). -/

namespace Sys2Proof.Machine

open Sys2Proof

/-! ### Point tags (R33, R34) -/

def tagDev (t : BitVec 40) : Nat := t.toNat / 2 ^ 26
def tagIdx (t : BitVec 40) : Nat := t.toNat % 2 ^ 25
def tagRsv (t : BitVec 40) : Bool := t.getLsbD 25

/-- Whether this device serves the tag. -/
def Chip.local (m : Chip) (t : BitVec 40) : Bool := tagDev t == m.get R.POINT_CFG_DEVNUM

/-- Whether the tag is out of range (R34). -/
def Chip.outOfRange (m : Chip) (t : BitVec 40) : Bool :=
  tagRsv t || (m.local t && decide (m.capPts ≤ tagIdx t))

/-- The tag of a local point. -/
def Chip.tagOf (m : Chip) (i : Nat) : BitVec 40 := BitVec.ofNat 40 (m.get R.POINT_CFG_DEVNUM * 2 ^ 26 + i)

/-! ### Descriptors and bindings (Table 2-5, R40) -/

/-- A point descriptor. `ok` is whether its CRC verifies. -/
structure Desc where
  typ : Nat
  attr : Nat
  mask : Nat
  mode : Nat
  fresh : Nat
  loss : Nat
  owner : Nat
  band : DWord
  lo : DWord
  hi : DWord
  sub : DWord
  subc : DWord
  ok : Bool
deriving DecidableEq, Repr

/-- The descriptor that 64 bytes spell. -/
def descOf (b : List Byte) : Desc :=
  { typ := fld b 0 1, attr := fld b 1 1, mask := fld b 2 1, mode := fld b 3 1, fresh := fld b 4 4, loss := fld b 8 4,
    owner := fld b 14 2, band := BitVec.ofNat 64 (fld b 16 8), lo := BitVec.ofNat 64 (fld b 24 8),
    hi := BitVec.ofNat 64 (fld b 32 8), sub := BitVec.ofNat 64 (fld b 40 8), subc := BitVec.ofNat 64 (fld b 48 8),
    ok := fld b 60 4 == (crc32c (b.take 60)).toNat }

/-- A descriptor of the applied table. -/
def Chip.desc (m : Chip) (i : Nat) : Desc := descOf (m.bytes (.win .pointDesc) (64 * i) 64)

def Desc.critical (d : Desc) : Bool := d.attr.testBit 0
def Desc.range (d : Desc) : Bool := d.attr.testBit 1
def Desc.clamp (d : Desc) : Bool := d.attr.testBit 2
def Desc.forceable (d : Desc) : Bool := d.attr.testBit 3
def Desc.autoSubst (d : Desc) : Bool := d.attr.testBit 4
def Desc.evChange (d : Desc) : Bool := d.attr.testBit 5
def Desc.evQuality (d : Desc) : Bool := d.attr.testBit 6
def Desc.secondary (d : Desc) : Bool := d.attr.testBit 7

/-- Whether the value's type is signed (INT32, INT64), a 32-bit one, FP64. -/
def Desc.signed (d : Desc) : Bool := d.typ == 2 || d.typ == 4
def Desc.narrow (d : Desc) : Bool := d.typ == 2 || d.typ == 3
def Desc.isFp (d : Desc) : Bool := d.typ == 6

/-- The binding of a point: descriptor index and route index. -/
def Chip.bindOf (m : Chip) (i : Nat) : Nat × Nat := (m.rd (.win .pointBind) (8 * i) 4, m.rd (.win .pointBind) (8 * i + 4) 4)

/-! ### Stations and routes (Tables 14-1 and 14-2) -/

/-- A station entry. -/
structure StaEnt where
  flags : Nat
  medium : Nat
  port : Nat
  window : Nat
  addr : Nat
  dev : Nat
  timeout : Nat
  retries : Nat
  loss : Nat
  limit : Nat
deriving DecidableEq, Repr

/-- The station entry that 32 bytes spell. -/
def staOf (b : List Byte) : StaEnt :=
  { flags := fld b 0 1, medium := fld b 1 1, port := fld b 2 1, window := fld b 3 1, addr := fld b 4 2, dev := fld b 6 2,
    timeout := fld b 8 2, retries := fld b 10 1, loss := fld b 12 4, limit := fld b 16 4 }

def StaEnt.enabled (e : StaEnt) : Bool := e.flags.testBit 0
def StaEnt.league (e : StaEnt) : Bool := e.flags.testBit 1
def StaEnt.noAutoq (e : StaEnt) : Bool := e.flags.testBit 2
def StaEnt.credit (e : StaEnt) : Nat := if e.window = 0 then 4 else e.window

/-- Stations and routes in their tables. -/
def staN : Nat := 262144
def routeN : Nat := 4194304

def Chip.staEnt (m : Chip) (n : Nat) : StaEnt := staOf (m.bytes (.win .txnSta) (32 * n) 32)

/-- Whether a station number names an enabled station. -/
def Chip.staOn (m : Chip) (n : Nat) : Bool := decide (n < staN) && (m.staEnt n).enabled

/-- A route entry. -/
structure Route where
  kind : Nat
  flags : Nat
  chan : Nat
  station : Nat
  module : Nat
  refresh : Nat
  remote : BitVec 40
deriving DecidableEq, Repr

/-- The route entry that 32 bytes spell. -/
def routeOf (b : List Byte) : Route :=
  { kind := fld b 0 1, flags := fld b 1 1, chan := fld b 2 2, station := fld b 4 4, module := fld b 8 2, refresh := fld b 12 4,
    remote := BitVec.ofNat 40 (fld b 16 8) }

def noRoute : Route := ⟨0, 0, 0, 0, 0, 0, 0⟩

/-- The route of an index; an index outside the table (0xFFFF_FFFF among them) is no route. -/
def Chip.route (m : Chip) (i : Nat) : Route := if i < routeN then routeOf (m.bytes (.win .txnRoute) (32 * i) 32) else noRoute

def Route.input (r : Route) : Bool := r.kind == 1
def Route.output (r : Route) : Bool := r.kind == 2
def Route.mirror (r : Route) : Bool := r.kind == 3
def Route.published (r : Route) : Bool := r.flags.testBit 0

/-! ### The table windows (Table 23-3, R464, R465) -/

/-- The control-space offset of a window. -/
def Win.base : Win → Nat
  | .scanTask => 0x500000 | .guardIlt => 0x504000 | .uplAddr => 0x505000 | .loopCfg => 0x508000 | .vaultImp => 0x510000
  | .uplNbr => 0x520000 | .plcAdm => 0x540000 | .lampRcp => 0x580000 | .meterChan => 0x600000 | .planOut => 0x700000
  | .lampFix => 0x800000 | .lampZone => 0x900000 | .lampGrp => 0xA00000 | .loopBank => 0xC00000 | .scanImap => 0x1000000
  | .scanOmap => 0x1400000 | .scanImg => 0x1800000 | .pointDesc => 0x1C00000 | .pointBind => 0x2000000 | .txnSta => 0x2400000
  | .txnRoute => 0x2800000 | .planElem => 0x2C00000 | .planBind => 0x3000000 | .lampFw => 0x3400000 | .loopCap => 0x3800000

/-- The bytes of control space that a window takes. -/
def Win.span : Win → Nat
  | .scanTask => 0x4000 | .guardIlt => 0x1000 | .uplAddr => 0x1000 | .loopCfg => 0x8000 | .vaultImp => 0x10000
  | .uplNbr => 0x20000 | .plcAdm => 0x20000 | .lampRcp => 0x40000 | .meterChan => 0x80000 | .planOut => 0x100000
  | .lampFix => 0x100000 | .lampZone => 0x100000 | .lampGrp => 0x200000 | .loopBank => 0x200000 | _ => 0x400000

/-- The bytes of the table behind a window; POINT_BIND ends with the point capacity. -/
def Chip.winSize (m : Chip) : Win → Nat
  | .scanTask => 16384 | .guardIlt => 512 | .uplAddr => 768 | .loopCfg => 32768 | .vaultImp => 40960 | .uplNbr => 131072
  | .plcAdm => 131072 | .lampRcp => 180224 | .meterChan => 524288 | .planOut => 1048576 | .lampFix => 134217728
  | .lampZone => 1048576 | .lampGrp => 2097152 | .loopBank => 1179648 | .scanImap => 8388608 | .scanOmap => 8388608
  | .scanImg => 4294967296 | .pointDesc => 67108864 | .pointBind => 8 * m.capPts | .txnSta => 8388608 | .txnRoute => 134217728
  | .planElem => 16777216 | .planBind => 8388608 | .lampFw => 8388608 | .loopCap => 8388608

/-- How COMMIT_RES_OBJ names byte `off` of a table: its control-space offset, and its page in bits 47:32 (R464). -/
def Win.obj (w : Win) (off : Nat) : Nat := w.base + off % w.span + off / w.span * 2 ^ 32

/-! ### Roles that several units ask after (R368, R374) -/

/-- Whether a program image region or a table holds any byte at all in a range: used to tell an empty slot. -/
def Chip.anyByte (m : Chip) (sp : Space) (off n : Nat) : Bool := (m.bytes sp off n).any (· != 0)

end Sys2Proof.Machine
end

