-- ==== Sys2Proof/Machine/Txn.lean ====
section
/-! DEFINITION. The transaction engine's queues (R299 to R312): sequence numbers, requests and their completions, stations going
down and up, held output sets. The commands that reach the engine are in Machine/Traffic.lean. -/

namespace Sys2Proof.Machine

open Sys2Proof

/-! ### Row numbers of a sparse table -/

/-- The rows of `sz` bytes of a space that hold a byte other than its default, in rising order. -/
def Chip.rows (m : Chip) (sp : Space) (sz : Nat) : List Nat :=
  (m.mem.filterMap (fun e => if e.1 / 2 ^ 40 = sp.idx then some (e.1 % 2 ^ 40 / sz) else none)).eraseDups

/-- The enabled stations. -/
def Chip.stations (m : Chip) : List Nat := (m.rows (.win .txnSta) 32).filter m.staOn

/-! ### Roles (Table 18-1) -/

def Chip.role (m : Chip) : Nat := m.get R.SADL_STAT_ROLE
def Chip.syncState (m : Chip) : Nat := m.get R.SADL_STAT_SYNC

/-- Whether the device runs its own cycles, outputs and transmissions: STANDALONE or ACTIVE (Table 18-1). -/
def Chip.leads (m : Chip) : Bool := m.role == 1 || (m.role == 0 && m.syncState == 0)

/-- Whether the device is a standby. -/
def Chip.standby (m : Chip) : Bool := m.role == 2

/-- Whether the device is paired: its twin is synchronising or synchronised. -/
def Chip.paired (m : Chip) : Bool := m.syncState == 2 || m.syncState == 3

/-- Whether the device is the active of a pair. -/
def Chip.pairedActive (m : Chip) : Bool := m.role == 1 && m.paired

/-- Offer a record to a saddle stream; only the active of a pair sends it, beside a resynchronisation copy too (R388). -/
def Chip.stream (m : Chip) (name : String) (body : List Nat) : Chip :=
  if m.pairedActive then m.emit (.frame 0x0E 0 name body) else m

/-! ### Events of the engine (R313) -/

/-- A diagnostic counter of TXN: counter i at 0x0010 + 4i, its SAT flag at bit 25 + i of TXN_STAT. -/
def Chip.txnCount (m : Chip) (i : Nat) : Chip :=
  m.count ⟨R.TXN_DUP_CNT.addr + 4 * i, 31, 0⟩ (some ⟨R.TXN_STAT.addr, 25 + i, 25 + i⟩)

/-! ### Stations -/

def Chip.sta (m : Chip) (n : Nat) : Station := AMap.get {} m.txn.stations n
def Chip.setSta (m : Chip) (n : Nat) (s : Station) : Chip :=
  m.withTxn { m.txn with stations := AMap.put {} n s m.txn.stations }

/-- The next outbound sequence number of a station and frame type (R301); the first is 1 (notes/assumptions/20.md). -/
def Chip.nextSeq (m : Chip) (n type : Nat) : Word × Chip :=
  let s := m.sta n
  let q := AMap.get 0 s.outSeq type + 1
  (q, m.setSta n { s with outSeq := AMap.put 0 type q s.outSeq })

/-- The frame type and the class of a transaction's request (Table 14-3). -/
def TxKind.type : TxKind → Nat
  | .output => 0x31 | .hello => 0x33 | .lgRead => 0x40 | .lgWrite => 0x41 | .lgSubscribe => 0x44 | .quench => 0x38
def TxKind.cls : TxKind → Nat
  | .output => 5 | .hello => 5 | .lgRead => 1 | .lgWrite => 1 | .lgSubscribe => 1 | .quench => 7

/-- Whether a transaction holds an entry of the table. -/
def Tx.inFlight (t : Tx) : Bool := decide (t.state ≠ .queued)

/-- Set TXN_STAT.USED to the entries in SENT or RETRY. -/
def Chip.txnUsed (m : Chip) : Chip := m.put R.TXN_STAT_USED (m.txn.txs.countP Tx.inFlight)

def Chip.setTxs (m : Chip) (l : List Tx) : Chip := (m.withTxn { m.txn with txs := l }).txnUsed

/-- The port code of a station: medium × 32 + port; a UDP neighbour's frames leave on its primary uplink while that has link, and
on the alternate otherwise (R325). -/
def Chip.uplinkOf (m : Chip) (nbr : Nat) : Nat :=
  let pri := m.rd (.win .uplNbr) (32 * nbr + 1) 1
  let alt := m.rd (.win .uplNbr) (32 * nbr + 2) 1
  if m.on (R.UPL_P_STAT_LINK pri) || alt == 0xFF then pri else alt

def Chip.portOf (m : Chip) (n : Nat) : Nat :=
  let e := m.staEnt n
  e.medium * 32 + (if e.medium = 4 then m.uplinkOf e.addr else e.port)

/-- Whether a T1S, PLC or CAN port holds frames for its next opportunity: a disabled port, a quarantined segment and a channel that is bus-off
hold none (R335, R363, R366). -/
def Chip.portHolds (m : Chip) (code : Nat) : Bool :=
  let p := code % 32
  match code / 32 with
  | 0 => m.on (R.FLD_T1S_CFG_EN p) && !m.on (R.FLD_T1S_STAT_QUAR p)
  | 2 => m.on (R.FLD_PLC_CFG_EN p)
  | 3 => m.on (R.CAN_CFG_EN p) && decide (m.get (R.CAN_STAT_STATE p) ≠ 4 ∧ m.get (R.CAN_STAT_STATE p) ≠ 5)
  | _ => true

/-- Hand a frame to its port: SGMII ports and uplinks send it; on T1S, PLC and CAN it waits for its opportunity (R307). Only a
device that leads transmits (Table 18-1). -/
def Chip.sendFrame (m : Chip) (f : MFrame) : Chip :=
  if !m.leads || !m.portHolds f.port then m
  else
    let m := if f.cls = 7 then m.stream "FRAME" [f.port, f.type, f.seq.toNat, f.target.toNat] else m
    if f.port / 32 = 1 ∨ f.port / 32 = 4 then m.emit (.mirfor f)
    else m.withTxn { m.txn with egress := AMap.put [] f.port (AMap.get [] m.txn.egress f.port ++ [f]) m.txn.egress }

/-- The standby's second copy of a frame (R381): on T1S and CAN it waits for the standby's own opportunity; G3-PLC and the uplinks carry none
(R345, R368). -/
def Chip.sendCopy (m : Chip) (f : MFrame) : Chip :=
  if !m.portHolds f.port then m
  else if f.port / 32 = 1 then m.emit (.mirfor f)
  else if f.port / 32 = 0 ∨ f.port / 32 = 3 then
    m.withTxn { m.txn with egress := AMap.put [] f.port (AMap.get [] m.txn.egress f.port ++ [f]) m.txn.egress }
  else m

/-- Send a frame that is no transaction to a station: it takes the next number of its type (R299, R301). -/
def Chip.sendPlain (m : Chip) (n type cls : Nat) (payload : List Byte) : Chip :=
  let (q, m1) := m.nextSeq n type
  m1.sendFrame { port := m1.portOf n, station := some n, type := type, seq := q, target := 0, cls := cls, payload := payload }

/-! ### Held output sets (R306) -/

/-- Hold an undeliverable OUTPUT set: its lifetime runs from the hand-off of the group's first undelivered set. A set of the same
group that still waits in the queue is the later one and is held in its place. Once the lifetime has ended, later sets are
discarded without an event. -/
def Chip.holdOut (m : Chip) (t : Tx) : Chip :=
  let same := fun (u : Tx) => decide (u.kind = .output ∧ u.station = t.station ∧ u.group = t.group ∧ u.state = .queued)
  let payload := match m.txn.txs.find? same with
    | some u => u.payload
    | none => t.payload
  let m1 := m.setTxs (m.txn.txs.filter (fun u => !same u))
  let mine := fun (h : HeldOut) => decide (h.station = t.station ∧ h.group = t.group)
  match m1.txn.held.find? mine with
  | some _ => m1.withTxn { m1.txn with held := m1.txn.held.map (fun h =>
      if mine h && !h.expired then { h with payload := payload } else h) }
  | none => m1.withTxn { m1.txn with held := m1.txn.held ++
      [{ station := t.station, group := t.group, tag := t.tag, payload := payload, since := t.since, life := t.life }] }

/-! ### Completions (Table 14-3) -/

/-- End an access-port operation (R54): BUSY clears and CODE takes the completion code. -/
def Chip.accDone (m : Chip) (p : Nat) (code : Half) : Chip :=
  (m.put (R.POINT_ACC_STAT_BUSY p) 0).put (R.POINT_ACC_STAT_CODE p) code.toNat

/-- Report a completion to whoever asked: an access port, or the TXN_Q registers. An undelivered OUTPUT set is held. -/
def Chip.txReport (m : Chip) (t : Tx) (code : Half) : Chip :=
  if t.kind = .output then
    (if code = CC.timeout ∨ code = CC.cancelled then m.holdOut t else m)
  else match t.reqPort with
    | some 3 => (m.put R.TXN_Q_RES_DONE 1).put R.TXN_Q_RES_CODE code.toNat
    | some p => m.accDone p code
    | none => m

/-- A station goes DOWN and STATION_DOWN is posted: reason 0 timeout, 1 loss time, 2 disable (R302). -/
def Chip.staDown (m : Chip) (n reason : Nat) : Chip :=
  let s := m.sta n
  if s.up then (m.setSta n { s with up := false }).post (ev 6 0x0800 2 n s.heard (le 1 reason)) else m

/-- End the first transaction equal to `t` with a code. TIMEOUT and CANCELLED_DISABLE take its station DOWN (R302). -/
def Chip.txDone (m : Chip) (t : Tx) (code : Half) : Chip :=
  let m1 := (m.setTxs (m.txn.txs.erase t)).txReport t code
  if code = CC.timeout then m1.staDown t.station 0
  else if code = CC.cancelled then m1.staDown t.station 2
  else m1

/-! ### Requests (R300, R305) -/

/-- Offer a request to its station's queue. An OUTPUT set replaces the queued set of its module group and any set held for it; for a
station that is DOWN it is held. Any other request to a DOWN station ends with STATION_LOST, and one beyond 64 of its kind with OVERFLOW. -/
def Chip.txAccept (m : Chip) (t : Tx) : Chip :=
  if t.kind = .output then
    (if !(m.sta t.station).up then m.holdOut t
     else
      let same := fun (u : Tx) => decide (u.kind = .output ∧ u.station = t.station ∧ u.group = t.group ∧ u.state = .queued)
      let held := m.txn.held.filter (fun h => !decide (h.station = t.station ∧ h.group = t.group))
      let m1 := m.withTxn { m.txn with held := held }
      if m.txn.txs.any same then
        m1.setTxs (m.txn.txs.map (fun u => if same u then { t with state := .queued } else u))
      else m1.setTxs (m.txn.txs ++ [t]))
  else if !m.staOn t.station || !(m.sta t.station).up then m.txReport t CC.stationLost
  else if 64 ≤ m.txn.txs.countP (fun u => decide (u.kind = t.kind ∧ u.station = t.station ∧ u.state = .queued)) then
    (m.txnCount 2).txReport t CC.overflow
  else m.setTxs (m.txn.txs ++ [t])

/-- The payload of an IO_OUTPUT frame: module, then one entry per output (channel, value, complement or 0). -/
def ioOutput (module : Nat) (ents : List (Nat × DWord × DWord)) : List Byte :=
  le 2 module ++ le 1 ents.length ++ le 1 0 ++
  (ents.map (fun e => le 2 e.1 ++ List.replicate 6 0 ++ le 8 e.2.1.toNat ++ le 8 e.2.2.toNat)).flatten

/-- The group key of a single-entry set: one for each point, beyond every task's module groups. -/
def singleGroup (idx : Nat) : Nat := 2 ^ 32 + idx

/-- An accepted write of an OUTPUT-routed point from another writer than a hand-off: a request of one entry with a lifetime
of 1 s (R305, R306). -/
def Chip.singleOut (m : Chip) (tag : BitVec 40) (r : Route) (value second : DWord) : Chip :=
  m.txAccept { kind := .output, station := r.station, payload := ioOutput r.module [(r.chan, value, second)],
               group := singleGroup (tagIdx tag), tag := tag.toNat, since := m.monoNs, life := 1000000000 }

/-- The enabled LEAGUE station of a device number. -/
def Chip.leagueSta (m : Chip) (dev : Nat) : Option Nat :=
  m.stations.find? (fun n => (m.staEnt n).league && (m.staEnt n).dev == dev)

/-- The deadline of a league transaction: TXN_CTL.LG_DEADLINE in ms, where 0 acts as 100. -/
def Chip.lgDeadline (m : Chip) : Nat :=
  let v := m.get R.TXN_CTL_LG_DEADLINE
  m.monoNs + (if v = 0 then 100 else v) * 1000000

/-- Pass an access to another device's tag to the engine as a league transaction (R35). With no station of that device the code
is a free value (notes/assumptions/21.md). -/
def Chip.league (m : Chip) (kind : TxKind) (tag : BitVec 40) (payload : List Byte) (port : Option Nat) : Chip :=
  match m.leagueSta (tagDev tag) with
  | some n => m.txAccept { kind := kind, station := n, deadline := m.lgDeadline, payload := payload, reqPort := port }
  | none =>
    let (v, m1) := m.fresh
    m1.txReport { kind := kind, station := 0, reqPort := port } (v.extractLsb' 0 16)

/-! ### Stations coming up (R302) -/

/-- A station comes UP: the engine sends it HELLO and after that the latest held set of each module group whose lifetime has
not ended, and posts STATION_UP. -/
def Chip.staUp (m : Chip) (n : Nat) : Chip :=
  let s := m.sta n
  if s.up then m else
  let mine := m.txn.held.filter (fun h => h.station == n && !h.expired)
  let m1 := m.setSta n { s with up := true }
  let m2 := m1.withTxn { m1.txn with held := m1.txn.held.filter (fun h => h.station != n) }
  let m3 := m2.txAccept { kind := .hello, station := n, payload := le 8 m.now ++ le 4 0 }
  let back := fun (h : HeldOut) => ({ kind := .output, station := n, payload := h.payload, group := h.group, tag := h.tag,
                                      since := h.since, life := h.life } : Tx)
  let m4 := mine.foldl (fun a h => a.txAccept (back h)) m3
  m4.post (ev 6 0x0801 0 n 0 (le 4 mine.length))

/-- Disable of a port that carries a station: its transactions in SENT or RETRY end with CANCELLED_DISABLE and it goes DOWN
(R300). -/
def Chip.staCancel (m : Chip) (n : Nat) : Chip :=
  let mine := m.txn.txs.filter (fun t => t.station == n && t.inFlight)
  (mine.foldl (fun a t => a.txDone t CC.cancelled) m).staDown n 2

/-- Disable of a port: every enabled station behind it. -/
def Chip.portCancel (m : Chip) (medium port : Nat) : Chip :=
  (m.stations.filter (fun n => (m.staEnt n).medium == medium && (m.staEnt n).port == port)).foldl Chip.staCancel m

end Sys2Proof.Machine
end

