-- ==== Sys2Proof/Machine/Points.lean ====
section
/-! DEFINITION. The point store (chapter 2): the record, admission and arbitration of writes, quality and supervision, change
detection, forces and substitutions, pair and CRC integrity, the commit overlay, bindings, and the access ports. -/

namespace Sys2Proof.Machine

open Sys2Proof

/-! ### The record (Tables 2-2 to 2-4) -/

/-- Record bytes 0 to 59. -/
def PointRec.body (r : PointRec) : List Byte :=
  le 8 r.value.toNat ++ le 8 r.second.toNat ++ le 8 r.stamp.toNat ++ le 2 r.quality.toNat ++ le 2 r.flags.toNat ++
  le 4 r.seq.toNat ++ le 4 r.desc.toNat ++ le 4 r.route.toNat ++ le 8 r.prev.toNat ++ le 4 r.chg.toNat ++
  le 2 r.supp.toNat ++ le 2 r.dead.toNat ++ le 4 r.gen.toNat

/-- The record with the CRC of its other bytes. -/
def PointRec.withCrc (r : PointRec) : PointRec := { r with crc := crc32c r.body }

/-- Whether the record's CRC verifies (R50). -/
def PointRec.intact (r : PointRec) : Bool := r.crc == crc32c r.body

/-- The 64-byte image. -/
def PointRec.image (r : PointRec) : List Byte := r.body ++ le 4 r.crc.toNat

/-- The record of an unbound point: zero but quality ABSENT and the CRC over bytes 0 to 59 (R42). -/
def unboundRec : PointRec :=
  { value := 0, second := 0, stamp := 0, quality := 0xC000, flags := 0, seq := 0, desc := 0, route := 0, prev := 0, chg := 0,
    supp := 0, dead := 0, gen := 0, crc := 0xB94144E9 }

namespace Q

/-- Quality reasons (Table 2-4) and states (R38). -/
def clamped : Nat := 10
def nan : Nat := 9
def init : Nat := 8
def commFault : Nat := 7
def sourceLost : Nat := 6
def underrange : Nat := 5
def overrange : Nat := 4
def pairFault : Nat := 3
def substituted : Nat := 2
def forced : Nat := 1
def stale : Nat := 0

def state (q : Half) : Nat := q.toNat / 2 ^ 14
def has (q : Half) (b : Nat) : Bool := q.getLsbD b

/-- Add a reason and make the state at least `st` (R39). -/
def add (q : Half) (b st : Nat) : Half := BitVec.ofNat 16 (max (state q) st * 2 ^ 14 + (q.toNat % 2 ^ 14 ||| 2 ^ b))

/-- Remove reasons by mask. -/
def clear (q : Half) (mask : Half) : Half := q &&& ~~~mask

end Q

/-- Record flags (Table 2-3). -/
def PointRec.flag (r : PointRec) (b : Nat) : Bool := r.flags.getLsbD b
def PointRec.setFlag (r : PointRec) (b : Nat) (v : Bool) : PointRec :=
  { r with flags := BitVec.ofNat 16 (setBits r.flags.toNat b b (bit v)) }
def PointRec.srcCode (r : PointRec) : Nat := bits r.flags.toNat 5 3
def PointRec.setSrc (r : PointRec) (c : Nat) : PointRec := { r with flags := BitVec.ofNat 16 (setBits r.flags.toNat 5 3 c) }

/-- The SRC code of a write source (Table 2-3). -/
def Src.code : Src → Nat
  | .field => 0 | .unit => 1 | .host => 2 | .program => 3 | .plan => 4

/-- The number of a port in POINT_RANGE (Table 2-10). -/
def Port.code : Port → Nat
  | .txn => 0 | .scan => 1 | .units => 2 | .access => 3

/-! ### Records by index -/

def Chip.pt (m : Chip) (i : Nat) : PointRec := AMap.get unboundRec m.pts.recs i

def Chip.setRec (m : Chip) (i : Nat) (r : PointRec) : Chip :=
  m.withPts { m.pts with recs := AMap.put unboundRec i r m.pts.recs }

/-- Write an update of a record: the next generation, then the CRC (R50). An active sends the update to its twin (R374). -/
def Chip.store (m : Chip) (i : Nat) (r : PointRec) : Chip :=
  let r1 := PointRec.withCrc { r with gen := r.gen + 1 }
  (m.setRec i r1).stream "POINT" (i :: r1.image.map BitVec.toNat)

/-- The descriptor a record names. -/
def Chip.descOfRec (m : Chip) (r : PointRec) : Desc := m.desc r.desc.toNat

/-- The force-table entry of a point. -/
def Chip.force (m : Chip) (i : Nat) : Option Force := assoc m.pts.forces i

/-- Set the force table; POINT_FORCE_USED counts its entries. -/
def Chip.setForces (m : Chip) (l : List (Nat × Force)) : Chip :=
  (m.withPts { m.pts with forces := l }).put R.POINT_FORCE_USED_USED l.length

/-- The diagnostic counters of the store: 0 PAIR, 1 CRC, 2 RANGE, 3 REJECT, with SAT flags in POINT_STAT. -/
def Chip.ptCount (m : Chip) (i : Nat) : Chip :=
  m.count ⟨R.POINT_PAIR_CNT.addr + 4 * i, 31, 0⟩ (some ⟨R.POINT_STAT.addr, i, i⟩)

/-! ### Change detection (R48) -/

/-- a − b as the type reads both. -/
def Desc.diff (d : Desc) (a b : DWord) : Int :=
  if d.signed then a.toInt - b.toInt else (a.toNat : Int) - (b.toNat : Int)

/-- The sign of new − reference: 1 rising, 2 falling, 0 neither. -/
def Desc.direction (d : Desc) (new ref : DWord) : Nat :=
  if d.isFp then (if Fp.gt new ref then 1 else if Fp.gt ref new then 2 else 0)
  else if 0 < d.diff new ref then 1 else if d.diff new ref < 0 then 2 else 0

/-- Whether the value differs from the reference under mode EXACT. -/
def Desc.differs (d : Desc) (new ref : DWord) : Bool :=
  if d.isFp then (if Fp.isNan new || Fp.isNan ref then Fp.isNan new != Fp.isNan ref else !Fp.eq new ref) else new != ref

/-- Whether a new value is a change against the reference under the deadband mode (R48); BOOL and BITS64 act as EXACT. -/
def Desc.changes (d : Desc) (new ref : DWord) : Bool :=
  if d.mode = 3 then true
  else if d.mode = 0 ∨ d.typ = 1 ∨ d.typ = 7 then d.differs new ref
  else if d.mode = 1 then
    (if d.isFp then Fp.gt (Fp.absolute (Fp.fsub new ref)) d.band else decide (d.band.toNat < (d.diff new ref).natAbs))
  else if d.mode = 2 then
    (if Fp.isZero ref then !Fp.isZero new
     else Fp.gt (Fp.absolute (Fp.fsub new ref)) (Fp.fmul d.band (Fp.absolute ref)))
  else d.differs new ref

/-- The reference, counter, flags and direction after an update: `old` is the record before it, `new` carries the new value,
quality, stamp and source. -/
def Desc.detect (d : Desc) (old new : PointRec) : PointRec × Bool :=
  let byValue := d.changes new.value old.prev
  if byValue || new.quality != old.quality then
    let c := if old.chg = 0xFFFFFFFF then old.chg else old.chg + 1
    let r := { new with prev := new.value, chg := c, supp := 0,
                        dead := BitVec.ofNat 16 (if byValue then d.direction new.value old.prev else 0) }
    ((r.setFlag 1 true).setFlag 7 (old.flag 7 || c == 0xFFFFFFFF), true)
  else ({ new with supp := if old.supp = 0xFFFF then old.supp else old.supp + 1 }, false)

/-- POINT_QUALITY: NOTICE, or WARNING when the new state is BAD (Table 2-10). -/
def qualityEvent (tag : BitVec 40) (old new : Half) : Event :=
  ev 5 0x1204 (if Q.state new = 2 then 2 else 1) 0 tag.toNat (le 2 old.toNat ++ le 2 new.toNat)

def changeEvent (tag : BitVec 40) (r : PointRec) : Event :=
  ev 5 0x1203 0 0 tag.toNat (le 8 r.value.toNat ++ le 2 r.quality.toNat ++ le 2 r.flags.toNat ++ le 4 r.chg.toNat)

/-- Post an event at a league time of its own or now. -/
def Chip.postWhen (m : Chip) (t : Option DWord) (e : Event) : Chip :=
  match t with
  | some t => m.postAt t e
  | none => m.post e

/-- Answer every subscriber of a tag with an LG_UPDATE (R304). -/
def Chip.offerSubs (m : Chip) (tag : BitVec 40) (image : List Byte) : Chip :=
  (m.txn.subs.filter (fun s => s.tag == tag.toNat)).foldl
    (fun a s => if (a.sta s.station).up then a.sendPlain s.station 0x43 1 (le 8 tag.toNat ++ image) else a) m

/-- Finish an update: change detection, the store of the record, POINT_QUALITY and then POINT_CHANGE as the descriptor asks
(R55), and the offer of a change to subscribers. -/
def Chip.settle (m : Chip) (i : Nat) (d : Desc) (old new : PointRec) (t : Option DWord) : Chip :=
  let (r, changed) := d.detect old new
  let m1 := m.store i r
  let tag := m.tagOf i
  let m2 := if d.evQuality && r.quality != old.quality then m1.postWhen t (qualityEvent tag old.quality r.quality) else m1
  let m3 := if changed && d.evChange then m2.postWhen t (changeEvent tag r) else m2
  if changed then m3.offerSubs tag (m1.pt i).image else m3

/-! ### Critical pairs (R49) -/

/-- Whether a pair is intact. -/
def pairOk (v c : DWord) : Bool := c == ~~~v

/-- Mark a record BAD with PAIR_FAULT; its stored bytes are kept. -/
def Chip.pairMark (m : Chip) (i : Nat) (d : Desc) (r : PointRec) (reject : Bool) : Chip :=
  m.settle i d r ({ r with quality := Q.add r.quality Q.pairFault 2 }.setFlag 6 (reject || r.flag 6)) none

/-- Post PAIR_FAULT and count it. -/
def Chip.pairEvent (m : Chip) (i : Nat) (v c : DWord) (incoming : Nat) : Chip :=
  (m.post (ev 5 0x1201 3 0 (m.tagOf i).toNat (le 8 v.toNat ++ le 8 c.toNat ++ le 1 incoming) CC.pairFault)).ptCount 0

/-- A touch of a critical point's stored pair: a fault is marked, posted and counted once, until it is mended (R49, R55). -/
def Chip.touch (m : Chip) (i : Nat) : Chip :=
  let r := m.pt i
  let d := m.descOfRec r
  if r.desc != 0 && d.ok && d.critical && !pairOk r.value r.second && !Q.has r.quality Q.pairFault then
    (m.pairMark i d r false).pairEvent i r.value r.second 0
  else m

/-! ### Bindings (R42) -/

/-- A fresh record of a binding: value 0, BAD with INIT, the apply instant as stamp; `gen` is the generation it keeps. -/
def freshRec (d : Desc) (desc route : Nat) (stamp : DWord) (untrusted : Bool) (gen seq : Word) : PointRec :=
  { value := 0, second := if d.critical then 0xFFFFFFFFFFFFFFFF else 0, stamp := stamp, quality := 0x8100,
    flags := BitVec.ofNat 16 (bit d.critical + 4 * bit untrusted), seq := seq, desc := BitVec.ofNat 32 desc,
    route := BitVec.ofNat 32 route, prev := 0, chg := 0, supp := 0, dead := 0, gen := gen, crc := 0 }

/-- Remove a point's force-table entry. -/
def Chip.dropForce (m : Chip) (i : Nat) : Chip := m.setForces (unassoc m.pts.forces i)

/-- Remove a point's overlay entry. -/
def Chip.dropOverlay (m : Chip) (i : Nat) : Chip :=
  m.withPts { m.pts with overlay := m.pts.overlay.filter (fun o => o.idx != i) }

/-- Bind, rebind or unbind a point at a commit's apply edge: `oldTyp` is the type of the descriptor it had. A rebind that changes
the quality posts POINT_QUALITY where the new descriptor asks (R55); a force ends where the new descriptor is not FORCEABLE. -/
def Chip.bindPoint (m : Chip) (i oldTyp : Nat) : Chip :=
  let (di, ri) := m.bindOf i
  let r := m.pt i
  let d := m.desc di
  let m1 := if (di = 0 || !d.forceable) && (m.force i).isSome then m.dropForce i else m
  if di = 0 then (m1.dropOverlay i).setRec i unboundRec
  else if r.desc != 0 && oldTyp == d.typ then
    m1.store i ({ r with desc := BitVec.ofNat 32 di, route := BitVec.ofNat 32 ri }.setFlag 0 d.critical)
  else
    let m2 := (m1.dropOverlay i).store i (freshRec d di ri m.stamp (!m.trusted) r.gen 0)
    if r.desc != 0 && d.evQuality && r.quality != 0x8100 then m2.post (qualityEvent (m.tagOf i) r.quality 0x8100) else m2

/-- Rebuild a record whose CRC failed from the binding table, with the next generation (R50). -/
def Chip.rebuild (m : Chip) (i : Nat) : Chip :=
  let (di, ri) := m.bindOf i
  let r := m.pt i
  let m1 := if di = 0 then m.setRec i unboundRec
    else m.store i (freshRec (m.desc di) di ri m.stamp (!m.trusted) r.gen 0)
  (m1.post (ev 5 0x1202 3 0 (m.tagOf i).toNat (le 4 r.gen.toNat))).ptCount 1

/-- The CRC check of a read, a sweep visit or a scrub visit. -/
def Chip.crcCheck (m : Chip) (i : Nat) : Chip := if (m.pt i).intact then m else m.rebuild i

/-! ### Supervision (R46) -/

/-- A record with the quality that its age calls for: STALE above F, SOURCE_LOST above L, or the substitute. -/
def Desc.supervise (d : Desc) (now : Nat) (r : PointRec) : PointRec :=
  let age : Int := (now : Int) - r.stamp.toNat
  if d.fresh = 0 then r
  else if (d.loss : Int) * 1000000 < age then
    let q := Q.add (Q.add r.quality Q.stale 1) Q.sourceLost 2
    if d.autoSubst then
      { r with value := d.sub, second := d.subc,
               quality := BitVec.ofNat 16 (2 ^ 14 + (q.toNat % 2 ^ 14 ||| 2 ^ Q.substituted)) }.setSrc 6
    else { r with quality := q }
  else if (d.fresh : Int) * 1000000 < age then { r with quality := Q.add r.quality Q.stale 1 }
  else r

/-- Apply supervision to a stored record: an update where the age has changed it. Forced points are not supervised. -/
def Chip.superviseRec (m : Chip) (i : Nat) : Chip :=
  let r := m.pt i
  let d := m.descOfRec r
  if r.desc != 0 && d.ok && (m.force i).isNone then
    (let r1 := d.supervise m.now r
     if r1 = r then m else m.settle i d r r1 none)
  else m

/-! ### The commit overlay (R66) -/

def Chip.overlayOf (m : Chip) (i : Nat) : Option Overlay := m.pts.overlay.find? (fun o => o.idx == i)

/-- The record as readers see it: an unfolded entry's value, second value, quality, source and stamp in place of its own. -/
def Overlay.over (o : Overlay) (r : PointRec) : PointRec :=
  ({ r with value := o.value, second := o.second, quality := o.quality, stamp := o.stamp }.setSrc Src.plan.code).setFlag 2
    o.untrusted

/-- Fold a point's entry into its record: change detection, counters and events at the apply instant. -/
def Chip.fold (m : Chip) (i : Nat) : Chip :=
  match m.overlayOf i with
  | some o =>
    let r := m.pt i
    let m1 := m.dropOverlay i
    if r.desc = 0 then m1 else m1.settle i (m1.descOfRec r) r ((o.over r).setFlag 6 false) (some o.stamp)
  | none => m

/-! ### Admission (R43) -/

/-- A value and its second word widened to the 64-bit form of the type (R37). A critical pair of a 32-bit type is widened without
forming the complement again; a non-critical point keeps a secondary value only where the descriptor sets SECONDARY. -/
def Desc.widen (d : Desc) (v c : DWord) : DWord × DWord :=
  let sx := fun (x : DWord) => (x.extractLsb' 0 32).signExtend 64
  let zx := fun (x : DWord) => (x.extractLsb' 0 32).zeroExtend 64
  let v1 := if d.typ = 2 then sx v else if d.typ = 3 then zx v else v
  let c1 := if !d.critical then (if d.secondary then c else 0)
    else if d.typ = 2 then sx c else if d.typ = 3 then zx c ||| 0xFFFFFFFF00000000 else c
  (v1, c1)

/-- Whether a lies below b as the type reads both. -/
def Desc.below (d : Desc) (a b : DWord) : Bool := if d.isFp then Fp.lt a b && !Fp.isNan a && !Fp.isNan b else decide (d.diff a b < 0)

/-- The value and quality that an applied write stores: range, clamp and NaN (R43 check 7). -/
def Desc.judge (d : Desc) (v : DWord) (q : Half) : DWord × Half :=
  if d.isFp && Fp.isNan v then (v, Q.add q Q.nan 2)
  else if !d.range then (v, q)
  else if d.below v d.lo then
    (if d.clamp then (d.lo, Q.add (Q.add q Q.underrange 1) Q.clamped 1) else (v, Q.add q Q.underrange 1))
  else if d.below d.hi v then
    (if d.clamp then (d.hi, Q.add (Q.add q Q.overrange 1) Q.clamped 1) else (v, Q.add q Q.overrange 1))
  else (v, q)

/-- The quality a write starts from: the source's for FIELD, less the reasons that a write clears; GOOD for the others (R39), but for a UNIT write what the unit's chapter lays down. A
refreshed mirror takes the remote quality unchanged (R35). -/
def PtWrite.start (w : PtWrite) : Half :=
  match w.src with
  | .field => if w.mirror then w.quality else Q.clear w.quality 0x3949
  | .unit => w.quality
  | _ => 0

/-- Whether a force or substitution holds writes of a source: a substitution holds FIELD only (R44, R45). -/
def Force.holds (f : Force) (s : Src) : Bool := !f.subst || decide (s = .field)

/-- What the checks of R43 say of a write, with the widened value and second word. -/
inductive Admit where
  | refuse (code : Half)
  | pair
  | hold (f : Force)
  | apply (v c : DWord)
deriving DecidableEq, Repr

/-- Checks 3 to 7 of R43 on a bound point. -/
def Chip.admitWrite (m : Chip) (i : Nat) (r : PointRec) (d : Desc) (w : PtWrite) : Admit :=
  let (v, c) := d.widen w.value w.second
  if !d.ok then .refuse CC.checkFailed
  else if !d.mask.testBit w.src.code then .refuse CC.checkFailed
  else if w.src = .program ∧ d.owner ≠ 0xFFFF ∧ d.owner ≠ w.task then .refuse CC.checkFailed
  else if d.critical && !pairOk v c then .pair
  else if w.src = .field ∧ r.srcCode = 0 ∧ !Q.has r.quality Q.init ∧ !newer w.seq r.seq then .refuse CC.duplicate
  else match m.force i with
    | some f => if f.holds w.src then .hold f else .apply v c
    | none => .apply v c

/-- The stamp of a write: the source's own for FIELD, the apply instant for PLAN, else the edge's league time (R41). -/
def Chip.writeStamp (m : Chip) (w : PtWrite) : DWord × Bool :=
  match w.src with
  | .field => (w.stamp, w.untrusted)
  | .plan => (w.stamp, w.untrusted)
  | _ => (m.stamp, !m.trusted)

/-- Apply an admitted write to a record (R43 check 7, R39, R41): the record before change detection. -/
def Chip.written (m : Chip) (r : PointRec) (d : Desc) (w : PtWrite) (v c : DWord) : PointRec :=
  let (v1, q) := d.judge v w.start
  let (t, u) := m.writeStamp w
  (((({ r with value := v1, second := (if d.critical then (if v1 = v then c else ~~~v1) else c), stamp := t, quality := q,
                seq := (if w.src = Src.field then w.seq else r.seq) }).setSrc w.src.code).setFlag 2 u).setFlag 6 false).setFlag 8 false

/-- Refuse a write of a bound point: REJECT_LAST, and POINT_REJECT_CNT (R43). -/
def Chip.refuseWrite (m : Chip) (i : Nat) (r : PointRec) : Chip := (m.store i (r.setFlag 6 true)).ptCount 3

/-- Store an admitted write in the point's force-table entry (R44). -/
def Chip.holdWrite (m : Chip) (i : Nat) (r : PointRec) (f : Force) (w : PtWrite) (v c : DWord) : Chip :=
  let (t, u) := m.writeStamp w
  let h : HeldWrite := { src := w.src, value := v, second := c, quality := w.quality, stamp := t, untrusted := u, seq := w.seq,
                         mirror := w.mirror }
  (m.setForces (reassoc m.pts.forces i { f with held := some h })).store i ((r.setFlag 8 true).setFlag 6 false)

/-- An out-of-range access: counted and posted (R34). -/
def Chip.rangeFault (m : Chip) (port : Port) (tag : BitVec 40) : Chip :=
  (m.ptCount 2).post (ev 5 0x1200 2 0 tag.toNat (le 1 port.code) CC.absent)

/-- The request that an applied write of an OUTPUT-routed point makes, a hand-off's own apart (R305). -/
def Chip.routeOut (m : Chip) (i : Nat) (w : PtWrite) : Chip :=
  let r := m.pt i
  let rt := m.route r.route.toNat
  if !w.handoff && rt.output then
    m.singleOut (m.tagOf i) rt r.value (if (m.descOfRec r).critical then r.second else 0)
  else m

/-- A write to a local point in range: the checks of R43 from check 2, after the fold of an overlay entry (R66) and the touch of
the stored pair (R49). -/
def Chip.writeLocal (m : Chip) (i : Nat) (w : PtWrite) : Half × Chip :=
  let m1 := (m.fold i).touch i
  let r := m1.pt i
  if r.desc = 0 then (CC.checkFailed, m1.ptCount 3) else
  let d := m1.descOfRec r
  match m1.admitWrite i r d w with
  | .refuse code => (code, m1.refuseWrite i r)
  | .pair =>
    let (v, c) := d.widen w.value w.second
    (CC.pairFault, (m1.pairMark i d r true).pairEvent i v c 1)
  | .hold f =>
    let (v, c) := d.widen w.value w.second
    (CC.ok, m1.holdWrite i r f w v c)
  | .apply v c =>
    let m2 := if (m1.force i).isSome then m1.dropForce i else m1
    (CC.ok, (m2.settle i d r (m2.written r d w v c) none).routeOut i w)

/-- Whether the store takes requests (R52). -/
def Chip.ptReady (m : Chip) : Bool := m.on R.POINT_STAT_READY

/-- A write of a local or out-of-range tag, with its completion code. -/
def Chip.ptWrite (m : Chip) (port : Port) (w : PtWrite) : Half × Chip :=
  if !m.ptReady then (CC.busy, m)
  else if m.outOfRange w.tag then (CC.absent, m.rangeFault port w.tag)
  else m.writeLocal (tagIdx w.tag) w

/-! ### Reads (R34, R46, R49, R50) -/

/-- A read of a local point in range: CRC check, pair touch, supervision; then the image, through an overlay entry. A broken pair
reads as value and complement 0 with PAIR_FAULT; a bad descriptor CRC reads BAD with INIT. -/
def Chip.readLocal (m : Chip) (i : Nat) : Half × PointRec × Chip :=
  let m1 := m.crcCheck i
  let m2 := if (m1.overlayOf i).isSome then m1 else (m1.touch i).superviseRec i
  let r := m2.pt i
  let d := m2.descOfRec r
  let seen := match m2.overlayOf i with
    | some o => d.supervise m2.now (o.over r)
    | none => r
  if r.desc = 0 then (CC.ok, r, m2)
  else if !d.ok then (CC.ok, PointRec.withCrc { seen with quality := 0x8100 }, m2)
  else if d.critical && !pairOk seen.value seen.second then
    (CC.pairFault, PointRec.withCrc { seen with value := 0, second := 0 }, m2)
  else (CC.ok, if (m2.overlayOf i).isSome then seen.withCrc else seen, m2)

/-- A read of a local or out-of-range tag; before READY it completes with BUSY and returns nothing (R52). -/
def Chip.ptRead (m : Chip) (port : Port) (tag : BitVec 40) : Half × Option PointRec × Chip :=
  if !m.ptReady then (CC.busy, none, m)
  else if m.outOfRange tag then (CC.absent, some unboundRec, m.rangeFault port tag)
  else let (c, r, m1) := m.readLocal (tagIdx tag); (c, some r, m1)

/-! ### Forces and substitutions (R44, R45, R54) -/

/-- FORCE or SUBST of a local point (R44): the code and the chip on the edge where it applies. -/
def Chip.forcePoint (m : Chip) (i : Nat) (subst good : Bool) (value second : DWord) : Half × Chip :=
  let m1 := m.fold i
  let r := m1.pt i
  let d := m1.descOfRec r
  let (v, c) := d.widen value second
  if r.desc = 0 || !d.ok || !d.forceable then (CC.checkFailed, m)
  else if (m1.force i).isNone && decide (4096 ≤ m1.pts.forces.length) then (CC.overflow, m)
  else if d.critical && !pairOk v c then (CC.pairFault, m)
  else
    let old := m1.force i
    if subst && (match old with
        | some f => !f.subst && (match f.held with
          | some h => decide (h.src ≠ .field)
          | none => false)
        | none => false) then (CC.checkFailed, m)
    else
      let f : Force := match old with
        | some f => { f with subst := subst }
        | none => { subst := subst, value := r.value, second := r.second, quality := r.quality, stamp := r.stamp,
                    flags := r.flags }
      let st := if good && !subst then 0 else 1
      let q : Half := BitVec.ofNat 16 (st * 2 ^ 14 + 2 ^ (if subst then Q.substituted else Q.forced))
      let r1 := (({ r with value := v, second := c, quality := q, stamp := m.stamp }.setSrc (if subst then 6 else 5)).setFlag 2
        (!m.trusted))
      (CC.ok, (m1.setForces (reassoc m1.pts.forces i f)).settle i d r r1 none)

/-- UNFORCE or UNSUBST of a local point: the held write is taken as if written now, or the saved value comes back (R44). A command
of the other kind completes with CHECK_FAILED, one on a point that is not held with OK (R54). -/
def Chip.unforcePoint (m : Chip) (i : Nat) (subst : Bool) : Half × Chip :=
  match m.force i with
  | none => (CC.ok, m)
  | some f =>
    if f.subst != subst then (CC.checkFailed, m) else
    let m1 := m.dropForce i
    let r := m1.pt i
    let d := m1.descOfRec r
    match f.held with
    | some h =>
      let w : PtWrite := { tag := m.tagOf i, src := h.src, value := h.value, second := h.second, quality := h.quality,
                           stamp := h.stamp, untrusted := h.untrusted, seq := h.seq, mirror := h.mirror }
      (CC.ok, (m1.settle i d r (m1.written r d w h.value h.second) none).routeOut i w)
    | none =>
      let r1 := ({ r with value := f.value, second := f.second, quality := f.quality, stamp := f.stamp }.setSrc
        (bits f.flags.toNat 5 3)).setFlag 2 (f.flags.getLsbD 2)
      (CC.ok, m1.settle i d r (r1.setFlag 8 false) none)

/-- CLRCHG: clear the CHG flag of a bound point (R48, R128). -/
def Chip.clearChg (m : Chip) (i : Nat) : Chip :=
  let r := m.pt i
  if r.desc = 0 then m else m.store i (r.setFlag 1 false)

/-! ### The apply edge and the fold (R64, R66) -/

/-- A point write of a set on its apply edge: true where R43 refuses it (COMMIT_RES.PT_REJ). A write that passes becomes an overlay
entry, replacing an unfolded one; one to a forced point is held. -/
def Chip.planWrite (m : Chip) (w : PtWrite) : Bool × Chip :=
  let w1 := { w with src := .plan, stamp := m.stamp, untrusted := !m.trusted }
  let i := tagIdx w.tag
  if m.outOfRange w.tag then (true, m.rangeFault .units w.tag) else
  let r := m.pt i
  if r.desc = 0 then (true, m.ptCount 3) else
  let d := m.descOfRec r
  match m.admitWrite i r d w1 with
  | .refuse _ => (true, m.refuseWrite i r)
  | .pair =>
    let (v, c) := d.widen w.value w.second
    (true, (m.pairMark i d r true).pairEvent i v c 1)
  | .hold f =>
    let (v, c) := d.widen w.value w.second
    (false, m.holdWrite i r f w1 v c)
  | .apply v c =>
    let m1 := if (m.force i).isSome then m.dropForce i else m
    let r1 := m1.written r d w1 v c
    let o : Overlay := { idx := i, value := r1.value, second := r1.second, quality := r1.quality, stamp := r1.stamp,
                         untrusted := !m.trusted }
    let m2 := m1.withPts { m1.pts with overlay := m1.pts.overlay.filter (fun (x : Overlay) => x.idx != i) ++ [o] }
    let rt := m2.route r.route.toNat
    (false, if rt.output then m2.singleOut (m2.tagOf i) rt r1.value (if d.critical then r1.second else 0) else m2)

/-- The background fold takes the oldest entry of the overlay. -/
def Chip.foldNext (m : Chip) : Chip :=
  match m.pts.overlay with
  | o :: _ => m.fold o.idx
  | [] => m

/-! ### The background engine (R51) -/

/-- The next index of a kind above the last visited, wrapping to the lowest. -/
def nextVisit (l : List Nat) (last : Option Nat) : Option Nat :=
  match last with
  | none => l.head?
  | some a => (l.find? (fun i => decide (a < i))).or l.head?

def Chip.kindOf (m : Chip) (p : Desc → Bool) : List Nat :=
  m.pts.recs.filterMap (fun e => if e.2.desc != 0 && p (m.descOfRec e.2) then some e.1 else none)

/-- A sweep visit: CRC check and supervision of the next supervised point. -/
def Chip.sweep (m : Chip) : Chip :=
  if !m.ptReady || !m.on R.POINT_CFG_BG_EN || m.get R.POINT_BG_SWEEP_RATE == 0 then m else
  match nextVisit (m.kindOf (fun d => d.fresh != 0)) m.pts.sweepAt with
  | none => m
  | some i =>
    let m1 := m.withPts { m.pts with sweepAt := some i }
    let m2 := m1.crcCheck i
    if (m2.overlayOf i).isSome then m2 else (m2.touch i).superviseRec i

/-- A scrub visit: CRC check and pair check of the next critical point. -/
def Chip.scrub (m : Chip) : Chip :=
  if !m.ptReady || !m.on R.POINT_CFG_BG_EN || m.get R.POINT_BG_SCRUB_RATE == 0 then m else
  match nextVisit (m.kindOf Desc.critical) m.pts.scrubAt with
  | none => m
  | some i => ((m.withPts { m.pts with scrubAt := some i }).crcCheck i).touch i

/-! ### Access ports (R54) -/

/-- The tag in a port's TAG registers. -/
def Chip.accTag (m : Chip) (p : Nat) : BitVec 40 :=
  BitVec.ofNat 40 (m.get (R.POINT_ACC_TAG_LO p) + m.get (R.POINT_ACC_TAG_HI_TAG p) * 2 ^ 32)

/-- Data words 2k and 2k + 1. -/
def Chip.accPair (m : Chip) (p k : Nat) : DWord := m.get64 (R.POINT_ACC_DATA p (2 * k))

/-- Put a record image into the sixteen data words. -/
def Chip.accImage (m : Chip) (p : Nat) (image : List Byte) : Chip :=
  (List.range 16).foldl (fun a w => a.put (R.POINT_ACC_DATA p w) (fld image (4 * w) 4)) m

/-- A port operation on the tagged point: nothing while BUSY (R54), BUSY before READY (R52), the out-of-range reaction of R34, else
`local` on the point's index; an operation of another device's point goes to `remote`. -/
def Chip.accOp (m : Chip) (p : Nat) (here : Chip → Nat → Half × Chip) (there : Chip → Chip) : Chip :=
  let tag := m.accTag p
  if m.on (R.POINT_ACC_STAT_BUSY p) then m
  else if !m.ptReady then m.accDone p CC.busy
  else if m.outOfRange tag then (m.rangeFault .access tag).accDone p CC.absent
  else if m.local tag then (let (c, m1) := here m (tagIdx tag); m1.accDone p c)
  else there m

/-- An operation that another device's point does not know: FORCE and its kin act on local tags only. The code is a free value
(notes/assumptions/21.md). -/
def Chip.accFree (m : Chip) (p : Nat) : Chip := let (v, m1) := m.fresh; m1.accDone p (v.extractLsb' 0 16)

/-- READ fills the data words from one snapshot. -/
def Chip.accRead (m : Chip) (p : Nat) : Chip :=
  let tag := m.accTag p
  if !m.on (R.POINT_ACC_STAT_BUSY p) && m.ptReady && m.outOfRange tag then
    ((m.rangeFault .access tag).accImage p unboundRec.image).accDone p CC.absent
  else m.accOp p (fun a i => let (c, r, a1) := a.readLocal i; (c, a1.accImage p r.image))
    (fun a => (a.put (R.POINT_ACC_STAT_BUSY p) 1).league .lgRead tag (le 8 tag.toNat) (some p))

/-- WRITE is a HOST write of data words 0 to 3. -/
def Chip.accWrite (m : Chip) (p : Nat) : Chip :=
  let tag := m.accTag p
  let v := m.accPair p 0
  let c := m.accPair p 1
  m.accOp p (fun a i => a.writeLocal i { tag := tag, src := .host, value := v, second := c })
    (fun a => (a.put (R.POINT_ACC_STAT_BUSY p) 1).league .lgWrite tag (le 8 tag.toNat ++ le 8 v.toNat ++ le 8 c.toNat) (some p))

/-- FORCE and SUBST of a port. -/
def Chip.accForce (m : Chip) (p : Nat) (subst good : Bool) : Chip :=
  m.accOp p (fun a i => a.forcePoint i subst good (m.accPair p 0) (m.accPair p 1)) (fun a => a.accFree p)

/-- UNFORCE and UNSUBST of a port. -/
def Chip.accUnforce (m : Chip) (p : Nat) (subst : Bool) : Chip :=
  m.accOp p (fun a i => a.unforcePoint i subst) (fun a => a.accFree p)

/-- CLRCHG of a port. -/
def Chip.accClear (m : Chip) (p : Nat) : Chip :=
  m.accOp p (fun a i => (CC.ok, (a.fold i).clearChg i)) (fun a => a.accFree p)

/-- A write to POINT_ACC_CMD: the operation its OP names; others complete with CHECK_FAILED. -/
def Chip.accCmd (m : Chip) (p : Nat) (w : Word) : Chip :=
  match fieldOf (R.POINT_ACC_CMD_OP p) w with
  | 1 => m.accRead p
  | 2 => m.accWrite p
  | 3 => m.accForce p false (w.getLsbD 8)
  | 4 => m.accUnforce p false
  | 5 => m.accForce p true false
  | 6 => m.accUnforce p true
  | 7 => m.accClear p
  | _ => if m.on (R.POINT_ACC_STAT_BUSY p) then m else m.accDone p CC.checkFailed

/-! ### Commands -/

/-- POINT_READ (R46): the record is answered to the requester. A tag of another device goes to the transaction engine from an access
port or a unit (R35). -/
def execPointRead (port : Port) (tag : BitVec 40) (s : State) : Host.Outcome State Fault Refusal :=
  s.act (fun m =>
    if m.ptReady && !m.outOfRange tag && !m.local tag then m.league .lgRead tag (le 8 tag.toNat) none
    else let (c, r, m1) := m.ptRead port tag; m1.emit (.point c r))

/-- POINT_WRITE (R43): the completion code is answered to the requester. -/
def execPointWrite (port : Port) (w : PtWrite) (s : State) : Host.Outcome State Fault Refusal :=
  s.act (fun m =>
    if m.ptReady && !m.outOfRange w.tag && !m.local w.tag then
      m.league .lgWrite w.tag (le 8 w.tag.toNat ++ le 8 w.value.toNat ++ le 8 w.second.toNat) none
    else let (c, m1) := m.ptWrite port w; m1.emit (.point c none))

/-- ACC_READ (R54). -/
def execAccRead (p : Fin 3) (s : State) : Host.Outcome State Fault Refusal := s.act (·.accRead p.val)
/-- ACC_WRITE (R54). -/
def execAccWrite (p : Fin 3) (s : State) : Host.Outcome State Fault Refusal := s.act (·.accWrite p.val)
/-- FORCE (R44): `good` is QGOOD. -/
def execForce (p : Fin 3) (good : Bool) (s : State) : Host.Outcome State Fault Refusal := s.act (·.accForce p.val false good)
/-- UNFORCE (R54). -/
def execUnforce (p : Fin 3) (s : State) : Host.Outcome State Fault Refusal := s.act (·.accUnforce p.val false)
/-- SUBST (R45). -/
def execSubst (p : Fin 3) (s : State) : Host.Outcome State Fault Refusal := s.act (·.accForce p.val true false)
/-- UNSUBST (R54). -/
def execUnsubst (p : Fin 3) (s : State) : Host.Outcome State Fault Refusal := s.act (·.accUnforce p.val true)
/-- CLRCHG (R48, R128). -/
def execClrchg (p : Fin 3) (s : State) : Host.Outcome State Fault Refusal := s.act (·.accClear p.val)
/-- SWEEP_VISIT (R51). -/
def execSweepVisit (s : State) : Host.Outcome State Fault Refusal := s.act Chip.sweep
/-- SCRUB_VISIT (R51). -/
def execScrubVisit (s : State) : Host.Outcome State Fault Refusal := s.act Chip.scrub

/-- The end of the clearing (R52): where it runs, every record below the capacity is unbound, the force table is empty, and READY sets. -/
def Chip.clearDone (m : Chip) : Chip :=
  if m.on R.POINT_STAT_INIT_BUSY then
    (((m.withPts { m.pts with recs := [], overlay := [], sweepAt := none, scrubAt := none }).setForces []).put
      R.POINT_STAT_INIT_BUSY 0).put R.POINT_STAT_READY 1
  else m

/-- OVERLAY_FOLD (R66). -/
def execOverlayFold (s : State) : Host.Outcome State Fault Refusal := s.act Chip.foldNext

end Sys2Proof.Machine
end

