-- ==== Sys2Proof/Machine/Image.lean ====
section
/-! DEFINITION. Program images (R492, R111, R161, R171): where they stand, when one is valid, its instance table, and the memory
regions of a running program (R86, R87). -/

namespace Sys2Proof.Machine

open Sys2Proof

/-- Bytes of the SCAN_IMG page of an image. -/
def imgPage : Nat := 4194304

/-- The bytes of image slot p that are not 0. -/
def Chip.imgCells (m : Chip) (p : Nat) : List (Nat × Byte) :=
  m.mem.filterMap (fun e =>
    let off := e.1 % 2 ^ 40
    if e.1 / 2 ^ 40 = (Space.win Win.scanImg).idx ∧ off / imgPage = p then some (off % imgPage, e.2) else none)

/-- Whether the X bit of an instruction word is set (R109). -/
def xBit (w : Word) : Bool := w.getLsbD 26

/-- The tags of code words: true for an extension word (R111). -/
def extTags : Bool → List Word → List Bool
  | _, [] => []
  | true, _ :: t => true :: extTags false t
  | false, w :: t => false :: extTags (xBit w) t

/-- The tagging of an image's code. -/
def Image.tags (g : Image) : List Bool := extTags false g.code

/-- Code size in bytes. -/
def Image.codeSize (g : Image) : Nat := 4 * g.code.length

/-- Whether a code address names an instruction word. -/
def Image.isInstr (g : Image) (a : Nat) : Bool := a % 4 == 0 && (g.tags[a / 4]?) == some false

/-- Whether the last instruction of the code lacks its extension word. -/
def lastX : Bool → List Word → Bool
  | x, [] => x
  | true, _ :: t => lastX false t
  | false, w :: t => lastX (xBit w) t

/-- The span of an instance: region class (0 DATA bits, 1 slots, 2 OUT bytes), first unit, units. -/
def InstEnt.span (e : InstEnt) : Nat × Nat × Nat :=
  if e.kind = 1 then (0, e.addr, e.size)
  else if e.kind = 4 then (1, e.addr, e.size)
  else if e.kind = 5 then (2, e.addr, e.size)
  else (0, 8 * e.addr, 8 * e.size)

def spansMeet (a b : Nat × Nat × Nat) : Bool := a.1 == b.1 && decide (a.2.1 < b.2.1 + b.2.2 ∧ b.2.1 < a.2.1 + a.2.2)

/-- Whether an instance lies inside its region or slot allocation, with the size and alignment of its kind. -/
def InstEnt.fits (g : Image) (e : InstEnt) : Bool :=
  match e.kind with
  | 0 => decide (e.addr + e.size ≤ g.dataSize)
  | 1 => decide (e.addr + e.size ≤ 8 * g.dataSize)
  | 2 => decide (e.addr + 32 ≤ g.dataSize) && e.size == 32 && e.addr % 8 == 0
  | 3 => decide (e.addr + 24 ≤ g.dataSize) && e.size == 24 && e.addr % 8 == 0
  | 4 => decide (e.addr + e.size ≤ g.slots)
  | 5 => decide (e.addr + e.size ≤ g.outSize)
  | _ => false

/-- Keys rise, so they are sorted and unique. -/
def keysRise : Nat → List InstEnt → Bool
  | _, [] => true
  | b, e :: t => decide (b < e.key.toNat) && keysRise e.key.toNat t

/-- No two instances of a list share a bit, byte or slot. -/
def noOverlap : List InstEnt → Bool
  | [] => true
  | e :: t => t.all (fun u => !spansMeet e.span u.span) && noOverlap t

/-- Reason 2 of Table 7-2. -/
def Image.instsOk (g : Image) : Bool :=
  decide (g.insts.length ≤ 16384) && keysRise 0 g.insts && g.insts.all (InstEnt.fits g) && noOverlap g.insts

/-- Code and data SRAM of a core of the image's kind (R86). -/
def Image.codeRoom (g : Image) : Nat := if g.service then 524288 else 1048576
def Image.dataRoom (g : Image) : Nat := if g.service then 1048576 else 2097152
def Image.dataUse (g : Image) : Nat := g.dataSize + g.inSize + g.outSize + g.constSize

/-- The conditions of R492 that are not the toolchain file's own. -/
def Image.valid (g : Image) : Bool :=
  decide (g.code ≠ []) && decide (g.codeSize ≤ g.codeRoom) &&
  decide (g.dataSize ≤ 1048576 ∧ g.inSize ≤ 262144 ∧ g.outSize ≤ 262144 ∧ g.constSize ≤ 524288) &&
  decide (g.dataInit.length ≤ g.dataSize ∧ g.constInit.length ≤ g.constSize) &&
  (!g.service || (g.inSize == 0 && g.outSize == 0 && g.slots == 0 && g.handler.isNone)) &&
  g.isInstr g.entry.toNat &&
  (match g.handler with
    | some h => g.isInstr h.toNat
    | none => true) &&
  !lastX false g.code &&
  (if g.fmode then g.insts.isEmpty else g.instsOk)

/-- The valid image of an index; index 0 names none (R464). -/
def Chip.imageAt (m : Chip) (p : Nat) : Option Image :=
  if p = 0 ∨ 1023 < p then none else
  match Config.imageOf (m.imgCells p) with
  | some g => if g.valid then some g else none
  | none => none

/-! ### Data regions (Table 4-4) -/

/-- The base address and the declared size of a region code at a level; none where the region is unmapped. -/
def Image.region (g : Image) (task : Bool) (r : Nat) : Option (Nat × Nat) :=
  match r with
  | 0 => some (0, g.dataSize)
  | 1 => if task then some (0x10000000, g.inSize) else none
  | 2 => if task then some (0x11000000, g.outSize) else none
  | 3 => some (0x20000000, g.constSize)
  | _ => none

/-- The region code of a data address. -/
def regionOf (a : Nat) : Nat :=
  if a < 0x10000000 then 0 else if a < 0x11000000 then 1 else if a < 0x20000000 then 2 else 3

/-- Put the initial contents of an image into a program's data space: DATA, CONST, and IN and OUT zero. Every word of it is written anew. -/
def Chip.loadData (m : Chip) (key : Nat) (g : Image) : Chip :=
  (((m.withScan { m.scan with upsets := m.scan.upsets.filter (fun u => u.key != key) }).clearSpace (.data key)).setBytes (.data key) 0 g.dataInit).setBytes (.data key) 0x20000000 g.constInit

/-- A bit of a program's data by region base and bit address. -/
def Chip.dataBit (m : Chip) (key base n : Nat) : Bool := (m.byte (.data key) (base + n / 8)).getLsbD (n % 8)

def Chip.setDataBit (m : Chip) (key base n : Nat) (v : Bool) : Chip :=
  m.setByte (.data key) (base + n / 8)
    (BitVec.ofNat 8 (setBits (m.byte (.data key) (base + n / 8)).toNat (n % 8) (n % 8) (bit v)))

end Sys2Proof.Machine
end

