-- ==== Sys2Proof/Machine/Scan.lean ====
section
/-! DEFINITION. The scan engine (chapters 6 and 7): the task table, releases, snapshots, dispatch, hand-offs, task control, timer-slot
runs, and the col swap's switch and carry-over. What a Wasa instruction does is in Machine/Wasa*.lean. -/

namespace Sys2Proof.Machine

open Sys2Proof

/-! ### The task table and the maps (Tables 6-1 and 6-4, R143) -/

/-- The table entry that 64 bytes spell. -/
def taskEntOf (b : List Byte) : TaskEnt :=
  { flags := fld b 0 1, core := fld b 1 1, prio := fld b 2 1, life := fld b 3 1, period := fld b 4 4, phase := fld b 8 4,
    budget := fld b 12 4, image := fld b 16 4, imap := fld b 20 4, imapN := fld b 24 4, omap := fld b 28 4,
    omapN := fld b 32 4, overLim := fld b 36 1, abnLim := fld b 37 1 }

def Chip.taskEnt (m : Chip) (t : Nat) : TaskEnt := taskEntOf (m.bytes (.win .scanTask) (64 * t) 64)
def TaskEnt.enabled (e : TaskEnt) : Bool := e.flags.testBit 0
def TaskEnt.autostart (e : TaskEnt) : Bool := e.flags.testBit 1
def TaskEnt.lifetime (e : TaskEnt) : Nat := e.period * 1000 * (if e.life = 0 then 3 else e.life)

/-- The map entry that 16 bytes spell. -/
def mapEntOf (b : List Byte) : MapEnt :=
  { tag := BitVec.ofNat 40 (fld b 0 8), high := fld b 5 3, addr := fld b 8 4, kind := fld b 12 1, flags := fld b 13 1,
    group := fld b 14 2 }

def Chip.mapEnts (m : Chip) (w : Win) (first count : Nat) : List MapEnt :=
  (List.range count).map (fun i => mapEntOf (m.bytes (.win w) (16 * (first + i)) 16))

/-! ### Tasks -/

def Chip.task (m : Chip) (t : Nat) : Task := AMap.get {} m.scan.tasks t
def Chip.setTask (m : Chip) (t : Nat) (x : Task) : Chip :=
  m.withScan { m.scan with tasks := AMap.put {} t x m.scan.tasks }
def Chip.core (m : Chip) (c : Nat) : Core := AMap.get {} m.scan.cores c
def Chip.setCore (m : Chip) (c : Nat) (x : Core) : Chip :=
  m.withScan { m.scan with cores := AMap.put {} c x m.scan.cores }

/-! The states of SCAN_TS_STATE.STATE. -/

namespace TS

def stopped : Nat := 0
def idle : Nat := 1
def snapshot : Nat := 2
def ready : Nat := 3
def running : Nat := 4
def handoff : Nat := 5
def held : Nat := 6
def faulted : Nat := 7

end TS

def Chip.tState (m : Chip) (t : Nat) : Nat := m.get (R.SCAN_TS_STATE_STATE t)

/-- Change a task's state; every change posts TASK_STATE (Table 6-8). -/
def Chip.setTState (m : Chip) (t st : Nat) : Chip :=
  let old := m.tState t
  if old = st then m else (m.put (R.SCAN_TS_STATE_STATE t) st).post (ev 4 0x0202 0 t 0 (le 1 old ++ le 1 st))

/-- Whether a cycle of the task is in progress: from release to the end of its hand-off or its abandonment. -/
def Chip.inCycle (m : Chip) (t : Nat) : Bool := decide (2 ≤ m.tState t ∧ m.tState t ≤ 5)

/-- The unit key of the cluster of a core, and whether it takes releases. -/
def clusterOf (core : Nat) : Nat := UK.scan (if core < 16 then 0 else 1)
def Chip.clusterOpen (m : Chip) (core : Nat) : Bool := m.unitOpen (clusterOf core)

/-! ### The grid (R140, R141) -/

/-- The last grid instant at or before a league time; none before the first. -/
def TaskEnt.gridAt (e : TaskEnt) (now : Nat) : Option Nat :=
  let p := 1000 * e.period
  if p = 0 ∨ now < 1000 * e.phase then none else some (now - (now - 1000 * e.phase) % p)

/-- Regard every grid instant up to now as past: at a start, and at a change of period or phase (R139, R140). -/
def Chip.anchor (m : Chip) (t : Nat) : Chip := m.setTask t { m.task t with gridDone := (m.taskEnt t).gridAt m.now }

/-- After a step of league time the grid goes on from the instants at or after the new time (R141). -/
def Chip.anchorStep (m : Chip) (t : Nat) : Chip :=
  m.setTask t { m.task t with gridDone := if m.now = 0 then none else (m.taskEnt t).gridAt (m.now - 1) }

/-! ### The end of a cycle (R140, R147 to R156) -/

/-- Mark the commits that wait for a boundary of task t: their boundary has begun (R62). -/
def Chip.markBoundary (m : Chip) (t : Nat) (v : Bool) : Chip :=
  let pend := m.com.pend.map (fun e => if e.2.mode = 1 ∧ e.2.task = t then (e.1, { e.2 with taskEnded := v }) else e)
  m.withCom { m.com with pend := pend }

/-- The last STOP that SCAN_TCMD_RES shows as pending has taken effect. -/
def Chip.stopDone (m : Chip) (t : Nat) : Chip :=
  let m1 := m.setTask t { m.task t with stopReq := false }
  if (m.task t).stopReq && m.get R.SCAN_TCMD_TASK == t then (m1.put R.SCAN_TCMD_RES_PENDING 0).put R.SCAN_TCMD_RES_CODE 0
  else m1

/-- The state a task takes at its boundary: FAULTED where a fault waits, STOPPED where a STOP waits, HELD where its cluster drains or
is disabled, else IDLE. -/
def Chip.settleTask (m : Chip) (t : Nat) : Chip :=
  let k := m.task t
  if k.faultReq then
    ((m.setTask t { k with faultReq := false }).setTState t TS.faulted).post (ev 4 0x0201 3 t 0 (le 1 0))
  else if k.stopReq then (m.stopDone t).setTState t TS.stopped
  else if !m.clusterOpen k.ent.core then m.setTState t TS.held
  else m.setTState t TS.idle

/-- A task's boundary begins: commits of mode TASK may apply; a pending switch is made before the task takes its state (R164, R165). -/
def Chip.boundary (m : Chip) (t : Nat) : Chip :=
  let m1 := m.markBoundary t true
  if (m1.task t).swap.isSome then m1.setTState t TS.idle else m1.settleTask t

/-- The cycle of a task is abandoned (R106, R149, R154): no hand-off; ABN_RUN counts, and its limit faults the task. -/
def Chip.abandonTask (m : Chip) (t : Nat) : Chip :=
  let k := m.task t
  let m1 := (m.count (R.SCAN_TS_ABAN t) (some (R.SCAN_TS_STATE_ABN_SAT t))).setTask t { k with ctx := none, buf := [] }
  let run := min 255 (m1.get (R.SCAN_TS_STATE_ABN_RUN t) + 1)
  let m2 := (m1.put (R.SCAN_TS_STATE_ABN_RUN t) run).markBoundary t true
  if k.ent.abnLim ≠ 0 ∧ k.ent.abnLim ≤ run then
    (m2.setTState t TS.faulted).post (ev 4 0x0201 3 t 0 (le 1 1))
  else if k.swap.isSome then m2.setTState t TS.idle
  else m2.settleTask t

/-! ### Release (R139 to R141, R153) -/

/-- A grid instant that finds the previous cycle still running: counted, posted, and perhaps a fault at the cycle's end. -/
def Chip.missRelease (m : Chip) (t inst : Nat) : Chip :=
  let run := min 255 (m.get (R.SCAN_TS_STATE_MISS_RUN t) + 1)
  let m1 := ((m.count (R.SCAN_TS_MISS t) (some (R.SCAN_TS_STATE_MISS_SAT t))).put (R.SCAN_TS_STATE_MISS_RUN t) run).post
    (ev 4 0x0200 2 t inst (le 2 run))
  let lim := (m.task t).ent.overLim
  if lim ≠ 0 ∧ lim ≤ run then m1.setTask t { m1.task t with faultReq := true } else m1

/-- Release a task at a grid instant: the table entry and maps of this moment rule the cycle (R139), and its number follows the last
(R140). -/
def Chip.release (m : Chip) (t inst : Nat) : Chip :=
  let e := m.taskEnt t
  let k := m.task t
  let k1 := { k with ent := e, imap := m.mapEnts .scanImap e.imap e.imapN, omap := m.mapEnts .scanOmap e.omap e.omapN,
                     release := BitVec.ofNat 64 inst, releasedAt := m.monoNs, prevMono := some m.monoNs, next := k.next + 1,
                     firstNew := false }
  let m1 := (((m.setTask t k1).markBoundary t false).put (R.SCAN_TS_STATE_MISS_RUN t) 0).put (R.SCAN_TS_CYCLES t) k.next.toNat
  (if k.firstNew then m1.put (R.SCAN_SW_CYCLE t) k.next.toNat else m1).setTState t TS.snapshot

/-- TASK_RELEASE: the grid instant of this edge, where it has not been dealt with. -/
def Chip.taskRelease (m : Chip) (t : Nat) : Chip :=
  let e := m.taskEnt t
  let k := m.task t
  match e.gridAt m.now with
  | none => m
  | some inst =>
    let dealt := match k.gridDone with
      | some g => decide (inst ≤ g)
      | none => false
    if !e.enabled || dealt || !m.leads then m else
    let m1 := m.setTask t { k with gridDone := some inst }
    let spaced := match k.prevMono with
      | some p => decide (500 * e.period ≤ m.monoNs - p)
      | none => true
    if !m.clusterOpen e.core then m1
    else if m.inCycle t || (m.tState t == TS.idle && k.swap.isSome) then m1.missRelease t inst
    else if m.tState t == TS.idle && spaced then m1.release t inst
    else m1

/-! ### Snapshot (R143 to R146, R157) -/

/-- Post FORCE_SEEN when a count of the task's FORCED word changes from or to 0. -/
def Chip.setForced (m : Chip) (t : Nat) (f : FRef) (n : Nat) : Chip :=
  let old := m.get f
  let m1 := m.put f n
  if (old == 0) != (n == 0) then
    m1.post (ev 4 0x0204 1 t 0 (le 2 (m1.get (R.SCAN_TS_FORCED_FORCED_IN t)) ++ le 2 (m1.get (R.SCAN_TS_FORCED_FORCED_OUT t))))
  else m1

/-- Read one input entry into IN (R145): whether its quality carried FORCED or SUBSTITUTED. -/
def Chip.snapEntry (m : Chip) (t : Nat) (e : MapEnt) : Bool × Chip :=
  let (c, r, m1) := m.ptRead .scan e.tag
  let good := c == CC.ok || (c == CC.pairFault && e.kind == 3)
  let rec' := if good then r.getD unboundRec else unboundRec
  let q := rec'.quality
  let forced := good && (Q.has q Q.forced || Q.has q Q.substituted)
  let base := 0x10000000
  let sp := Space.data t
  (forced, match e.kind with
    | 0 => m1.setDataBit t base e.addr (if Q.state q < 2 then rec'.value != 0 else e.flags.testBit 0)
    | 1 => m1.wr sp (base + e.addr) 8 rec'.value.toNat
    | 2 => (m1.wr sp (base + e.addr) 8 rec'.value.toNat).wr sp (base + e.addr + 8) 8 (q.toNat * 65536 + rec'.flags.toNat)
    | 3 => (m1.wr sp (base + e.addr) 8 rec'.value.toNat).wr sp (base + e.addr + 8) 8 rec'.second.toNat
    | _ => m1.setBytes sp (base + e.addr) rec'.image)

/-- Every entry of an input map in map order; the count of forced entries. -/
def Chip.snapAll (m : Chip) (t : Nat) : List MapEnt → Nat × Chip
  | [] => (0, m)
  | e :: rest =>
    let (f, m1) := m.snapEntry t e
    let (n, m2) := Chip.snapAll m1 t rest
    (n + bit f, m2)

/-- SNAPSHOT_DONE: the input image is complete and the task is READY. -/
def Chip.snapshotDone (m : Chip) (t : Nat) : Chip :=
  if m.tState t ≠ TS.snapshot then m else
  let (n, m1) := m.snapAll t (m.task t).imap
  let m2 := (m1.setForced t (R.SCAN_TS_FORCED_FORCED_IN t) n).setTState t TS.ready
  m2.stream "IMAGE" (t :: (m2.get (R.SCAN_TS_CYCLES t)) :: (m2.task t).release.toNat ::
    (m2.bytes (.data t) 0x10000000 (m2.task t).img.inSize).map BitVec.toNat)

/-! ### Dispatch (R81, R112, R142) -/

/-- TCFG of a program at a level (Table 4-2): level 0 TASK, 1 SERVICE, 2 CHECK. -/
def Image.tcfg (g : Image) (level : Nat) : Word :=
  BitVec.ofNat 32 (bit g.fmode * 2 ^ 31 + level * 2 ^ 28 + g.qlevel.toNat * 2 ^ 8 + bit g.qtrap * 2 ^ 7 + bit g.fptrap * 2 ^ 6 +
    (if level = 0 then bit g.handler.isSome * 2 ^ 5 else 0))

/-- The entry state of Table 4-2. -/
def entryCore (level : Level) (lv prog : Nat) (g : Image) (cyc : Word) (t : DWord) (budget : Nat) : Core :=
  { level := some level, prog := prog, img := g, pc := g.entry, tcfg := g.tcfg lv, ltime := t, budget := budget,
    g := AMap.put 0 3 t (AMap.put 0 2 (cyc.setWidth 64) (AMap.put 0 1 (BitVec.ofNat 64 prog) [])) }

/-- Whether task a goes before task b: priority, release instant, number (R142). -/
def Chip.before (m : Chip) (a b : Nat) : Bool :=
  let ka := m.task a
  let kb := m.task b
  decide (ka.ent.prio < kb.ent.prio) ||
  (ka.ent.prio == kb.ent.prio && (decide (ka.release.toNat < kb.release.toNat) || (ka.release == kb.release && decide (a < b))))

/-- The ready task of a core that goes first. -/
def Chip.nextReady (m : Chip) (c : Nat) : Option Nat :=
  ((List.range 256).filter (fun t => m.tState t == TS.ready && (m.task t).ent.core == c)).foldl
    (fun best t => match best with
      | none => some t
      | some b => if m.before t b then some t else some b) none

/-- The posted stores of a core act in issue order (R91); a refusal sets PREJ. Writes of a service core carry task 0xFFFF. -/
def Chip.drainStores (m : Chip) (c : Nat) (k : Core) : List Posted → Chip × Core
  | [] => (m, { k with posted := [] })
  | p :: rest =>
    let r := m.pt (tagIdx p.tag)
    let crit := r.desc != 0 && (m.descOfRec r).critical
    let w : PtWrite := { tag := p.tag, src := .program, task := (if c < 32 then k.prog else 0xFFFF), value := p.value,
                         second := (if crit then p.value else r.second) }
    let (code, m1) := m.ptWrite (if c < 32 then .scan else .access) w
    Chip.drainStores m1 c (if code = CC.ok then k else { k with prej := true }) rest

/-- Core c runs task t: its saved context, or the entry state of a new cycle. -/
def Chip.runTask (m : Chip) (c t : Nat) : Chip :=
  let k := m.task t
  let core := match k.ctx with
    | some x => x
    | none => entryCore .task 0 t k.img (BitVec.ofNat 32 (m.get (R.SCAN_TS_CYCLES t))) k.release k.ent.budget
  (((m.setTask t { k with ctx := none }).setCore c core).put (R.SCAN_TS_STATE_CORE t) c).setTState t TS.running

/-- TASK_DISPATCH: an idle core takes the first ready task; a running one is preempted only by a task of higher priority, after its
stores have drained; the save and the restore count in the preempted cycle (R112, R142). -/
def Chip.dispatch (m : Chip) (c : Nat) : Chip :=
  match m.nextReady c with
  | none => m
  | some t =>
    let core := m.core c
    match core.level with
    | none => m.runTask c t
    | some _ =>
      if (m.task t).ent.prio < (m.task core.prog).ent.prio then
        let (m1, k) := m.drainStores c core core.posted
        let saved := { k with cycle := k.cycle + 192, budget := k.budget - 192 }
        let m2 := (m1.setTask core.prog { m1.task core.prog with ctx := some saved }).setTState core.prog TS.ready
        m2.runTask c t
      else m

/-! ### End of execution and hand-off (R147, R148, R157, R158, R305) -/

/-- The value and complement an output entry takes from OUT at END. -/
def Chip.outEntry (m : Chip) (t : Nat) (e : MapEnt) : MapEnt × DWord × DWord :=
  let base := 0x11000000
  match e.kind with
  | 0 => (e, BitVec.ofNat 64 (bit (m.dataBit t base e.addr)), 0)
  | 1 => (e, BitVec.ofNat 64 (m.rd (.data t) (base + e.addr) 8), 0)
  | _ => (e, BitVec.ofNat 64 (m.rd (.data t) (base + e.addr) 8), BitVec.ofNat 64 (m.rd (.data t) (base + e.addr + 8) 8))

/-- The task's cycle ends with its END: the end copy, and state HANDOFF (R147). The core is free. -/
def Chip.endCycle (m : Chip) (c t : Nat) : Chip :=
  let k := m.task t
  ((m.setTask t { k with buf := k.omap.map (m.outEntry t) }).setCore c {}).setTState t TS.handoff

/-- Write one output entry to its point: the completion code, and whether a force held it. -/
def Chip.handEntry (m : Chip) (t : Nat) (x : MapEnt × DWord × DWord) : Half × Bool × Chip :=
  let (e, v, c) := x
  if e.kind = 3 ∧ !pairOk v c then (CC.pairFault, false, m) else
  let r := m.pt (tagIdx e.tag)
  let w : PtWrite := { tag := e.tag, src := .program, task := t, value := v, second := (if e.kind = 3 then c else r.second),
                       handoff := true }
  let (code, m1) := m.ptWrite .scan w
  (code, code == CC.ok && (m1.force (tagIdx e.tag)).isSome, m1)

/-- Write every entry in map order: the codes beside the entries, and the count held by forces. -/
def Chip.handAll (m : Chip) (t : Nat) : List (MapEnt × DWord × DWord) → List (MapEnt × Half) × Nat × Chip
  | [] => ([], 0, m)
  | x :: rest =>
    let (code, held, m1) := m.handEntry t x
    let (l, n, m2) := Chip.handAll m1 t rest
    ((x.1, code) :: l, n + bit held, m2)

/-- The key of an entry's group: the module group of the task, or one of its own for an entry that stands alone. -/
def groupKey (t : Nat) (e : MapEnt) : Nat := if e.group = 0xFFFF then singleGroup (tagIdx e.tag) else t * 65536 + e.group

/-- A group withheld counts as an undelivered set of each station it names: its lifetime runs (R148). -/
def Chip.withhold (m : Chip) (t g : Nat) (es : List MapEnt) : Chip :=
  es.foldl (fun a e =>
    let rt := a.route (a.pt (tagIdx e.tag)).route.toNat
    let known := a.txn.held.any (fun h => h.station == rt.station && h.group == g)
    if rt.output && !known then
      let h : HeldOut := { station := rt.station, group := g, tag := e.tag.toNat, payload := [], since := a.monoNs,
                           life := (a.task t).ent.lifetime }
      a.withTxn { a.txn with held := a.txn.held ++ [h] }
    else a) m

/-- Offer a group's outputs: one request for each station and module that its routes name, with the values the points hold now. -/
def Chip.offerGroup (m : Chip) (t g : Nat) (es : List MapEnt) : Chip :=
  let rts := es.map (fun e => (e, m.route (m.pt (tagIdx e.tag)).route.toNat))
  let outs := rts.filter (fun x => x.2.output)
  let places := (outs.map (fun x => (x.2.station, x.2.module))).eraseDups
  places.foldl (fun a p =>
    let mine := outs.filter (fun x => x.2.station == p.1 && x.2.module == p.2)
    let ents := mine.map (fun x =>
      let r := a.pt (tagIdx x.1.tag)
      (x.2.chan, r.value, if (a.descOfRec r).critical then r.second else 0))
    let tag := match mine with
      | x :: _ => x.1.tag.toNat
      | [] => 0
    a.txAccept { kind := .output, station := p.1, payload := ioOutput p.2 ents, group := g, tag := tag, since := a.monoNs,
                 life := (a.task t).ent.lifetime }) m

/-- Offer or withhold each group of a hand-off in map order. -/
def Chip.handGroups (m : Chip) (t : Nat) (done : List (MapEnt × Half)) : Chip :=
  ((done.map (fun x => groupKey t x.1)).eraseDups).foldl (fun a g =>
    let mine := done.filter (fun x => groupKey t x.1 == g)
    match mine.find? (fun x => x.2 != CC.ok) with
    | some bad => (a.withhold t g (mine.map (·.1))).post
        (ev 4 0x0203 2 t bad.1.tag.toNat (le 2 bad.1.group) bad.2)
    | none => a.offerGroup t g (mine.map (·.1))) m

/-- HANDOFF_DONE: the outputs are written and their groups offered; LAST and MAX take the time from the release; the boundary
begins. -/
def Chip.handoffDone (m : Chip) (t : Nat) : Chip :=
  if m.tState t ≠ TS.handoff then m else
  let (done, n, m1) := if m.leads then m.handAll t (m.task t).buf else ([], 0, m)
  let m2 := (m1.handGroups t done).setForced t (R.SCAN_TS_FORCED_FORCED_OUT t) n
  let us := (m2.monoNs - (m2.task t).releasedAt) / 1000
  let m3 := (m2.put (R.SCAN_TS_LAST t) us).put (R.SCAN_TS_MAX t) (max us (m2.get (R.SCAN_TS_MAX t)))
  let m4 := (m3.put (R.SCAN_TS_STATE_ABN_RUN t) 0).setTask t { m3.task t with buf := [] }
  (m4.stream "DELTA" [t, m4.get (R.SCAN_TS_CYCLES t), (m4.task t).release.toNat, bit (m4.task t).swap.isSome]).boundary t

/-! ### Task control (R155) -/

/-- Report a task command. -/
def Chip.tcmdDone (m : Chip) (t : Nat) (pending : Bool) (code : Half) : Chip :=
  ((m.put R.SCAN_TCMD_TASK t).put R.SCAN_TCMD_RES_PENDING (bit pending)).put R.SCAN_TCMD_RES_CODE code.toNat

/-- START a STOPPED task: IDLE, first released at the first grid instant after this edge. -/
def Chip.startTask (m : Chip) (t : Nat) : Chip := (m.anchor t).setTState t TS.idle

/-- START. -/
def Chip.tcmdStart (m : Chip) (t : Nat) : Chip :=
  if (m.task t).stopReq then m.tcmdDone t true CC.busy
  else if (m.taskEnt t).enabled && m.tState t == TS.stopped then (m.startTask t).tcmdDone t false CC.ok
  else m.tcmdDone t false CC.checkFailed

/-- STOP: at the next boundary; a task that is IDLE or HELD stands at one. -/
def Chip.tcmdStop (m : Chip) (t : Nat) : Chip :=
  let st := m.tState t
  if (m.task t).stopReq then m.tcmdDone t true CC.busy
  else if !(m.taskEnt t).enabled || st == TS.stopped || st == TS.faulted then m.tcmdDone t false CC.checkFailed
  else if m.inCycle t || (m.task t).swap.isSome then
    (m.setTask t { m.task t with stopReq := true }).tcmdDone t true CC.ok
  else (m.setTState t TS.stopped).tcmdDone t false CC.ok

/-- RESET_FAULT. -/
def Chip.tcmdReset (m : Chip) (t : Nat) : Chip :=
  if (m.task t).stopReq then m.tcmdDone t true CC.busy
  else if (m.taskEnt t).enabled && m.tState t == TS.faulted then
    (((m.put (R.SCAN_TS_STATE_MISS_RUN t) 0).put (R.SCAN_TS_STATE_ABN_RUN t) 0).setTState t TS.stopped).tcmdDone t false CC.ok
  else m.tcmdDone t false CC.checkFailed

/-- A write of SCAN_TCMD. -/
def Chip.tcmd (m : Chip) (w : Word) : Chip :=
  let t := fieldOf R.SCAN_TCMD_TASK w
  match fieldOf R.SCAN_TCMD_OP w with
  | 1 => m.tcmdStart t
  | 2 => m.tcmdStop t
  | 3 => m.tcmdReset t
  | _ => m

/-! ### Timer-slot runs (R150) -/

/-- The runs that are allocated: each task's, and those of pending switches. -/
def Chip.slotRuns (m : Chip) : List (Nat × Nat) :=
  ((List.range 256).filterMap (fun t =>
    let n := m.get (R.SCAN_TS_SLOTS_COUNT t)
    if n = 0 then none else some (m.get (R.SCAN_TS_SLOTS_BASE t), n))) ++
  (m.scan.tasks.filterMap (fun e => match e.2.swap with
    | some s => if s.count = 0 then none else some (s.base, s.count)
    | none => none))

/-- Whether a run of n slots from a base is free beside the given runs. -/
def runFree (runs : List (Nat × Nat)) (base n : Nat) : Bool :=
  decide (base + n ≤ 8192) && runs.all (fun r => decide (base + n ≤ r.1 ∨ r.1 + r.2 ≤ base))

/-- The lowest slot from which n slots are free: slot 0, or the end of a run. -/
def firstFit (runs : List (Nat × Nat)) (n : Nat) : Option Nat :=
  if n = 0 then some 0 else
  ((0 :: runs.map (fun r => r.1 + r.2)).filter (fun b => runFree runs b n)).foldl
    (fun best b => match best with
      | none => some b
      | some a => some (min a b)) none

def Chip.slot (m : Chip) (n : Nat) : Slot := AMap.get {} m.scan.slots n
def Chip.setSlot (m : Chip) (n : Nat) (x : Slot) : Chip :=
  m.withScan { m.scan with slots := AMap.put {} n x m.scan.slots }

/-- Put a run into its loaded state (R131). -/
def Chip.clearSlots (m : Chip) (base n : Nat) : Chip :=
  m.withScan { m.scan with slots := m.scan.slots.filter (fun e => decide (e.1 < base ∨ base + n ≤ e.1)) }

/-- Report a task's run. -/
def Chip.setRun (m : Chip) (t base n : Nat) : Chip := (m.put (R.SCAN_TS_SLOTS_BASE t) base).put (R.SCAN_TS_SLOTS_COUNT t) n

/-! ### The switch of a col swap (R164 to R172) -/

/-- What one instance of the new table takes from the old image. -/
inductive Carry where
  | fresh
  | reinit (old : InstEnt)
  | carried (old : InstEnt)
deriving DecidableEq, Repr

/-- R166: what becomes of an instance of the new table. -/
def carryOf (old : List InstEnt) (e : InstEnt) : Carry :=
  if e.noCarry then .fresh else
  match old.find? (fun o => o.key == e.key) with
  | none => .fresh
  | some o => if o.kind ≠ e.kind ∨ o.sig ≠ e.sig ∨ o.size ≠ e.size then .reinit o else .carried o

/-- Carry one instance by its kind (Table 7-3) from the chip before the switch `m0` into the chip being built: `ob` and `nb` are the
bases of the old and new slot runs. -/
def Chip.carryInst (m : Chip) (m0 : Chip) (t ob nb : Nat) (o e : InstEnt) : Chip :=
  let sp := Space.data t
  match e.kind with
  | 0 => m.setBytes sp e.addr (m0.bytes sp o.addr e.size)
  | 1 => (List.range e.size).foldl (fun a i => a.setDataBit t 0 (e.addr + i) (m0.dataBit t 0 (o.addr + i))) m
  | 2 => (m.setBytes sp e.addr (m0.bytes sp o.addr 16)).setBytes sp (e.addr + 24) (m0.bytes sp (o.addr + 24) 1)
  | 3 => (m.setBytes sp e.addr (m0.bytes sp o.addr 8)).setBytes sp (e.addr + 16) (m0.bytes sp (o.addr + 16) 1)
  | 4 => (List.range e.size).foldl (fun a i => a.setSlot (nb + e.addr + i) (m0.slot (ob + o.addr + i))) m
  | _ => m.setBytes sp (0x11000000 + e.addr) (m0.bytes sp (0x11000000 + o.addr) e.size)

/-- Carry every instance; an event is posted for each of the first 64 re-initialised ones (R168). Counts carried, new and
re-initialised. -/
def Chip.carryAll (m : Chip) (m0 : Chip) (t ob nb : Nat) (old : List InstEnt) :
    List InstEnt → Nat × Nat × Nat → (Nat × Nat × Nat) × Chip
  | [], n => (n, m)
  | e :: rest, (c, f, r) =>
    match carryOf old e with
    | .fresh => Chip.carryAll m m0 t ob nb old rest (c, f + 1, r)
    | .carried o => Chip.carryAll (m.carryInst m0 t ob nb o e) m0 t ob nb old rest (c + 1, f, r)
    | .reinit o =>
      let m1 := if r < 64 then m.post (ev 4 0x0207 1 t e.key.toNat
        (le 4 o.sig.toNat ++ le 4 e.sig.toNat ++ le 1 o.kind ++ le 1 e.kind)) else m
      Chip.carryAll m1 m0 t ob nb old rest (c, f, r + 1)

/-- Report a finished switch: counts, flags, SWAP_DONE (R172). `kind` is 0 native, 1 forerunner, 2 cold. -/
def Chip.swapDone (m : Chip) (t kind c f r d : Nat) : Chip :=
  let m1 := (((m.put (R.SCAN_SW_STAT_PENDING t) 0).put (R.SCAN_SW_STAT_COLD_LAST t) (bit (kind == 2))).put
    (R.SCAN_SW_STAT_FMODE_LAST t) (bit (kind == 1))).put (R.SCAN_SW_STAT_REINIT t) (bit (0 < r))
  let m2 := (((m1.put (R.SCAN_SW_CNT1_CARRIED t) c).put (R.SCAN_SW_CNT1_NEW t) f).put (R.SCAN_SW_CNT2_REINIT t) r).put
    (R.SCAN_SW_CNT2_DROPPED t) d
  m2.post (ev 4 0x0206 0 t m2.now (le 2 c ++ le 2 f ++ le 2 r ++ le 2 d ++ le 1 kind))

/-- Load an image cold: nothing is carried and every instance counts as NEW (R169). -/
def Chip.coldLoad (m : Chip) (t : Nat) (g : Image) (base : Nat) : Chip :=
  let m1 := ((m.loadData t g).clearSlots base g.slots).setRun t base g.slots
  (m1.setTask t { m1.task t with img := g, swap := none, firstNew := true, ent := m1.taskEnt t }).swapDone t 2 0
    g.insts.length 0 0

/-- Write a forerunner image's value list in list order (R171). -/
def Chip.writeValues (m : Chip) (t : Nat) (l : List ValEnt) : Chip :=
  l.foldl (fun a v => a.wr (.data t) v.off v.width v.value.toNat) m

/-- Make a pending switch: the new regions and run with what is carried (R166, R171); the old run is freed. -/
def Chip.makeSwitch (m : Chip) (t : Nat) (s : Swap) : Chip :=
  let k := m.task t
  let old := k.img
  let ob := m.get (R.SCAN_TS_SLOTS_BASE t)
  let on := m.get (R.SCAN_TS_SLOTS_COUNT t)
  if s.cold then (m.clearSlots ob on).coldLoad t s.img s.base
  else if old.fmode ∧ s.img.fmode then
    let m1 := (List.range s.count).foldl (fun a i => a.setSlot (s.base + i) (m.slot (ob + i))) (m.clearSlots s.base s.count)
    let m2 := ((m1.clearSlots ob on).setBytes (.data t) 0x20000000 s.img.constInit).writeValues t s.img.values
    ((m2.setRun t s.base s.count).setTask t { k with img := s.img, swap := none, firstNew := true }).swapDone t 1
      s.img.values.length 0 0 0
  else
    let m1 := (m.loadData t s.img).clearSlots s.base s.count
    let ((c, f, r), m2) := m1.carryAll m t ob s.base old.insts s.img.insts (0, 0, 0)
    let dropped := old.insts.countP (fun o => !s.img.insts.any (fun e => e.key == o.key))
    let m3 := (m2.clearSlots ob on).setRun t s.base s.count
    (m3.setTask t { m3.task t with img := s.img, swap := none, firstNew := true }).swapDone t 0 c f r dropped

/-- COL_SWAP_SWITCH: a pending switch of a task that stands at a boundary; a STOP, a fault or a hold that waits then takes effect
(R165). -/
def Chip.colSwitch (m : Chip) (t : Nat) : Chip :=
  match (m.task t).swap with
  | none => m
  | some s =>
    if m.inCycle t then m
    else
      let m1 := m.makeSwitch t s
      if m1.tState t = TS.idle then m1.settleTask t else m1

/-! ### Commands -/

def execTaskRelease (t : Fin 256) (s : State) : Host.Outcome State Fault Refusal := s.act (·.taskRelease t.val)
def execSnapshotDone (t : Fin 256) (s : State) : Host.Outcome State Fault Refusal := s.act (·.snapshotDone t.val)
def execTaskDispatch (c : Fin 32) (s : State) : Host.Outcome State Fault Refusal := s.act (·.dispatch c.val)
def execHandoffDone (t : Fin 256) (s : State) : Host.Outcome State Fault Refusal := s.act (·.handoffDone t.val)
def execScanStart (t : Fin 256) (s : State) : Host.Outcome State Fault Refusal := s.act (·.tcmdStart t.val)
def execScanStop (t : Fin 256) (s : State) : Host.Outcome State Fault Refusal := s.act (·.tcmdStop t.val)
def execResetFault (t : Fin 256) (s : State) : Host.Outcome State Fault Refusal := s.act (·.tcmdReset t.val)
/-- SCAN_TS_MAX_CLEAR: a write of 0 clears it, other writes are ignored. -/
def execScanTsMaxClear (t : Fin 256) (v : Word) (s : State) : Host.Outcome State Fault Refusal :=
  s.act (fun m => if v = 0 then m.put (R.SCAN_TS_MAX t.val) 0 else m)
/-- COL_SWAP_SWITCH; a paired standby switches with its twin's deltas (R170). -/
def execColSwapSwitch (t : Fin 256) (s : State) : Host.Outcome State Fault Refusal :=
  s.act (fun m => if m.standby && m.paired then m else m.colSwitch t.val)

end Sys2Proof.Machine
end

