-- ==== Sys2Proof/Machine/Ridge.lean ====
section
/-! DEFINITION. The ridge governor's resources (R221 to R231): the bucket, admission and settlement of jobs, power domains, VDD_CORE and
the scan clocks. The 1 ms evaluation and the target changes are in Machine/Governor.lean. -/

namespace Sys2Proof.Machine

open Sys2Proof

/-! ### The bucket (R224, R225) -/

/-- Set the bucket level, in microjoules; RIDGE_LEVEL shows it in mJ. -/
def Chip.setLevel (m : Chip) (b : Int) : Chip :=
  ((m.withRidge { m.ridge with level := b }).setReg R.RIDGE_LEVEL.addr (BitVec.ofInt 32 (b / 1000))).put
    R.RIDGE_STAT_BORROWED (bit (decide (b < 0)))

/-- CAP and FLOOR in microjoules. -/
def Chip.cap (m : Chip) : Int := (m.get R.RIDGE_BUCKET_CAP : Int) * 1000000
def Chip.floor (m : Chip) : Int := (m.get R.RIDGE_BUCKET_FLOOR : Int) * 1000000

/-- The draws of all running jobs, and of the lasting ones (class 3). -/
def Chip.draws (m : Chip) : Nat := (m.ridge.jobs.map Job.draw).sum
def Chip.lastingDraws (m : Chip) : Nat := ((m.ridge.jobs.filter (fun j => j.cls == 3)).map Job.draw).sum

def Chip.setJobs (m : Chip) (l : List Job) : Chip := m.withRidge { m.ridge with jobs := l }

/-! ### Power domains (R221, R223) -/

def Chip.pdOn (m : Chip) (d : Nat) : Bool := (m.get R.RIDGE_DOM_ON).testBit d
def Chip.pdReady (m : Chip) (d : Nat) : Bool := (m.get R.RIDGE_DOM_READY).testBit d

def Chip.setPdOn (m : Chip) (d : Nat) (v : Bool) : Chip := m.put ⟨R.RIDGE_DOM.addr, d, d⟩ (bit v)
def Chip.setPdReady (m : Chip) (d : Nat) (v : Bool) : Chip := m.put ⟨R.RIDGE_DOM.addr, 16 + d, 16 + d⟩ (bit v)

/-- Change the device state that RIDGE_STAT shows (2 WATCH, 3 WORK, 4 BURST); a change is posted. -/
def Chip.setState (m : Chip) (v : Nat) : Chip :=
  let old := m.get R.RIDGE_STAT_STATE
  if old = v then m else (m.put R.RIDGE_STAT_STATE v).post (ev 2 0x0400 0 0 0 (le 1 old ++ le 1 v))

/-- BURST while a planner quadrant is powered in WORK (R219). -/
def Chip.showBurst (m : Chip) : Chip :=
  if m.get R.RIDGE_STAT_STATE < 3 then m else m.setState (if [5, 6, 7, 8].any m.pdOn then 4 else 3)

/-- Ask the keeper for a domain: it starts one at a time. -/
def Chip.domainOn (m : Chip) (d : Nat) : Chip :=
  if m.pdOn d || m.ridge.switching.contains d then m
  else
    let m1 := if m.ridge.switching.isEmpty then m.setPdOn d true else m
    (m1.withRidge { m1.ridge with switching := m1.ridge.switching ++ [d] }).showBurst

/-- Switch a domain off. -/
def Chip.domainOff (m : Chip) (d : Nat) : Chip :=
  let rest := m.ridge.switching.filter (· != d)
  let m1 := ((m.withRidge { m.ridge with switching := rest }).setPdOn d false).setPdReady d false
  (match rest with
    | h :: _ => m1.setPdOn h true
    | [] => m1).showBurst

/-- The gated domain that a job class keeps on, the planner's quadrants apart. -/
def clsDomain (k : Nat) : Option Nat := match k with | 2 => some 13 | 6 => some 13 | 7 => some 11 | _ => none

/-! ### VDD_CORE and the scan clocks (R229, R230) -/

/-- The voltage level that the running clocks, and those asked for, call for. -/
def Chip.vcoreNeed (m : Chip) : Nat :=
  let clk := (m.ridge.wantClk.map (·.2) ++ m.ridge.relock.map (·.2) ++ [m.get (R.RIDGE_SCAN_CLK_CUR 0), m.get (R.RIDGE_SCAN_CLK_CUR 1)]).foldl
    max 0
  if !m.ridge.wantQ.isEmpty || [5, 6, 7, 8].any m.pdOn then 3
  else if 10 < clk then 2
  else if 6 < clk ∨ m.clk.fast ∨ m.ridge.changing = some 2 then 1
  else 0

/-- Begin the voltage step that is due, if any. -/
def Chip.stepVcore (m : Chip) : Chip :=
  let need := m.vcoreNeed
  m.withRidge { m.ridge with vcoreTo := if need = m.get R.RIDGE_STAT_VCORE then none else some need }

/-- The level that a scan clock needs by itself. -/
def clkLevel (f : Nat) : Nat := if 10 < f then 2 else if 6 < f then 1 else 0

/-- Begin the relock of a cluster's PLL at a clock: its cores pause. -/
def Chip.startRelock (m : Chip) (c f : Nat) : Chip :=
  m.withRidge { m.ridge with relock := reassoc m.ridge.relock c f, wantClk := unassoc m.ridge.wantClk c }

/-- Ask for a cluster clock (100 MHz units): the voltage is raised before the clock. -/
def Chip.setClock (m : Chip) (c f : Nat) : Chip :=
  let now := (assoc m.ridge.relock c).getD (m.get (R.RIDGE_SCAN_CLK_CUR c))
  if now = f then (m.withRidge { m.ridge with wantClk := unassoc m.ridge.wantClk c }).stepVcore
  else if clkLevel f ≤ m.get R.RIDGE_STAT_VCORE then m.startRelock c f
  else (m.withRidge { m.ridge with wantClk := reassoc m.ridge.wantClk c f }).stepVcore

/-- The clock a cluster runs at without an upgrade: 400 MHz in WATCH and in zone HOT, else FLOOR. -/
def Chip.baseClock (m : Chip) (c : Nat) : Nat :=
  if m.get R.RIDGE_STAT_STATE = 2 ∨ m.get R.RIDGE_STAT_ZONE = 3 then 4 else m.get (R.RIDGE_SCAN_CLK_FLOOR c)

/-- Whether a cluster's cores run: domain ready, clock not relocking. -/
def Chip.clusterRuns (m : Chip) (c : Nat) : Bool := m.pdReady (3 + c) && (assoc m.ridge.relock c).isNone

/-- SCAN_CLOCK_RELOCK. -/
def Chip.clockLocked (m : Chip) (c : Nat) : Chip :=
  match assoc m.ridge.relock c with
  | none => m
  | some f => ((m.withRidge { m.ridge with relock := unassoc m.ridge.relock c }).put (R.RIDGE_SCAN_CLK_CUR c) f).stepVcore

/-- VCORE_SETTLE: the level takes effect; waiting clocks relock and waiting quadrants switch on, PD5 first. -/
def Chip.vcoreSettle (m : Chip) : Chip :=
  match m.ridge.vcoreTo with
  | none => m
  | some v =>
    let m1 := (m.withRidge { m.ridge with vcoreTo := none }).put R.RIDGE_STAT_VCORE v
    let m2 := (m1.ridge.wantClk.filter (fun e => decide (clkLevel e.2 ≤ v))).foldl (fun a e => a.startRelock e.1 e.2) m1
    let m3 := if v = 3 then ((m2.withRidge { m2.ridge with wantQ := [] }) : Chip) else m2
    let m4 := if v = 3 then m2.ridge.wantQ.foldl Chip.domainOn m3 else m3
    m4.stepVcore

/-! ### Lasting jobs (R225, R229) -/

/-- Revoke one lasting job. -/
def Chip.revoke (m : Chip) (j : Job) : Chip :=
  ((m.setJobs (m.ridge.jobs.erase j)).setClock j.owner (m.baseClock j.owner)).post (ev 2 0x0404 1 3 0 (le 1 j.owner))

/-- Revoke lasting jobs, the last admitted first, while a test holds. -/
def Chip.revokeWhile (p : Chip → Bool) : List Job → Chip → Chip
  | [], m => m
  | j :: t, m => if p m then Chip.revokeWhile p t (m.revoke j) else m

/-- The lasting jobs, the next to be revoked first. All are of class 3, so priority does not part them. -/
def Chip.lasting (m : Chip) : List Job := (m.ridge.jobs.filter (fun j => j.cls == 3)).reverse

/-! ### Admission (R226) -/

/-- What admission answers. -/
inductive Adm where
  | ok (q : Nat)
  | noBudget
  | absent
deriving DecidableEq, Repr

/-- The unit that a class belongs to (Table 10-3). -/
def clsUnit (k : Nat) : Nat := match k with | 0 => 0x0A | 1 => 0x0A | 2 => 0x0B | 6 => 0x0B | 7 => 0x10 | _ => 0x02

/-- Count a refusal. -/
def Chip.refuseJob (m : Chip) (k : Nat) : Adm × Chip :=
  (.noBudget, m.count (R.RIDGE_CLS_REFUSED k) (some (R.RIDGE_CLS_CFG_REF_SAT k)))

/-- The largest planner grant that fits: of 4, 2, 1 not above `qmax`. -/
def Chip.qFit (m : Chip) (qmax draw : Nat) : Option Nat :=
  [4, 2, 1].find? (fun q => decide (q ≤ qmax ∧ m.ridge.pBase + m.draws + q * draw ≤ m.ridge.pLim))

/-- Start an admitted job: its domain is asked for and a planner round's quadrants wait for 0.85 V. -/
def Chip.startJob (m : Chip) (j : Job) : Chip :=
  let m1 := m.setJobs (m.ridge.jobs ++ [{ j with since := m.monoNs }])
  if j.cls = 0 then
    let qs := (List.range j.q).map (· + 5)
    let m2 := m1.put R.RIDGE_STAT_QGRANT j.q
    if m2.get R.RIDGE_STAT_VCORE = 3 then qs.foldl Chip.domainOn m2
    else (m2.withRidge { m2.ridge with wantQ := qs }).stepVcore
  else match clsDomain j.cls with
    | some d => m1.domainOn d
    | none => m1

/-- A target change towards WATCH or HOLD admits only LEAGUE_COORD of a running round and CONFIG (R220). -/
def Chip.changeBars (m : Chip) (k : Nat) : Bool :=
  match m.ridge.changing with
  | some 2 => false
  | some _ => k != 1 && k != 5
  | none => false

/-- The admission procedure. `draw` is per quadrant for class 0. -/
def Chip.admitJob (m : Chip) (j : Job) : Adm × Chip :=
  let k := j.cls
  let zone := m.get R.RIDGE_STAT_ZONE
  if !m.hasUnit (clsUnit k) then (.absent, m)
  else if !m.on (R.RIDGE_CLS_CFG_EN k) || m.changeBars k || zone == 3 || (zone == 2 && !j.crit) then m.refuseJob k
  else
    let (q, need, m1) :=
      if k = 0 then
        let top := m.get (R.RIDGE_PROF_PLAN_QMAX (m.get R.RIDGE_STAT_PROFILE))
        let qmax := if zone = 2 then min top 1 else top
        let m0 := if j.crit then Chip.revokeWhile (fun a => (a.qFit qmax j.draw).isNone) m.lasting m else m
        match m0.qFit qmax j.draw with
        | some q => (some q, q * j.draw, m0)
        | none => (none, 0, m0)
      else
        let fits := fun (a : Chip) => decide (a.ridge.pBase + a.draws + j.draw ≤ a.ridge.pLim)
        let m0 := if j.crit then Chip.revokeWhile (fun a => !fits a) m.lasting m else m
        (if fits m0 then some 0 else none, j.draw, m0)
    match q with
    | none => m1.refuseJob k
    | some q =>
      let b := m1.ridge.level
      let cost : Int := (j.cost : Int) * 1000
      let ok := if j.crit then decide (-m1.floor ≤ b - cost) else decide (cost ≤ b)
      if !ok then m1.refuseJob k
      else
        let m2 := m1.setLevel (b - cost)
        let m3 := if b - cost < 0 then
            m2.post (ev 2 0x0403 1 k 0 (le 4 (BitVec.ofInt 32 ((b - cost) / 1000)).toNat)) else m2
        (.ok q, m3.startJob { j with draw := need, q := q })

/-! ### The end of a job (R225) -/

/-- Settle a bounded job: declared less measured cost goes back, up to CAP. -/
def Chip.settleJob (m : Chip) (cost : Nat) (measured : Option Nat) : Chip :=
  match measured with
  | some x => m.setLevel (min m.cap (m.ridge.level + ((cost : Int) - x) * 1000))
  | none => m

/-- Note the instant from which a gated domain is idle. -/
def Chip.markIdle (m : Chip) (d : Nat) : Chip :=
  m.withRidge { m.ridge with idleAt := AMap.put 0 d m.monoNs m.ridge.idleAt }

/-- End the first job that satisfies a test, with its measured cost if the unit measures it. -/
def Chip.endJob (m : Chip) (p : Job → Bool) (measured : Option Nat) : Chip :=
  match m.ridge.jobs.find? p with
  | none => m
  | some j =>
    let m1 := (m.setJobs (m.ridge.jobs.erase j)).settleJob j.cost measured
    if j.cls = 0 then ([5, 6, 7, 8].foldl Chip.markIdle m1).put R.RIDGE_STAT_QGRANT 0
    else match clsDomain j.cls with
      | some d => m1.markIdle d
      | none => m1

/-- JOB_CANCELLED: reason 0 profile, 1 thermal, 2 RELEASE timeout (Table 10-5). -/
def Chip.jobCancelled (m : Chip) (k reason : Nat) : Chip := m.post (ev 2 0x0405 2 k 0 (le 1 reason))

/-! ### Service jobs (R231) -/

/-- SUBMIT from a service core: the completion code. -/
def Chip.ridgeSubmit (m : Chip) (core cls cost draw : Nat) : Half × Chip :=
  if cls ≠ 4 ∧ cls ≠ 8 then (CC.checkFailed, m)
  else if 16 ≤ m.ridge.jobs.countP (fun j => (j.cls == 4 || j.cls == 8) && j.owner == core) then (CC.overflow, m)
  else match m.admitJob { cls := cls, cost := cost, draw := draw, owner := core } with
    | (.ok _, m1) => (CC.ok, m1)
    | (_, m1) => (CC.noBudget, m1)

/-- RELEASE: the oldest admitted job of a class from the calling core. -/
def Chip.ridgeRelease (m : Chip) (core cls : Nat) : Half × Chip :=
  (CC.ok, m.endJob (fun j => j.cls == cls && (cls == 4 || cls == 8) && j.owner == core) none)

/-- JOB_RELEASE_TIMEOUT: the oldest job of a class and core that has been held for 60 s. -/
def Chip.jobTimeout (m : Chip) (core cls : Nat) : Chip :=
  let due := fun (j : Job) => j.cls == cls && (cls == 4 || cls == 8) && j.owner == core && decide (j.since + 60000000000 ≤ m.monoNs)
  if m.ridge.jobs.any due then (m.endJob due none).jobCancelled cls 2 else m

/-! ### Commands -/

def execScanClockRelock (k : Fin 2) (s : State) : Host.Outcome State Fault Refusal := s.act (·.clockLocked k.val)
def execVcoreSettle (s : State) : Host.Outcome State Fault Refusal := s.act Chip.vcoreSettle
def execJobReleaseTimeout (c : Fin 36) (cls : Fin 16) (s : State) : Host.Outcome State Fault Refusal :=
  s.act (·.jobTimeout c.val cls.val)

end Sys2Proof.Machine
end

