-- ==== Sys2Proof/Machine/Meter.lean ====
section
/-! DEFINITION. Metering (chapter 13): the results of the waveform DSP, voltage events, pulses, virtual meters, accumulation intervals, the
keeper's totals in FRAM, and the power-fail flush. RMS values and interval energies are what the DSP has computed from the
bitstreams and come as operands (notes/assumptions/30.md). -/

namespace Sys2Proof.Machine

open Sys2Proof

/-! ### The channel table (Table 13-3) -/

/-- A metering channel entry. -/
structure MChan where
  kind : Nat
  flags : Nat
  source : Nat
  qty : Nat
  exp : Int
  param : Nat
  tag : BitVec 40
deriving DecidableEq, Repr

def mchanOf (b : List Byte) : MChan :=
  { kind := fld b 0 1, flags := fld b 1 1, source := fld b 2 1, qty := fld b 3 1, exp := sfield 8 (fld b 4 1), param := fld b 8 4,
    tag := BitVec.ofNat 40 (fld b 16 8) }

def Chip.mchan (m : Chip) (n : Nat) : MChan := mchanOf (m.bytes (.win .meterChan) (32 * n) 32)
def MChan.enabled (c : MChan) : Bool := c.kind != 0 && c.flags.testBit 0

/-- The enabled channels. -/
def Chip.mchans (m : Chip) : List Nat := (m.rows (.win .meterChan) 32).filter (fun n => (m.mchan n).enabled)

/-- The channels with a residue slot: enabled WAVE and PULSE. -/
def Chip.slotChans (m : Chip) : List Nat := m.mchans.filter (fun n => (m.mchan n).kind == 1 || (m.mchan n).kind == 2)

/-- Whether the DSP runs. -/
def Chip.dspOn (m : Chip) : Bool := m.unitOpen UK.meter && m.pdReady 12

def Chip.setMeter (m : Chip) (x : Meter) : Chip := m.withMeter x
def Chip.setTotals (m : Chip) (x : Totals) : Chip := m.withTotals x

/-- A UNIT write of a point, by the metering DSP or another unit. -/
def Chip.unitWrite (m : Chip) (tag : BitVec 40) (v : DWord) (second : DWord := 0) (q : Half := 0) : Chip :=
  (m.ptWrite .units { tag := tag, src := .unit, value := v, second := second, quality := q }).2

/-- The tag that a LO and HI register pair holds. -/
def Chip.tagReg (m : Chip) (lo hi : FRef) : BitVec 40 := BitVec.ofNat 40 (m.get lo + m.get hi % 256 * 2 ^ 32)

/-! ### Waveform results (R276 to R282) -/

def Chip.modFaulted (m : Chip) (c : Nat) : Bool := m.on (R.METER_SDM_STAT_MOD_FAULT c)

/-- MOD_FAULT and MOD_FAULT_CLEARED of a channel. -/
def Chip.modFault (m : Chip) (c : Nat) (on : Bool) : Chip :=
  if !m.hasWave || !m.dspOn || !m.on (R.METER_SDM_CFG_EN c) || m.modFaulted c == on then m
  else (m.put (R.METER_SDM_STAT_MOD_FAULT c) (bit on)).post (ev 13 0x0707 3 c 0 (le 1 (bit on)))

/-- RMS_WINDOW_END: metering point 0 to 9, or auxiliary channel a as 10 + a. -/
def Chip.windowEnd (m : Chip) (p : Nat) (w : MWindow) : Chip :=
  let on := if p < 10 then m.on (R.METER_MP_CFG_EN p) else m.on (R.METER_SDM_CFG_EN (50 + p))
  if m.hasWave && m.dspOn && on then m.setMeter { m.meter with windows := AMap.put {} p w m.meter.windows } else m

/-- The voltage channels that a wiring uses, by place 0 to 2; SINGLE uses V1, DELTA3 V1 and V3. -/
def usedPlaces (wiring : Nat) : List Nat := match wiring with | 0 => [0, 1, 2] | 1 => [0, 2] | _ => [0]

/-- A voltage event of metering point p ends. -/
def Chip.voltEnd (m : Chip) (p : Nat) (code : Half) (sev : Nat) (e : VoltEv) : Chip :=
  m.post (ev 13 code sev p e.start (le 4 ((m.now - e.start) / 1000000) ++ le 8 e.extreme.toNat ++ le 1 e.mask))

/-- Start, extend or end one kind of voltage event: what starts it, what keeps it, the better extreme, the phases that show it. -/
def stepVolt (now : Nat) (cur : Option VoltEv) (starts stays : Bool) (extreme : DWord) (pick : DWord → DWord → DWord) (mask : Nat) :
    Option VoltEv × Option VoltEv :=
  match cur with
  | none => if starts then (some ⟨now, extreme, mask⟩, none) else (none, none)
  | some e =>
    if stays then (some { e with extreme := pick e.extreme extreme, mask := e.mask ||| mask }, none) else (none, some e)

/-- HALF_CYCLE_REFRESH (R282): the half-cycle RMS of V1 to V3. -/
def Chip.halfCycle (m : Chip) (p : Nat) (v : List DWord) : Chip :=
  if !m.hasWave || !m.dspOn || !m.on (R.METER_MP_CFG_EN p) then m else
  let u := m.get64 (R.METER_MP_UDECL_LO p)
  let pct := fun (i : Nat) => Fp.fdiv (Fp.fmul (v.getD i 0) (Fp.fofNat 100)) u
  let used := usedPlaces (m.get (R.METER_MP_CFG_WIRING p))
  let n := fun (f : FRef) => Fp.fofNat (m.get f)
  let h := Fp.fdiv (n (R.METER_MP_THR_HYST p)) (Fp.fofNat 10)
  let dip := n (R.METER_MP_THR_DIP p)
  let swell := n (R.METER_MP_THR_SWELL p)
  let intr := n (R.METER_MP_THR_INTR p)
  let lowest := (used.map pct).foldl Fp.fmin (pct 0)
  let highest := (used.map pct).foldl Fp.fmax (pct 0)
  let maskOf := fun (f : DWord → Bool) => (used.filter (fun i => f (pct i))).foldl (fun a i => a + 2 ^ i) 0
  let (d, dEnd) := stepVolt m.now (assoc m.meter.dips p) (used.any (fun i => Fp.gt dip (pct i)))
    (used.any (fun i => Fp.gt (Fp.fadd dip h) (pct i))) lowest Fp.fmin (maskOf (fun x => Fp.gt dip x))
  let (s, sEnd) := stepVolt m.now (assoc m.meter.swells p) (used.any (fun i => Fp.gt (pct i) swell))
    (used.any (fun i => Fp.gt (pct i) (Fp.fsub swell h))) highest Fp.fmax (maskOf (fun x => Fp.gt x swell))
  let (k, kEnd) := stepVolt m.now (assoc m.meter.intrs p) (used.all (fun i => Fp.gt intr (pct i)))
    (used.all (fun i => Fp.gt (Fp.fadd intr h) (pct i))) lowest Fp.fmin (maskOf (fun x => Fp.gt intr x))
  let keep := fun (l : List (Nat × VoltEv)) (x : Option VoltEv) => match x with
    | some e => reassoc l p e
    | none => unassoc l p
  let m1 := m.setMeter { m.meter with dips := keep m.meter.dips d, swells := keep m.meter.swells s, intrs := keep m.meter.intrs k }
  let m2 := match dEnd with | some e => m1.voltEnd p 0x0704 2 e | none => m1
  let m3 := match sEnd with | some e => m2.voltEnd p 0x0705 2 e | none => m2
  match kEnd with | some e => m3.voltEnd p 0x0706 3 e | none => m3

/-! ### Pulse inputs (R283) -/

/-- PULSE_EDGE: a debounced level of an input, stamped with its raw edge. A rise counts one pulse. -/
def Chip.pulseEdge (m : Chip) (p : Nat) (level : Bool) (t : Nat) : Chip :=
  if !m.dspOn || !m.on (R.METER_PI_CFG_EN p) then m else
  let m1 := m.put (R.METER_PI_STAT_LEVEL p) (bit level)
  if !level then m1 else
  let x := m1.meter
  let minper := m1.get (R.METER_PI_CFG_MINPER p)
  let quick := match assoc x.lastPulse p with
    | some s => minper != 0 && decide (t < s + minper * 100000)
    | none => false
  let m2 := m1.setMeter { x with pulses := AMap.put 0 p (AMap.get 0 x.pulses p + 1) x.pulses, lastPulse := reassoc x.lastPulse p t }
  if !quick then m2
  else
    let m3 := m2.put (R.METER_PI_STAT_CHATTER p) 1
    if m3.meter.chatter.contains p then m3
    else (m3.setMeter { m3.meter with chatter := p :: m3.meter.chatter }).post (ev 13 0x0708 2 p m3.totals.interval [])

/-! ### Virtual meters (R284) -/

/-- The VIRTUAL channel of a zone. -/
def Chip.vmChan (m : Chip) (zone : Nat) : Option Nat :=
  m.mchans.find? (fun n => (m.mchan n).kind == 3 && (m.mchan n).param == zone)

/-- A diagnostic counter of METER: 0 WRAP, 1 PAIR, 2 CLAMP. -/
def Chip.meterCount (m : Chip) (k : Nat) : Chip :=
  m.count ⟨R.METER_WRAP_CNT.addr + 4 * k, 31, 0⟩ (some ⟨R.METER_STAT.addr, 26 + k, 26 + k⟩)

/-- Fold a fixture report into the virtual meter of its zone: counter (Wh), power (0.1 W), stamp (ns). -/
def Chip.vmReport (m : Chip) (fixture zone cnt pwr t : Nat) : Chip :=
  match m.vmChan zone with
  | none => m
  | some n =>
    let x := m.meter
    let nb : VmBase := ⟨cnt, pwr, t⟩
    match assoc x.base fixture with
    | none => m.setMeter { x with base := reassoc x.base fixture nb }
    | some f =>
      if t ≤ f.t then m
      else
        let dt := Fp.fdiv (Fp.fofNat (t - f.t)) (Fp.fofNat 3600000000000)
        let inc := Fp.fofNat ((cnt + 2 ^ 24 - f.cnt) % 2 ^ 24)
        let exp := Fp.fmul (Fp.fmul (Fp.fdiv (Fp.fofNat (f.pwr + pwr)) (Fp.fofNat 2)) (Fp.fdiv Fp.one (Fp.fofNat 10))) dt
        let tol := Fp.fadd (Fp.fdiv (Fp.fofNat (m.get R.METER_VM_TOL_ABS)) (Fp.fofNat 10))
          (Fp.fmul (Fp.fdiv (Fp.fofNat (m.get R.METER_VM_TOL_PCT)) (Fp.fofNat 100)) exp)
        let off := Fp.gt (Fp.absolute (Fp.fsub inc exp)) tol
        let add := if !off then inc else if Fp.gt exp inc then Fp.fmax 0 (Fp.fsub exp tol) else Fp.fadd exp tol
        let m1 := m.setMeter { x with base := reassoc x.base fixture nb,
                                      vacc := AMap.put 0 n (Fp.fadd (AMap.get 0 x.vacc n) add) x.vacc,
                                      vclamp := (if off && !x.vclamp.contains n then n :: x.vclamp else x.vclamp) }
        if off then (m1.meterCount 2).post (ev 13 0x0709 1 n fixture (le 8 inc.toNat ++ le 8 exp.toNat)) else m1

/-! ### Interval energies (R280, R289) -/

/-- The sum of a list of FP64 values in order. -/
def fsum (l : List DWord) : DWord := l.foldl Fp.fadd 0

/-- The active, reactive and apparent energy of element 0 to 2, or 3 for the total, of a metering point. -/
def Chip.pointEnergy (m : Chip) (l : List Energy) (p elem : Nat) : DWord × DWord × DWord :=
  let wiring := m.get (R.METER_MP_CFG_WIRING p)
  let mine := l.filter (fun e => e.point == p && (usedPlaces wiring).contains e.elem)
  if elem < 3 then
    match mine.find? (fun e => e.elem == elem) with
    | some e => (e.p, e.q, e.s)
    | none => (0, 0, 0)
  else
    let tp := fsum (mine.map Energy.p)
    let tq := fsum (mine.map Energy.q)
    let ts := if wiring = 1 then (Fp.sqrt 0 (Fp.fadd (Fp.fmul tp tp) (Fp.fmul tq tq))).1 else fsum (mine.map Energy.s)
    (tp, tq, ts)

/-- The magnitude that a WAVE channel takes by Table 13-1. -/
def quantity (qty : Nat) (p q s : DWord) : DWord :=
  let neg := fun (x : DWord) => Fp.sign x && !Fp.isZero x
  let quad := if neg p then (if neg q then 3 else 2) else (if neg q then 4 else 1)
  match qty % 8 with
  | 0 => if neg p then 0 else Fp.absolute p
  | 1 => if neg p then Fp.absolute p else 0
  | 6 => Fp.absolute s
  | k => if quad + 1 = k then Fp.absolute q else 0

/-- Wh, varh or VAh as LSB of 10^exp. -/
def toLsb (exp : Int) (wh : DWord) : DWord :=
  if exp < 0 then Fp.fmul wh (Fp.fofNat (10 ^ exp.natAbs)) else Fp.fdiv wh (Fp.fofNat (10 ^ exp.natAbs))

/-- What a channel has accumulated in the open interval, in LSB with its fraction. -/
def Chip.chanLsb (m : Chip) (l : List Energy) (n : Nat) : DWord :=
  let c := m.mchan n
  let raw := match c.kind with
    | 1 =>
      let (p, q, s) := m.pointEnergy l c.source (c.qty / 64)
      toLsb c.exp (Fp.fdiv (quantity c.qty p q s) (Fp.fofNat 3600))
    | 2 => Fp.fofNat (AMap.get 0 m.meter.pulses c.source * c.param)
    | _ => toLsb c.exp (AMap.get 0 m.meter.vacc n)
  Fp.fadd raw (AMap.get 0 m.meter.frac n)

/-- The whole LSB of an amount and the fraction that is carried. -/
def wholeLsb (x : DWord) : Nat × DWord :=
  if Fp.finite x then
    let w := (Fp.toInteger 1 x).1.toNat
    (w, Fp.fsub x (Fp.fofNat w))
  else (0, 0)

/-- RESIDUE_UPDATE: the OPEN slots take the interval's whole LSB so far; channels in `ovr` have shown a density outside 8 % to 92 %
since the last update (R276). -/
def Chip.residue (m0 : Chip) (l : List Energy) (ovr : List Nat) : Chip :=
  if !m0.dspOn then m0 else
  let m := (ovr.filter (· < 64)).foldl (fun a c => a.put (R.METER_SDM_STAT_OVR c) 1) m0
  let slots := m.slotChans.foldl (fun a n => AMap.put 0 n ((wholeLsb (m.chanLsb l n)).1 % 2 ^ 32) a) []
  m.setTotals { m.totals with opened := slots }

/-! ### Totals (R289 to R291) -/

/-- Bytes 0 to 59 of a totals record copy. -/
def TotRec.body (r : TotRec) : List Byte :=
  le 8 r.total.toNat ++ le 8 r.totalC.toNat ++ le 2 r.wrap.toNat ++ le 2 r.wrapC.toNat ++ le 4 r.last.toNat ++ le 8 r.ended.toNat ++
  le 8 r.lostStart.toNat ++ le 2 r.lost.toNat ++ le 2 r.flags.toNat ++ le 4 r.entry.toNat ++ le 8 0 ++ le 4 r.gen.toNat

/-- A copy is intact when its CRC verifies and both pairs are intact. -/
def TotRec.intact (r : TotRec) : Bool := r.crc == crc32c r.body && r.totalC == ~~~r.total && r.wrapC == ~~~r.wrap

def TotRec.bad (r : TotRec) : Bool := r.flags.getLsbD 0
def TotRec.setFlag (r : TotRec) (b : Nat) (v : Bool) : TotRec := { r with flags := BitVec.ofNat 16 (setBits r.flags.toNat b b (bit v)) }

def Chip.tot (m : Chip) (n : Nat) : TotRec × TotRec := AMap.get (zeroTot, zeroTot) m.totals.recs n

/-- Write a record: complements, next generation, CRC, primary and then mirror. -/
def Chip.setTot (m : Chip) (n : Nat) (r : TotRec) : Chip :=
  let r1 := { r with totalC := ~~~r.total, wrapC := ~~~r.wrap, gen := r.gen + 1 }
  let r2 := { r1 with crc := crc32c r1.body }
  m.setTotals { m.totals with recs := AMap.put (zeroTot, zeroTot) n (r2, r2) m.totals.recs }

/-- The record of a channel as Table 13-6 gives it, with the events of a rebuild or of a bad record. -/
def Chip.readTot (m : Chip) (n : Nat) : TotRec × Chip :=
  let (a, b) := m.tot n
  if a.intact then (a, m)
  else if b.intact then (b, m.post (ev 13 0x0701 2 n 0 (le 4 b.gen.toNat)))
  else
    let r := { a.setFlag 0 true with total := 0, wrap := 0 }
    (r, ((m.setTot n r).post (ev 13 0x0702 3 n 0 [] CC.pairFault)).meterCount 1)

/-- Add an interval's whole LSB to a channel's total and write its point (R289); a BAD record takes nothing. A record whose last folded
interval is not older is skipped where `skip` is set (R293). -/
def Chip.foldChan (m : Chip) (n count interval ended : Nat) (clamped gap skip : Bool) : Chip :=
  let (r, m1) := m.readTot n
  if r.bad || (skip && !newer (BitVec.ofNat 32 interval) r.last) then m1 else
  let sum := r.total.toNat + count
  let carry := decide (2 ^ 64 ≤ sum)
  let wrap : Half := if carry && r.wrap != 0xFFFF then r.wrap + 1 else r.wrap
  let r1 := { r with total := BitVec.ofNat 64 sum, wrap := wrap, last := BitVec.ofNat 32 interval, ended := BitVec.ofNat 64 ended }
  let m2 := m1.setTot n ((r1.setFlag 1 clamped).setFlag 2 gap)
  let m3 := if carry then (m2.meterCount 0).post (ev 13 0x0700 1 n wrap.toNat []) else m2
  let tag := (m3.mchan n).tag
  if tag = 0 then m3
  else m3.unitWrite tag r1.total (wrap.zeroExtend 64) (if clamped then 0x4400 else 0)

/-- The number of the interval before the open one. -/
def Totals.previous (t : Totals) : Nat := (t.interval + 2 ^ 32 - 1) % 2 ^ 32

/-- TOTAL_FOLD: the CLOSING bank and the VIRTUAL fold list of the interval that has closed. -/
def Chip.totalFold (m : Chip) : Chip :=
  let t := m.totals
  if !t.closingDue && m.meter.foldV.isEmpty then m else
  let gap := m.meter.gapRecs
  let wave := t.map.map (fun n => (n, AMap.get 0 t.closing n))
  let m1 := ((if t.closingDue then wave else []) ++ m.meter.foldV).foldl
    (fun a e => a.foldChan e.1 e.2 t.previous t.start (m.meter.foldClamp.contains e.1) gap false) m
  let m2 := m1.setTotals { m1.totals with closing := [], closingDue := false }
  (m2.setMeter { m2.meter with foldV := [], foldClamp := [], gapRecs := false }).put R.METER_STAT_FOLDING 0

/-! ### Instantaneous points (R281) -/

/-- The 20 values of Table 13-2, none where a value cannot be formed. -/
def Chip.block (m : Chip) (p : Nat) : List (Option DWord) :=
  let wiring := m.get (R.METER_MP_CFG_WIRING p)
  let used := usedPlaces wiring
  let w : MWindow := AMap.get {} m.meter.windows p
  let val := fun (l : List DWord) (i j : Nat) => if used.contains j then l[i]? else none
  let p3 := fsum (used.map (fun j => w.pqs.getD j 0))
  let q3 := fsum (used.map (fun j => w.pqs.getD (3 + j) 0))
  let s3 := if wiring = 1 then (Fp.sqrt 0 (Fp.fadd (Fp.fmul p3 p3) (Fp.fmul q3 q3))).1
    else fsum (used.map (fun j => w.pqs.getD (6 + j) 0))
  let have3 := decide (w.pqs.length = 9)
  let small := Fp.fdiv (Fp.fmul (m.get64 (R.METER_MP_UDECL_LO p)) (m.get64 (R.METER_SDM_GAIN_LO (6 * p + 3)))) (Fp.fofNat 1000)
  let pf := if Fp.gt small s3 then 0 else Fp.fdiv p3 s3
  [0, 1, 2].map (fun j => val w.rms j j) ++ [0, 1, 2].map (fun j => val w.rms (3 + j) j) ++
  [0, 1, 2].map (fun j => val w.pqs j j) ++ [0, 1, 2].map (fun j => val w.pqs (3 + j) j) ++
  [0, 1, 2].map (fun j => val w.pqs (6 + j) j) ++
  (if have3 then [some p3, some q3, some s3] else [none, none, none]) ++ [w.freq] ++ [if have3 then some pf else none]

/-- Write a list of optional values to consecutive points. -/
def Chip.writeBlock (m : Chip) (tag : BitVec 40) : Nat → List (Option DWord) → Chip
  | _, [] => m
  | i, none :: t => m.writeBlock tag (i + 1) t
  | i, some v :: t => (m.unitWrite (tag + BitVec.ofNat 40 i) v).writeBlock tag (i + 1) t

/-- Write the point blocks of every enabled metering point, and the auxiliary RMS values. -/
def Chip.instants (m : Chip) : Chip :=
  if !m.hasWave || !m.on R.METER_CTL_SDM_EN then m else
  let m1 := (List.range 10).foldl (fun a p =>
    let tag := a.tagReg (R.METER_MP_TAG_LO p) (R.METER_MP_TAG_HI p)
    let chans := ((usedPlaces (a.get (R.METER_MP_CFG_WIRING p))).map (fun j => [6 * p + j, 6 * p + 3 + j])).flatten
    if tag = 0 || !a.on (R.METER_MP_CFG_EN p) || chans.any a.modFaulted then a else a.writeBlock tag 0 (a.block p)) m
  (List.range 4).foldl (fun a k =>
    let tag := a.tagReg (R.METER_AUX_TAG_LO k) (R.METER_AUX_TAG_HI k)
    let w : MWindow := AMap.get {} a.meter.windows (10 + k)
    if tag = 0 || !a.on (R.METER_SDM_CFG_EN (60 + k)) || a.modFaulted (60 + k) then a else a.writeBlock tag 0 [w.rms.head?]) m1

/-! ### Accumulation intervals (R288, R289, R292) -/

/-- The length of an interval in nanoseconds. -/
def interval250 : Nat := 250000000

/-- Whether the open interval is due to close: a multiple of 250 ms of league time, or of the spine's count while league time is
untrusted, or a step of league time. -/
def Chip.closeDue (m : Chip) : Bool :=
  m.meter.stepClose || (if m.trusted then m.now / interval250 != m.meter.grid
    else decide (m.meter.openedAt + interval250 ≤ m.monoNs))

/-- Close the open interval with its energies: residues swap banks, VIRTUAL counts go to the fold list, the next interval opens. A fold
still in progress ends first. -/
def Chip.closeNow (m0 : Chip) (l : List Energy) : Chip :=
  let m := if m0.on R.METER_STAT_FOLDING then m0.totalFold else m0
  let chans := m.mchans
  let amounts := chans.map (fun n => (n, wholeLsb (m.chanLsb l n)))
  let isV := fun (n : Nat) => (m.mchan n).kind == 3
  let closing := (amounts.filter (fun e => !isV e.1)).foldl (fun a e => AMap.put 0 e.1 (e.2.1 % 2 ^ 32) a) []
  let frac := amounts.foldl (fun a e => AMap.put 0 e.1 e.2.2 a) []
  let foldV := (amounts.filter (fun e => isV e.1)).map (fun e => (e.1, e.2.1))
  let t := { m.totals with opened := [], closing := closing, closingDue := true, closeStart := m.totals.start, interval := (m.totals.interval + 1) % 2 ^ 32,
                           start := m.now, isOpen := true }
  let x := { m.meter with pulses := [], chatter := [], frac := frac, vacc := [], vclamp := [], foldV := foldV,
                          foldClamp := m.meter.vclamp, grid := m.now / interval250, openedAt := m.monoNs, stepClose := false }
  ((m.setTotals t).setMeter x).put R.METER_STAT_FOLDING 1

/-- INTERVAL_CLOSE; `peaks` holds the largest |D| of each channel in the interval. -/
def Chip.intervalClose (m : Chip) (l : List Energy) (peaks : List (Nat × Nat)) : Chip :=
  if m.dspOn && m.closeDue then
    (peaks.filter (fun e => decide (e.1 < 64))).foldl (fun a e => a.put (R.METER_SDM_STAT_PEAK e.1) e.2) (m.closeNow l).instants
  else m

/-! ### Start-up, the flush and lost intervals (R292, R293) -/

/-- Rebuild the slot-to-channel map when an apply changes it. -/
def Chip.remap (m : Chip) : Chip :=
  let l := m.slotChans
  let m1 := m.put R.METER_STAT_CHANNELS m.mchans.length
  if l = m1.totals.map then m1 else m1.setTotals { m1.totals with map := l, mapGen := m1.totals.mapGen + 1 }

/-- METER_FLUSH: both banks go to FRAM with a valid commit word, where an interval is open. -/
def Chip.meterFlush (m : Chip) : Chip :=
  let t := m.totals
  if !t.isOpen then m
  else m.setTotals { t with flush := some { interval := t.interval, start := t.start, pf := m.now, closingDue := t.closingDue,
                                            opened := t.opened, closing := t.closing } }

/-- Mark an interval lost in every record of the map. -/
def Chip.markLost (m : Chip) (start : Nat) (len : Word) (l : List Nat) : Chip :=
  let m1 := l.foldl (fun a n =>
    let (r, a1) := a.readTot n
    if r.bad then a1
    else a1.setTot n { r with lostStart := BitVec.ofNat 64 start, lost := (if r.lost = 0xFFFF then r.lost else r.lost + 1) }) m
  let m2 := ((m1.put64 R.METER_LOST_START_LO (BitVec.ofNat 64 start)).setReg R.METER_LOST_LEN.addr len).put
    R.METER_LOST_CNT_CHANNELS l.length
  (m2.put R.METER_STAT_LOST 1).post (ev 13 0x0703 3 0 start (le 4 len.toNat ++ le 2 l.length))

/-- FLUSH_RECOVERY: once after each start of PD2. `pf` is the PF time of the shutdown record, 0 for none. -/
def Chip.recover (m : Chip) (pf : Nat) : Chip :=
  if m.meter.recovered then m else
  let t := m.totals
  let m1 := m.setMeter { m.meter with recovered := true }
  match t.flush with
  | some f =>
    let fold := fun (a : Chip) (bank : AMap Nat) (i e : Nat) =>
      t.map.foldl (fun b n => b.foldChan n (AMap.get 0 bank n) i e false false true) a
    let m2 := if f.closingDue then fold m1 f.closing ((f.interval + 2 ^ 32 - 1) % 2 ^ 32) f.start else m1
    let m3 := fold m2 f.opened f.interval f.pf
    m3.setTotals { m3.totals with flush := none, opened := [], closing := [], closingDue := false, isOpen := false,
                                  interval := (f.interval + 1) % 2 ^ 32 }
  | none =>
    if !t.isOpen && !t.closingDue then m1
    else
      let len := fun (start : Nat) => if pf = 0 then (0xFFFFFFFF : Word) else BitVec.ofNat 32 ((pf - start) / 1000000)
      let m2 := if !t.closingDue then m1
        else if t.slotsLost then m1.markLost t.closeStart (len t.closeStart) (t.map ++ t.virt)
        else
          let a := t.map.foldl (fun b n => b.foldChan n (AMap.get 0 t.closing n) t.previous t.start false false true) m1
          if t.virt.isEmpty then a else a.markLost t.closeStart (len t.closeStart) t.virt
      let m3 := if t.isOpen then m2.markLost t.start (len t.start) t.map else m2
      m3.setTotals { m3.totals with opened := [], closing := [], closingDue := false, isOpen := false, slotsLost := false, virt := [],
                                    interval := (t.interval + 1) % 2 ^ 32 }

/-- LOST_MARKER_CLEAR: a write of 0 clears the marker. -/
def Chip.lostClear (m : Chip) (v : Word) : Chip :=
  if v = 0 then
    (((m.put64 R.METER_LOST_START_LO 0).setReg R.METER_LOST_LEN.addr 0).put R.METER_LOST_CNT_CHANNELS 0).put R.METER_STAT_LOST 0
  else m

/-! ### Apply edge (R277, R285, R291) -/

/-- REBASE of a channel whose new entry bytes are given. -/
def Chip.rebase (m : Chip) (n : Nat) : Chip :=
  let (r, m1) := m.readTot n
  let e := crc32c (m.bytes (.win .meterChan) (32 * n) 28)
  (m1.setTot n { zeroTot with lostStart := r.lostStart, lost := r.lost, entry := e, gen := r.gen }).post
    (ev 13 0x070A 1 n 0 (le 8 r.total.toNat ++ le 2 r.wrap.toNat))

/-- The baseline of a fixture is reset. -/
def Chip.vmReset (m : Chip) (fixture : Nat) : Chip := m.setMeter { m.meter with base := unassoc m.meter.base fixture }

/-- Disable of the DSP (R294): the open interval closes on its last sample. -/
def Chip.meterDisable (m : Chip) (l : List Energy) : Chip :=
  let m1 := m.closeNow l
  (m1.setTotals { m1.totals with isOpen := false }).setMeter { m1.meter with gapFrom := some m1.now }

/-- Enable: each record's first interval carries GAP, and METER_GAP is posted. -/
def Chip.meterEnable (m : Chip) : Chip :=
  match m.meter.gapFrom with
  | none => m
  | some g =>
    let m1 := m.setMeter { m.meter with gapFrom := none, gapRecs := true, grid := m.now / interval250, openedAt := m.monoNs }
    (m1.setTotals { m1.totals with start := m1.now, isOpen := true }).post (ev 13 0x070B 2 0 g (le 8 (m.now - g)))

/-! ### Commands -/

def execModFault (c : Fin 64) (s : State) : Host.Outcome State Fault Refusal := s.act (·.modFault c.val true)
def execModFaultCleared (c : Fin 64) (s : State) : Host.Outcome State Fault Refusal := s.act (·.modFault c.val false)
def execRmsWindowEnd (p : Fin 14) (rms pqs : List DWord) (freq : Option DWord) (s : State) : Host.Outcome State Fault Refusal :=
  s.act (·.windowEnd p.val ⟨rms, pqs, freq⟩)
def execHalfCycleRefresh (p : Fin 10) (v : List DWord) (s : State) : Host.Outcome State Fault Refusal := s.act (·.halfCycle p.val v)
def execPulseEdge (p : Fin 32) (level : Bool) (t : DWord) (s : State) : Host.Outcome State Fault Refusal :=
  s.act (·.pulseEdge p.val level t.toNat)
def execResidueUpdate (l : List Energy) (ovr : List Nat) (s : State) : Host.Outcome State Fault Refusal := s.act (·.residue l ovr)
def execIntervalClose (l : List Energy) (peaks : List (Nat × Nat)) (s : State) : Host.Outcome State Fault Refusal :=
  s.act (·.intervalClose l peaks)
def execTotalFold (s : State) : Host.Outcome State Fault Refusal := s.act Chip.totalFold
def execFlushRecovery (s : State) : Host.Outcome State Fault Refusal :=
  s.act (fun m => m.recover (m.get64 R.KEEP_PF_TIME_LO).toNat)
def execLostMarkerClear (v : Word) (s : State) : Host.Outcome State Fault Refusal := s.act (·.lostClear v)

end Sys2Proof.Machine
end

