-- ==== Sys2Proof/Machine/CommitCore.lean ====
section
/-! DEFINITION. The commit engine up to the apply edge (R56 to R63, R67): staging banks, GO, results, the check program, preparation,
waiting. The consistency rules are in Machine/Rules.lean and the apply edge in Machine/Apply.lean. -/

namespace Sys2Proof.Machine

open Sys2Proof

/-! ### Banks (R57) -/

def Chip.bank (m : Chip) (k : Nat) : Bank := AMap.get {} m.com.banks k

/-- Counted bytes of a bank: 8 for each 8-byte granule of table data, 16 for each point write. -/
def Bank.size (b : Bank) : Nat :=
  8 * ((b.bytes.map (fun e => (e.1, e.2.1 / 8))).eraseDups).length + 16 * b.points.length

/-- Set a channel's collecting bank; COMMIT_STAT and COMMIT_BYTES report it. -/
def Chip.setBank (m : Chip) (k : Nat) (b : Bank) : Chip :=
  let m1 := m.withCom { m.com with banks := AMap.put {} k b m.com.banks }
  ((m1.put (R.COMMIT_STAT_REG_COUNT k) b.regs.length).put (R.COMMIT_BYTES_BYTES k) b.size).put (R.COMMIT_STAT_STAGE_OVF k)
    (bit b.ovf)

/-- The staged word of a register. -/
def Bank.reg (b : Bank) (a : Nat) : Option Word := assoc b.regs a

/-- Stage a register word. -/
def Bank.stageReg (b : Bank) (a : Nat) (w : Word) : Bank :=
  if (b.reg a).isSome || decide (b.regs.length < 65536) then { b with regs := reassoc b.regs a w } else { b with ovf := true }

/-- Put one byte of a table into a bank. -/
def Bank.putByte (b : Bank) (w : Win) (off : Nat) (x : Byte) : Bank :=
  { b with bytes := b.bytes.filter (fun e => !(e.1 == w && e.2.1 == off)) ++ [(w, off, x)] }

def Bank.putBytes (b : Bank) (w : Win) : Nat → List Byte → Bank
  | _, [] => b
  | off, x :: t => (b.putByte w off x).putBytes w (off + 1) t

/-- A bank that has grown, or the old one with STAGE_OVF where the limit of 16 MiB is passed. -/
def Bank.grown (old new : Bank) : Bank := if new.size ≤ 16777216 then new else { old with ovf := true }

/-- Stage table bytes at an absolute offset. -/
def Bank.stageBytes (b : Bank) (w : Win) (off : Nat) (l : List Byte) : Bank := b.grown (b.putBytes w off l)

/-- Stage a point write; a later one to the same tag replaces it. -/
def Bank.stagePoint (b : Bank) (p : PtWrite) : Bank :=
  b.grown { b with points := b.points.filter (fun q => q.tag != p.tag) ++ [p] }

def Chip.stageReg (m : Chip) (k a : Nat) (w : Word) : Chip := m.setBank k ((m.bank k).stageReg a w)
def Chip.stageBytes (m : Chip) (k : Nat) (w : Win) (off : Nat) (l : List Byte) : Chip :=
  m.setBank k ((m.bank k).stageBytes w off l)
def Chip.stagePoint (m : Chip) (k : Nat) (p : PtWrite) : Chip := m.setBank k ((m.bank k).stagePoint p)

/-- DISCARD (R58). -/
def Chip.discard (m : Chip) (k : Nat) : Chip := m.setBank k {}

/-! ### Pending commits and results -/

def Chip.pend (m : Chip) (k : Nat) : Option PendCommit := assoc m.com.pend k
def Chip.setPend (m : Chip) (k : Nat) (p : PendCommit) : Chip :=
  m.withCom { m.com with pend := reassoc m.com.pend k p }
def Chip.phase (m : Chip) (k : Nat) : Nat := m.get (R.COMMIT_STAT_PHASE k)
def Chip.setPhase (m : Chip) (k p : Nat) : Chip := m.put (R.COMMIT_STAT_PHASE k) p

/-- Nothing failed. -/
def verdictOk : Verdict := ⟨CC.ok, 0, 0, 0⟩

/-- Write COMMIT_RES and COMMIT_RES_OBJ. -/
def Chip.result (m : Chip) (k : Nat) (v : Verdict) (aborted trap rej : Bool) : Chip :=
  let w : Nat := 2 ^ 31 + bit aborted * 2 ^ 30 + bit trap * 2 ^ 29 + bit rej * 2 ^ 28 + v.rule * 2 ^ 24 + v.unit * 2 ^ 16 + v.code.toNat
  (m.setReg (R.COMMIT_RES k).addr (BitVec.ofNat 32 w)).put64 (R.COMMIT_RES_OBJ_LO k) v.object

/-- End a pending commit: its result, no commit pending. The result of channel 3 is copied to LOOP_SWAP_RES (R268). -/
def Chip.finish (m : Chip) (k : Nat) (v : Verdict) (aborted trap rej : Bool) : Chip :=
  let m1 := m.withCom { m.com with pend := unassoc m.com.pend k }
  let m2 := ((m1.setPhase k 0).put (R.COMMIT_STAT_PENDING k) 0).result k v aborted trap rej
  if k = 3 then (m2.put R.LOOP_SWAP_RES_DONE 1).put R.LOOP_SWAP_RES_CODE v.code.toNat else m2

/-! ### GO (R58, R59) -/

/-- GO on a channel with a given verdict on its bank: BUSY while a commit is pending, OK at once for an empty bank, else the
bank freezes. -/
def Chip.goWith (m : Chip) (k : Nat) (judge : Bank → Option Verdict) : Chip :=
  if (m.pend k).isSome then m.result k ⟨CC.busy, 0, 0, 0⟩ false false false
  else if m.bank k = {} then m.result k verdictOk false false false
  else
    let b := m.bank k
    let lim := m.get (R.COMMIT_CHK_LIMIT k)
    let p : PendCommit := { set := b, mode := m.get (R.COMMIT_MODE_MODE k), task := m.get (R.COMMIT_MODE_TASK k),
                            instant := m.get64 (R.COMMIT_AT_LO k), entry := m.get (R.COMMIT_CHK_ENTRY k),
                            limit := (if lim = 0 then 10 else min lim 1000), verdict := judge b }
    (((m.setBank k {}).setPend k p).put (R.COMMIT_STAT_PENDING k) 1).setPhase k 1

/-! ### Replication to a standby twin (R170, R376) -/

/-- The words of a set as the COMMIT stream carries them. -/
def Bank.words (b : Bank) : List Nat :=
  b.regs.length :: ((b.regs.map (fun e => [e.1, e.2.toNat])).flatten ++ (b.bytes.map (fun e => [e.1.idx, e.2.1, e.2.2.toNat])).flatten ++
    (b.points.map (fun w => [w.tag.toNat, w.value.toNat, w.second.toNat])).flatten ++ b.loops ++ b.frames.map BitVec.toNat)

/-- Send the frozen set of channel k to the twin. -/
def Chip.sendSet (m : Chip) (k : Nat) (p : PendCommit) (swap : Bool) : Chip :=
  m.stream "COMMIT" (k :: p.mode :: p.task :: p.instant.toNat :: bit swap :: p.set.words)

/-- The commit of channel k has passed C1 to C11: preparation begins; a set that was not sent within C9 is sent. -/
def Chip.rulesPassed (m : Chip) (k : Nat) : Chip :=
  match m.pend k with
  | some p => (if p.forwarded then m else m.sendSet k p false).setPhase k 3
  | none => m

/-! ### The check program (R61) -/

/-- The core number of channel k's check program. -/
def checkCore (k : Nat) : Nat := 32 + k

/-- The data key of a check program's regions. -/
def checkKey (k : Nat) : Nat := 260 + k

/-- The data key of the program that runs on a core: its task, its check program's channel, or its service core. -/
def Core.dataKey (k : Core) (c : Nat) : Nat :=
  match k.level with
  | some .task => k.prog
  | some .check => 260 + (c - 32)
  | _ => 256 + (c - 32)

/-- Stop channel k's check program: the core takes its saved SERVICE program again and the job ends. -/
def Chip.checkStop (m : Chip) (k : Nat) : Chip :=
  let c := checkCore k
  let m1 := m.setCore c ((assoc m.scan.saved c).getD {})
  let m2 := m1.withScan { m1.scan with saved := unassoc m1.scan.saved c }
  m2.endJob (fun j => j.cls == 5 && j.owner == k) none

/-- Start it: the core takes the check program, saving a SERVICE program that runs. -/
def Chip.checkStart (m : Chip) (k : Nat) (g : Image) (p : PendCommit) : Chip :=
  let c := checkCore k
  let old := m.core c
  let m1 := if old.level.isSome then (m.withScan { m.scan with saved := reassoc m.scan.saved c old }) else m
  let m2 := (m1.loadData (checkKey k) g).setCore c (entryCore .check 2 p.entry g 0 m.stamp 0)
  (m2.setPend k { p with checkAt := m.now }).setPhase k 2

/-- COMMIT_RULES_DONE (R60, R61): the verdict of C1 to C10, then the check program's admission and start. -/
def Chip.rulesDone (m : Chip) (k : Nat) : Chip :=
  match m.pend k with
  | none => m
  | some p =>
    if m.phase k ≠ 1 ∨ p.awaitTwin then m else
    match p.verdict with
    | some v => m.finish k v false false false
    | none =>
      if p.entry = 0 then m.rulesPassed k
      else match m.imageAt p.entry with
        | none => m.finish k ⟨CC.checkFailed, 11, 1, BitVec.ofNat 64 p.entry⟩ false false false
        | some g =>
          if !g.service then m.finish k ⟨CC.checkFailed, 11, 1, BitVec.ofNat 64 p.entry⟩ false false false
          else match m.admitJob { cls := 5, cost := p.limit * 300 / 1000, draw := 300, crit := p.mode == 2, owner := k } with
            | (.ok _, m1) => m1.checkStart k g p
            | (_, m1) => m1.finish k ⟨CC.noBudget, 11, 1, 0⟩ false false false

/-- The check program of channel k ended with G0 (R61). -/
def Chip.checkEnded (m : Chip) (k : Nat) (g0 : DWord) : Chip :=
  match m.pend k with
  | none => m
  | some _ =>
    if m.phase k ≠ 2 then m
    else if g0 = 0 then (m.checkStop k).rulesPassed k
    else (m.checkStop k).finish k ⟨CC.checkFailed, 11, 1, (g0.extractLsb' 0 32).zeroExtend 64⟩ false false false

/-- The check program of channel k trapped, or its limit passed. -/
def Chip.checkTrapped (m : Chip) (k : Nat) : Chip :=
  if (m.pend k).isSome && m.phase k == 2 then (m.checkStop k).finish k ⟨CC.checkFailed, 11, 1, 0⟩ false true false else m

/-- CHECK_LIMIT_EXPIRY: COMMIT_CHK.LIMIT in league time from the program's start. -/
def Chip.checkLimit (m : Chip) (k : Nat) : Chip :=
  match m.pend k with
  | some p => if p.checkAt + p.limit * 1000000 ≤ m.now then m.checkTrapped k else m
  | none => m

/-! ### Preparation, waiting, abort (R62, R63, R67) -/

/-- Overlay entries that a set needs: one for each point that holds no unfolded entry. -/
def Chip.overlayNeed (m : Chip) (b : Bank) : Nat := b.points.countP (fun w => (m.overlayOf (tagIdx w.tag)).isNone)

/-- COMMIT_PREP_DONE: C12, else the commit waits; preparation that lacks overlay room goes on. -/
def Chip.prepDone (m : Chip) (k : Nat) : Chip :=
  match m.pend k with
  | none => m
  | some p =>
    if m.phase k ≠ 3 then m
    else if 2097152 < m.pts.overlay.length + m.overlayNeed p.set then m
    else if p.mode = 2 ∧ p.instant.toNat * 2 ^ 32 < m.clk.league then m.finish k ⟨CC.deadline, 12, 1, 0⟩ false false false
    else (m.setPend k { p with waitFrom := m.monoNs, taskEnded := false }).setPhase k 4

/-- COMMIT_TASK_TIMEOUT: no boundary within twice the period plus 1 s. -/
def Chip.taskTimeout (m : Chip) (k : Nat) : Chip :=
  match m.pend k with
  | some p =>
    if m.phase k == 4 && p.mode == 1 && decide (p.waitFrom + 2000 * (m.taskEnt p.task).period + 1000000000 ≤ m.monoNs) then
      m.finish k ⟨CC.timeout, 0, 0, 0⟩ false false false
    else m
  | none => m

/-- Cancel a pending commit (R65, R67). -/
def Chip.cancelCommit (m : Chip) (k : Nat) (aborted : Bool) : Chip :=
  if (m.pend k).isNone then m
  else (if m.phase k = 2 then m.checkStop k else m).finish k ⟨CC.superseded, 0, 0, 0⟩ aborted false false

/-- Whether a waiting commit's apply instant has come (R62). -/
def Chip.applyDue (m : Chip) (k : Nat) : Bool :=
  match m.pend k with
  | some p => m.phase k == 4 && (p.mode == 0 || (p.mode == 1 && p.taskEnded) || (p.mode == 2 && m.reached p.instant.toNat))
  | none => false

/-! ### Point writes of a set: C5, C6 and C8 (R43, R60) -/

/-- A failed rule on a point. -/
def pointFail (code : Half) (rule : Nat) (tag : BitVec 40) : Verdict := ⟨code, rule, 5, tag.zeroExtend 64⟩

/-- The descriptor that a point has under a chip's tables. -/
def Chip.boundDesc (m : Chip) (tag : BitVec 40) : Desc := m.desc (m.bindOf (tagIdx tag)).1

/-- C5 on a point write: the pair of a critical point. -/
def Chip.pointC5 (m : Chip) (w : PtWrite) : Option Verdict :=
  let d := m.boundDesc w.tag
  let (v, c) := d.widen w.value w.second
  if d.critical && !pairOk v c then some (pointFail CC.pairFault 5 w.tag) else none

/-- C6 on a point write: a critical FP64 value that is a NaN. -/
def Chip.pointC6 (m : Chip) (w : PtWrite) : Option Verdict :=
  let d := m.boundDesc w.tag
  if d.critical && d.isFp && Fp.isNan w.value then some (pointFail CC.nanResult 6 w.tag) else none

/-- C8 on a point write: a local point in range, bound to an intact descriptor whose mask admits PLAN. -/
def Chip.pointC8 (m : Chip) (w : PtWrite) : Option Verdict :=
  let d := m.boundDesc w.tag
  if m.local w.tag && !m.outOfRange w.tag && (m.bindOf (tagIdx w.tag)).1 != 0 && d.ok && d.mask.testBit 4 then none
  else some (pointFail CC.checkFailed 8 w.tag)

/-- C10: the apply instant of mode TASK or AT (R62); the object is COMMIT_MODE of channel k. -/
def Chip.ruleC10 (m : Chip) (k mode task : Nat) (instant : DWord) : Option Verdict :=
  let bad : Option Verdict := some ⟨CC.checkFailed, 10, 1, BitVec.ofNat 64 (R.COMMIT_MODE k).addr⟩
  if mode = 3 then bad
  else if mode = 1 then
    (if (m.taskEnt task).enabled && decide (m.tState task ≠ TS.stopped ∧ m.tState task ≠ TS.faulted) then none else bad)
  else if mode = 2 then (if !m.trusted || decide (m.now + 86400000000000 < instant.toNat) then bad else none)
  else none

/-- The first failure among optional verdicts. -/
def firstFail (l : List (Option Verdict)) : Option Verdict := (l.filterMap id).head?

/-- The rules of a set that holds point writes only (channel 1). -/
def Chip.pointRules (m : Chip) (mode task : Nat) (instant : DWord) (b : Bank) : Option Verdict :=
  firstFail ([if b.ovf then some ⟨CC.overflow, 1, 1, 0⟩ else none] ++ b.points.map m.pointC5 ++ b.points.map m.pointC6 ++
    b.points.map m.pointC8 ++ [m.ruleC10 1 mode task instant])

/-! ### Commands -/

def execDiscard (k : Fin 4) (s : State) : Host.Outcome State Fault Refusal := s.act (·.discard k.val)

end Sys2Proof.Machine
end

