-- ==== Sys2Proof/Machine/Loop.lean ====
section
/-! DEFINITION. The loop engine (chapter 12): configuration entries and coefficient banks, the PID law of R262, supervision, modes, bank
swaps and single writes, test generators and capture. -/

namespace Sys2Proof.Machine

open Sys2Proof

/-! ### Records (Tables 12-1 and 12-2) -/

/-- A loop configuration entry. -/
structure LoopEnt where
  flags : Nat
  action : Nat
  period : Nat
  phase : Nat
  feMs : Nat
  pv : BitVec 40
  sp : BitVec 40
  out : BitVec 40
  feLim : DWord
  safe : DWord
  ok : Bool
  zero : Bool
deriving DecidableEq, Repr

def loopEntOf (b : List Byte) : LoopEnt :=
  { flags := fld b 0 1, action := fld b 1 1, period := fld b 4 4, phase := fld b 8 4, feMs := fld b 12 4,
    pv := BitVec.ofNat 40 (fld b 16 8), sp := BitVec.ofNat 40 (fld b 24 8), out := BitVec.ofNat 40 (fld b 32 8),
    feLim := BitVec.ofNat 64 (fld b 40 8), safe := BitVec.ofNat 64 (fld b 48 8),
    ok := fld b 60 4 == (crc32c (b.take 60)).toNat,
    zero := fld b 2 2 == 0 && fld b 56 4 == 0 && fld b 21 3 == 0 && fld b 29 3 == 0 && fld b 37 3 == 0 }

def Chip.loopEnt (m : Chip) (n : Nat) : LoopEnt := loopEntOf (m.bytes (.win .loopCfg) (64 * n) 64)
def LoopEnt.enabled (e : LoopEnt) : Bool := e.flags.testBit 0
def LoopEnt.reverse (e : LoopEnt) : Bool := e.flags.testBit 1
def LoopEnt.single (e : LoopEnt) : Bool := e.flags.testBit 2

/-- A coefficient bank: the nodes (x, k) of the P and I tables, and the other coefficients. -/
structure Coef where
  pt : List (DWord × DWord)
  it : List (DWord × DWord)
  kd : DWord
  tf : DWord
  umin : DWord
  umax : DWord
deriving DecidableEq, Repr

/-- Coefficient number i of a bank. -/
def coefAt (b : List Byte) (i : Nat) : DWord := BitVec.ofNat 64 (fld b (8 * i) 8)

def coefOf (b : List Byte) : Coef :=
  { pt := (List.range 33).map (fun i => (coefAt b i, coefAt b (33 + i))),
    it := (List.range 33).map (fun i => (coefAt b (66 + i), coefAt b (99 + i))),
    kd := coefAt b 132, tf := coefAt b 133, umin := coefAt b 134, umax := coefAt b 135 }

/-- The table offset of a loop's bank. -/
def bankOff (n b : Nat) : Nat := 2304 * n + 1152 * b

def Chip.loopBank (m : Chip) (n : Nat) : Nat := m.get (R.LOOP_L_STAT_BANK n)
def Chip.coefs (m : Chip) (n b : Nat) : Coef := coefOf (m.bytes (.win .loopBank) (bankOff n b) 1152)

/-- Breakpoints that start at 0 and never fall. -/
def nodesRise : List (DWord × DWord) → Bool
  | a :: b :: t => !Fp.lt b.1 a.1 && nodesRise (b :: t)
  | _ => true

def nodesOk (l : List (DWord × DWord)) : Bool :=
  (match l with
    | a :: _ => Fp.isZero a.1
    | [] => true) && nodesRise l && l.all (fun e => !Fp.lt e.2 0)

/-- The bank conditions of Table 12-3. -/
def Coef.fit (c : Coef) (safe : DWord) : Bool :=
  (c.pt ++ c.it).all (fun e => Fp.finite e.1 && Fp.finite e.2) && [c.kd, c.tf, c.umin, c.umax].all Fp.finite &&
    nodesOk c.pt && nodesOk c.it && !Fp.lt c.kd 0 && !Fp.lt c.tf 0 && Fp.lt c.umin c.umax &&
    !Fp.isNan safe && !Fp.lt safe c.umin && !Fp.lt c.umax safe

/-! ### The law (R262) -/

/-- clamp of a coefficient set. -/
def Coef.clamp (c : Coef) (v : DWord) : DWord := if Fp.gt c.umin v then c.umin else if Fp.gt v c.umax then c.umax else v

/-- interp(table, a). -/
def interp : List (DWord × DWord) → DWord → DWord
  | (x0, k0) :: (x1, k1) :: t, a =>
    if !Fp.lt a x0 && Fp.lt a x1 then
      Fp.fadd k0 (Fp.fdiv (Fp.fmul (Fp.fsub k1 k0) (Fp.fsub a x0)) (Fp.fsub x1 x0))
    else interp ((x1, k1) :: t) a
  | [(_, k)], _ => k
  | [], _ => 0

/-- T_s in seconds of a period in µs. -/
def tsOf (period : Nat) : DWord := Fp.fdiv (Fp.fofNat period) (Fp.fofNat 1000000)

/-- What the law gives: u before and after its clamp, e, p, and the loop's next state. -/
structure Law where
  raw : DWord
  u : DWord
  e : DWord
  p : DWord
  st : LoopSt
deriving DecidableEq, Repr

/-- The control law of R262 from `e := ...` to `u := ...`, with the PV, the test signals, and the output point's value for a first sample. -/
def law (c : Coef) (ent : LoopEnt) (st : LoopSt) (pv injSp injOut uLast : DWord) : Law :=
  let s : DWord := if ent.reverse then 0xBFF0000000000000 else Fp.one
  let ts := tsOf ent.period
  let e := Fp.fmul s (Fp.fsub (Fp.fadd st.spGood injSp) pv)
  let p := Fp.fmul (interp c.pt (Fp.absolute e)) e
  let (i, d) :=
    if st.first then (c.clamp (Fp.fsub uLast p), (0 : DWord))
    else
      let d := if st.havePrev then
          Fp.fsub (Fp.fmul (Fp.fdiv c.tf (Fp.fadd c.tf ts)) st.d)
            (Fp.fmul (Fp.fdiv (Fp.fmul s c.kd) (Fp.fadd c.tf ts)) (Fp.fsub pv st.pvPrev))
        else 0
      let new := c.clamp (Fp.fadd st.i (Fp.fmul (Fp.fmul (interp c.it (Fp.absolute e)) e) ts))
      let unc := Fp.fadd (Fp.fadd (Fp.fadd p new) d) injOut
      let up := Fp.gt unc c.umax && Fp.gt e 0
      let down := Fp.gt c.umin unc && Fp.gt 0 e
      (if !(up || down) then new else st.i, d)
  let raw := Fp.fadd (Fp.fadd (Fp.fadd p i) d) injOut
  { raw := raw, u := c.clamp raw, e := e, p := p,
    st := { st with first := false, i := i, d := d, pvPrev := pv, havePrev := true } }

/-! ### Loop state -/

namespace LS

def off : Nat := 0
def auto : Nat := 1
def manual : Nat := 2
def hold : Nat := 3
def safe : Nat := 4

end LS

def Chip.loopSt (m : Chip) (n : Nat) : LoopSt := AMap.get {} m.loop.loops n
def Chip.setLoopSt (m : Chip) (n : Nat) (x : LoopSt) : Chip :=
  m.withLoop { m.loop with loops := AMap.put {} n x m.loop.loops }

def Chip.loopState (m : Chip) (n : Nat) : Nat := m.get (R.LOOP_L_STAT_STATE n)

/-- The enabled loops. -/
def Chip.loopsOn (m : Chip) : List Nat := (m.rows (.win .loopCfg) 64).filter (fun n => decide (n < 512) && (m.loopEnt n).enabled)

/-- Whether the engine samples. -/
def Chip.loopRuns (m : Chip) : Bool := m.unitOpen UK.loop && m.pdReady 12 && m.leads

/-- Set a sticky flag of a loop. -/
def Chip.loopFlag (m : Chip) (n b : Nat) : Chip :=
  m.put (R.LOOP_L_STAT_FLAGS n) (setBits (m.get (R.LOOP_L_STAT_FLAGS n)) b b 1)

/-- A diagnostic counter of the engine: 0 PAIR, 1 FE, 2 REJ. -/
def Chip.loopCount (m : Chip) (k : Nat) : Chip :=
  m.count ⟨R.LOOP_PAIR_CNT.addr + 4 * k, 31, 0⟩ (some ⟨R.LOOP_STAT.addr, 28 + k, 28 + k⟩)

/-! ### Capture (R272) -/

/-- The enabled capture channels. -/
def Chip.capChans (m : Chip) : List Nat := (List.range 16).filter (fun c => m.on (R.LOOP_CAP_CH_EN c))

def Chip.capState (m : Chip) : Nat := m.get R.LOOP_CAP_STAT_STATE

def Chip.setCap (m : Chip) (l : AMap (List DWord)) : Chip := m.withLoop { m.loop with cap := l }

/-- Fewest samples held by an enabled channel. -/
def Chip.capFill (m : Chip) : Chip :=
  let n := m.capChans.map (fun c => (AMap.get [] m.loop.cap c).length)
  m.put R.LOOP_CAP_STAT_FILL (match n with
    | [] => 0
    | a :: t => t.foldl min a)

/-- The capture ends: 0 full, 1 STOP, 2 disable. -/
def Chip.capEnd (m : Chip) (why : Nat) : Chip :=
  if m.capState = 1 ∨ m.capState = 2 then
    (m.put R.LOOP_CAP_STAT_STATE 3).post (ev 0x0C 0x0604 0 0 (m.get64 R.LOOP_CAP_TRIG_LO).toNat (le 1 why))
  else m

/-- The trigger edge. -/
def Chip.capTrigger (m : Chip) : Chip :=
  if m.capState = 1 then (m.put R.LOOP_CAP_STAT_STATE 2).put64 R.LOOP_CAP_TRIG_LO m.stamp else m

/-- A possible trigger of a kind: 1 start of a generator, 2 a fault of a loop. -/
def Chip.capMaybe (m : Chip) (kind arg : Nat) : Chip :=
  if m.get R.LOOP_CAP_CTL_TRIG = kind ∧ m.get R.LOOP_CAP_CTL_ARG = arg then m.capTrigger else m

/-- Samples kept before the trigger. -/
def Chip.capPre (m : Chip) : Nat := min 32768 (m.get R.LOOP_CAP_CTL_PRE)

/-- Record a loop's signals in its channels. -/
def Chip.capRecord (m : Chip) (n : Nat) (sig : List DWord) : Chip :=
  if m.capState ≠ 1 ∧ m.capState ≠ 2 then m else
  let mine := m.capChans.filter (fun c => m.get (R.LOOP_CAP_CH_LOOP c) == n)
  let m1 := mine.foldl (fun a c =>
    let l := AMap.get [] a.loop.cap c ++ [sig.getD (a.get (R.LOOP_CAP_CH_SIG c)) 0]
    let l1 := if a.capState = 1 then l.drop (l.length - a.capPre) else l.take 65536
    a.setCap (AMap.put [] c l1 a.loop.cap)) m
  let m2 := m1.capFill
  if m2.capState = 2 ∧ m2.get R.LOOP_CAP_STAT_FILL = 65536 then m2.capEnd 0 else m2

/-- ARM: ignored unless the capture is idle or done. -/
def Chip.capArm (m : Chip) : Chip :=
  if m.capState = 1 ∨ m.capState = 2 then m
  else
    let m1 := ((m.setCap []).put R.LOOP_CAP_STAT_STATE 1).put R.LOOP_CAP_STAT_FILL 0
    if m1.get R.LOOP_CAP_CTL_TRIG = 0 ∨ m1.get R.LOOP_CAP_CTL_TRIG = 3 then m1.capTrigger else m1

/-- Word w of capture channel c as the window reads it: unfilled samples are a NaN with payload 0; zero unless the capture is done. -/
def Chip.capWord (m : Chip) (off : Nat) : Word :=
  if m.capState ≠ 3 then 0 else
  let v := (AMap.get [] m.loop.cap (off / 524288)).getD (off % 524288 / 8) Fp.defaultNan
  if off % 8 < 4 then v.extractLsb' 0 32 else v.extractLsb' 32 32

/-! ### Test generators (R270, R271) -/

/-- The feedback bits of a PRBS order (Table 12-5). -/
def prbsTaps (m : Nat) : List Nat :=
  match m with
  | 7 => [0, 1] | 8 => [0, 2, 3, 4] | 9 => [0, 4] | 10 => [0, 3] | 11 => [0, 2] | 12 => [0, 1, 2, 8] | 13 => [0, 1, 2, 5]
  | 14 => [0, 1, 2, 12] | _ => [0, 1]

/-- The next PRBS register. -/
def prbsNext (m r : Nat) : Nat :=
  let f := (prbsTaps m).foldl (fun a b => a != r.testBit b) false
  r / 2 + bit f * 2 ^ (m - 1)

/-- Whether a test has ended before its next sample. -/
def Gen.over (g : Gen) : Bool := if g.typ = 1 then decide (g.rep * (2 ^ g.order - 1) * g.n ≤ g.j) else decide (g.n ≤ g.j)

/-- The value of the next test sample. -/
def Gen.value (g : Gen) (period : Nat) : DWord :=
  match g.typ with
  | 0 => g.amp
  | 1 => if g.r % 2 = 1 then g.amp else Fp.negate g.amp
  | _ => Config.sweep g.amp g.f0 g.f1 g.n period g.j

/-- One sample on. -/
def Gen.advance (g : Gen) : Gen :=
  { g with j := g.j + 1, r := (if g.typ = 1 ∧ (g.j + 1) % g.n = 0 then prbsNext g.order g.r else g.r) }

def Chip.setGens (m : Chip) (l : List (Nat × Gen)) : Chip := m.withLoop { m.loop with gens := l }

/-- LOOP_L_STAT.TEST of a loop. -/
def Chip.testBit (m : Chip) (n : Nat) : Chip := m.put (R.LOOP_L_STAT_TEST n) (bit (m.loop.gens.any (fun e => e.2.loop == n)))

/-- A test ends with a code. -/
def Chip.testEnd (m : Chip) (g : Nat) (code : Half) (aborted : Bool) : Chip :=
  match assoc m.loop.gens g with
  | none => m
  | some x =>
    let m1 := ((m.setGens (unassoc m.loop.gens g)).put (R.LOOP_TG_STAT_RUNNING g) 0).put (R.LOOP_TG_STAT_CODE g) code.toNat
    ((m1.put (R.LOOP_TG_STAT_ABORTED g) (bit aborted)).testBit x.loop).post
      (ev 0x0C 0x0603 (if code = CC.ok then 0 else 2) g x.loop [] code)

/-- End every test of a loop that has left AUTO. -/
def Chip.testsLeave (m : Chip) (n : Nat) : Chip :=
  (m.loop.gens.filter (fun e => e.2.loop == n)).foldl (fun a e => a.testEnd e.1 CC.checkFailed false) m

/-- Whether a generator's parameters satisfy R271 for a loop's period. -/
def Gen.fit (g : Gen) (period : Nat) : Bool :=
  Fp.finite g.amp && decide (1 ≤ g.n) &&
  (match g.typ with
    | 0 => true
    | 1 => decide (7 ≤ g.order)
    | 2 => Fp.lt 0 g.f0 && Fp.gt g.f1 g.f0 && !Fp.isNan g.f1 && !Fp.isNan g.f0 &&
           !Fp.gt g.f1 (Fp.fdiv Fp.one (Fp.fmul (Fp.fofNat 4) (tsOf period)))
    | _ => false)

/-- GO on a generator. -/
def Chip.testGo (m : Chip) (g : Nat) : Chip :=
  let n := m.get (R.LOOP_TG_CTL_LOOP g)
  let rep := m.get (R.LOOP_TG_LEN_REPEAT g)
  let order := m.get (R.LOOP_TG_CTL_ORDER g)
  let x : Gen := { loop := n, out := m.on (R.LOOP_TG_CTL_TARGET g), typ := m.get (R.LOOP_TG_CTL_TYPE g), order := order,
                   amp := m.get64 (R.LOOP_TG_AMP_LO g), n := m.get (R.LOOP_TG_LEN_LEN g), rep := (if rep = 0 then 1 else rep),
                   f0 := m.get64 (R.LOOP_TG_F0_LO g), f1 := m.get64 (R.LOOP_TG_F1_LO g), r := 2 ^ order - 1 }
  let code := fun (a : Chip) (c : Half) => a.put (R.LOOP_TG_STAT_CODE g) c.toNat
  if !m.unitOpen UK.loop then code m CC.cancelled
  else if (assoc m.loop.gens g).isSome then code m CC.busy
  else if !(m.loopEnt n).enabled || m.loop.gens.any (fun e => e.2.loop == n && e.2.out == x.out) ||
      !x.fit (m.loopEnt n).period then code m CC.checkFailed
  else (((code (m.setGens (reassoc m.loop.gens g x)) CC.ok).put (R.LOOP_TG_STAT_RUNNING g) 1).put (R.LOOP_TG_STAT_ABORTED g) 0).testBit n

/-- The injections of a loop's next sample, with tests that are over ended and a capture triggered by a start. -/
def Chip.inject (m : Chip) (n period : Nat) : DWord × DWord × Chip :=
  let m1 := (m.loop.gens.filter (fun e => e.2.loop == n && e.2.over)).foldl (fun a e => a.testEnd e.1 CC.ok false) m
  let mine := m1.loop.gens.filter (fun e => e.2.loop == n)
  let m2 := (mine.filter (fun e => e.2.j == 0)).foldl (fun a e => a.capMaybe 1 e.1) m1
  let of := fun (out : Bool) => match mine.find? (fun e => e.2.out == out) with
    | some e => e.2.value period
    | none => 0
  (of false, of true, m2.setGens (m2.loop.gens.map (fun e => if e.2.loop = n then (e.1, e.2.advance) else e)))

/-! ### The sample (R262, R263, R266, R267) -/

/-- The code, the quality state and the value of a read through the units' port. -/
def Chip.loopRead (m : Chip) (tag : BitVec 40) : Half × PointRec × Chip :=
  let (c, r, m1) := m.ptRead .units tag
  (c, r.getD unboundRec, m1)

/-- Post LOOP_FAULT for a flag; a capture may trigger on it. -/
def Chip.loopFault (m : Chip) (n b : Nat) (ent : LoopEnt) (cc : Half) : Chip :=
  (m.post (ev 0x0C 0x0600 2 n (if b = 1 ∨ b = 2 then ent.sp else ent.pv).toNat (le 1 b) cc)).capMaybe 2 n

/-- hold(cause): nothing is written; the first sample of a HOLD run posts LOOP_FAULT. -/
def Chip.loopHold (m : Chip) (n b : Nat) (ent : LoopEnt) : Chip :=
  let st := m.loopSt n
  let m1 := ((m.loopFlag n b).put (R.LOOP_L_STAT_STATE n) LS.hold).setLoopSt n { st with holdRun := true }
  if st.holdRun then m1 else m1.loopFault n b ent 0

/-- Write an output: refused writes set OUT_REJ and count. -/
def Chip.loopWrite (m : Chip) (n : Nat) (ent : LoopEnt) (u : DWord) : Chip :=
  let (c, m1) := m.ptWrite .units { tag := ent.out, src := .unit, value := u }
  if c = CC.ok then m1 else (m1.loopFlag n 5).loopCount 2

/-- Write a value after its clamp, in a state; SAT_HI and SAT_LO show the clamp. -/
def Chip.loopOut (m : Chip) (n : Nat) (ent : LoopEnt) (c : Coef) (raw : DWord) (state : Nat) : Chip :=
  let m1 := ((m.put (R.LOOP_L_STAT_SAT_HI n) (bit (Fp.gt raw c.umax))).put (R.LOOP_L_STAT_SAT_LO n) (bit (Fp.gt c.umin raw))).put
    (R.LOOP_L_STAT_STATE n) state
  (m1.setLoopSt n { m1.loopSt n with holdRun := false }).loopWrite n ent (c.clamp raw)

/-- supervise(e) (R266). -/
def Chip.loopSupervise (m : Chip) (n : Nat) (ent : LoopEnt) (e : DWord) : Chip :=
  let st := m.loopSt n
  if !Fp.gt (Fp.absolute e) ent.feLim then m.setLoopSt n { st with acc := 0, fired := false }
  else
    let acc := st.acc + ent.period
    if st.fired || decide (acc < ent.feMs * 1000) then m.setLoopSt n { st with acc := acc }
    else
      let m1 := (m.setLoopSt n { st with acc := acc, fired := true, latch := ent.action }).loopFlag n 3
      let m2 := (((m1.loopCount 1).post (ev 0x0C 0x0601 3 n ent.out.toNat (le 8 e.toNat ++ le 1 ent.action))).capMaybe 2 n)
      match ent.action with
      | 1 => m2.put (R.LOOP_L_STAT_STATE n) LS.hold
      | 2 => m2.put (R.LOOP_L_STAT_STATE n) LS.safe
      | _ => m2

/-- Read the setpoint pair: a broken pair, an unusable one, or sp_good. -/
def Chip.loopSetpoint (m : Chip) (n : Nat) (ent : LoopEnt) : Chip :=
  let (c, r, m1) := m.loopRead ent.sp
  let st := m1.loopSt n
  if c = CC.pairFault ∨ !pairOk r.value r.second then
    let m2 := ((m1.setLoopSt n { st with pairRun := true }).loopFlag n 1).loopCount 0
    if st.pairRun then m2 else m2.loopFault n 1 ent CC.pairFault
  else if c = CC.ok ∧ Q.state r.quality < 2 ∧ !Fp.isNan r.value then
    m1.setLoopSt n { st with pairRun := false, spGood := r.value, haveSp := true }
  else (m1.setLoopSt n { st with pairRun := false }).loopFlag n 2

/-- u_last of a first sample (R264). -/
def Chip.loopLast (m : Chip) (ent : LoopEnt) (c : Coef) : DWord × Chip :=
  let (_, r, m1) := m.loopRead ent.out
  (if Q.state r.quality < 2 then r.value else c.umin, m1)

/-- Change the kept capture signals by place. -/
def setSigs (l : List DWord) (new : List (Nat × DWord)) : List DWord :=
  new.foldl (fun a e => a.set e.1 e.2) ((l ++ List.replicate 8 0).take 8)

/-- Keep signals of a loop. -/
def Chip.loopSig (m : Chip) (n : Nat) (new : List (Nat × DWord)) : Chip :=
  let st := m.loopSt n
  m.setLoopSt n { st with sig := setSigs st.sig new }

/-- A sample in AUTO once the PV and the setpoint are usable: the law, the write, LOOP_L_MAN, supervision. -/
def Chip.loopAuto (m : Chip) (n : Nat) (ent : LoopEnt) (c : Coef) (pv : DWord) : Chip :=
  let (injSp, injOut, m1) := m.inject n ent.period
  let (last, m2) := if (m1.loopSt n).first then m1.loopLast ent c else (0, m1)
  let r := law c ent (m2.loopSt n) pv injSp injOut last
  let m3 := (((m2.setLoopSt n r.st).loopOut n ent c r.raw LS.auto).put64 (R.LOOP_L_MAN_LO n) r.u).loopSupervise n ent r.e
  m3.loopSig n [(0, Fp.fadd r.st.spGood injSp), (2, r.e), (3, r.p), (4, r.st.i), (5, r.st.d), (6, r.u),
    (7, if Fp.isZero injSp then injOut else injSp)]

/-- sample(n) of R262, from the bank check on. -/
def Chip.loopBody (m : Chip) (n : Nat) : Chip :=
  let ent := m.loopEnt n
  let c := m.coefs n (m.loopBank n)
  if !m.on R.LOOP_CTL_RUN then m.put (R.LOOP_L_STAT_STATE n) LS.hold
  else if !c.fit ent.safe then m.loopHold n 4 ent
  else
    let (_, r, m1) := m.loopRead ent.pv
    let m2 := (m1.loopSetpoint n ent).loopSig n [(1, r.value)]
    let st := m2.loopSt n
    if m2.get (R.LOOP_L_CTL_MODE n) = 1 then
      let man := m2.get64 (R.LOOP_L_MAN_LO n)
      ((m2.setLoopSt n { st with first := true }).loopOut n ent c man LS.manual).loopSig n [(6, c.clamp man)]
    else if st.latch = 2 then (m2.loopOut n ent c ent.safe LS.safe).loopSig n [(6, ent.safe)]
    else if st.latch = 1 then m2.put (R.LOOP_L_STAT_STATE n) LS.hold
    else if 2 ≤ Q.state r.quality ∨ Fp.isNan r.value then (m2.setLoopSt n { st with havePrev := false }).loopHold n 0 ent
    else if !st.haveSp then m2.loopHold n 2 ent
    else m2.loopAuto n ent c r.value

/-- A grid instant of a loop. -/
def LoopEnt.gridAt (e : LoopEnt) (now : Nat) : Option Nat :=
  let p := 1000 * e.period
  if p = 0 ∨ now < 1000 * e.phase then none else some (now - (now - 1000 * e.phase) % p)

/-- Regard every grid instant up to now as past. -/
def Chip.loopAnchor (m : Chip) (n : Nat) : Chip := m.setLoopSt n { m.loopSt n with gridDone := (m.loopEnt n).gridAt m.now }

/-- After a step of league time (R261, R141). -/
def Chip.loopStep (m : Chip) (n : Nat) : Chip :=
  m.setLoopSt n { m.loopSt n with gridDone := if m.now = 0 then none else (m.loopEnt n).gridAt (m.now - 1) }

/-- LOOP_SAMPLE: the grid instant of this edge, where it has not been dealt with. A loop that leaves AUTO ends its tests. -/
def Chip.loopSample (m : Chip) (n : Nat) : Chip :=
  let ent := m.loopEnt n
  let st := m.loopSt n
  match ent.gridAt m.now with
  | none => m
  | some inst =>
    let dealt := match st.gridDone with
      | some g => decide (inst ≤ g)
      | none => false
    if !ent.enabled || dealt || !m.loopRuns then m else
    let spaced := match st.prevMono with
      | some p => decide (500 * ent.period ≤ m.monoNs - p)
      | none => true
    let m1 := m.setLoopSt n { st with gridDone := some inst }
    if !spaced then m1
    else
      let m2 := (m1.setLoopSt n { m1.loopSt n with prevMono := some m.monoNs }).loopBody n
      let m3 := m2.capRecord n (setSigs (m2.loopSt n).sig [])
      let m4 := m3.stream "LOOP" (n :: m3.get (R.LOOP_L_STAT n) :: ((m3.loopSt n).sig.map BitVec.toNat))
      if m4.loopState n = LS.auto then m4 else m4.testsLeave n

/-! ### Modes (R265, R266) -/

/-- A write of LOOP_L_CTL: the mode; a latch and its accumulator are cleared, and RESET starts the loop again under R264. -/
def Chip.loopCtl (m : Chip) (n : Nat) (mode : Option Nat) (reset : Bool) : Chip :=
  let m1 := match mode with
    | some v => m.put (R.LOOP_L_CTL_MODE n) v
    | none => m
  let st := m1.loopSt n
  m1.setLoopSt n { st with latch := 0, acc := 0, fired := false, first := st.first || reset || st.latch != 0 }

/-! ### Bank swaps and single writes (R268, R269) -/

/-- The edit copy of a loop's inactive bank. -/
def Chip.editCopy (m : Chip) (n : Nat) : List Byte :=
  let off := bankOff n (1 - m.loopBank n)
  (List.range 1152).map (fun i => match assoc (m.loopSt n).edit i with
    | some b => b
    | none => m.byte (.win .loopBank) (off + i))

/-- Write a word of an edit copy. -/
def Chip.editWrite (m : Chip) (n off : Nat) (v : Word) : Chip :=
  let st := m.loopSt n
  let l := (List.range 4).foldl (fun a i => reassoc a (off + i) (BitVec.ofNat 8 (v.toNat / 256 ^ i))) st.edit
  m.setLoopSt n { st with edit := l }

/-- A write to a word of the active bank of a loop (R269). A low word is held; its high word applies both. -/
def Chip.singleWrite (m : Chip) (r : Req) (n off : Nat) (v : Word) : Chip :=
  let sp := Space.win .loopBank
  let base := bankOff n (m.loopBank n)
  let key := sp.key (base + off)
  let x := m.req r
  if !(m.loopEnt n).single then m.loopCount 2
  else if off % 8 = 0 ∧ off < 1088 then m.setReq r { x with held := reassoc x.held key v }
  else
    let m1 := match assoc x.held (key - 4) with
      | some lo => (m.setReq r { x with held := unassoc x.held (key - 4) }).wr sp (base + off - 4) 4 lo.toNat
      | none => m
    m1.wr sp (base + off) 4 v.toNat

/-- The loops that LOOP_SWAP_SET names. -/
def Chip.swapSet (m : Chip) : List Nat :=
  (List.range 512).filter (fun n => (m.get (R.LOOP_SWAP_SET (n / 32))).testBit (n % 32))

/-- R260 on the tables as a set leaves them: a condition of Table 12-3 that an enabled loop breaks, at its table offset. -/
def Chip.loopC9 (n : Chip) : Option Verdict :=
  let bad := fun (o : Nat) => (some ⟨CC.checkFailed, 9, 0x0C, BitVec.ofNat 64 o⟩ : Option Verdict)
  let on := n.loopsOn
  let usable := fun (t : BitVec 40) (p : Desc → Bool) =>
    n.local t && !n.outOfRange t && (n.bindOf (tagIdx t)).1 != 0 && p (n.desc (n.bindOf (tagIdx t)).1)
  let entOk := fun (k : Nat) =>
    let e := n.loopEnt k
    e.ok && e.zero && decide (e.flags < 8 ∧ e.action ≤ 2 ∧ 500 ≤ e.period ∧ e.period ≤ 10000000 ∧ e.period % 10 = 0 ∧
      e.phase < e.period ∧ 1 ≤ e.feMs ∧ e.feMs ≤ 3600000) &&
    usable e.pv (fun d => d.isFp) && usable e.sp (fun d => d.isFp && d.critical) &&
    usable e.out (fun d => d.isFp && !d.critical && d.mask.testBit 1) &&
    on.all (fun j => j == k || (n.loopEnt j).out != e.out) && Fp.finite e.feLim && Fp.gt e.feLim 0
  let load := on.foldl (fun a k => (a.1 * (n.loopEnt k).period + 1000000 * a.2, a.2 * (n.loopEnt k).period)) (0, 1)
  match on.find? (fun k => !entOk k) with
  | some k => bad (Win.obj .loopCfg (64 * k))
  | none =>
    if 262144 * load.2 < load.1 then bad (Win.obj .loopCfg 0)
    else match on.find? (fun k => !(n.coefs k (n.loopBank k)).fit (n.loopEnt k).safe) with
      | some k => bad (Win.obj .loopBank (bankOff k (n.loopBank k)))
      | none => none

/-- LOOP_STAT.LOAD: the sum of enabled sample rates. -/
def Chip.loopLoad (m : Chip) : Chip :=
  let load := m.loopsOn.foldl (fun a k => (a.1 * (m.loopEnt k).period + 1000000 * a.2, a.2 * (m.loopEnt k).period)) (0, 1)
  m.put R.LOOP_STAT_LOAD (load.1 / load.2)

/-- The chip with the banks of a swap in place, for its check. -/
def Chip.withSwap (m : Chip) (b : Bank) : Chip :=
  let m1 := b.bytes.foldl (fun a e => a.setByte (.win e.1) e.2.1 e.2.2) m
  b.loops.foldl (fun a n => a.put (R.LOOP_L_STAT_BANK n) (1 - a.loopBank n)) m1

/-- LOOP_SWAP_CMD.GO. -/
def Chip.swapGo (m : Chip) (at_ : Bool) : Chip :=
  let res := fun (c : Half) => (m.put R.LOOP_SWAP_RES_DONE 1).put R.LOOP_SWAP_RES_CODE c.toNat
  let set := m.swapSet
  if !m.unitOpen UK.loop then res CC.cancelled
  else if (m.pend 3).isSome then res CC.busy
  else if set.any (fun n => !(m.loopEnt n).enabled) then res CC.checkFailed
  else
    let bytes := (set.map (fun n => (m.editCopy n).zipIdx.map (fun e =>
      ((Win.loopBank, bankOff n (1 - m.loopBank n) + e.2, e.1) : Win × Nat × Byte)))).flatten
    let m1 := (m.setBank 3 { bytes := bytes, loops := set }).put (R.COMMIT_MODE_MODE 3) (if at_ then 2 else 0)
    let m2 := m1.put64 (R.COMMIT_AT_LO 3) (m.get64 R.LOOP_SWAP_AT_LO)
    let m3 := m2.goWith 3 (fun b => firstFail [(m2.withSwap b).loopC9, m2.ruleC10 3 (if at_ then 2 else 0) 0 (m.get64 R.LOOP_SWAP_AT_LO)])
    if (m3.pend 3).isSome then m3 else (m3.put R.LOOP_SWAP_RES_DONE 1).put R.LOOP_SWAP_RES_CODE 0

/-- The apply edge of a swap: banks in place, selectors flipped together, edit copies gone; one event. -/
def Chip.swapApply (m : Chip) (loops : List Nat) : Chip :=
  if loops.isEmpty then m else
  let m1 := loops.foldl (fun a n => (a.put (R.LOOP_L_STAT_BANK n) (1 - a.loopBank n)).setLoopSt n { a.loopSt n with edit := [] }) m
  m1.post (ev 0x0C 0x0602 0 0 m1.now (le 2 loops.length))

/-! ### Apply edges, disable and enable (R264, R273) -/

/-- Start a loop under R264. -/
def Chip.loopStart (m : Chip) (n : Nat) : Chip :=
  let st : LoopSt := { edit := (m.loopSt n).edit }
  ((m.setLoopSt n st).loopAnchor n).put (R.LOOP_L_STAT_STATE n) (if m.get (R.LOOP_L_CTL_MODE n) = 1 then LS.manual else LS.auto)

/-- What an apply edge does to one loop whose entry was `o`. -/
def Chip.loopChanged (m : Chip) (o : LoopEnt) (n : Nat) : Chip :=
  let e := m.loopEnt n
  if !e.enabled then (if o.enabled then (m.put (R.LOOP_L_STAT_STATE n) LS.off).testsLeave n else m)
  else if !o.enabled then m.loopStart n
  else
    let m1 := if o.period ≠ e.period ∨ o.phase ≠ e.phase then m.loopAnchor n else m
    if o.pv ≠ e.pv ∨ o.sp ≠ e.sp ∨ o.out ≠ e.out ∨ o.reverse ≠ e.reverse then m1.setLoopSt n { m1.loopSt n with first := true } else m1

/-- The engine's part of an apply edge: `old` is the chip before it. -/
def Chip.loopApplied (m old : Chip) : Chip :=
  let touched := (old.loopsOn ++ m.loopsOn).eraseDups
  let m1 := (touched.foldl (fun a n => a.loopChanged (old.loopEnt n) n) m).loopLoad
  if !old.on R.LOOP_CTL_RUN && m1.on R.LOOP_CTL_RUN then
    m1.loopsOn.foldl (fun a n => a.setLoopSt n { a.loopSt n with first := true }) m1
  else m1

/-- The engine is disabled: tests end and a running capture stops. -/
def Chip.loopDisable (m : Chip) : Chip :=
  let m1 := m.loop.gens.foldl (fun a e => a.testEnd e.1 CC.cancelled false) m
  ((m1.capEnd 2).put R.LOOP_STAT_DISABLED 1)

/-- The engine is enabled again: every loop restarts. -/
def Chip.loopEnable (m : Chip) : Chip := m.loopsOn.foldl Chip.loopStart (m.put R.LOOP_STAT_DISABLED 0)

/-! ### Commands -/

def execLoopSample (n : Fin 512) (s : State) : Host.Outcome State Fault Refusal := s.act (·.loopSample n.val)
/-- LOOP_SWAP_GO: `at_` is LOOP_SWAP_CMD.MODE, which the write also stores. -/
def execLoopSwapGo (at_ : Bool) (s : State) : Host.Outcome State Fault Refusal :=
  s.act (fun m => (m.put R.LOOP_SWAP_CMD_MODE (bit at_)).swapGo at_)
/-- BANK_SINGLE_WRITE: a write to word `w` of loop n's active bank. -/
def execBankSingleWrite (r : Req) (n : Fin 512) (w : Fin 288) (v : Word) (s : State) : Host.Outcome State Fault Refusal :=
  s.act (·.singleWrite r n.val (4 * w.val) v)
def execLoopModeWrite (n : Fin 512) (manual : Bool) (s : State) : Host.Outcome State Fault Refusal :=
  s.act (·.loopCtl n.val (some (bit manual)) false)
def execLoopReset (n : Fin 512) (s : State) : Host.Outcome State Fault Refusal := s.act (·.loopCtl n.val none true)
def execTestGo (g : Fin 4) (s : State) : Host.Outcome State Fault Refusal := s.act (·.testGo g.val)
def execTestAbort (g : Fin 4) (s : State) : Host.Outcome State Fault Refusal := s.act (·.testEnd g.val CC.superseded true)
def execCaptureArm (s : State) : Host.Outcome State Fault Refusal := s.act Chip.capArm
def execCaptureStop (s : State) : Host.Outcome State Fault Refusal := s.act (·.capEnd 1)

end Sys2Proof.Machine
end

