-- ==== Sys2Proof/Machine/Traffic.lean ====
section
/-! DEFINITION. The commands of the transaction engine (chapter 14): received Mirfor frames, sends and timeouts, stations going down,
subscriptions, QUENCH and PFC. -/

namespace Sys2Proof.Machine

open Sys2Proof

/-! ### Frame headers (R254, R303) -/

/-- The class that Tables 14-5 and 11-7 give a type; none for an unknown type. -/
def typeClass (t : Nat) : Option Nat :=
  match t with
  | 0x01 => some 6 | 0x02 => some 6 | 0x03 => some 5 | 0x04 => some 6 | 0x08 => some 6 | 0x10 => some 3
  | 0x20 => some 4 | 0x21 => some 4 | 0x22 => some 4 | 0x23 => some 4 | 0x24 => some 6
  | 0x30 => some 3 | 0x31 => some 5 | 0x32 => some 5 | 0x33 => some 5 | 0x38 => some 7 | 0x39 => some 7
  | 0x40 => some 1 | 0x41 => some 1 | 0x42 => some 1 | 0x43 => some 1 | 0x44 => some 1 | 0x45 => some 2 | 0x46 => some 5
  | _ => none

/-- The header bytes of a received frame. -/
def RxFrame.header (f : RxFrame) (type : Nat) : List Byte :=
  [f.version, BitVec.ofNat 8 type] ++ le 2 f.payload.length ++ le 4 f.seq.toNat ++ le 4 f.target.toNat ++ le 2 f.device.toNat ++
  [f.cls, 0]

/-- Whether the frame's version and CRC are right (Table 11-6, R254). -/
def RxFrame.sound (f : RxFrame) (type : Nat) : Bool :=
  f.version == 1 && f.crc == crc32c (f.header type ++ f.payload)

/-! ### Buffers and PFC (R307, R308) -/

/-- The enabled uplinks. -/
def Chip.uplinks (m : Chip) : List Nat := (List.range 4).filter (fun u => m.on (R.UPL_P_CFG_EN u))

/-- The priority of a class (R323). -/
def Chip.pcp (m : Chip) (k : Nat) : Nat := bits (m.get R.UPL_PCP_MAP) (4 * k + 2) (4 * k)

/-- Send PFC for class k on every uplink. -/
def Chip.sendPfc (m : Chip) (k quanta : Nat) : Chip :=
  if m.leads then m.uplinks.foldl (fun a u => a.emit (.frame 7 u "PFC" [m.pcp k, quanta])) m else m

/-- The XOFF flag of a class. -/
def xoffFlag (k : Nat) : FRef := ⟨R.TXN_STAT.addr, 17 + k, 17 + k⟩

/-- Judge a class's deep-queue occupancy against XOFF and XON; a change of state is sent and posted (R308). -/
def Chip.judgePfc (m : Chip) (k : Nat) : Chip :=
  let dq := m.get (R.TXN_CLS_DQ_KIB k)
  if 6 ≤ k then m
  else if !m.on (xoffFlag k) && decide (m.get (R.TXN_CLS_PFC_XOFF k) * 1024 ≤ dq) then
    ((m.put (xoffFlag k) 1).sendPfc k 0xFFFF).post (ev 6 0x0805 0 k 0 (le 1 1))
  else if m.on (xoffFlag k) && decide (dq ≤ m.get (R.TXN_CLS_PFC_XON k) * 1024) then
    ((m.put (xoffFlag k) 0).sendPfc k 0).post (ev 6 0x0805 0 k 0 (le 1 0))
  else m

/-- Set a class's occupancies as an arrival or a drain finds them: on-die and deep-queue KiB. -/
def Chip.setOcc (m : Chip) (k occ deep : Nat) : Chip :=
  let m1 := ((m.put (R.TXN_CLS_OCC_KIB k) occ).put (R.TXN_CLS_OCC_SPILL k) (bit (0 < deep))).put (R.TXN_CLS_DQ_KIB k) deep
  let m2 := m1.put R.TXN_DQ_USED_KIB ((List.range 6).foldl (fun a j => a + m1.get (R.TXN_CLS_DQ_KIB j)) 0)
  m2.judgePfc k

/-- KiB free in the shared pool: what classes 0 to 5 hold beyond their minimums is taken from it (R307). -/
def Chip.poolFree (m : Chip) : Nat :=
  let mins := (List.range 6).foldl (fun a j => a + m.get (R.TXN_CLS_MIN_KIB j)) 0
  let used := (List.range 6).foldl (fun a j => a + (m.get (R.TXN_CLS_OCC_KIB j) - m.get (R.TXN_CLS_MIN_KIB j))) 0
  (16384 - 1024 - 512 - mins) - used

/-- Take a frame of class k into the buffers: whether it is kept. -/
def Chip.buffer (m : Chip) (k occ deep : Nat) : Bool × Chip :=
  let m1 := m.setOcc k occ (if k ≤ 5 then deep else 0)
  if 6 ≤ k then
    (if m1.get (R.TXN_CLS_MIN_KIB k) ≤ occ then (false, (m1.txnCount 2).post (ev 6 0x0806 3 k 0 (le 4 1)))
     else (true, m1))
  else if deep = 0 ∧ (occ < m1.get (R.TXN_CLS_MIN_KIB k) ∨ 0 < m1.poolFree) then (true, m1)
  else if m1.get R.TXN_DQ_USED_KIB < 1048576 then (true, m1)
  else
    let drops := m1.txn.dqDrops.filter (fun t => decide (m1.monoNs < t + 1000000000)) ++ [m1.monoNs]
    let m2 := (m1.withTxn { m1.txn with dqDrops := drops }).txnCount 3
    let due := match m2.txn.dqPosted with
      | some t => decide (t + 1000000000 ≤ m2.monoNs)
      | none => true
    (false, if due then (m2.withTxn { m2.txn with dqPosted := some m2.monoNs }).post
        (ev 6 0x0804 3 k 0 (le 4 drops.length)) else m2)

/-! ### QUENCH (R310 to R312) -/

/-- The payload of a QUENCH. -/
def quenchBody (until_ rate mask : Nat) (ack : Bool) : List Byte :=
  le 8 until_ ++ le 4 rate ++ le 1 mask ++ le 1 (bit ack) ++ le 2 0

/-- Whether a port of a medium is enabled. -/
def Chip.portOn (m : Chip) (code : Nat) : Bool :=
  let p := code % 32
  match code / 32 with
  | 0 => decide (p < m.t1sN) && m.on (R.FLD_T1S_CFG_EN p)
  | 1 => decide (p < 8) && m.on (R.UPL_SG_CFG_EN p)
  | 2 => decide (p < m.plcN) && m.on (R.FLD_PLC_CFG_EN p)
  | 3 => m.on (R.CAN_CFG_EN p) && decide (p < m.canN)
  | 4 => decide (p < 4) && m.on (R.UPL_P_CFG_EN p)
  | _ => false

/-- The next number of the port-wide QUENCH frames of a port. -/
def portSta (code : Nat) : Nat := staN + code

/-- Issue a QUENCH to a port or a station: refused with CHECK_FAILED under R310, else sent. A port-wide one goes as one frame with
target bit 30; one with ACK_REQ is a transaction with a deadline of 1 s. -/
def Chip.quench (m : Chip) (wide : Bool) (target until_ mask rate : Nat) (ack : Bool) (who : Option Nat) : Half × Chip :=
  if mask ≥ 64 || !m.trusted || decide (m.now + 600000000000 < until_) then (CC.checkFailed, m)
  else if wide then
    (if !m.portOn target then (CC.checkFailed, m) else
     let (q, m1) := m.nextSeq (portSta target) 0x38
     let m2 := m1.withTxn { m1.txn with portQuench := AMap.put 0 target until_ m1.txn.portQuench }
     (CC.ok, m2.sendFrame { port := target, station := none, type := 0x38, seq := q, target := 0x40000000, cls := 7,
                            payload := quenchBody until_ rate mask false }))
  else if !m.staOn target then (CC.checkFailed, m)
  else
    let m1 := m.setSta target { m.sta target with quenchUntil := until_ }
    let body := quenchBody until_ rate mask ack
    if ack then
      (CC.ok, m1.txAccept { kind := .quench, station := target, deadline := m1.monoNs + 1000000000, payload := body,
                            reqPort := who })
    else (CC.ok, m1.sendPlain target 0x38 7 body)

/-- TXN_Q_CMD with GO (R310): BUSY while the last register QUENCH is in flight. -/
def Chip.quenchGo (m : Chip) (ack : Bool) : Chip :=
  let done := fun (a : Chip) (c : Half) => (a.put R.TXN_Q_RES_DONE 1).put R.TXN_Q_RES_CODE c.toNat
  if m.txn.txs.any (fun t => t.reqPort == some 3) then done m CC.busy else
  let wide := m.on R.TXN_Q_TGT_PORT
  let t := m.get R.TXN_Q_TGT_TARGET
  let (c, m1) := m.quench wide (if wide then t % 256 else t) (m.get64 R.TXN_Q_UNTIL_LO).toNat (m.get R.TXN_Q_PARAM_MASK)
    (m.get R.TXN_Q_PARAM_RATE) ack (some 3)
  if c ≠ CC.ok then done m1 c else if wide || !ack then done m1 CC.ok else m1

/-- Send a station over its ingress limit an automatic QUENCH and post STATION_BABBLE (R312). -/
def Chip.babble (m : Chip) (n : Nat) : Chip :=
  let e := m.staEnt n
  let s := m.sta n
  let cnt := s.recent.countP (fun t => decide (m.monoNs < t + 1000000000))
  if m.on R.TXN_CTL_AUTOQ_EN && !e.noAutoq && e.limit != 0 && s.babbleUntil == 0 && decide (e.limit < cnt) then
    let u := m.now + 10000000000
    let m1 := m.setSta n { s with quenchUntil := u, babbleUntil := u }
    (m1.txAccept { kind := .quench, station := n, deadline := m1.monoNs + 1000000000,
                   payload := quenchBody u e.limit 0x3F true }).post (ev 6 0x0802 2 n 0 (le 4 cnt))
  else m

/-! ### Reception (R301 to R303, R307, R327, R375) -/

/-- Renew a station's last-heard time. -/
def Chip.hear (m : Chip) (n : Nat) : Chip := m.setSta n { m.sta n with heard := m.now, heardAt := m.monoNs }

/-- Whether league membership lets a frame of a station through (R327). -/
def Chip.member (m : Chip) (n type : Nat) : Bool :=
  let e := m.staEnt n
  !(e.league && e.medium == 4) || type == 0x46 || (AMap.get {} m.upl.peers e.addr).state == 1

/-- A standby keeps the frames of the last 2 ms in arrival order and lands none (R375). -/
def Chip.standbyKeep (m : Chip) (type : Nat) (f : RxFrame) : Chip :=
  let kept := m.sadl.rxBuf.filter (fun e => decide (m.monoNs ≤ e.1 + 2000000))
  m.withSadl { m.sadl with rxBuf := kept ++ [(m.monoNs, type, f)],
                                 heardPort := AMap.put 0 (m.portOf f.station.toNat) m.monoNs m.sadl.heardPort }

/-- Whether a frame's number is newer than the last accepted one of its station and type (R301). -/
def Chip.freshSeq (m : Chip) (n type : Nat) (seq : Word) : Bool :=
  match AMap.get none (m.sta n).inSeq type with
  | some q => newer seq q
  | none => true

/-- Accept a frame: its number becomes the inbound number, the station is heard and comes UP, and its rate is judged. -/
def Chip.acceptFrame (m : Chip) (n type : Nat) (seq : Word) : Chip :=
  let s := m.sta n
  let recent := s.recent.filter (fun t => decide (m.monoNs < t + 1000000000)) ++ [m.monoNs]
  let m1 := (m.setSta n { s with inSeq := AMap.put none type (some seq) s.inSeq, recent := recent }).hear n
  (m1.staUp n).babble n

/-- An SGMII port learns a station's MAC address from its frames (R328). -/
def Chip.learn (m : Chip) (n : Nat) (f : RxFrame) : Chip :=
  if (m.staEnt n).medium = 1 then (m.withUpl { m.upl with macs := AMap.put 0 n f.mac.toNat m.upl.macs }) else m

def Chip.seg (m : Chip) (s : Nat) : Seg := AMap.get {} m.ports.segs s
def Chip.setSeg (m : Chip) (s : Nat) (x : Seg) : Chip := m.withPorts { m.ports with segs := AMap.put {} s x m.ports.segs }

/-- A station frame on a T1S segment ends its silence (R346). -/
def Chip.heardPort (m : Chip) (n : Nat) : Chip :=
  let e := m.staEnt n
  if e.medium = 0 then (m.setSeg e.port { m.seg e.port with lastFrame := m.monoNs }).put (R.FLD_T1S_STAT_SILENT e.port) 0 else m

/-- What every received frame passes: source, version, CRC, class, buffers, league membership, standby, duplicates. `late` says that
the frame is a response that matches no transaction (R300). True where the frame is accepted and lands. -/
def Chip.rx (m : Chip) (type : Nat) (f : RxFrame) (late : Bool) : Bool × Chip :=
  let n := f.station.toNat
  match typeClass type with
  | none => (false, m.txnCount 4)
  | some k =>
    if !m.staOn n || !f.sound type then (false, m) else
    let m0 := m.heardPort n
    let m1 := if f.cls.toNat ≠ k then m0.txnCount 4 else m0
    let (kept, m2) := m1.buffer k f.occ f.deep
    if !kept then (false, m2)
    else if !m2.member n type then
      (false, m2.count R.UPL_LG_DROP (some R.UPL_TIME_STAT_LG_DROP_SAT))
    else if m2.standby then (false, (m2.standbyKeep type f).hear n)
    else if type ≠ 0x33 ∧ !m2.freshSeq n type f.seq then (false, (m2.txnCount 0).hear n)
    else if late then (false, (m2.txnCount 1).hear n)
    else (true, (m2.acceptFrame n type f.seq).learn n f)

/-! ### Received frames -/

/-- The local points whose route satisfies a test. -/
def Chip.pointsBy (m : Chip) (p : Route → Bool) : List Nat :=
  m.pts.recs.filterMap (fun e => if e.2.desc != 0 && p (m.route e.2.route.toNat) then some e.1 else none)

/-- One entry of an IO_REPORT: the FIELD write of the point whose INPUT route it names, or TXN_NOROUTE_CNT (R304). -/
def Chip.landEntry (m : Chip) (f : RxFrame) (off : Nat) : Chip :=
  let p := f.payload
  let chan := fld p off 2
  let q : Half := BitVec.ofNat 16 (fld p (off + 2) 2) ||| (if (fld p 10 1) % 2 = 1 then 0x0080 else 0)
  match m.pointsBy (fun r => r.input && r.station == f.station.toNat && r.module == fld p 8 2 && r.chan == chan) with
  | i :: _ =>
    (m.ptWrite .txn { tag := m.tagOf i, src := .field, value := BitVec.ofNat 64 (fld p (off + 8) 8),
                      second := BitVec.ofNat 64 (fld p (off + 16) 8), quality := q, stamp := BitVec.ofNat 64 (fld p 0 8),
                      seq := f.seq }).2
  | [] => m.txnCount 6

/-- IO_REPORT (R304): every entry on one edge. -/
def Chip.ioReport (m : Chip) (f : RxFrame) : Chip :=
  let (ok, m1) := m.rx 0x30 f false
  if ok then (List.range (fld f.payload 11 1)).foldl (fun a k => a.landEntry f (12 + 24 * k)) m1 else m1

/-- The transaction in flight of given kinds, station and number. -/
def Chip.matching (m : Chip) (p : TxKind → Bool) (n : Nat) (seq : Word) : Option Tx :=
  m.txn.txs.find? (fun t => p t.kind && t.station == n && t.inFlight && t.seq == seq)

/-- End a transaction with a response's code: no effect on the station's state. -/
def Chip.txEnd (m : Chip) (t : Tx) (code : Half) : Chip := (m.setTxs (m.txn.txs.erase t)).txReport t code

/-- A response that acknowledges a number in its first four bytes: the transaction ends with `code`, or the frame is late. -/
def Chip.respond (m : Chip) (type : Nat) (p : TxKind → Bool) (f : RxFrame) (code : Half) : Chip :=
  let t := m.matching p f.station.toNat (BitVec.ofNat 32 (fld f.payload 0 4))
  let (ok, m1) := m.rx type f t.isNone
  match t with
  | some t => if ok then m1.txEnd t code else m1
  | none => m1

/-- IO_ACK (R300): codes 0 OK, 3 PAIR_FAULT, 4 BAD_FRAME of Table 14-5; either way the transaction ends with a response. -/
def Chip.ioAck (m : Chip) (f : RxFrame) : Chip :=
  m.respond 0x32 (fun k => decide (k = .output)) f
    (if fld f.payload 6 2 = 0 then CC.ok else if fld f.payload 6 2 = 3 then CC.pairFault else CC.checkFailed)

/-- HELLO (R301): every inbound number of the station is cleared; the frame answers a HELLO in flight. -/
def Chip.hello (m : Chip) (f : RxFrame) : Chip :=
  let n := f.station.toNat
  let (ok, m1) := m.rx 0x33 f false
  if !ok then m1 else
  let m2 := m1.setSta n { m1.sta n with inSeq := AMap.put none 0x33 (some f.seq) [] }
  match m2.txn.txs.find? (fun t => decide (t.kind = .hello ∧ t.station = n) && t.inFlight) with
  | some t => m2.txEnd t CC.ok
  | none => m2

/-- QUENCH_ACK (R310). -/
def Chip.quenchAck (m : Chip) (f : RxFrame) : Chip := m.respond 0x39 (fun k => decide (k = .quench)) f CC.ok

/-- The tag of a league frame's first bytes. -/
def frameTag (f : RxFrame) (off : Nat) : BitVec 40 := BitVec.ofNat 40 (fld f.payload off 8)

/-- LG_READ: answered with the record in an LG_RESP (R35). -/
def Chip.lgRead (m : Chip) (f : RxFrame) : Chip :=
  let (ok, m1) := m.rx 0x40 f false
  if !ok then m1 else
  let (c, r, m2) := m1.ptRead .txn (frameTag f 0)
  m2.sendPlain f.station.toNat 0x42 1 (le 4 f.seq.toNat ++ le 2 c.toNat ++ le 2 0 ++
    (match r with
      | some r => r.image
      | none => []))

/-- LG_WRITE: a HOST write, answered with its code (R304). -/
def Chip.lgWrite (m : Chip) (f : RxFrame) : Chip :=
  let (ok, m1) := m.rx 0x41 f false
  if !ok then m1 else
  let (c, m2) := m1.ptWrite .txn { tag := frameTag f 0, src := .host, value := BitVec.ofNat 64 (fld f.payload 8 8),
                                   second := BitVec.ofNat 64 (fld f.payload 16 8) }
  m2.sendPlain f.station.toNat 0x42 1 (le 4 f.seq.toNat ++ le 2 c.toNat ++ le 2 0)

/-- LG_RESP (R300): ends a league transaction; the record of an LG_READ goes to the access port that asked. -/
def Chip.lgResp (m : Chip) (f : RxFrame) : Chip :=
  let n := f.station.toNat
  let seq := BitVec.ofNat 32 (fld f.payload 0 4)
  let t := m.matching (fun k => decide (k = .lgRead ∨ k = .lgWrite ∨ k = .lgSubscribe)) n seq
  let (ok, m1) := m.rx 0x42 f t.isNone
  match t with
  | none => m1
  | some t =>
    if !ok then m1 else
    let m2 := match t.kind, t.reqPort with
      | .lgRead, some p => if 72 ≤ f.payload.length then m1.accImage p (f.payload.drop 8) else m1
      | _, _ => m1
    m2.txEnd t (BitVec.ofNat 16 (fld f.payload 4 2))

/-- LG_SUBSCRIBE (R304): the owner creates or renews the subscription and answers with LG_UPDATE; a route without PUBLISHED is
answered with CHECK_FAILED, one subscription too many with OVERFLOW. -/
def Chip.lgSubscribe (m : Chip) (f : RxFrame) : Chip :=
  let (ok, m1) := m.rx 0x44 f false
  if !ok then m1 else
  let n := f.station.toNat
  let tag := frameTag f 0
  let refuse := fun (a : Chip) (c : Half) => a.sendPlain n 0x42 1 (le 4 f.seq.toNat ++ le 2 c.toNat ++ le 2 0)
  if m1.outOfRange tag || !m1.local tag then refuse (m1.rangeFault .txn tag) CC.absent
  else if !(m1.route (m1.pt (tagIdx tag)).route.toNat).published || (m1.pt (tagIdx tag)).desc == 0 then refuse m1 CC.checkFailed
  else
    let mine := fun (x : Subscr) => decide (x.station = n ∧ x.tag = tag.toNat)
    let others := m1.txn.subs.filter (fun x => !mine x)
    if !m1.txn.subs.any mine && decide (262144 ≤ m1.txn.subs.length) then refuse m1 CC.overflow
    else
      let sub : Subscr := { station := n, tag := tag.toNat, refresh := fld f.payload 8 4, renewed := m1.monoNs }
      let m2 := m1.withTxn { m1.txn with subs := others ++ [sub] }
      let (_, r, m3) := m2.ptRead .txn tag
      match r with
      | some r => m3.sendPlain n 0x43 1 (le 8 tag.toNat ++ r.image)
      | none => m3

/-- LG_UPDATE (R35, R304): refreshes every mirror of the tag with the remote record's value, complement, stamp and quality, and
answers the LG_SUBSCRIBE in flight for it. -/
def Chip.lgUpdate (m : Chip) (f : RxFrame) : Chip :=
  let (ok, m1) := m.rx 0x43 f false
  if !ok then m1 else
  let p := f.payload
  let tag := frameTag f 0
  let w := fun (i : Nat) => ({ tag := m1.tagOf i, src := .field, value := BitVec.ofNat 64 (fld p 8 8),
                               second := BitVec.ofNat 64 (fld p 16 8), stamp := BitVec.ofNat 64 (fld p 24 8),
                               quality := BitVec.ofNat 16 (fld p 32 2), untrusted := (fld p 34 2).testBit 2, seq := f.seq,
                               mirror := true } : PtWrite)
  let m2 := (m1.pointsBy (fun r => r.mirror && r.remote == tag && r.station == f.station.toNat)).foldl
    (fun a i => (a.ptWrite .txn (w i)).2) m1
  match m2.txn.txs.find? (fun t => decide (t.kind = .lgSubscribe ∧ t.station = f.station.toNat ∧ t.tag = tag.toNat) &&
      t.inFlight) with
  | some t => m2.txEnd t CC.ok
  | none => m2

/-- TIME_BEACON (R303): never landed; a standby notes its number. -/
def Chip.timeBeacon (m : Chip) (f : RxFrame) : Chip :=
  if m.standby && f.sound 0x08 then
    m.withSadl { m.sadl with beaconSeen := AMap.put 0 (m.portOf f.station.toNat) f.seq m.sadl.beaconSeen }
  else m

/-! ### Sends, timeouts, deadlines (R299, R300, R309) -/

/-- Whether a queued transaction may be sent now: an entry free beyond the reserves of classes 7 and 6, its station UP or its class 6
or 7, a credit free, and its uplink's class not paused (R299, R302, R308, R309). -/
def Chip.maySend (m : Chip) (t : Tx) : Bool :=
  let k := t.kind.cls
  let used := m.txn.txs.countP Tx.inFlight
  let out := m.txn.txs.countP (fun u => decide (u.station = t.station ∧ u.kind.cls ≤ 5) && u.inFlight)
  let port := m.portOf t.station
  decide (t.state = .queued) && m.leads &&
  decide (used < (if k = 7 then 65536 else if k = 6 then 65536 - 2048 else 65536 - 2048 - 4096)) &&
  ((m.sta t.station).up || decide (6 ≤ k)) &&
  (decide (6 ≤ k) || decide (out < (m.staEnt t.station).credit)) &&
  !(port / 32 == 4 && decide (k ≤ 5) && decide (m.monoNs < AMap.get 0 m.txn.paused ((port % 32) * 8 + k)))

/-- The transaction that goes next: highest class, then acceptance order (R300). -/
def Chip.nextTx (m : Chip) : Option Tx :=
  ([7, 6, 5, 4, 3, 2, 1, 0].filterMap (fun k => m.txn.txs.find? (fun t => t.kind.cls == k && m.maySend t))).head?

/-- Put a transaction's request on its port. -/
def Chip.transmit (m : Chip) (t : Tx) : Chip :=
  m.sendFrame { port := m.portOf t.station, station := some t.station, type := t.kind.type, seq := t.seq, target := 0,
                cls := t.kind.cls, payload := t.payload }

/-- Replace the first transaction equal to `t`. -/
def Chip.txSwap (m : Chip) (t u : Tx) : Chip :=
  match m.txn.txs.findIdx? (· == t) with
  | some i => m.setTxs (modAt (fun _ => u) i m.txn.txs)
  | none => m

/-- TXN_SEND: the next queued transaction becomes SENT with the next number of its type (R301). -/
def Chip.txSend (m : Chip) : Chip :=
  match m.nextTx with
  | none => m
  | some t =>
    let (q, m1) := m.nextSeq t.station t.kind.type
    let u := { t with state := .sent, seq := q, sentAt := m.monoNs, retries := (m.staEnt t.station).retries }
    (m1.txSwap t u).transmit u

/-- TXN_TIMEOUT: a request whose response timeout has passed is retransmitted with the same number, or ends with TIMEOUT after the
last retry. To a station that is DOWN only classes 6 and 7 are retransmitted (R302). -/
def Chip.txTimeout (m : Chip) (n : Nat) (seq : Word) : Chip :=
  match m.txn.txs.find? (fun t => t.station == n && t.inFlight && t.seq == seq &&
      decide (t.sentAt + (m.staEnt n).timeout * 1000000 ≤ m.monoNs)) with
  | none => m
  | some t =>
    if t.retries = 0 ∨ (!(m.sta n).up ∧ t.kind.cls ≤ 5) then m.txDone t CC.timeout
    else
      let u := { t with state := .sent, sentAt := m.monoNs, retries := t.retries - 1 }
      (m.txSwap t u).transmit u

/-- TXN_DEADLINE: the first transaction of a station whose deadline has passed, in any state, ends with DEADLINE (R300). -/
def Chip.txDeadline (m : Chip) (n : Nat) : Chip :=
  match m.txn.txs.find? (fun t => decide (t.station = n ∧ t.deadline ≠ 0 ∧ t.deadline ≤ m.monoNs)) with
  | some t => m.txEnd t CC.deadline
  | none => m

/-- STATION_DOWN: silent for its loss time (R302). -/
def Chip.staSilent (m : Chip) (n : Nat) : Chip :=
  let e := m.staEnt n
  if m.staOn n && e.loss != 0 && decide ((m.sta n).heardAt + e.loss * 1000000 ≤ m.monoNs) then m.staDown n 1 else m

/-- SUBSCRIBE_REFRESH: LG_SUBSCRIBE for a MIRROR route (R304). -/
def Chip.subscribe (m : Chip) (route : Nat) : Chip :=
  let r := m.route route
  if r.mirror then
    m.txAccept { kind := .lgSubscribe, station := r.station, deadline := m.monoNs + r.refresh * 1000000,
                 payload := le 8 r.remote.toNat ++ le 4 r.refresh, tag := r.remote.toNat }
  else m

/-- SUBSCRIPTION_EXPIRY: subscriptions not renewed within three refresh periods are dropped (R304). -/
def Chip.dropSubs (m : Chip) : Chip :=
  let live := m.txn.subs.filter (fun s => decide (m.monoNs < s.renewed + 3 * s.refresh * 1000000))
  m.withTxn { m.txn with subs := live }

/-- OUTPUT_LIFETIME_EXPIRY: the held set is discarded with STATION_LOST, and OUTPUT_EXPIRED is posted once (R306). -/
def Chip.outExpire (m : Chip) (n group : Nat) : Chip :=
  let due := fun (h : HeldOut) => h.station == n && h.group == group && !h.expired && decide (h.since + h.life ≤ m.monoNs)
  match m.txn.held.find? due with
  | none => m
  | some h =>
    let held := m.txn.held.map (fun x => if due x then { x with expired := true, payload := [] } else x)
    (m.withTxn { m.txn with held := held }).post (ev 6 0x0803 2 n h.tag (le 2 (if group < 2 ^ 32 then group % 65536 else 0xFFFF)) CC.stationLost)

/-- QUENCH_END: an automatic quench's until instant passes; a station still over its limit is quenched again (R312). -/
def Chip.quenchEnd (m : Chip) (n : Nat) : Chip :=
  let s := m.sta n
  if s.babbleUntil != 0 && m.reached s.babbleUntil then (m.setSta n { s with babbleUntil := 0 }).babble n else m

/-- PFC_REPEAT: the pause of an asserted class is sent again; its occupancy is judged against XON (R308). -/
def Chip.pfcRepeat (m : Chip) (k deep : Nat) : Chip :=
  let m1 := m.setOcc k (m.get (R.TXN_CLS_OCC_KIB k)) deep
  if m.on (xoffFlag k) && m1.on (xoffFlag k) then m1.sendPfc k 0xFFFF else m1

/-- PFC_FRAME on uplink u: the priorities of its enable vector pause the classes 0 to 5 mapped to them for their quanta (20.48 ns
each at 25 Gb/s); a pause for classes 6 and 7 is ignored and counted (R308). -/
def Chip.pfcFrame (m : Chip) (u : Nat) (vec : Byte) (quanta : List Nat) : Chip :=
  let m1 := [6, 7].foldl (fun a k => if vec.getLsbD (m.pcp k) then a.txnCount 5 else a) m
  (List.range 6).foldl (fun a k =>
    let till := m.monoNs + (quanta.getD (m.pcp k) 0 * 2048 + 99) / 100
    if vec.getLsbD (m.pcp k) then (a.withTxn { a.txn with paused := AMap.put 0 (u * 8 + k) till a.txn.paused })
    else a) m1

/-- UPL_P_DROP of an uplink. -/
def Chip.uplDrop (m : Chip) (u : Nat) : Chip := m.count (R.UPL_P_DROP u) (some (R.UPL_P_STAT_DROP_SAT u))

/-! ### Commands -/

def execIoReport (f : RxFrame) (s : State) : Host.Outcome State Fault Refusal := s.act (·.ioReport f)
def execIoAck (f : RxFrame) (s : State) : Host.Outcome State Fault Refusal := s.act (·.ioAck f)
def execHello (f : RxFrame) (s : State) : Host.Outcome State Fault Refusal := s.act (·.hello f)
def execQuenchAck (f : RxFrame) (s : State) : Host.Outcome State Fault Refusal := s.act (·.quenchAck f)
def execLgRead (f : RxFrame) (s : State) : Host.Outcome State Fault Refusal := s.act (·.lgRead f)
def execLgWrite (f : RxFrame) (s : State) : Host.Outcome State Fault Refusal := s.act (·.lgWrite f)
def execLgResp (f : RxFrame) (s : State) : Host.Outcome State Fault Refusal := s.act (·.lgResp f)
def execLgSubscribe (f : RxFrame) (s : State) : Host.Outcome State Fault Refusal := s.act (·.lgSubscribe f)
def execLgUpdate (f : RxFrame) (s : State) : Host.Outcome State Fault Refusal := s.act (·.lgUpdate f)
def execTimeBeacon (f : RxFrame) (s : State) : Host.Outcome State Fault Refusal := s.act (·.timeBeacon f)
/-- UNKNOWN_FRAME_TYPE (R303): discarded and counted; a type of the tables is no unknown type. -/
def execUnknownFrameType (type : Byte) (s : State) : Host.Outcome State Fault Refusal :=
  s.act (fun m => if (typeClass type.toNat).isNone then m.txnCount 4 else m)
def execTxnSend (s : State) : Host.Outcome State Fault Refusal := s.act Chip.txSend
def execTxnTimeout (n : BitVec 18) (seq : Word) (s : State) : Host.Outcome State Fault Refusal :=
  s.act (·.txTimeout n.toNat seq)
def execTxnDeadline (n : BitVec 18) (s : State) : Host.Outcome State Fault Refusal := s.act (·.txDeadline n.toNat)
def execStationDown (n : BitVec 18) (s : State) : Host.Outcome State Fault Refusal := s.act (·.staSilent n.toNat)
def execSubscribeRefresh (route : BitVec 22) (s : State) : Host.Outcome State Fault Refusal := s.act (·.subscribe route.toNat)
def execSubscriptionExpiry (s : State) : Host.Outcome State Fault Refusal := s.act Chip.dropSubs
def execOutputLifetimeExpiry (n : BitVec 18) (group : Nat) (s : State) : Host.Outcome State Fault Refusal :=
  s.act (·.outExpire n.toNat group)
/-- QUENCH_GO (R310): `ack` is TXN_Q_CMD.ACK_REQ, which the write also stores. -/
def execQuenchGo (ack : Bool) (s : State) : Host.Outcome State Fault Refusal :=
  s.act (fun m => (m.put R.TXN_Q_CMD_ACK_REQ (bit ack)).quenchGo ack)
def execQuenchEnd (n : BitVec 18) (s : State) : Host.Outcome State Fault Refusal := s.act (·.quenchEnd n.toNat)
def execPfcRepeat (k : Fin 6) (deep : Nat) (s : State) : Host.Outcome State Fault Refusal := s.act (·.pfcRepeat k.val deep)
def execPfcFrame (u : Fin 4) (vec : Byte) (quanta : List Nat) (s : State) : Host.Outcome State Fault Refusal :=
  s.act (·.pfcFrame u.val vec quanta)
/-- PAUSE_FRAME (R321): discarded and counted. -/
def execPauseFrame (u : Fin 4) (s : State) : Host.Outcome State Fault Refusal := s.act (·.uplDrop u.val)

end Sys2Proof.Machine
end

