-- ==== Sys2Proof/Machine/Vault.lean ====
section
/-! DEFINITION. The key vault (chapter 21): one-time fields, slots, requests and their operations, imports, attestation, debug. The
primitives are constants of Config (Config.lean). The keys' scrambling and masking (R443) show nowhere but in `Vault.mask`. -/

namespace Sys2Proof.Machine

open Sys2Proof

def Chip.setVault (m : Chip) (v : Vault) : Chip := m.withVault v

/-- The bytes of a text. -/
def text (s : String) : List Byte := s.toList.map (fun c => BitVec.ofNat 8 c.toNat)

/-- A 64-bit number in 8 bytes, little-endian. -/
def le64 (v : DWord) : List Byte := le 8 v.toNat

/-- n fresh random bytes (a free value each). -/
def Chip.random : Nat → Chip → List Byte × Chip
  | 0, m => ([], m)
  | n + 1, m =>
    let (w, m1) := m.fresh
    let (l, m2) := Chip.random n m1
    (w.extractLsb' 0 8 :: l, m2)

/-! ### One-time fields and fixed slots (R427 to R430) -/

/-- A one-time field as the vault's logic reads it: none where unprogrammed. 1 OWNER_ROOT, 2 OWNER_DIGEST, 3 ATTEST, 4 DEBUG_KEY. -/
def Chip.otp (m : Chip) (f : Nat) : Option (List Byte) :=
  let v := AMap.get [] m.vault.eff f
  if v = [] then none else some v

def Chip.vslot (m : Chip) (n : Nat) : VSlot := AMap.get {} m.vault.slots n
def Chip.setVslot (m : Chip) (n : Nat) (x : VSlot) : Chip := m.setVault { m.vault with slots := AMap.put {} n x m.vault.slots }

/-- Rights bits (R431). -/
def VSlot.right (x : VSlot) (b : Nat) : Bool := x.rights.testBit b

/-- A use counter that is never decremented. -/
def forever : Nat := 0xFFFFFFFF

/-- A fixed slot. -/
def fixedSlot (kind rights : Nat) (key : List Byte) : VSlot :=
  { kind := kind, rights := rights, count := forever, origin := 1, key := key }

/-- The root of R429. -/
def Chip.root (m : Chip) : Option (List Byte) :=
  if m.vault.debug then some (Config.sha256 (text "QV-TEST-ROOT" ++ le64 m.vault.ident)) else m.otp 1

/-- Slot 3, formed from the league number and the device number. -/
def Chip.pairSlot (m : Chip) : VSlot :=
  match m.root with
  | some r => fixedSlot 3 0x50 (Config.hkdf 256 r (le 4 (m.get R.UPL_LEAGUE_ID) ++ le 2 (m.get R.POINT_CFG_DEVNUM)) (text "QV-PAIR") 32)
  | none => {}

/-- Form slot 3 again (R430). -/
def Chip.formPair (m : Chip) : Chip := m.setVslot 3 m.pairSlot

/-- Form the fixed slots (Table 21-2). -/
def Chip.formFixed (m : Chip) : Chip :=
  let m1 := match m.root with
    | some r =>
      ((m.setVslot 0 (fixedSlot 3 0x20 r)).setVslot 1 (fixedSlot 2 0x40 (Config.hkdf 256 r (le64 m.vault.ident) (text "QV-KEK") 32))).setVslot
        2 (fixedSlot 2 0x02 (Config.hkdf 256 r ((m.otp 2).getD (List.replicate 48 0)) (text "QV-CAIRN") 32))
    | none => ((m.setVslot 0 {}).setVslot 1 {}).setVslot 2 {}
  let m2 := m1.formPair
  match m2.otp 3 with
  | some a => m2.setVslot 4 (fixedSlot 3 0x10 a)
  | none => m2.setVslot 4 {}

/-! ### Held slots and use counters (R432, R433) -/

/-- Whether an enabled G3-PLC interface holds a slot. -/
def Chip.vheld (m : Chip) (n : Nat) : Bool :=
  decide (8 ≤ n) && (List.range m.plcN).any (fun i => m.on (R.FLD_PLC_CFG_EN i) && m.get (R.FLD_PLC_KEY_GMK_SLOT i) == n)

/-- A slot that a request may write, clear or wrap out. -/
def Chip.vfree (m : Chip) (n : Nat) : Bool := decide (8 ≤ n) && !m.vheld n

/-- One use of a key: the counter is decremented; the decrement that reaches 0 posts KEY_EXHAUSTED. -/
def Chip.useKey (m : Chip) (n : Nat) : Chip :=
  let x := m.vslot n
  if x.count = forever ∨ x.count = 0 then m
  else
    let m1 := m.setVslot n { x with count := x.count - 1 }
    if x.count = 1 then m1.post (ev 0x10 0x0F00 2 n 0 []) else m1

/-- Draw a fresh GMK into the slot that an interface names (R433). -/
def Chip.drawGmk (m : Chip) (n : Nat) : Chip :=
  if n < 8 then m else
  let (k, m1) := m.random 16
  m1.setVslot n { kind := 1, rights := 3, count := forever, origin := 4, key := k }

/-- A vault reset (R433). -/
def Chip.vreset (m : Chip) : Chip :=
  let gone := m.vault.slots.filter (fun e => e.2.expire)
  (m.setVault { m.vault with slots := m.vault.slots.filter (fun e => !e.2.expire) }).post
    (ev 0x10 0x0F04 0 0 0 (le 2 gone.length))

/-! ### Kinds (Table 21-3) -/

/-- Bytes of key material. -/
def kindLen (k : Nat) : Nat :=
  match k with | 1 => 16 | 2 => 32 | 3 => 32 | 4 => 48 | 5 => 32 | 6 => 48 | 7 => 64 | 8 => 96 | _ => 0

/-- Whether a rights byte is allowed for a kind. -/
def rightsOk (kind rights : Nat) : Bool :=
  let allowed := match kind with
    | 1 => 0x53 | 2 => 0x53 | 3 => 0x30 | 4 => 0x30 | 5 => 0x04 | 6 => 0x04 | 7 => 0x08 | 8 => 0x08 | _ => 0
  decide (1 ≤ kind ∧ kind ≤ 8) && (rights &&& allowed) == rights

/-- Bytes of a MAC of a kind: CMAC, HMAC-SHA-256, HMAC-SHA-384. -/
def macLen (kind : Nat) : Nat := match kind with | 3 => 32 | 4 => 48 | _ => 16

/-- The MAC of a message. -/
def macOf (x : VSlot) (msg : List Byte) : List Byte :=
  match x.kind with
  | 3 => Config.hmac 256 x.key msg
  | 4 => Config.hmac 384 x.key msg
  | _ => Config.aesCmac x.key msg

/-- Bytes of a signature, or of a public key, of an elliptic-curve kind. -/
def curveLen (kind : Nat) : Nat := if kind = 6 ∨ kind = 8 then 96 else 64

/-! ### Request descriptors (Table 21-4) -/

structure VDesc where
  op : Nat
  slot : Nat
  dest : Nat
  flags : Nat
  zero : Bool
  inAddr : Nat
  inLen : Nat
  param : Nat
  outAddr : Nat
  outCap : Nat
  iv : List Byte
  kind : Nat
  rights : Nat
  expire : Bool
  count : Nat
deriving DecidableEq, Repr

def vdescOf (b : List Byte) : VDesc :=
  { op := fld b 0 1, slot := fld b 1 1, dest := fld b 2 1, flags := fld b 3 1,
    zero := fld b 3 1 / 8 == 0 && fld b 6 2 == 0 && fld b 52 4 == 0 && fld b 59 1 == 0,
    inAddr := fld b 8 8, inLen := fld b 16 4, param := fld b 20 4, outAddr := fld b 24 8, outCap := fld b 32 4,
    iv := (b.drop 36).take 16, kind := fld b 56 1, rights := fld b 57 1, expire := (fld b 58 1).testBit 0, count := fld b 60 4 }

def VDesc.inData (d : VDesc) : Bool := d.flags.testBit 0
def VDesc.sha384 (d : VDesc) : Bool := d.flags.testBit 2

/-- The space of a caller's buffer. -/
def vspace (caller : Option (Nat × Nat)) (data : Bool) : Space := if data then .data (caller.getD (0, 0)).1 else .dram

/-- Whether n bytes at an address lie in the shared DRAM region, or in the caller's declared DATA. -/
def Chip.vroom (m : Chip) (caller : Option (Nat × Nat)) (data : Bool) (a n : Nat) : Bool :=
  n == 0 || (if data then (match caller with
    | some (_, size) => decide (a + n ≤ size)
    | none => false) else m.inShared a n)

/-- Whether a request's descriptor can be read. -/
def Chip.vdescOk (m : Chip) (r : VReq) : Bool := m.vroom r.caller r.inData r.addr 64 && (r.inData || r.addr % 64 == 0)

/-- The descriptor as it stands. -/
def Chip.vdesc (m : Chip) (r : VReq) : VDesc := vdescOf (m.bytes (vspace r.caller r.inData) r.addr 64)

/-- Write completion code, output length and DONE into the descriptor; a VAULT_BULK job ends. -/
def Chip.vdone (m : Chip) (r : VReq) (code : Half) (len : Nat) : Chip :=
  let sp := vspace r.caller r.inData
  let m1 := if r.bulk then m.endJob (fun j => j.cls == 7 && j.owner == r.addr) none else m
  if !m.vdescOk r then m1
  else ((m1.wr sp (r.addr + 4) 2 code.toNat).wr sp (r.addr + 32) 4 len).wr sp (r.addr + 3) 1
    (setBits (m.rd sp (r.addr + 3) 1) 1 1 1)

/-! ### The checks (R435) -/

/-- Whether an operation takes input, and whether it gives output. -/
def opInput (o : Nat) : Bool := [1, 2, 3, 4, 5, 6, 7, 8, 9, 10, 12, 17].contains o
def opOutput (o : Nat) : Bool := [1, 2, 3, 4, 6, 7, 11, 13, 15, 16, 17].contains o

/-- Check 1. -/
def Chip.vcheck1 (m : Chip) (r : VReq) (d : VDesc) : Bool :=
  decide (1 ≤ d.op ∧ d.op ≤ 17) && d.zero && (!opInput d.op || m.vroom r.caller d.inData d.inAddr d.inLen) &&
    (!opOutput d.op || m.vroom r.caller d.inData d.outAddr d.outCap)

/-- The input of a request. -/
def Chip.vinput (m : Chip) (r : VReq) (d : VDesc) : List Byte := m.bytes (vspace r.caller d.inData) d.inAddr d.inLen

/-- Kind and right that a key operation asks of its slot; fixed slots serve only what Table 21-2 names. -/
def keySuits (d : VDesc) (x : VSlot) : Bool :=
  let aes := x.kind == 1 || x.kind == 2
  let fixed := decide (d.slot < 8)
  match d.op with
  | 1 => !fixed && aes && x.right 0
  | 2 => !fixed && aes && x.right 1
  | 3 => !fixed && aes && (x.right 0 || x.right 1)
  | 4 => !fixed && decide (1 ≤ x.kind ∧ x.kind ≤ 4) && x.right 4
  | 5 => !fixed && decide (1 ≤ x.kind ∧ x.kind ≤ 4) && x.right 4
  | 7 => (x.kind == 5 || x.kind == 6) && x.right 2
  | 8 => (x.kind == 7 || x.kind == 8) && x.right 3
  | 9 => (!fixed || d.slot == 0) && (x.kind == 3 || x.kind == 4) && x.right 5
  | 10 => (!fixed || d.slot == 0) && (x.kind == 3 || x.kind == 4) && x.right 5
  | 11 => (!fixed || d.slot == 1) && x.kind == 2 && x.right 6
  | 12 => (!fixed || d.slot == 1) && x.kind == 2 && x.right 6
  | 16 => (x.kind == 5 || x.kind == 6) && x.right 2
  | 17 => d.slot == 4 && x.kind == 3
  | _ => true

/-- Whether an operation uses the key of its slot. -/
def usesKey (o : Nat) : Bool := [1, 2, 3, 4, 5, 7, 8, 9, 10, 11, 12, 16, 17].contains o

/-- Whether the input has the parts its operation names (notes/assumptions/54.md). -/
def shapeOk (d : VDesc) (x : VSlot) (input : List Byte) : Bool :=
  match d.op with
  | 1 => decide (d.param ≤ d.inLen)
  | 2 => decide (d.param + 16 ≤ d.inLen)
  | 5 => decide (macLen x.kind ≤ d.inLen)
  | 8 => decide (curveLen x.kind ≤ d.inLen)
  | 9 => decide (d.param ≤ d.inLen)
  | 10 => decide (d.param ≤ d.inLen)
  | 12 => fld input 0 1 == 1 && rightsOk (fld input 1 1) (fld input 2 1) && fld input 3 1 / 2 == 0 && fld input 8 8 == 0 &&
          d.inLen == 44 + kindLen (fld input 1 1)
  | 17 => d.inLen == 32
  | _ => true

/-- A reserved derivation: info or label that starts with "QV-". -/
def reservedInfo (l : List Byte) : Bool := l.take 3 == text "QV-"

/-- Check 2. -/
def Chip.vcheck2 (m : Chip) (d : VDesc) (input : List Byte) : Bool :=
  let x := m.vslot d.slot
  let newOk := rightsOk d.kind d.rights && m.vfree d.dest
  (!usesKey d.op || (x.kind != 0 && !m.vheld d.slot && keySuits d x)) && shapeOk d x input &&
  (match d.op with
    | 9 => newOk && decide (d.kind ≤ 4) && !reservedInfo (input.drop d.param)
    | 10 => newOk && decide (d.kind ≤ 4) && !reservedInfo (input.take d.param)
    | 11 => m.vfree d.dest && (m.vslot d.dest).kind != 0 && !(m.vslot d.dest).expire
    | 12 => m.vfree d.dest
    | 13 => newOk && decide (d.kind ≤ 6)
    | 14 => m.vfree d.dest
    | _ => true)

/-- The output an operation needs room for. -/
def Chip.vneed (m : Chip) (d : VDesc) : Nat :=
  let x := m.vslot d.slot
  match d.op with
  | 1 => d.inLen - d.param + 16
  | 2 => d.inLen - d.param - 16
  | 3 => d.inLen
  | 4 => macLen x.kind
  | 6 => if d.sha384 then 48 else 32
  | 7 => curveLen x.kind
  | 11 => 44 + kindLen (m.vslot d.dest).kind
  | 13 => if 5 ≤ d.kind then curveLen d.kind else 0
  | 16 => curveLen x.kind
  | 17 => 32
  | _ => 0

/-- The checks in order: the code of the first failure, and the chip with the key's use counted. -/
def Chip.vcheck (m : Chip) (r : VReq) (d : VDesc) (healthy : Bool) : Half × Chip :=
  if !m.vcheck1 r d || !m.vcheck2 d (m.vinput r d) then (CC.checkFailed, m)
  else if usesKey d.op && (m.vslot d.slot).count == 0 then (CC.keyExhausted, m)
  else
    let m1 := if usesKey d.op then m.useKey d.slot else m
    if d.outCap < m1.vneed d then (CC.checkFailed, m1)
    else if (d.op == 13 || d.op == 15) && !healthy then (CC.checkFailed, m1.post (ev 0x10 0x0F03 3 0 0 []))
    else (CC.ok, m1)

/-! ### The operations (Table 21-5) -/

/-- What a started operation gives: code, output, chip. -/
abbrev VRes := Half × List Byte × Chip

/-- Answer output. -/
def Chip.vgive (m : Chip) (l : List Byte) : VRes := (CC.ok, l, m)

/-- Install a key in the destination slot. -/
def Chip.vinstall (m : Chip) (d : VDesc) (origin : Nat) (key : List Byte) : Chip :=
  m.setVslot d.dest { kind := d.kind, rights := d.rights, count := d.count, expire := d.expire, origin := origin, key := key }

def Chip.vGcmEnc (m : Chip) (d : VDesc) (i : List Byte) : VRes :=
  m.vgive (Config.gcmSeal (m.vslot d.slot).key (d.iv.take 12) (i.take d.param) (i.drop d.param))

/-- GCM_DEC writes zeros in place of the plain text where the tag fails. -/
def Chip.vGcmDec (m : Chip) (d : VDesc) (i : List Byte) : VRes :=
  match Config.gcmOpen (m.vslot d.slot).key (d.iv.take 12) (i.take d.param) (i.drop d.param) with
  | some t => m.vgive t
  | none => (CC.authFail, List.replicate (d.inLen - d.param - 16) 0, m)

def Chip.vCtr (m : Chip) (d : VDesc) (i : List Byte) : VRes := m.vgive (Config.aesCtr (m.vslot d.slot).key d.iv i)

def Chip.vMac (m : Chip) (d : VDesc) (i : List Byte) : VRes := m.vgive (macOf (m.vslot d.slot) i)

def Chip.vMacCheck (m : Chip) (d : VDesc) (i : List Byte) : VRes :=
  let x := m.vslot d.slot
  let n := d.inLen - macLen x.kind
  if macOf x (i.take n) = i.drop n then m.vgive [] else (CC.authFail, [], m)

def Chip.vHash (m : Chip) (d : VDesc) (i : List Byte) : VRes := m.vgive (if d.sha384 then Config.sha384 i else Config.sha256 i)

def Chip.vSign (m : Chip) (d : VDesc) (i : List Byte) : VRes :=
  m.vgive (Config.ecdsaSign (m.vslot d.slot).kind (m.vslot d.slot).key i)

def Chip.vVerify (m : Chip) (d : VDesc) (i : List Byte) : VRes :=
  let x := m.vslot d.slot
  let n := d.inLen - curveLen x.kind
  let ok := if x.kind = 8 then Config.ecdsaP384 x.key (i.take n) (i.drop n) else Config.ecdsaP256 x.key (i.take n) (i.drop n)
  if ok then m.vgive [] else (CC.authFail, [], m)

/-- HKDF with SHA-256: salt then info. -/
def Chip.vHkdf (m : Chip) (d : VDesc) (i : List Byte) : VRes :=
  (m.vinstall d 2 (Config.hkdf 256 (m.vslot d.slot).key (i.take d.param) (i.drop d.param) (kindLen d.kind))).vgive []

/-- KDF108: the fixed input is label, a zero byte, context, and the length in bits, big-endian. -/
def Chip.vKdf108 (m : Chip) (d : VDesc) (i : List Byte) : VRes :=
  let n := kindLen d.kind
  (m.vinstall d 2 (Config.kdf108 (m.vslot d.slot).key (i.take d.param ++ [0] ++ i.drop d.param ++ (le 4 (8 * n)).reverse) n)).vgive []

/-- The header of a key blob (Table 21-7, bytes 0 to 15). -/
def blobHead (x : VSlot) : List Byte :=
  [1, BitVec.ofNat 8 x.kind, BitVec.ofNat 8 x.rights, BitVec.ofNat 8 (bit x.expire)] ++ le 4 x.count ++ le 8 0

/-- WRAP: the blob of the destination slot's key, under an IV of the vault's own. -/
def Chip.vWrap (m : Chip) (d : VDesc) : VRes :=
  let x := m.vslot d.dest
  let (iv, m1) := m.random 12
  m1.vgive (blobHead x ++ iv ++ Config.gcmSeal (m.vslot d.slot).key iv (blobHead x) x.key)

/-- The key that a blob holds under a wrapping key. -/
def openBlob (key blob : List Byte) (origin : Nat) : Option VSlot :=
  let kind := fld blob 1 1
  match Config.gcmOpen key ((blob.drop 16).take 12) (blob.take 16) ((blob.drop 28).take (kindLen kind + 16)) with
  | some k => some { kind := kind, rights := fld blob 2 1, expire := (fld blob 3 1).testBit 0, count := fld blob 4 4,
                     origin := origin, key := k }
  | none => none

def Chip.vUnwrap (m : Chip) (d : VDesc) (i : List Byte) : VRes :=
  match openBlob (m.vslot d.slot).key i 5 with
  | some x => (m.setVslot d.dest x).vgive []
  | none => (CC.authFail, [], m)

/-- GENERATE: a random key; the public key of an elliptic-curve kind is the output. -/
def Chip.vGenerate (m : Chip) (d : VDesc) : VRes :=
  let (k, m1) := m.random (kindLen d.kind)
  (m1.vinstall d 4 k).vgive (if 5 ≤ d.kind then Config.ecdsaPublic d.kind k else [])

def Chip.vClear (m : Chip) (d : VDesc) : VRes := (m.setVslot d.dest {}).vgive []

def Chip.vRandom (m : Chip) (d : VDesc) : VRes :=
  let (l, m1) := m.random d.outCap
  m1.vgive l

def Chip.vPubkey (m : Chip) (d : VDesc) : VRes :=
  m.vgive (Config.ecdsaPublic (m.vslot d.slot).kind (m.vslot d.slot).key)

/-- The state word of Table 21-8. -/
def Chip.stateWord (m : Chip) : Nat :=
  bit m.vault.debug * 2 ^ 31 + bit (m.otp 1).isSome * 2 ^ 30 + bit (m.otp 2).isSome * 2 ^ 29 + m.get R.KEEP_STAT_COLD * 2 ^ 28 +
  m.get R.UPL_TIME_STAT_TRUSTED * 2 ^ 27 + m.get R.KEEP_STAT_BKLOSS * 2 ^ 26 + m.get R.SADL_STAT_ROLE * 2 ^ 24 +
  m.get R.CAIRN_BOOT_STAT_STATE * 2 ^ 20

/-- The message that ATTEST authenticates (R440). -/
def Chip.attestMsg (m : Chip) (nonce : List Byte) : List Byte :=
  nonce ++ le64 m.vault.ident ++ le 4 m.stateWord ++ le 4 (m.get R.CAIRN_GEN)

def Chip.vAttest (m : Chip) (d : VDesc) (i : List Byte) : VRes := m.vgive (Config.hmac 256 (m.vslot d.slot).key (m.attestMsg i))

/-! ### The queue (R434, R435) -/

/-- Whether an operation runs on the elliptic-curve engine. -/
def curveOp (d : VDesc) : Bool := d.op == 7 || d.op == 8 || d.op == 16 || (d.op == 13 && decide (5 ≤ d.kind))

/-- The slot that an operation writes. -/
def VDesc.writes (d : VDesc) : Option Nat := if [9, 10, 12, 13, 14].contains d.op then some d.dest else none

/-- Whether an operation names a slot. -/
def VDesc.names (d : VDesc) (n : Nat) : Bool :=
  (usesKey d.op && d.slot == n) || ([9, 10, 11, 12, 13, 14].contains d.op && d.dest == n)

/-- Set the queue; VAULT_STAT.QUEUED counts it. -/
def Chip.setVqueue (m : Chip) (q : List VReq) : Chip := (m.setVault { m.vault with queue := q }).put R.VAULT_STAT_QUEUED q.length

/-- Whether the request at a place of the queue may start: the first for its engine, and no earlier one writes a slot it names. -/
def Chip.vready (m : Chip) (before : List VReq) (r : VReq) : Bool :=
  let d := m.vdesc r
  before.all (fun b =>
    let e := m.vdesc b
    curveOp e != curveOp d && (match e.writes with
      | some n => !d.names n
      | none => true))

/-- The first request of an operation that may start. -/
def Chip.vpick (m : Chip) (op : Nat) : List VReq → List VReq → Option VReq
  | _, [] => none
  | before, r :: t => if (m.vdesc r).op = op ∧ m.vready before r then some r else m.vpick op (before ++ [r]) t

/-- Requests at the front whose operation does not exist, or whose descriptor cannot be read, complete with CHECK_FAILED. -/
def Chip.vflush (m : Chip) : List VReq → Chip
  | [] => m.setVqueue []
  | r :: t =>
    let op := (m.vdesc r).op
    if m.vdescOk r && decide (1 ≤ op ∧ op ≤ 17) then m.setVqueue (r :: t) else (m.vdone r CC.checkFailed 0).vflush t

/-- Execute one request of an operation: its checks, the operation itself, the output and the completion. -/
def Chip.vault1 (m : Chip) (op : Nat) (healthy : Bool) (f : Chip → VDesc → List Byte → VRes) : Chip :=
  match m.vpick op [] m.vault.queue with
  | none => m
  | some r =>
    let m1 := m.setVqueue (m.vault.queue.erase r)
    let d := m1.vdesc r
    let m2 := if op = 13 ∨ op = 15 then m1.put R.VAULT_STAT_ENTROPY_OK (bit healthy) else m1
    let i := m2.vinput r d
    let (code, m3) := m2.vcheck r d healthy
    let m6 := if code ≠ CC.ok then m3.vdone r code 0
      else
        let (c, out, m4) := f m3 d i
        let m5 := if c = CC.authFail then m4.count R.VAULT_AUTH_CNT (some R.VAULT_STAT_AUTH_SAT) else m4
        (m5.setBytes (vspace r.caller d.inData) d.outAddr out).vdone r c out.length
    m6.vflush m6.vault.queue

/-- Offer a request: refused while the vault drains or is disabled; a bulk request needs admission (R436); at most 64 wait. -/
def Chip.vaultSubmit (m : Chip) (r : VReq) : Half × Chip :=
  if !m.unitOpen UK.vault then (CC.cancelled, m)
  else if 64 ≤ m.vault.queue.length then (CC.overflow, m)
  else
    let d := m.vdesc r
    let m1 := m.setVqueue (m.vault.queue ++ [r])
    if m.vdescOk r && decide (65536 < d.inLen) && opInput d.op then
      match m.admitJob { cls := 7, cost := m.get (R.RIDGE_CLS_COST 7) * ((d.inLen + 1048575) / 1048576),
                         draw := m.get (R.RIDGE_CLS_DRAW 7), owner := r.addr } with
      | (.ok _, m2) =>
        let q := m2.vault.queue ++ [{ r with bulk := true }]
        (CC.ok, (m2.setVqueue q).vflush q)
      | (_, m2) => (CC.noBudget, m2.vdone r CC.noBudget 0)
    else (CC.ok, m1.vflush m1.vault.queue)

/-- The declared DATA of a program that a core runs. -/
def Chip.callerData (m : Chip) (c : Nat) : Option (Nat × Nat) :=
  let k := m.core c
  if k.level.isSome then some (k.dataKey c, k.img.dataSize) else none

/-- A write of VAULT_SUB_HI (R434). -/
def Chip.vaultReg (m : Chip) (r : Req) (v : Word) : Chip :=
  let (lo, m1) := m.heldWord r R.VAULT_SUB_LO.addr
  let m2 := (m1.setReg R.VAULT_SUB_LO.addr lo).setReg R.VAULT_SUB_HI.addr (v &&& 7)
  let caller := match r with
    | .core c => m2.callerData c.val
    | _ => none
  let (code, m3) := m2.vaultSubmit { addr := lo.toNat + v.toNat % 8 * 2 ^ 32, caller := caller }
  m3.put R.VAULT_SUB_RES_CODE code.toNat

/-! ### Imports (R437 to R439) -/

structure VImp where
  slot : Nat
  valid : Bool
  zero : Bool
  blob : List Byte
deriving DecidableEq, Repr

def Chip.vimp (m : Chip) (i : Nat) : VImp :=
  let b := m.bytes (.win .vaultImp) (160 * i) 160
  { slot := fld b 0 1, valid := (fld b 1 1).testBit 0, zero := fld b 2 2 == 0, blob := b.drop 4 }

/-- The VALID entries. -/
def Chip.vimps (m : Chip) : List VImp := ((List.range 256).map m.vimp).filter VImp.valid

/-- C9 of the vault on the tables as a set leaves them (R438). -/
def Chip.vaultC9 (n : Chip) (staged : Bool) (tables : Bool) : Option Verdict :=
  let bad := fun (c : Half) (o : Nat) => (some ⟨c, 9, 0x10, BitVec.ofNat 64 o⟩ : Option Verdict)
  let l := if tables then n.vimps else []
  let shape := fun (e : VImp) =>
    decide (8 ≤ e.slot) && !n.vheld e.slot && decide (l.countP (fun o => o.slot == e.slot) ≤ 1) && !(fld e.blob 3 1).testBit 0 &&
      fld e.blob 0 1 == 1 && rightsOk (fld e.blob 1 1) (fld e.blob 2 1) && e.zero
  let remask := n.get R.VAULT_CTL_REMASK
  if staged && !decide (1 ≤ remask ∧ remask ≤ 3600) then bad CC.checkFailed R.VAULT_CTL.addr
  else match l.find? (fun e => !shape e) with
    | some e => bad CC.checkFailed e.slot
    | none => match l.find? (fun e => (n.vslot 1).kind == 0 || (openBlob (n.vslot 1).key e.blob 3).isNone) with
      | some e => bad CC.authFail e.slot
      | none => none

/-- Install the staged VALID entries on the apply edge (R439). -/
def Chip.vaultInstall (m : Chip) (entries : List Nat) : Chip :=
  (entries.map m.vimp).foldl (fun a e =>
    if !e.valid then a else match openBlob (a.vslot 1).key e.blob 3 with
      | some x => a.setVslot e.slot x
      | none => a) m

/-! ### One-time programming and debug (R428, R441, R442) -/

/-- The size of a one-time field. -/
def otpSize (f : Nat) : Nat := if f = 2 then 48 else 32

/-- The bytes in n data words. -/
def Chip.wordBytes (m : Chip) (f : Nat → FRef) (n : Nat) : List Byte := ((List.range n).map (fun w => le 4 (m.get (f w)))).flatten

/-- VAULT_OTP_CMD.GO from the PCIe host or the UART. -/
def Chip.otpGo (m : Chip) (r : Req) (f : Nat) : Chip :=
  if (r ≠ .pcie ∧ r ≠ .uart) ∨ m.vault.otpRun.isSome then m else
  let data := (m.wordBytes R.VAULT_OTP_DATA 12).take (otpSize f)
  if f < 1 ∨ 4 < f ∨ AMap.get [] m.vault.otp f ≠ [] ∨ m.vault.burnt.contains f ∨ data.all (· == 0) then
    m.put R.VAULT_OTP_RES_CODE CC.checkFailed.toNat
  else (m.setVault { m.vault with otpRun := some (f, data) }).put R.VAULT_OTP_RES_BUSY 1

/-- OTP_PROGRAMMED. -/
def Chip.otpDone (m : Chip) : Chip :=
  match m.vault.otpRun with
  | none => m
  | some (f, data) =>
    (((m.setVault { m.vault with otpRun := none, otp := AMap.put [] f data m.vault.otp }).put R.VAULT_OTP_RES_BUSY 0).put
      R.VAULT_OTP_RES_CODE 0).post (ev 0x10 0x0F02 1 0 0 (le 1 f))

/-- A power failure cuts off the programming that runs. -/
def Chip.otpCut (m : Chip) : Chip :=
  match m.vault.otpRun with
  | some (f, _) => m.setVault { m.vault with otpRun := none, burnt := f :: m.vault.burnt }
  | none => m

/-- Write bytes into data words. -/
def Chip.putWords (m : Chip) (f : Nat → FRef) (n : Nat) (l : List Byte) : Chip :=
  (List.range n).foldl (fun a w => a.put (f w) (fld l (4 * w) 4)) m

/-- CHAL. -/
def Chip.debugChal (m : Chip) (r : Req) : Chip :=
  if r ≠ .pcie ∧ r ≠ .uart then m else
  let (l, m1) := m.random 32
  (m1.setVault { m1.vault with nonce := some l }).putWords R.VAULT_DBG_NONCE 8 l

/-- DEBUG_STATE: 0 closed, 1 enabled, 2 pending. -/
def Chip.debugState (m : Chip) (s : Nat) : Chip := m.post (ev 0x10 0x0F01 2 0 m.vault.ident.toNat (le 1 s))

/-- OPEN. A nonce serves one OPEN; one without a nonce is a wrong response (notes/assumptions/55.md). -/
def Chip.debugOpen (m : Chip) (r : Req) : Chip :=
  if r ≠ .pcie ∧ r ≠ .uart then m else
  let res := fun (a : Chip) (c : Half) => a.put R.VAULT_DBG_RES_CODE c.toNat
  match m.otp 4 with
  | none => res m CC.checkFailed
  | some key =>
    if 3 ≤ m.vault.fails then res m CC.checkFailed
    else
      let good := match m.vault.nonce with
        | some l => Config.hmac 256 key (l ++ le64 m.vault.ident ++ text "QV-DEBUG") == m.wordBytes R.VAULT_DBG_RESP 8
        | none => false
      let m1 := m.setVault { m.vault with nonce := none }
      if good then
        (res ((m1.setVault { m1.vault with debugKept := true }).put R.VAULT_STAT_DBG_PEND 1) CC.ok).debugState 2
      else
        res ((m1.setVault { m1.vault with fails := m1.vault.fails + 1 }).count R.VAULT_AUTH_CNT (some R.VAULT_STAT_AUTH_SAT))
          CC.authFail

/-- CLOSE. -/
def Chip.debugClose (m : Chip) : Chip :=
  ((m.setVault { m.vault with debugKept := false }).put R.VAULT_STAT_DBG_PEND 1).put R.VAULT_DBG_RES_CODE 0

/-! ### Start of PD2 and disable (R429, R430, R433, R442, R444) -/

/-- What a start of PD2 does to the vault: one-time fields and debug take effect, slots are empty but for the fixed ones, a vault
reset. -/
def Chip.vaultStart (m : Chip) : Chip :=
  let was := m.vault.debug
  let m1 := m.setVault { m.vault with eff := m.vault.otp, debug := m.vault.debugKept, slots := [], queue := [], nonce := none, fails := 0,
                                      otpRun := none }
  let m2 := m1.formFixed.vreset
  let m3 := m2.put R.VAULT_STAT_DEBUG (bit m2.vault.debug)
  let m4 := m3.put R.VAULT_STAT_SET
    (bit (m3.otp 1).isSome + 2 * bit (m3.otp 2).isSome + 4 * bit (m3.otp 3).isSome + 8 * bit (m3.otp 4).isSome)
  if was != m4.vault.debug then m4.debugState (bit m4.vault.debug) else m4

/-- Every queued request completes with CANCELLED_DISABLE. -/
def Chip.vaultCancel (m : Chip) : Chip := (m.vault.queue.foldl (fun a r => a.vdone r CC.cancelled 0) m).setVqueue []

/-! ### Commands -/

def execVaultSubmit (r : Req) (v : Word) (s : State) : Host.Outcome State Fault Refusal := s.act (·.vaultReg r v)
def execVaultGcmEnc (s : State) : Host.Outcome State Fault Refusal := s.act (·.vault1 1 true Chip.vGcmEnc)
def execVaultGcmDec (s : State) : Host.Outcome State Fault Refusal := s.act (·.vault1 2 true Chip.vGcmDec)
def execVaultCtr (s : State) : Host.Outcome State Fault Refusal := s.act (·.vault1 3 true Chip.vCtr)
def execVaultMac (s : State) : Host.Outcome State Fault Refusal := s.act (·.vault1 4 true Chip.vMac)
def execVaultMacCheck (s : State) : Host.Outcome State Fault Refusal := s.act (·.vault1 5 true Chip.vMacCheck)
def execVaultHash (s : State) : Host.Outcome State Fault Refusal := s.act (·.vault1 6 true Chip.vHash)
def execVaultSign (s : State) : Host.Outcome State Fault Refusal := s.act (·.vault1 7 true Chip.vSign)
def execVaultVerify (s : State) : Host.Outcome State Fault Refusal := s.act (·.vault1 8 true Chip.vVerify)
def execVaultHkdf (s : State) : Host.Outcome State Fault Refusal := s.act (·.vault1 9 true Chip.vHkdf)
def execVaultKdf108 (s : State) : Host.Outcome State Fault Refusal := s.act (·.vault1 10 true Chip.vKdf108)
def execVaultWrap (s : State) : Host.Outcome State Fault Refusal := s.act (·.vault1 11 true (fun a d _ => a.vWrap d))
def execVaultUnwrap (s : State) : Host.Outcome State Fault Refusal := s.act (·.vault1 12 true Chip.vUnwrap)
/-- GENERATE: `healthy` is the outcome of the entropy health test. -/
def execVaultGenerate (healthy : Bool) (s : State) : Host.Outcome State Fault Refusal :=
  s.act (·.vault1 13 healthy (fun a d _ => a.vGenerate d))
def execVaultClear (s : State) : Host.Outcome State Fault Refusal := s.act (·.vault1 14 true (fun a d _ => a.vClear d))
def execVaultRandom (healthy : Bool) (s : State) : Host.Outcome State Fault Refusal :=
  s.act (·.vault1 15 healthy (fun a d _ => a.vRandom d))
def execVaultPubkey (s : State) : Host.Outcome State Fault Refusal := s.act (·.vault1 16 true (fun a d _ => a.vPubkey d))
def execVaultAttest (s : State) : Host.Outcome State Fault Refusal := s.act (·.vault1 17 true Chip.vAttest)
def execVreset (s : State) : Host.Outcome State Fault Refusal := s.act Chip.vreset
/-- REMASK (R443): a new mask; every key stands. -/
def execRemask (s : State) : Host.Outcome State Fault Refusal :=
  s.act (fun m => let (w, m1) := m.fresh; m1.setVault { m1.vault with mask := w })
def execOtpProgram (r : Req) (f : Fin 8) (s : State) : Host.Outcome State Fault Refusal := s.act (·.otpGo r f.val)
def execOtpProgrammed (s : State) : Host.Outcome State Fault Refusal := s.act Chip.otpDone
def execDebugChal (r : Req) (s : State) : Host.Outcome State Fault Refusal := s.act (·.debugChal r)
def execDebugOpen (r : Req) (s : State) : Host.Outcome State Fault Refusal := s.act (·.debugOpen r)
def execDebugClose (s : State) : Host.Outcome State Fault Refusal := s.act Chip.debugClose

end Sys2Proof.Machine
end

