-- ==== Sys2Proof/Machine/Uplinks.lean ====
section
/-! DEFINITION. Uplinks, SGMII ports, the PCIe link and league time (chapter 15): steps, slews and trust of league time, the PTP instance,
league neighbours, answers on the uplinks. UART requests are in Machine/Control.lean. -/

namespace Sys2Proof.Machine

open Sys2Proof

def Chip.setUpl (m : Chip) (u : Upl) : Chip := m.withUpl u

/-! ### League time (R314 to R317) -/

/-- Change the trust of league time: cause 0 seed, 1 set, 2 lock, 3 holdover. -/
def Chip.setTrust (m : Chip) (v : Bool) (cause : Nat) : Chip :=
  if m.trusted = v then m
  else (m.put R.UPL_TIME_STAT_TRUSTED (bit v)).post (ev 7 0x0902 (if v then 0 else 2) 0 0 (le 1 (bit v) ++ le 1 cause))

/-- A step of league time to an instant in ns: the grids of tasks and loops move with it, and the metering interval closes. -/
def Chip.timeStep (m : Chip) (t : Nat) : Chip :=
  let old := m.now
  let m1 := ((m.withClk { m.clk with league := t * 2 ^ 32 }).withMeter { m.meter with stepClose := true })
  let m2 := (m1.scan.tasks.map (·.1)).foldl Chip.anchorStep m1
  let m3 := (m2.loop.loops.map (·.1)).foldl Chip.loopStep m2
  m3.post (ev 7 0x0901 2 0 m3.now (le 8 old))

/-- The nominal rate word, and 200 ppm of it. -/
def rateNominal : Nat := 21845333333
def ratePpm200 : Nat := 4369066

/-- A slew of the servo: the rate word takes a value within ±200 ppm of the nominal one. The gains of the law are not in the spec, so the value
is free (notes/assumptions/56.md). -/
def Chip.slew (m : Chip) : Chip :=
  let (w, m1) := m.fresh
  m1.withClk { m1.clk with rate := rateNominal - ratePpm200 + w.toNat % (2 * ratePpm200 + 1) }

/-- A write of UPL_TIME_SET_HI. -/
def Chip.timeSet (m : Chip) (r : Req) (hi : Word) : Chip :=
  let (lo, m1) := m.heldWord r R.UPL_TIME_SET_LO.addr
  if m1.get R.UPL_TIME_CTL_MODE = 1 ∧ m1.upl.selected.isSome then m1.put R.UPL_TIME_STAT_SET_REF 1
  else
    let h := hi &&& 0x7FFFFFFF
    let m2 := (m1.setReg R.UPL_TIME_SET_LO.addr lo).setReg R.UPL_TIME_SET_HI.addr h
    (m2.timeStep (h.toNat * 2 ^ 32 + lo.toNat / 2 * 2)).setTrust (lo.getLsbD 0) 1

/-! ### The PTP instance (R318 to R320) -/

/-- Whether a standby's time unit follows the TIME stream and ignores its ports (R380). -/
def Chip.followsTwin (m : Chip) : Bool := m.standby && (m.syncState == 2 || m.syncState == 3)

/-- Whether an uplink runs PTP. -/
def Chip.ptpPort (m : Chip) (u : Nat) : Bool :=
  m.on (R.UPL_P_CFG_EN u) && m.on (R.UPL_P_CFG_PTP u) && m.unitOpen (UK.uplink u) && m.get R.UPL_TIME_CTL_MODE != 0

/-- Whether an uplink sends time. -/
def Chip.ptpSends (m : Chip) (u : Nat) : Bool :=
  m.ptpPort u && m.leads &&
    (m.get R.UPL_TIME_CTL_MODE == 2 ||
      (m.get R.UPL_TIME_CTL_MODE == 1 && m.on (R.UPL_P_CFG_PORT_MASTER u) && m.upl.selected.isSome &&
        decide ((m.upl.selected.map (·.1)) ≠ some u)))

/-- The state of an uplink's PTP port. -/
def Chip.ptpState (m : Chip) (u : Nat) : Nat :=
  if !m.ptpPort u then 0
  else if m.get R.UPL_TIME_CTL_MODE = 2 then 4
  else match m.upl.selected with
    | none => 1
    | some (p, _) => if p = u then (if m.upl.calibrated then 3 else 2) else if m.ptpSends u then 4 else 5

/-- Report the port states and the selected master. -/
def Chip.ptpShow (m : Chip) : Chip :=
  let m1 := (List.range 4).foldl (fun a u => a.put (R.UPL_P_STAT_PTP_STATE u) (a.ptpState u)) m
  match m1.upl.selected with
  | some (p, _) => (m1.put R.UPL_TIME_STAT_HAS_MASTER 1).put R.UPL_TIME_STAT_MASTER_PORT p
  | none => m1.put R.UPL_TIME_STAT_HAS_MASTER 0

/-- The receipt timeout and the qualification window, in ns: 3 and 4 Announce intervals. -/
def Chip.annInterval (m : Chip) : Nat := 1000000000 * 2 ^ m.get R.UPL_PTP_CFG_ANN_LOG

/-- Whether data set a precedes b, the first difference deciding. -/
def rankBefore : List Nat → List Nat → Bool
  | a :: s, b :: t => if a = b then rankBefore s t else decide (a < b)
  | _, _ => false

/-- A master still heard and qualified: two Announces within four intervals, the last within three. -/
def Chip.qualified (m : Chip) (x : PtpMaster) : Bool :=
  let i := m.annInterval
  match x.heard with
  | a :: b :: _ => decide (a ≤ b + 4 * i ∧ m.monoNs < a + 3 * i)
  | _ => false

/-- The best qualified master (clause 9.3). -/
def Chip.bestMaster (m : Chip) : Option PtpMaster :=
  (m.upl.masters.filter m.qualified).foldl (fun best x => match best with
    | none => some x
    | some b => if rankBefore x.rank b.rank then some x else some b) none

/-- A change of the UTC offset: the keeper's copy follows at once. -/
def Chip.setUtc (m : Chip) (ofs : Nat) (valid li61 li59 : Bool) : Chip :=
  let m1 := (((m.put R.UPL_UTC_OFS ofs).put R.UPL_UTC_VALID (bit valid)).put R.UPL_UTC_LI61 (bit li61)).put R.UPL_UTC_LI59 (bit li59)
  if m.get R.UPL_UTC_OFS = ofs then m1 else (m1.withKeep { m1.keep with ofs := ofs }).setLocal

/-- The UTC offset that holds while no master is selected. -/
def Chip.ownUtc (m : Chip) : Chip :=
  m.setUtc (m.upl.utcOwn.getD 37) m.upl.utcOwn.isSome false false

/-- Take a selection of the BMCA: a lost or replaced master is posted, LOCKED clears and the path delay is to be measured anew. -/
def Chip.ptpSelect (m : Chip) (best : Option PtpMaster) : Chip :=
  let new := best.map (fun x => (x.port, x.ident))
  if new = m.upl.selected then m
  else
    let was := m.upl.selected
    let u1 := { m.upl with selected := new, calibrated := false, inLock := 0, outLock := 0, aboveStep := 0, delay := [],
                           noMaster := (if new.isSome then none else some m.monoNs) }
    let m1 := (m.setUpl u1).put R.UPL_TIME_STAT_LOCKED 0
    let m2 := if was.isSome then
        m1.post (ev 7 0x0903 1 ((was.map (·.1)).getD 0) ((new.map (·.2.toNat)).getD 0) (le 1 ((best.map (·.cls)).getD 0)))
      else m1
    (if new.isNone then m2.ownUtc else m2).ptpShow

/-- ANNOUNCE: kept for its sender; the best qualified master is selected; the selected one gives the UTC offset. -/
def Chip.announce (m : Chip) (a : PtpAnnounce) : Chip :=
  let u := a.port.val
  if !m.ptpPort u || m.get R.UPL_TIME_CTL_MODE != 1 || m.followsTwin || a.domain.toNat != m.get R.UPL_PTP_CFG_DOMAIN ||
      decide (a.seconds < 946684800) then m
  else
    let mine := fun (x : PtpMaster) => x.port == u && x.ident == a.ident
    let old := ((m.upl.masters.find? mine).map (·.heard)).getD []
    let x : PtpMaster :=
      { port := u, ident := a.ident,
        rank := [a.prio1.toNat, a.cls.toNat, a.accuracy.toNat, a.variance.toNat, a.prio2.toNat, a.grandmaster.toNat, a.steps.toNat,
                 a.ident.toNat, u],
        cls := a.cls.toNat, utc := a.utc.toNat, flags := a.flags.toNat, heard := m.monoNs :: old.take 1 }
    let m1 := m.setUpl { m.upl with masters := m.upl.masters.filter (fun y => !mine y) ++ [x] }
    let m2 := m1.ptpSelect m1.bestMaster
    if m2.upl.selected = some (u, a.ident) then
      m2.setUtc a.utc.toNat (a.flags.getLsbD 2) (a.flags.getLsbD 0) (a.flags.getLsbD 1)
    else m2

/-- ANNOUNCE_TIMEOUT: the selected master has been silent for the receipt timeout; the BMCA selects among the rest. -/
def Chip.announceTimeout (m : Chip) : Chip :=
  match m.upl.selected with
  | none => m
  | some (p, i) =>
    match m.upl.masters.find? (fun x => x.port == p && x.ident == i) with
    | some x => if m.qualified x then m else m.ptpSelect m.bestMaster
    | none => m.ptpSelect m.bestMaster

/-- HOLDOVER_EXPIRY: SLAVE, and no master for UPL_TIME_HOLD. -/
def Chip.holdover (m : Chip) : Chip :=
  let hold := max 1 (m.get R.UPL_TIME_HOLD)
  if m.get R.UPL_TIME_CTL_MODE = 1 ∧ m.upl.selected.isNone ∧ !m.followsTwin ∧
      (m.upl.noMaster.getD 0) + hold * 1000000000 ≤ m.monoNs then m.setTrust false 3
  else m

/-- An offset as UPL_TIME_OFS shows it. -/
def ofsWord (o : Int) : Word := BitVec.ofInt 32 (max (-(2 ^ 31 - 1)) (min (2 ^ 31 - 1) o))

/-- The servo on one offset (R320). -/
def Chip.servo (m : Chip) (o : Int) : Chip :=
  let x := m.upl
  let thr := m.get R.UPL_PTP_CFG_STEP_THR * 100000
  let trust := m.get R.UPL_TIME_CTL_TRUST_NS
  let above := if thr < o.natAbs then x.aboveStep + 1 else 0
  let step := decide (thr < o.natAbs) && (!x.calibrated || decide (16 ≤ above))
  let inn := if o.natAbs ≤ trust then min 4 (x.inLock + 1) else 0
  let out := if 4 * trust < o.natAbs then min 16 (x.outLock + 1) else 0
  let m1 := (m.setUpl { x with aboveStep := (if step then 0 else above), inLock := inn, outLock := out }).setReg R.UPL_TIME_OFS.addr
    (ofsWord o)
  let m2 := if step then m1.timeStep ((m1.now : Int) - o).toNat else m1.slew
  if inn = 4 ∧ !m2.on R.UPL_TIME_STAT_LOCKED then
    (((m2.setUpl { m2.upl with calibrated := true }).put R.UPL_TIME_STAT_LOCKED 1).setTrust true 2).ptpShow
  else if out = 16 then m2.put R.UPL_TIME_STAT_LOCKED 0
  else m2

/-- SYNC from a master: its origin time (PTP seconds and ns, corrections added) and the receipt stamp of league time. It counts where the path
delay is valid. -/
def Chip.sync (m : Chip) (u : Nat) (ident : DWord) (sec ns rx : Nat) : Chip :=
  match AMap.get none m.upl.delay u with
  | some d =>
    if m.upl.selected = some (u, ident) ∧ m.ptpPort u ∧ !m.followsTwin then
      m.servo ((rx : Int) - (((sec : Int) - 946684800) * 1000000000 + ns + d))
    else m
  | none => m

/-- DELAY_RESP: the path delay of an uplink. -/
def Chip.delayResp (m : Chip) (u d : Nat) : Chip :=
  if m.ptpPort u && m.get R.UPL_TIME_CTL_MODE == 1 && !m.followsTwin then
    m.setUpl { m.upl with delay := AMap.put none u (some d) m.upl.delay }
  else m

/-- A league time as PTP seconds and nanoseconds. -/
def ptpTime (t : Nat) : List Nat := [t / 1000000000 + 946684800, t % 1000000000]

/-- The next PTP sequence number of an uplink. -/
def Chip.ptpNext (m : Chip) (u : Nat) : Nat × Chip :=
  let q := (AMap.get 0 m.upl.ptpSeq u + 1) % 65536
  (q, m.setUpl { m.upl with ptpSeq := AMap.put 0 u q m.upl.ptpSeq })

/-- The clockClass sent (Table 15-1). -/
def Chip.clockClass (m : Chip) : Nat :=
  let locked6 := m.on R.UPL_TIME_STAT_LOCKED && (match m.upl.selected with
    | some (p, i) => m.upl.masters.any (fun x => x.port == p && x.ident == i && x.cls == 6)
    | none => false)
  if locked6 then 6 else if m.trusted then 187 else 248

/-- SYNC_SEND: a one-step Sync with the league time of its edge. -/
def Chip.syncSend (m : Chip) (u : Nat) : Chip :=
  if m.ptpSends u then
    let (q, m1) := m.ptpNext u
    m1.emit (.frame 7 u "PTP_SYNC" ([q, m.get R.UPL_PTP_CFG_DOMAIN] ++ ptpTime m.now))
  else m

/-- ANNOUNCE_SEND. -/
def Chip.announceSend (m : Chip) (u : Nat) : Chip :=
  if m.ptpSends u then
    let (q, m1) := m.ptpNext u
    m1.emit (.frame 7 u "PTP_ANNOUNCE" [q, m.get R.UPL_PTP_CFG_DOMAIN, m.get R.UPL_PTP_CFG_PRIO1, m.clockClass, m.get R.UPL_UTC_OFS,
      m.get R.UPL_UTC_VALID, m.get R.UPL_UTC_LI61, m.get R.UPL_UTC_LI59])
  else m

/-- DELAY_REQ: answered with the receipt stamp. -/
def Chip.delayReq (m : Chip) (u seq : Nat) (rx : Nat) : Chip :=
  if m.ptpSends u then m.emit (.frame 7 u "PTP_DELAY_RESP" (seq :: ptpTime rx)) else m

/-- After an apply edge that may have changed PTP registers: leaving SLAVE, or losing the port, drops the master. -/
def Chip.ptpApplied (m old : Chip) : Chip :=
  let mode := m.get R.UPL_TIME_CTL_MODE
  let keep := mode == 1 && (match m.upl.selected with
    | some (p, _) => m.ptpPort p
    | none => true)
  let masters := if mode = 1 then m.upl.masters.filter (fun x => m.ptpPort x.port) else []
  let m1 := m.setUpl { m.upl with masters := masters }
  let m2 := if keep then m1 else m1.ptpSelect m1.bestMaster
  let m3 := if mode = 1 ∧ old.get R.UPL_TIME_CTL_MODE ≠ 1 then m2.setUpl { m2.upl with noMaster := some m2.monoNs } else m2
  m3.ptpShow

/-! ### Tables and their rule (R325, R326) -/

/-- An address of n bytes that is not all zero. -/
def present (b : List Byte) (off n : Nat) : Bool := fld b off n != 0

/-- Whether n bytes are all zero. -/
def clear (b : List Byte) (off n : Nat) : Bool := fld b off n == 0

def Chip.addrEnt (m : Chip) (i : Nat) : List Byte := m.bytes (.win .uplAddr) (64 * i) 64
def Chip.nbrEnt (m : Chip) (i : Nat) : List Byte := m.bytes (.win .uplNbr) (32 * i) 32

/-- Whether a neighbour entry is enabled, and LEAGUE; its device number. -/
def nbrOn (b : List Byte) : Bool := (fld b 0 1).testBit 0
def nbrLeague (b : List Byte) : Bool := nbrOn b && (fld b 0 1).testBit 1
def nbrDev (b : List Byte) : Nat := fld b 4 2

/-- The neighbours that an entry enables. -/
def Chip.nbrs (m : Chip) : List Nat := (m.rows (.win .uplNbr) 32).filter (fun i => decide (i < 4096) && nbrOn (m.nbrEnt i))

/-- An address entry that is in use is sound: CRC, ranges, MAC address neither zero nor a group's. -/
def addrOk (b : List Byte) (uplink : Bool) : Bool :=
  fld b 60 4 == (crc32c (b.take 60)).toNat && clear b 50 10 && present b 44 6 && !(fld b 44 1).testBit 0 &&
    (if uplink then decide (fld b 16 1 ≤ 128 ∧ fld b 17 1 ≤ 32) && clear b 18 2 else clear b 0 44)

/-- C9 of the uplinks on the tables and registers as a set leaves them. -/
def Chip.uplC9 (n : Chip) : Option Verdict :=
  let bad := fun (o : Nat) => (some ⟨CC.checkFailed, 9, 0x07, BitVec.ofNat 64 o⟩ : Option Verdict)
  let serves := fun (u : Nat) (v4 : Bool) =>
    decide (u < 4) && n.on (R.UPL_P_CFG_EN u) && (if v4 then present (n.addrEnt u) 20 4 else present (n.addrEnt u) 0 16)
  let l := n.nbrs
  let nbrOk := fun (i : Nat) =>
    let b := n.nbrEnt i
    let v4 := (fld b 0 1).testBit 2
    fld b 28 4 == (crc32c (b.take 28)).toNat && decide (fld b 0 1 < 8) && clear b 3 1 && clear b 24 4 &&
    (!v4 || clear b 12 12) && serves (fld b 1 1) v4 && (fld b 2 1 == 0xFF || serves (fld b 2 1) v4) &&
    decide (nbrDev b < 16384) && (nbrLeague b || nbrDev b == 0) &&
    (!nbrLeague b || (nbrDev b != n.get R.POINT_CFG_DEVNUM &&
      l.all (fun j => j == i || !nbrLeague (n.nbrEnt j) || nbrDev (n.nbrEnt j) != nbrDev b)))
  let pcp := (List.range 6).map n.pcp
  let log := n.get R.UPL_PTP_CFG_SYNC_LOG
  let regs : List (Bool × FRef) :=
    [(n.get R.UPL_CTL_UDP_PORT != 0, R.UPL_CTL),
     (pcp.eraseDups.length == 6 && (List.range 8).all (fun k => !(n.get R.UPL_PCP_MAP).testBit (4 * k + 3)), R.UPL_PCP_MAP)] ++
    (List.range 4).map (fun u => (n.get (R.UPL_P_CFG_FEC u) != 3 &&
      decide (1 ≤ n.get (R.UPL_P_CFG_VID u) ∧ n.get (R.UPL_P_CFG_VID u) ≤ 4094), R.UPL_P_CFG u)) ++
    (List.range 8).map (fun s => (decide (1 ≤ n.get (R.UPL_SG_CFG_BEACON s) ∧ n.get (R.UPL_SG_CFG_BEACON s) ≤ 200), R.UPL_SG_CFG s)) ++
    [(decide (n.get R.UPL_TIME_CTL_MODE ≠ 3 ∧ 10 ≤ n.get R.UPL_TIME_CTL_TRUST_NS ∧ n.get R.UPL_TIME_CTL_TRUST_NS ≤ 1000000), R.UPL_TIME_CTL),
     (decide (n.get R.UPL_PTP_CFG_TRANSPORT ≠ 3 ∧ (9 ≤ log ∨ log ≤ 1) ∧ n.get R.UPL_PTP_CFG_STEP_THR ≠ 0), R.UPL_PTP_CFG),
     (decide (n.get R.UPL_UART_CFG_RATE ≤ 7), R.UPL_UART_CFG)]
  match regs.find? (fun x => !x.1) with
  | some x => bad x.2.addr
  | none => match (List.range 4).find? (fun u => n.on (R.UPL_P_CFG_EN u) && !addrOk (n.addrEnt u) true) with
    | some u => bad (Win.obj .uplAddr (64 * u))
    | none => match (List.range 8).find? (fun s => n.on (R.UPL_SG_CFG_EN s) && !addrOk (n.addrEnt (4 + s)) false) with
      | some s => bad (Win.obj .uplAddr (64 * (4 + s)))
      | none => match l.find? (fun i => !nbrOk i) with
        | some i => bad (Win.obj .uplNbr (32 * i))
        | none => match n.stations.find? (fun i => (n.staEnt i).medium == 4 &&
              !(decide ((n.staEnt i).addr < 4096) && nbrOn (n.nbrEnt (n.staEnt i).addr))) with
          | some i => bad i
          | none => none

/-! ### League neighbours (R327) -/

def Chip.peer (m : Chip) (i : Nat) : Peer := AMap.get {} m.upl.peers i
def Chip.setPeer (m : Chip) (i : Nat) (p : Peer) : Chip := m.setUpl { m.upl with peers := AMap.put {} i p m.upl.peers }

/-- Change a neighbour's state; a change posts LEAGUE_PEER. -/
def Chip.peerState (m : Chip) (i st : Nat) : Chip :=
  let p := m.peer i
  if p.state = st then m
  else (m.setPeer i { p with state := st }).post (ev 7 0x0904 1 i (nbrDev (m.nbrEnt i)) (le 1 p.state ++ le 1 st))

/-- DEVNUM_CONFLICT. -/
def Chip.devConflict (m : Chip) (i : Nat) (ident : DWord) (dev : Nat) : Chip := m.post (ev 7 0x0905 3 i ident.toNat (le 2 dev))

/-- LG_ANNOUNCE. -/
def Chip.lgAnnounce (m : Chip) (f : RxFrame) : Chip :=
  let (ok, m1) := m.rx 0x46 f false
  let e := m1.staEnt f.station.toNat
  let b := m1.nbrEnt e.addr
  if !ok || e.medium != 4 || !nbrLeague b then m1
  else
    let i := e.addr
    let dev := f.device.toNat
    let ident := BitVec.ofNat 64 (fld f.payload 4 8)
    let p := m1.peer i
    if dev = m1.get R.POINT_CFG_DEVNUM ∧ ident ≠ m1.vault.ident then
      (if ident = m1.sadl.twin ∧ ident ≠ 0 then m1 else m1.devConflict i ident dev)
    else if p.state = 3 then m1
    else if fld f.payload 0 4 ≠ m1.get R.UPL_LEAGUE_ID then (m1.setPeer i { p with last := m1.monoNs }).peerState i 2
    else if dev != nbrDev b || (match p.ident with
        | some x => x != ident && !(p.twin == ident && ident != 0)
        | none => false) then (m1.peerState i 3).devConflict i ident dev
    else
      (m1.setPeer i { p with ident := some ident, twin := BitVec.ofNat 64 (fld f.payload 20 8), last := m1.monoNs }).peerState i 1

/-- PEER_LOST. -/
def Chip.peerLost (m : Chip) (i : Nat) : Chip :=
  let p := m.peer i
  if p.state = 1 ∧ p.last + 3000000000 ≤ m.monoNs then m.peerState i 4 else m

/-- The payload of the device's own announce (R327, R368). -/
def Chip.announceBody (m : Chip) : List Byte :=
  le 4 (m.get R.UPL_LEAGUE_ID) ++ le 8 m.vault.ident.toNat ++ le 1 (bit (m.role == 1 && (m.syncState == 2 || m.syncState == 3))) ++
  le 1 (bit m.trusted + 2 * bit (m.on R.UPL_TIME_STAT_LOCKED)) ++ le 2 0 ++ le 4 (m.get R.CAIRN_GEN) ++ le 8 m.sadl.twin.toNat ++ le 4 0

/-- LEAGUE_ANNOUNCE_SEND: to every enabled LEAGUE neighbour. -/
def Chip.leagueAnnounce (m : Chip) : Chip :=
  (m.nbrs.filter (fun i => nbrLeague (m.nbrEnt i))).foldl (fun a i =>
    let sta := a.stations.find? (fun n => (a.staEnt n).medium == 4 && (a.staEnt n).addr == i)
    let (q, a1) := a.nextSeq (sta.getD (staN + 256 + i)) 0x46
    a1.sendFrame { port := 4 * 32 + a1.uplinkOf i, station := sta, type := 0x46, seq := q, target := 0, cls := 5,
                   payload := a1.announceBody }) m

/-- A commit that rewrites neighbour entries makes them UNKNOWN. -/
def Chip.peersApplied (m old : Chip) : Chip :=
  (m.upl.peers.map (·.1)).foldl (fun a i =>
    if old.nbrEnt i = a.nbrEnt i then a else (a.peerState i 0).setPeer i {}) m

/-! ### Answers on the uplinks (R322, R325) -/

/-- Whether an uplink takes a frame with these VLAN tags; another frame is discarded and counted. -/
def Chip.tagsOk (m : Chip) (u : Nat) (tags : List Nat) : Bool :=
  tags == [m.get (R.UPL_P_CFG_VID u)] || (tags.isEmpty && m.on (R.UPL_P_CFG_UNTAG u))

/-- Answer a request to one of the uplink's own addresses (`off`, `n` in its UPL_ADDR entry); every other frame is counted. -/
def Chip.uplAnswer (m : Chip) (u : Nat) (tags : List Nat) (off n addr : Nat) (name : String) (body : List Nat) : Chip :=
  if !m.on (R.UPL_P_CFG_EN u) || !m.unitOpen (UK.uplink u) then m
  else if !m.tagsOk u tags || addr == 0 || fld (m.addrEnt u) off n != addr then m.uplDrop u
  else if m.standby then m
  else m.emit (.frame 7 u name body)

/-- An address in transmission order as the table holds it, little-endian. -/
def addrLe (n a : Nat) : Nat := ofLe (le n a).reverse

/-- NEIGHBOR_RESOLVE_RETRY: neighbours that have answered are resolved; the others are asked again. -/
def Chip.resolveRetry (m : Chip) (answered : List Nat) : Chip :=
  let m1 := m.setUpl { m.upl with resolved := answered.foldl (fun a i => AMap.put false i true a) m.upl.resolved }
  if m1.standby then m1 else
  (m1.nbrs.filter (fun i => !AMap.get false m1.upl.resolved i)).foldl (fun a i =>
    let b := a.nbrEnt i
    let v4 := (fld b 0 1).testBit 2
    a.emit (.frame 7 (a.uplinkOf i) (if v4 then "ARP_REQUEST" else "NEIGHBOR_SOLICITATION") [fld b 8 (if v4 then 4 else 16)])) m1

/-! ### Links (R325, R329, R485) -/

/-- A change of a link: posted where it changes. -/
def Chip.linkSet (m : Chip) (f : FRef) (sub : Nat) (up : Bool) : Chip :=
  if m.on f = up then m else (m.put f (bit up)).post (ev 7 0x0900 1 sub 0 (le 1 (bit up)))

/-- What the host loses when its link goes down. -/
def Chip.hostDrop (m : Chip) : Chip := m.setReq .pcie { m.req .pcie with latch := [], pair := none }

/-- The PCIe link goes down. -/
def Chip.pcieDown (m : Chip) : Chip :=
  (((m.linkSet R.UPL_PCIE_STAT_LINK 0x20 false).put R.UPL_PCIE_STAT_GEN 0).put R.UPL_PCIE_STAT_WIDTH 0).hostDrop

/-- LINK_STATE of a port (sub-unit of Table 15-5); `speed` and `width` are those of an SGMII or PCIe link. -/
def Chip.linkState (m : Chip) (port : Nat) (up : Bool) (speed width : Nat) : Chip :=
  if port < 4 then
    (if !m.on (R.UPL_P_CFG_EN port) then m
     else
       let m1 := m.linkSet (R.UPL_P_STAT_LINK port) port up
       if up then m1 else m1.setUpl { m1.upl with delay := AMap.put none port none m1.upl.delay })
  else if 16 ≤ port ∧ port < 24 then
    (let s := port - 16
     if !m.on (R.UPL_SG_CFG_EN s) then m
     else (m.linkSet (R.UPL_SG_STAT_LINK s) port up).put (R.UPL_SG_STAT_SPEED s) (if up then speed % 4 else 0))
  else if port = 32 then
    (if !up then m.pcieDown
     else if m.upl.pcieReset || !m.unitOpen UK.pcie then m
     else ((m.linkSet R.UPL_PCIE_STAT_LINK 32 true).put R.UPL_PCIE_STAT_GEN speed).put R.UPL_PCIE_STAT_WIDTH width)
  else m

/-- PCIE_RESET: PERST_N low (`low`) holds the port in reset with its link down; high releases it. -/
def Chip.pcieReset (m : Chip) (low : Bool) : Chip :=
  let m1 := m.setUpl { m.upl with pcieReset := low }
  if low then m1.pcieDown else m1

/-! ### Commands -/

def execAnnounce (a : PtpAnnounce) (s : State) : Host.Outcome State Fault Refusal := s.act (·.announce a)
def execSync (u : Fin 4) (ident : DWord) (sec ns rx : Nat) (s : State) : Host.Outcome State Fault Refusal :=
  s.act (·.sync u.val ident sec ns rx)
def execAnnounceTimeout (s : State) : Host.Outcome State Fault Refusal := s.act Chip.announceTimeout
def execHoldoverExpiry (s : State) : Host.Outcome State Fault Refusal := s.act Chip.holdover
def execTimeSet (r : Req) (v : Word) (s : State) : Host.Outcome State Fault Refusal := s.act (·.timeSet r v)
def execLgAnnounce (f : RxFrame) (s : State) : Host.Outcome State Fault Refusal := s.act (·.lgAnnounce f)
def execLeagueAnnounceSend (s : State) : Host.Outcome State Fault Refusal := s.act Chip.leagueAnnounce
def execPeerLost (i : Fin 4096) (s : State) : Host.Outcome State Fault Refusal := s.act (·.peerLost i.val)
/-- ARP_REQUEST for an IPv4 address, in the order in which its bytes are sent. -/
def execArpRequest (u : Fin 4) (tags : List Nat) (addr : Word) (s : State) : Host.Outcome State Fault Refusal :=
  s.act (·.uplAnswer u.val tags 20 4 (addrLe 4 addr.toNat) "ARP_REPLY" [addr.toNat])
def execNeighborSolicitation (u : Fin 4) (tags : List Nat) (addr : BitVec 128) (s : State) : Host.Outcome State Fault Refusal :=
  s.act (·.uplAnswer u.val tags 0 16 (addrLe 16 addr.toNat) "NEIGHBOR_ADVERTISEMENT" [addr.toNat])
/-- ECHO_REQUEST over IPv6, or over IPv4 with the address in the low 32 bits. -/
def execEchoRequest (u : Fin 4) (tags : List Nat) (v6 : Bool) (addr src : BitVec 128) (body : List Byte) (s : State) :
    Host.Outcome State Fault Refusal :=
  s.act (·.uplAnswer u.val tags (if v6 then 0 else 20) (if v6 then 16 else 4) (addrLe (if v6 then 16 else 4) addr.toNat)
    "ECHO_REPLY" (src.toNat :: body.map BitVec.toNat))
def execNeighborResolveRetry (answered : List (Fin 4096)) (s : State) : Host.Outcome State Fault Refusal :=
  s.act (·.resolveRetry (answered.map (·.val)))
def execLinkState (port : Byte) (up : Bool) (speed width : Fin 8) (s : State) : Host.Outcome State Fault Refusal :=
  s.act (·.linkState port.toNat up speed.val width.val)
def execPcieLinkDown (s : State) : Host.Outcome State Fault Refusal := s.act Chip.pcieDown
def execPcieReset (low : Bool) (s : State) : Host.Outcome State Fault Refusal := s.act (·.pcieReset low)
def execSyncSend (u : Fin 4) (s : State) : Host.Outcome State Fault Refusal := s.act (·.syncSend u.val)
def execAnnounceSend (u : Fin 4) (s : State) : Host.Outcome State Fault Refusal := s.act (·.announceSend u.val)
def execDelayResp (u : Fin 4) (d : Nat) (s : State) : Host.Outcome State Fault Refusal := s.act (·.delayResp u.val d)
def execDelayReq (u : Fin 4) (seq : Half) (rx : Nat) (s : State) : Host.Outcome State Fault Refusal :=
  s.act (·.delayReq u.val seq.toNat rx)

end Sys2Proof.Machine
end

