-- ==== Sys2Proof/Machine/Fields.lean ====
section
/-! DEFINITION. Field segments (chapter 16): 10BASE-T1S segments under PLCA, G3-PLC interfaces, the Mirfor time beacon, port faults. -/

namespace Sys2Proof.Machine

open Sys2Proof

/-! ### Egress (R307) -/

/-- Waiting frames in egress order: class 7, class 6, then 5 to 0, each in arrival order. -/
def egressOrder (l : List MFrame) : List MFrame := ([7, 6, 5, 4, 3, 2, 1, 0].map (fun k => l.filter (fun f => f.cls == k))).flatten

def Chip.egress (m : Chip) (code : Nat) : List MFrame := AMap.get [] m.txn.egress code
def Chip.setEgress (m : Chip) (code : Nat) (l : List MFrame) : Chip :=
  m.withTxn { m.txn with egress := AMap.put [] code l m.txn.egress }

/-- Send frames. -/
def Chip.emitAll (m : Chip) (l : List MFrame) : Chip := m.withOut (m.out ++ l.map Out.mirfor)

/-- Send the first k waiting frames of a port in egress order. -/
def Chip.sendBurst (m : Chip) (code k : Nat) : List MFrame × Chip :=
  let l := egressOrder (m.egress code)
  (l.take k, (m.setEgress code (l.drop k)).emitAll (l.take k))

/-! ### 10BASE-T1S (R333 to R335, R346, R347) -/

def Chip.quarantined (m : Chip) (s : Nat) : Bool := m.on (R.FLD_T1S_STAT_QUAR s)

/-- Whether a segment is enabled and present and its domain is on. -/
def Chip.segOn (m : Chip) (s : Nat) : Bool :=
  decide (s < m.t1sN) && m.on (R.FLD_T1S_CFG_EN s) && m.unitOpen (UK.t1s s) && m.pdReady 10

/-- Bytes of a Mirfor frame on a segment: Ethernet header and FCS, at least 64. -/
def etherBytes (f : MFrame) : Nat := max 64 (20 + f.payload.length + 18)

/-- PLCA_CYCLE: `rx` is the bytes of each frame that a station sent in it. The standby sends its copies as node 1. -/
def Chip.plcaCycle (m : Chip) (s : Nat) (rx : List Nat) : Chip :=
  if !m.segOn s || m.quarantined s || !(m.seg s).isOpen || !(m.leads || m.standby) then m
  else
    let (sent, m1) := m.sendBurst s (1 + m.get (R.FLD_T1S_PLCA_BURST s))
    let used := rx.length + bit (!sent.isEmpty)
    let bits := 20 + m.get (R.FLD_T1S_PLCA_TO s) * (m.get (R.FLD_T1S_PLCA_NCNT s) - used) +
      ((sent.map etherBytes ++ rx).map (fun b => (b + 20) * 8)).sum
    (m1.setSeg s { m1.seg s with burst := sent }).put (R.FLD_T1S_STAT_CYCLE s) (min 65535 (bits / 10))

/-- Start a segment (R347): it listens; the standby of a pair joins as node 1 at once. -/
def Chip.segStart (m : Chip) (s : Nat) : Chip :=
  let m1 := (m.put (R.FLD_T1S_STAT_NODE s) (bit m.standby)).put (R.FLD_T1S_STAT_SILENT s) 0
  m1.setSeg s { listening := !m.standby, isOpen := m.standby, lastFrame := m.monoNs }

/-- COORD_CONFLICT: the segment is quarantined and its stations' transactions end. -/
def Chip.coordConflict (m : Chip) (s : Nat) : Chip :=
  let x := m.seg s
  if m.segOn s && !m.quarantined s && (x.listening || (x.isOpen && !m.on (R.FLD_T1S_STAT_NODE s))) then
    let m1 := (m.setSeg s { x with listening := false, isOpen := false }).put (R.FLD_T1S_STAT_QUAR s) 1
    (m1.portCancel 0 s).post (ev 8 0x0A00 3 s 0 [])
  else m

/-- QCLR. -/
def Chip.qclr (m : Chip) (s : Nat) : Chip :=
  if m.quarantined s then (m.put (R.FLD_T1S_STAT_QUAR s) 0).segStart s else m

def Chip.t1sRxErr (m : Chip) (s : Nat) : Chip := m.count (R.FLD_T1S_RXERR_CNT s) (some (R.FLD_T1S_STAT_RXERR_SAT s))

/-- RX_JABBER: counted; posted at most once per second with the jabbers of the last second. -/
def Chip.jabber (m : Chip) (s : Nat) : Chip :=
  if !m.segOn s then m else
  let x := m.seg s
  let jabs := x.jabs.filter (fun t => decide (m.monoNs < t + 1000000000)) ++ [m.monoNs]
  let m1 := (m.setSeg s { x with jabs := jabs }).t1sRxErr s
  let due := match x.jabPosted with
    | some t => decide (t + 1000000000 ≤ m.monoNs)
    | none => true
  if due then (m1.setSeg s { m1.seg s with jabPosted := some m1.monoNs }).post (ev 8 0x0A02 2 s 0 (le 4 jabs.length)) else m1

/-- LOCAL_COLLISION: frame k of the last burst goes again in the next cycle. -/
def Chip.collision (m : Chip) (s k : Nat) : Chip :=
  match (m.seg s).burst[k]? with
  | some f => if m.segOn s then
      (m.setEgress s (f :: m.egress s)).count (R.FLD_T1S_COL_CNT s) (some (R.FLD_T1S_STAT_COL_SAT s)) else m
  | none => m

/-- SEGMENT_SILENT. -/
def Chip.segSilent (m : Chip) (s : Nat) : Chip :=
  if m.segOn s && (m.seg s).isOpen && !m.on (R.FLD_T1S_STAT_SILENT s) &&
      decide ((m.seg s).lastFrame + m.get (R.FLD_T1S_CFG_SILENT s) * 1000000 ≤ m.monoNs) then
    (m.put (R.FLD_T1S_STAT_SILENT s) 1).post (ev 8 0x0A01 2 s 0 [])
  else m

/-! ### G3-PLC (R338 to R342, R346, R347) -/

def Chip.plc (m : Chip) (i : Nat) : Plc := AMap.get {} m.ports.plcs i
def Chip.setPlc (m : Chip) (i : Nat) (x : Plc) : Chip := m.withPorts { m.ports with plcs := AMap.put {} i x m.ports.plcs }

def Chip.plcOn (m : Chip) (i : Nat) : Bool :=
  decide (i < m.plcN) && m.on (R.FLD_PLC_CFG_EN i) && m.unitOpen (UK.plc i) && m.pdReady 10

/-- Whether an interface transmits as coordinator. -/
def Chip.plcSends (m : Chip) (i : Nat) : Bool :=
  m.plcOn i && m.on (R.FLD_PLC_STAT_COORD i) && !m.on (R.FLD_PLC_STAT_AFE_FLT i) && m.leads

/-- The admission entry that 16 bytes spell: EUI-64, short address, flags, zero byte, CRC sound. -/
structure AdmEnt where
  eui : DWord
  short : Nat
  flags : Nat
  zero : Bool
  ok : Bool
deriving DecidableEq, Repr

def Chip.adm (m : Chip) (i k : Nat) : AdmEnt :=
  let b := m.bytes (.win .plcAdm) (16384 * i + 16 * k) 16
  { eui := BitVec.ofNat 64 (fld b 0 8), short := fld b 8 2, flags := fld b 10 1, zero := clear b 11 1 && fld b 10 1 / 2 == 0,
    ok := fld b 12 4 == (crc32c (b.take 12)).toNat }

/-- The entries of an interface that hold anything. -/
def Chip.adms (m : Chip) (i : Nat) : List AdmEnt :=
  ((m.rows (.win .plcAdm) 16).filter (fun k => k / 1024 == i)).map (fun k => m.adm i (k % 1024))

def AdmEnt.on (e : AdmEnt) : Bool := e.flags.testBit 0

/-- Start an interface: a fresh GMK, and a listen of one beacon period. The standby receives only. -/
def Chip.plcStart (m : Chip) (i : Nat) : Chip :=
  let m1 := if m.standby then m else m.drawGmk (m.get (R.FLD_PLC_KEY_GMK_SLOT i))
  ((m1.setPlc i { listening := !m.standby }).put (R.FLD_PLC_STAT_COORD i) 0).put (R.FLD_PLC_STAT_JOINED i) 0

/-- The joined stations; JOINED counts them. -/
def Chip.setJoined (m : Chip) (i : Nat) (l : List (DWord × Nat)) : Chip :=
  (m.setPlc i { m.plc i with joined := l }).put (R.FLD_PLC_STAT_JOINED i) l.length

/-- PLC_JOIN: `pass` is the outcome of EAP-PSK, `hop` the next hop of the route found. -/
def Chip.plcJoin (m : Chip) (i : Nat) (eui : DWord) (pass : Bool) (hop : Nat) : Chip :=
  if !m.plcSends i then m else
  let post := fun (a : Chip) (sev why : Nat) => a.post (ev 8 0x0A03 sev (16 + i) eui.toNat (le 1 why))
  let refuse := fun (a : Chip) (why : Nat) =>
    post (a.count (R.FLD_PLC_JOINREF_CNT i) (some (R.FLD_PLC_STAT_JOINREF_SAT i))) 2 why
  match (m.adms i).find? (fun e => e.eui == eui) with
  | none => refuse m 1
  | some e =>
    if !e.on then refuse m 2
    else
      let slot := m.get (R.FLD_PLC_KEY_PSK_SLOT i)
      let barred := (m.vslot slot).kind == 0 || (m.vslot slot).count == 0
      let m1 := m.useKey slot
      if barred || !pass then refuse m1 3
      else
        let x := m1.plc i
        let m2 := m1.setPlc i { x with routes := reassoc x.routes e.short hop }
        post (m2.setJoined i ((m2.plc i).joined.filter (fun j => j.1 != eui) ++ [(eui, e.short)])) 0 0

/-- AFE_FAULT and its release. -/
def Chip.afeFault (m : Chip) (i : Nat) (on : Bool) : Chip :=
  if m.plcOn i && m.on (R.FLD_PLC_STAT_AFE_FLT i) != on then
    (m.put (R.FLD_PLC_STAT_AFE_FLT i) (bit on)).post (ev 8 0x0A05 3 (16 + i) 0 (le 1 (bit on)))
  else m

/-- PAN_CONFLICT. -/
def Chip.panConflict (m : Chip) (i : Nat) : Chip :=
  if m.plcOn i then (m.put (R.FLD_PLC_STAT_PAN_CONF i) 1).post (ev 8 0x0A04 2 (16 + i) 0 []) else m

/-- ARQ_GIVE_UP: the frame that the MAC gives up is counted and lost. -/
def Chip.arqGiveUp (m : Chip) (i : Nat) : Chip :=
  match egressOrder (m.egress (64 + i)) with
  | [] => m
  | _ :: t => if m.plcSends i then
      (m.setEgress (64 + i) t).count (R.FLD_PLC_TXERR_CNT i) (some (R.FLD_PLC_STAT_TXERR_SAT i)) else m

/-! ### The time beacon (R336, R342) -/

/-- A TIME_BEACON of a port: hops remaining, period (ms), command window (ms). -/
def Chip.beaconFrame (m : Chip) (code hops period cfw : Nat) : MFrame × Chip :=
  let flags := bit m.trusted + 2 * bit (m.on R.UPL_TIME_STAT_LOCKED) + 4 * bit (m.on R.UPL_UTC_LI61) +
    8 * bit (m.on R.UPL_UTC_LI59) + 16 * bit (decide (0 < cfw))
  let (q, m1) := m.nextSeq (portSta code) 0x08
  ({ port := code, station := none, type := 0x08, seq := q, target := 0x40000000, cls := 6,
     payload := le 8 m.now ++ le 2 (m.get R.UPL_UTC_OFS) ++ le 1 flags ++ le 1 hops ++ le 2 period ++ le 2 cfw }, m1)

/-- Send it. -/
def Chip.beacon (m : Chip) (code hops period cfw : Nat) : Chip :=
  let (f, m1) := m.beaconFrame code hops period cfw
  m1.emit (.mirfor f)

/-- Queue the beacon of a CAN channel; one still unsent is dropped (R361). -/
def Chip.canBeacon (m : Chip) (n : Nat) : Chip :=
  let (f, m1) := m.beaconFrame (96 + n) 0 (5 * m.get (R.CAN_CFG_BCN n)) 0
  if m.portHolds (96 + n) then m1.setEgress (96 + n) ((m1.egress (96 + n)).filter (fun x => x.type != 0x08) ++ [f]) else m

/-- TIME_BEACON_SEND on a T1S segment, an SGMII port or a CAN channel. -/
def Chip.timeBeaconSend (m : Chip) (code : Nat) : Chip :=
  let p := code % 32
  if !m.leads then m
  else if code < 32 then
    (if m.segOn p && (m.seg p).isOpen && !m.quarantined p then m.beacon code 0 (5 * m.get (R.FLD_T1S_CFG_BCN p)) 0 else m)
  else if code < 40 then
    (if m.on (R.UPL_SG_CFG_EN p) && m.unitOpen (UK.sgmii p) then m.beacon code 0 (5 * m.get (R.UPL_SG_CFG_BEACON p)) 0 else m)
  else if 96 ≤ code ∧ code < 96 + m.canN then (if m.unitOpen (UK.can p) && m.pdReady 10 then m.canBeacon p else m)
  else m

/-- The active of a pair copies the PAN state of an interface to the standby, with the GMK wrapped under the pair key in slot 3
(R345, R430; in the form of a key blob). -/
def Chip.panCopy (m : Chip) (i : Nat) : Chip :=
  if !m.pairedActive then m else
  let x := m.plc i
  let k := m.vslot (m.get (R.FLD_PLC_KEY_GMK_SLOT i))
  let (iv, m1) := m.random 12
  m1.stream "PAN" (i :: ((x.joined.map (fun j => [j.1.toNat, j.2])).flatten ++ (x.routes.map (fun r => [r.1, r.2])).flatten ++
    [(AMap.get 0 (m.sta (portSta (64 + i))).outSeq 0x08).toNat] ++
    (blobHead k ++ iv ++ Config.gcmSeal (m.vslot 3).key iv (blobHead k) k.key).map BitVec.toNat))

/-- PLC_BEACON_SEND: the beacon; then, from its command window on, the waiting frames in egress order. -/
def Chip.plcBeaconSend (m : Chip) (i : Nat) : Chip :=
  if !m.plcSends i then m else
  let m1 := m.beacon (64 + i) (m.get (R.FLD_PLC_CFG_BHOPS i) - 1) (100 * m.get (R.FLD_PLC_BCN_PERIOD i)) (m.get (R.FLD_PLC_BCN_CFW i))
  (m1.sendBurst (64 + i) (m1.egress (64 + i)).length).2.panCopy i

/-! ### Starts (R347) -/

/-- PORT_LISTEN_END of a T1S segment or a PLC interface. -/
def Chip.listenEnd (m : Chip) (code : Nat) : Chip :=
  let p := code % 32
  if code < 32 then
    (if m.segOn p && (m.seg p).listening then
      m.setSeg p { m.seg p with listening := false, isOpen := true, lastFrame := m.monoNs } else m)
  else if 64 ≤ code ∧ code < 72 then
    (if m.plcOn p && (m.plc p).listening then (m.setPlc p { m.plc p with listening := false }).put (R.FLD_PLC_STAT_COORD p) 1 else m)
  else m

/-- The ports that an apply edge starts. -/
def Chip.fldApplied (m old : Chip) : Chip :=
  let m1 := (List.range m.t1sN).foldl (fun a s =>
    if a.segOn s && !old.on (R.FLD_T1S_CFG_EN s) then a.segStart s else a) m
  (List.range m.plcN).foldl (fun a i => if a.plcOn i && !old.on (R.FLD_PLC_CFG_EN i) then a.plcStart i else a) m1

/-- PD10 comes on: every enabled port starts. -/
def Chip.fldStart (m : Chip) : Chip :=
  let m1 := (List.range m.t1sN).foldl (fun a s => if a.segOn s then a.segStart s else a) m
  (List.range m.plcN).foldl (fun a i => if a.plcOn i then a.plcStart i else a) m1

/-! ### C9 (R343) -/

/-- Distinct entries only. -/
def allDistinct (l : List Nat) : Bool := l.eraseDups.length == l.length

def Chip.fldC9 (n : Chip) : Option Verdict :=
  let bad := fun (o : Nat) => (some ⟨CC.checkFailed, 9, 0x08, BitVec.ofNat 64 o⟩ : Option Verdict)
  let within := fun (f : FRef) (lo hi : Nat) => decide (lo ≤ n.get f ∧ n.get f ≤ hi)
  let segOk := fun (s : Nat) => within (R.FLD_T1S_CFG_BCN s) 1 200 && within (R.FLD_T1S_CFG_SILENT s) 10 65535 &&
    within (R.FLD_T1S_PLCA_NCNT s) 3 64 && within (R.FLD_T1S_PLCA_TO s) 16 255
  let plcOk := fun (i : Nat) => within (R.FLD_PLC_CFG_BHOPS i) 1 3 && n.get (R.FLD_PLC_CFG_PAN_ID i) != 0xFFFF &&
    within (R.FLD_PLC_BCN_PERIOD i) 10 600 && within (R.FLD_PLC_BCN_CFW i) 20 500 &&
    decide (2 * n.get (R.FLD_PLC_BCN_CFW i) < 100 * n.get (R.FLD_PLC_BCN_PERIOD i))
  let on := (List.range n.plcN).filter (fun i => n.on (R.FLD_PLC_CFG_EN i))
  let gmk := fun (i : Nat) => n.get (R.FLD_PLC_KEY_GMK_SLOT i)
  let keyOk := fun (i : Nat) => (n.vslot (n.get (R.FLD_PLC_KEY_PSK_SLOT i))).right 5 && on.all (fun j => j == i || gmk j != gmk i)
  let stas := n.stations.map (fun k => (k, n.staEnt k))
  let sta0 := stas.filter (fun e => e.2.medium == 0)
  let sta2 := stas.filter (fun e => e.2.medium == 2)
  let sta0Ok := fun (e : Nat × StaEnt) => n.on (R.FLD_T1S_CFG_EN e.2.port) && decide (2 ≤ e.2.addr ∧ e.2.addr < n.get (R.FLD_T1S_PLCA_NCNT e.2.port)) &&
    sta0.all (fun o => o.1 == e.1 || o.2.port != e.2.port || o.2.addr != e.2.addr)
  let routes := (n.rows (.win .txnRoute) 32).map n.route
  let sta2Ok := fun (e : Nat × StaEnt) => (n.adms e.2.port).any (fun a => a.on && a.short == e.2.addr) &&
    (let mine := (routes.filter (fun r => (r.input || r.output) && r.station == e.1)).map (·.module)
     mine.all (fun k => decide (mine.countP (· == k) ≤ 50)))
  let admsOk := fun (i : Nat) =>
    let l := (n.adms i).filter AdmEnt.on
    l.all (fun a => a.ok && a.zero && decide (1 ≤ a.short ∧ a.short ≤ 0x400)) && allDistinct (l.map (·.eui.toNat)) &&
      allDistinct (l.map AdmEnt.short)
  match (List.range n.t1sN).find? (fun s => !segOk s) with
  | some s => bad (R.FLD_T1S_CFG s).addr
  | none => match (List.range n.plcN).find? (fun i => !plcOk i) with
    | some i => bad (R.FLD_PLC_CFG i).addr
    | none => if 0xE8 < n.get R.FLD_MAC_LO % 256 then bad R.FLD_MAC_LO.addr
      else match on.find? (fun i => !keyOk i) with
        | some i => bad (R.FLD_PLC_KEY i).addr
        | none => match sta0.find? (fun e => !sta0Ok e) with
          | some e => bad e.1
          | none => match (List.range n.plcN).find? (fun i => !admsOk i) with
            | some i => bad (Win.obj .plcAdm (16384 * i))
            | none => match sta2.find? (fun e => !sta2Ok e) with
              | some e => bad e.1
              | none => none

/-! ### Commands -/

def execPlcaCycle (g : Fin 16) (rx : List Nat) (s : State) : Host.Outcome State Fault Refusal := s.act (·.plcaCycle g.val rx)
/-- TIME_BEACON_SEND on port code `code` (medium × 32 + port). -/
def execTimeBeaconSend (code : Byte) (s : State) : Host.Outcome State Fault Refusal := s.act (·.timeBeaconSend code.toNat)
def execPlcBeaconSend (i : Fin 8) (s : State) : Host.Outcome State Fault Refusal := s.act (·.plcBeaconSend i.val)
def execPlcJoin (i : Fin 8) (eui : DWord) (pass : Bool) (hop : Half) (s : State) : Host.Outcome State Fault Refusal :=
  s.act (·.plcJoin i.val eui pass hop.toNat)
def execCoordConflict (g : Fin 16) (s : State) : Host.Outcome State Fault Refusal := s.act (·.coordConflict g.val)
def execRxJabber (g : Fin 16) (s : State) : Host.Outcome State Fault Refusal := s.act (·.jabber g.val)
def execLocalCollision (g : Fin 16) (k : Fin 4) (s : State) : Host.Outcome State Fault Refusal := s.act (·.collision g.val k.val)
def execSegmentSilent (g : Fin 16) (s : State) : Host.Outcome State Fault Refusal := s.act (·.segSilent g.val)
def execAfeFault (i : Fin 8) (s : State) : Host.Outcome State Fault Refusal := s.act (·.afeFault i.val true)
def execAfeFaultRelease (i : Fin 8) (s : State) : Host.Outcome State Fault Refusal := s.act (·.afeFault i.val false)
def execPanConflict (i : Fin 8) (s : State) : Host.Outcome State Fault Refusal := s.act (·.panConflict i.val)
def execQclr (g : Fin 16) (s : State) : Host.Outcome State Fault Refusal := s.act (·.qclr g.val)
def execPortListenEnd (code : Byte) (s : State) : Host.Outcome State Fault Refusal := s.act (·.listenEnd code.toNat)
def execArqGiveUp (i : Fin 8) (s : State) : Host.Outcome State Fault Refusal := s.act (·.arqGiveUp i.val)

end Sys2Proof.Machine
end

