-- ==== Sys2Proof/Machine/Lamp.lean ====
section
/-! DEFINITION. The lighting engine (chapter 11): tables, photoperiods, zone evaluation, frames from submission to the late window, the
fixture model, reports and derating, firmware campaigns. -/

namespace Sys2Proof.Machine

open Sys2Proof

/-! ### Tables (R235) -/

/-- A fixture entry. -/
structure FixEnt where
  flags : Nat
  group : Nat
  zero : Bool
  period : Nat
  medium : Nat
  port : Nat
  addr : Nat
  rated : List Nat
  ok : Bool
deriving DecidableEq, Repr

def fixEntOf (b : List Byte) : FixEnt :=
  { flags := fld b 0 4, group := fld b 4 4 % 2 ^ 18, zero := fld b 4 4 / 2 ^ 18 % 64 == 0, period := fld b 7 1, medium := fld b 8 1,
    port := fld b 9 1, addr := fld b 10 2, rated := (List.range 8).map (fun c => fld b (12 + 2 * c) 2),
    ok := fld b 28 4 == (crc32c (b.take 28)).toNat }

def Chip.fixEnt (m : Chip) (a : Nat) : FixEnt := fixEntOf (m.bytes (.win .lampFix) (32 * a) 32)
def FixEnt.on (e : FixEnt) : Bool := e.flags.testBit 0
/-- The port code of a fixture. -/
def FixEnt.code (e : FixEnt) : Nat := e.medium * 32 + e.port

/-- The enabled fixtures. -/
def Chip.fixtures (m : Chip) : List Nat := (m.rows (.win .lampFix) 32).filter (fun a => (m.fixEnt a).on)

/-- A group entry: zone, enabled, other bits zero, CRC sound. -/
def Chip.grpZone (m : Chip) (g : Nat) : Nat := m.rd (.win .lampGrp) (8 * g) 4 % 8192
def Chip.grpOn (m : Chip) (g : Nat) : Bool := (m.rd (.win .lampGrp) (8 * g) 4).testBit 31
def Chip.groups (m : Chip) : List Nat := (m.rows (.win .lampGrp) 8).filter m.grpOn
/-- The members of a group. -/
def Chip.members (m : Chip) (g : Nat) : List Nat := m.fixtures.filter (fun a => (m.fixEnt a).group == g)

/-- A zone entry (Table 11-2). -/
structure ZoneEnt where
  flags : Nat
  curve : Nat
  recipe : Nat
  period : Nat
  fade : Nat
  lead : Nat
  lat : Int
  lon : Int
  startA : Nat
  startO : Int
  endA : Nat
  endO : Int
  dayStart : Nat
  par : BitVec 40
  alloc : BitVec 40
  received : BitVec 40
  sun : BitVec 40
  power : BitVec 40
  h : DWord
  ppfd : DWord
  static : DWord
  band : Nat
  zero : Bool
  ok : Bool
deriving DecidableEq, Repr

def zoneEntOf (b : List Byte) : ZoneEnt :=
  let tag := fun (o : Nat) => BitVec.ofNat 40 (fld b o 5)
  let d := fun (o : Nat) => BitVec.ofNat 64 (fld b o 8)
  { flags := fld b 0 1, curve := fld b 1 1, recipe := fld b 2 2, period := fld b 4 4, fade := fld b 8 4, lead := fld b 12 4,
    lat := sfield 32 (fld b 16 4), lon := sfield 32 (fld b 20 4), startA := fld b 24 1, startO := sfield 16 (fld b 26 2),
    endA := fld b 28 1, endO := sfield 16 (fld b 30 2), dayStart := fld b 32 4, par := tag 40, alloc := tag 48, received := tag 56,
    sun := tag 64, power := tag 72, h := d 80, ppfd := d 88, static := d 96, band := fld b 104 2,
    zero := fld b 0 1 / 16 == 0 && clear b 25 1 && clear b 29 1 && clear b 36 4 && clear b 45 3 && clear b 53 3 && clear b 61 3 &&
      clear b 69 3 && clear b 77 3 && clear b 106 18,
    ok := fld b 124 4 == (crc32c (b.take 124)).toNat }

def Chip.zoneEnt (m : Chip) (z : Nat) : ZoneEnt := zoneEntOf (m.bytes (.win .lampZone) (128 * z) 128)
def ZoneEnt.on (e : ZoneEnt) : Bool := e.flags.testBit 0
def ZoneEnt.auto (e : ZoneEnt) : Bool := e.flags.testBit 1
def ZoneEnt.dli (e : ZoneEnt) : Bool := e.flags.testBit 2
def ZoneEnt.planned (e : ZoneEnt) : Bool := e.flags.testBit 3
def Chip.zonesOn (m : Chip) : List Nat := (m.rows (.win .lampZone) 128).filter (fun z => (m.zoneEnt z).on)
/-- The groups and the fixtures of a zone. -/
def Chip.zoneGroups (m : Chip) (z : Nat) : List Nat := m.groups.filter (fun g => m.grpZone g == z)
def Chip.zoneFix (m : Chip) (z : Nat) : List Nat :=
  m.fixtures.filter (fun a => m.grpOn (m.fixEnt a).group && m.grpZone (m.fixEnt a).group == z)

/-- The phases of a recipe: start (min) and levels. -/
def Chip.recipe (m : Chip) (r : Nat) : List (Int × List Nat) :=
  let b := m.bytes (.win .lampRcp) (176 * r) 176
  (List.range (min 8 (fld b 0 1))).map (fun p =>
    (sfield 16 (fld b (16 + 18 * p) 2), (List.range 8).map (fun c => fld b (18 + 18 * p + 2 * c) 2)))

def starts : List (Int × List Nat) → Bool
  | a :: b :: t => decide (a.1 < b.1) && starts (b :: t)
  | _ => true

/-- A recipe that exists: sound CRC, 1 to 8 phases, the first at 0, starts ascending. -/
def Chip.recipeOk (m : Chip) (r : Nat) : Bool :=
  let b := m.bytes (.win .lampRcp) (176 * r) 176
  decide (r < 1024 ∧ 1 ≤ fld b 0 1 ∧ fld b 0 1 ≤ 8) && fld b 172 4 == (crc32c (b.take 172)).toNat && clear b 1 15 && clear b 160 12 &&
    ((m.recipe r).head?.map (·.1)) == some 0 && starts (m.recipe r)

/-- The minimum lead of a medium, in ms (Table 11-4). -/
def minLead (medium : Nat) : Nat := match medium with | 0 => 50 | 1 => 20 | 2 => 5000 | 3 => 200 | _ => 100

/-- The minimum lead of a target: that of its slowest medium. -/
def Chip.targetLead (m : Chip) (group : Bool) (t : Nat) : Nat :=
  if group then (m.members t).foldl (fun a x => max a (minLead (m.fixEnt x).medium)) 0 else minLead (m.fixEnt t).medium

/-! ### The fixture model (R247 to R250) -/

/-- The value of a fade at a league time: the 1 ms tick, the curve, and the step between the two values. -/
def Fade.at (f : Fade) (t : Nat) : Nat :=
  let e := (t - f.latch) / 1000000
  if f.time ≤ e then f.y1 else
  let big : Int := 65536
  let q : Int := ((min e f.time * 65536 / f.time : Nat) : Int)
  let c : Int := match f.curve with
    | 1 => (3 * q * q * big - 2 * q * q * q).tdiv (big * big)
    | 2 => (q * q).tdiv big
    | 3 => (2 * q * big - q * q).tdiv big
    | _ => q
  ((f.y0 : Int) + (((f.y1 : Int) - f.y0) * c).tdiv big).toNat

/-- The commanded level of a channel, and the derate factor. -/
def Fix.level (f : Fix) (c t : Nat) : Nat := (f.chans.getD c {}).at t
def Fix.levels (f : Fix) (t : Nat) : List Nat := (List.range 8).map (fun c => f.level c t)

/-- Apply a frame at an instant: a retarget of the channels of its mask, or of the derate factor. -/
def Fix.take (f : Fix) (x : LFrame) (t : Nat) : Fix :=
  match x.derate with
  | some k => { f with k := { y0 := f.k.at t, y1 := k, latch := t, time := x.fade, curve := 0 } }
  | none =>
    { f with
      before := f.chans, applied := x.handle,
      chans := (List.range 8).map (fun c =>
        if x.mask.testBit c then { y0 := f.level c t, y1 := x.levels.getD c 0, latch := t, time := x.fade, curve := x.curve }
        else f.chans.getD c {}) }

/-- Whether frame a applies before frame b: the earlier latch, and at one instant the group frame first. -/
def LFrame.before (a b : LFrame) : Bool := decide (a.latch < b.latch) || (a.latch == b.latch && a.group && !b.group)

/-- Insert a frame by its order of application. -/
def insertFrame (x : LFrame) : List LFrame → List LFrame
  | [] => [x]
  | y :: t => if x.before y then x :: y :: t else y :: insertFrame x t

/-- The model of a fixture brought up to a league time: pending frames whose latch has come apply. -/
def Fix.upTo (f : Fix) (t : Nat) : Fix :=
  let due := f.pend.filter (fun x => decide (x.latch ≤ t))
  (due.foldl (fun l x => insertFrame x l) []).foldl (fun g x => g.take x x.latch) { f with pend := f.pend.filter (fun x => !decide (x.latch ≤ t)) }

def Chip.setLamp (m : Chip) (x : Lamp) : Chip := m.withLamp x
def Chip.fix (m : Chip) (a : Nat) : Fix := AMap.get {} m.lamp.fix a
def Chip.setFix (m : Chip) (a : Nat) (f : Fix) : Chip := m.setLamp { m.lamp with fix := AMap.put {} a f m.lamp.fix }
/-- The model of a fixture now. -/
def Chip.fixNow (m : Chip) (a : Nat) : Fix := (m.fix a).upTo m.now

/-- Whether two frames are of one kind for one target: the later replaces the earlier. -/
def LFrame.same (a b : LFrame) : Bool := a.group == b.group && a.target == b.target && a.derate.isSome == b.derate.isSome

/-- The model holds a frame as pending. -/
def Chip.fixPend (m : Chip) (a : Nat) (x : LFrame) : Chip :=
  let f := m.fixNow a
  m.setFix a { f with pend := f.pend.filter (fun y => !(y.group == x.group && y.derate.isSome == x.derate.isSome)) ++ [x] }

/-- Model power of a fixture in W. -/
def Chip.fixPower (m : Chip) (a : Nat) : DWord :=
  let f := m.fixNow a
  if f.state = 3 then 0
  else if f.state = 2 then Fp.fdiv (Fp.fofNat ((f.report.map (·.power)).getD 0)) (Fp.fofNat 10)
  else
    let k := f.k.at m.now
    (List.range 8).foldl (fun s c => Fp.fadd s
      (Fp.fmul (Fp.fdiv (Fp.fdiv (Fp.fmul (Fp.fofNat (f.level c m.now)) (Fp.fofNat k)) (Fp.fofNat 32768)) (Fp.fofNat 65535))
        (Fp.fofNat ((m.fixEnt a).rated.getD c 0)))) 0

/-! ### Work (R19, R256) -/

/-- Whether the engine takes work. -/
def Chip.lampOn (m : Chip) : Bool := m.unitOpen UK.lamp

/-- Run a LAMP_WORK job of a kind (0 evaluation, 1 reports, 2 distribution): whether it was admitted. The energy it takes is measured
(notes/assumptions/1.md). -/
def Chip.lampJob (m : Chip) (kind : Nat) (crit : Bool) : Bool × Chip :=
  let cost := match AMap.get none m.lamp.cost kind with
    | some c => (11 * c + 9) / 10
    | none => 50
  let owner := 2 ^ 32 + kind
  match m.admitJob { cls := 6, cost := cost, draw := 1500, crit := crit, owner := owner } with
  | (.ok _, m1) =>
    let (v, m2) := m1.fresh
    let e := v.toNat % 2 ^ 16
    let m3 := m2.endJob (fun j => j.cls == 6 && j.owner == owner) (some (e * 1000))
    (true, m3.setLamp { m3.lamp with cost := AMap.put none kind (some e) m3.lamp.cost })
  | (_, m1) => (false, m1)

/-- A diagnostic counter of LAMP: 0 late, 1 missed, 2 reports dropped, 3 evaluations skipped. -/
def Chip.lampCount (m : Chip) (k n : Nat) : Chip :=
  m.countN ⟨R.LAMP_LATE_CNT.addr + 4 * k, 31, 0⟩ (some ⟨R.LAMP_STAT.addr, 27 + k, 27 + k⟩) n

/-- Frames that have not latched: LAMP_STAT.PENDING. -/
def Chip.lampPending (m : Chip) : Nat := m.lamp.frames.countP (fun x => decide (m.now < x.latch))

/-- The next number of the engine's frames. -/
def Chip.lampSeq (m : Chip) : Word × Chip := (m.lamp.seq + 1, m.setLamp { m.lamp with seq := m.lamp.seq + 1 })

/-! ### Transmission (R245) -/

/-- The target word of a group, or of a fixture. -/
def targetWord (group : Bool) (t : Nat) : Word := BitVec.ofNat 32 (t + if group then 2 ^ 31 else 0)

/-- The payload of a TARGET or DERATE frame (Tables 11-7 and 11-8). -/
def LFrame.payload (x : LFrame) : List Byte :=
  match x.derate with
  | some k => le 8 x.latch ++ le 2 k ++ le 2 (65535 - k)
  | none =>
    let lv := (List.range 8).map (fun c => x.levels.getD c 0)
    le 8 x.latch ++ le 4 x.fade ++ le 1 x.curve ++ le 1 x.mask ++ le 2 0 ++ (lv.map (le 2)).flatten ++
      (lv.map (fun v => le 2 (65535 - v))).flatten ++ le 4 x.handle.toNat

def LFrame.type (x : LFrame) : Nat := if x.derate.isSome then 0x02 else 0x01

/-- The station that hosts a fixture. -/
def Chip.hostSta (m : Chip) (a : Nat) : Option Nat :=
  let e := m.fixEnt a
  m.stations.find? (fun n => (m.staEnt n).medium == e.medium && (m.staEnt n).port == e.port && (m.staEnt n).addr == e.addr)

/-- The fixtures that a station hosts. -/
def Chip.hosted (m : Chip) (n : Nat) : List Nat :=
  let s := m.staEnt n
  m.fixtures.filter (fun a => (m.fixEnt a).medium == s.medium && (m.fixEnt a).port == s.port && (m.fixEnt a).addr == s.addr)

/-- Send a frame of the engine to one fixture. -/
def Chip.toFix (m : Chip) (a type cls : Nat) (seq : Word) (payload : List Byte) : Chip :=
  m.sendFrame { port := (m.fixEnt a).code, station := m.hostSta a, type := type, seq := seq, target := targetWord false a, cls := cls,
                payload := payload }

/-- Send a frame of the engine as one multicast on each segment that holds one of the fixtures. -/
def Chip.toGroup (m : Chip) (g : Nat) (l : List Nat) (type cls : Nat) (seq : Word) (payload : List Byte) : Chip :=
  ((l.map (fun a => (m.fixEnt a).code)).eraseDups).foldl (fun a p => a.sendFrame
    { port := p, station := none, type := type, seq := seq, target := targetWord true g, cls := cls, payload := payload }) m

/-- Send a frame to the fixtures that lack it: by multicast on a segment where more than `many` lack it, else to each. -/
def Chip.sendTo (m : Chip) (x : LFrame) (many : Nat) : Chip :=
  let ports := (x.waiting.map (fun a => (m.fixEnt a).code)).eraseDups
  ports.foldl (fun b p =>
    let here := x.waiting.filter (fun a => (m.fixEnt a).code == p)
    if x.group ∧ many < here.length then b.toGroup x.target here x.type 6 x.handle x.payload
    else here.foldl (fun c a => c.toFix a x.type 6 x.handle x.payload) b) m

def Chip.frame (m : Chip) (h : Word) : Option LFrame := m.lamp.frames.find? (fun x => x.handle == h)
def Chip.setFrame (m : Chip) (x : LFrame) : Chip :=
  m.setLamp { m.lamp with frames := m.lamp.frames.map (fun y => if y.handle == x.handle then x else y) }
def Chip.dropFrame (m : Chip) (h : Word) : Chip := m.setLamp { m.lamp with frames := m.lamp.frames.filter (fun x => x.handle != h) }

/-- Distribute a pending frame: a deadline-critical job; where it is refused the frame waits for its next retry. -/
def Chip.distribute (m : Chip) (x : LFrame) (many : Nat) : Chip :=
  let (ok, m1) := m.lampJob 2 true
  if ok then (m1.setFrame { x with begun := true, sentAt := m1.now }).sendTo x many else m1

/-- FRAME_ENDED, for submitted frames only. -/
def Chip.frameEnded (m : Chip) (x : LFrame) (code : Half) : Chip :=
  if x.soft then m.post (ev 0x0B 0x0500 1 (if x.group then x.target else 0) x.handle.toNat [] code) else m

/-! ### Submission and commit (R241, R242) -/

/-- A submission: target, mask, curve, latch (ns), fade (ms), levels and their complements. -/
structure LSub where
  group : Bool
  target : Nat
  mask : Nat
  curve : Nat
  latch : Nat
  fade : Nat
  levels : List Nat
  comps : List Nat
deriving DecidableEq, Repr

/-- The zone that a target lies in. -/
def Chip.targetZone (m : Chip) (group : Bool) (t : Nat) : Nat := m.grpZone (if group then t else (m.fixEnt t).group)

/-- The checks of R241, in their order. -/
def Chip.lampCheck (m : Chip) (s : LSub) : Half :=
  let on := if s.group then decide (s.target < 2 ^ 18) && m.grpOn s.target else (m.fixEnt s.target).on
  let z := m.zoneEnt (m.targetZone s.group s.target)
  if !m.lampOn then CC.cancelled
  else if !on || s.mask == 0 then CC.checkFailed
  else if z.on && z.auto then CC.checkFailed
  else if s.fade < 10 ∨ 86400000 < s.fade ∨ 3 < s.curve then CC.checkFailed
  else if (List.range 8).any (fun c => s.mask.testBit c && s.levels.getD c 0 + s.comps.getD c 0 != 65535) then CC.pairFault
  else if !m.trusted || decide (m.now + 86400000000000 < s.latch) then CC.checkFailed
  else if s.latch < m.now + m.targetLead s.group s.target * 1000000 then CC.deadline
  else if 65536 ≤ m.lampPending + m.lamp.accepted.length + m.lamp.staged.length then CC.overflow
  else CC.ok

/-- Accept a frame: it takes the next number as its handle and waits for the next commit on channel 2. -/
def Chip.lampIssue (m : Chip) (x : LFrame) : Chip :=
  let (q, m1) := m.lampSeq
  m1.setLamp { m1.lamp with accepted := m1.lamp.accepted ++ [{ x with handle := q }] }

/-- Submit a frame: code and handle. -/
def Chip.lampSubmit (m : Chip) (s : LSub) : Half × Word × Chip :=
  let c := m.lampCheck s
  if c = CC.ok then
    let m1 := m.lampIssue { handle := 0, group := s.group, target := s.target, mask := s.mask, levels := s.levels, fade := s.fade,
                            curve := s.curve, latch := s.latch, soft := true }
    (c, m1.lamp.seq, m1)
  else (c, 0, m)

/-- LAMP_SUB_CMD.GO. -/
def Chip.lampReg (m : Chip) (mask curve : Nat) : Chip :=
  let lv := fun (f : Nat → FRef) => (List.range 8).map (fun c => bits (m.get (f (c / 2))) (16 * (c % 2) + 15) (16 * (c % 2)))
  let (c, h, m1) := m.lampSubmit { group := m.on R.LAMP_SUB_TGT_GROUP, target := m.get R.LAMP_SUB_TGT_TARGET, mask := mask, curve := curve,
                                   latch := (m.get64 R.LAMP_SUB_LATCH_LO).toNat, fade := m.get R.LAMP_SUB_FADE,
                                   levels := lv R.LAMP_SUB_LVL, comps := lv R.LAMP_SUB_LVL_C }
  let m2 := m1.put R.LAMP_SUB_RES_CODE c.toNat
  if c = CC.ok then m2.setReg R.LAMP_SUB_HANDLE.addr h else m2

/-- FRAME_COMMIT: stage the accepted frames on channel 2 and write GO, at most once per millisecond. -/
def Chip.frameCommit (m : Chip) : Chip :=
  let due := match m.lamp.committed with
    | some t => decide (t + 1000000 ≤ m.monoNs)
    | none => true
  if m.lamp.accepted.isEmpty || (m.pend 2).isSome || !due then m else
  let l := m.lamp.accepted
  let m1 := m.setLamp { m.lamp with accepted := [], staged := l, committed := some m.monoNs }
  ((m1.put (R.COMMIT_MODE_MODE 2) 0).setBank 2 { frames := l.map LFrame.handle }).goWith 2 (fun _ => none)

/-- A pending frame that has not latched is superseded by a later one of its kind for its target. -/
def Chip.supersede (m : Chip) (x : LFrame) : Chip :=
  (m.lamp.frames.filter (fun y => y.same x && decide (m.now < y.latch))).foldl (fun a y => (a.dropFrame y.handle).frameEnded y CC.superseded) m

/-- A frame becomes pending: the model takes it and distribution begins. -/
def Chip.framePend (m : Chip) (x : LFrame) : Chip :=
  let m1 := m.supersede x
  let l := if x.group then m1.members x.target else [x.target]
  let y := { x with waiting := l, sentAt := m1.now }
  let m2 := l.foldl (fun a f => a.fixPend f x) (m1.setLamp { m1.lamp with frames := m1.lamp.frames ++ [y] })
  m2.distribute y 0

/-- The apply edge of a channel 2 commit. -/
def Chip.lampApply (m : Chip) (handles : List Word) : Chip :=
  let l := m.lamp.staged.filter (fun x => handles.contains x.handle)
  l.foldl Chip.framePend (m.setLamp { m.lamp with staged := [] })

/-- The frames of a channel 2 commit that was cancelled end with SUPERSEDED. -/
def Chip.lampCancelled (m : Chip) : Chip :=
  if (m.pend 2).isSome || (assoc m.com.pend 18).isSome then m else
  m.lamp.staged.foldl (fun a x => a.frameEnded x CC.superseded) (m.setLamp { m.lamp with staged := [] })

/-! ### Retries and acknowledgements (R245, R246) -/

/-- The end of a frame's late window. -/
def LFrame.lateEnd (x : LFrame) : Nat := x.latch + min x.fade 10000 * 1000000

/-- FRAME_RETRY: every 10 % of the remaining lead, until the late window ends. -/
def Chip.frameRetry (m : Chip) (h : Word) : Chip :=
  match m.frame h with
  | none => m
  | some x =>
    if m.lampOn && !x.waiting.isEmpty && decide (x.sentAt + (x.latch - x.sentAt) / 10 ≤ m.now ∧ m.now < x.lateEnd) then m.distribute x 16
    else m

/-- LATE_WINDOW_EXPIRY. -/
def Chip.lateExpiry (m : Chip) (h : Word) : Chip :=
  match m.frame h with
  | none => m
  | some x =>
    if m.now < x.lateEnd then m
    else if x.waiting.isEmpty then m.dropFrame h
    else
      let m1 := x.waiting.foldl (fun a f => a.setFix f { a.fixNow f with state := 1 }) (m.dropFrame h)
      (m1.lampCount 1 x.waiting.length).post (ev 0x0B 0x0501 2 (if x.group then x.target else m.targetZone false x.target) h.toNat
        (le 4 x.waiting.length))

/-- A fixture took a frame late, at instant t: the model applies it from there. -/
def Fix.late (f : Fix) (x : LFrame) (t : Nat) : Fix :=
  let g := { f.upTo t with pend := (f.upTo t).pend.filter (fun y => y.handle != x.handle) }
  let back := if x.derate.isNone && g.applied == x.handle then { g with chans := g.before } else g
  back.take x t

/-- ACK (R245, Table 11-7): the fixtures of the station, those named as failing apart, have taken the frame. -/
def Chip.lampAck (m : Chip) (f : RxFrame) : Chip :=
  let (ok, m1) := m.rx 0x04 f false
  if !ok then m1 else
  let p := f.payload
  let seq := BitVec.ofNat 32 (fld p 0 4)
  let code := fld p 4 2
  let n := fld p 8 2
  let failing := (List.range n).map (fun k => fld p (10 + 4 * k) 4)
  let host := m1.hosted f.station.toNat
  let took := host.filter (fun a => !failing.contains a)
  let m2 := match m1.frame seq with
    | none => m1
    | some x =>
      if 2 ≤ code then m1 else
      let got := x.waiting.filter took.contains
      let m3 := m1.setFrame { x with waiting := x.waiting.filter (fun a => !took.contains a) }
      if code = 1 then
        got.foldl (fun a g => a.setFix g ((a.fix g).late x (fld p (10 + 4 * n) 8))) (m3.lampCount 0 got.length)
      else m3
  let m4 := took.foldl (fun a g => if (a.fix g).config = some seq ∧ code = 0 then a.setFix g { a.fix g with config := none } else a) m2
  match m4.lamp.fw with
  | some c => if c.act = some seq ∧ code = 0 then
      m4.setLamp { m4.lamp with fw := some { c with took := c.took ++ took.filter (fun a => (m4.fixEnt a).group == c.group && !c.took.contains a) } }
    else m4
  | none => m4

/-! ### Reports (R249 to R251) -/

/-- REPORT: into the ring, or dropped and counted where 2^20 wait. -/
def Chip.lampReport (m : Chip) (f : RxFrame) : Chip :=
  let (ok, m1) := m.rx 0x10 f false
  if !ok then m1
  else if 1048576 ≤ m1.lamp.ring.length then m1.lampCount 2 1
  else
    let p := f.payload
    let r : LReport := { stamp := fld p 0 8, levels := (List.range 8).map (fun c => fld p (8 + 2 * c) 2), energy := fld p 24 3,
                         flags := fld p 27 1, temp := fld p 28 2, power := fld p 30 2, handle := BitVec.ofNat 32 (fld p 32 4), fw := fld p 36 4 }
    m1.setLamp { m1.lamp with ring := m1.lamp.ring ++ [(f.target.toNat % 2 ^ 22, r)] }

/-- The derate factor of a lamp-board temperature; none without a reading. -/
def Chip.derateOf (m : Chip) (temp : Nat) : Option Nat :=
  if temp = 0x8000 then none else
  let t := sfield 16 temp
  let t0 := sfield 16 (m.get R.LAMP_DERATE_T_START)
  let t1 := sfield 16 (m.get R.LAMP_DERATE_T_STOP)
  let k := m.get R.LAMP_DERATE_MIN_K_MIN
  if t ≤ t0 then some 32768
  else if t1 ≤ t then some k
  else some (32768 - ((32768 - (k : Int)) * (t - t0)).tdiv (t1 - t0)).toNat

/-- The state that a report gives a fixture. -/
def Fix.judge (f : Fix) (r : LReport) : Nat :=
  if r.flags.testBit 0 then 3
  else if r.flags.testBit 1 then 4
  else if f.config.isNone && f.applied == r.handle && f.levels r.stamp == r.levels then 0
  else 1

/-- Process one report. -/
def Chip.oneReport (m : Chip) (a : Nat) (r : LReport) : Chip :=
  if !(m.fixEnt a).on then m else
  let f := (m.fix a).upTo r.stamp
  let g := { f with state := f.judge r, report := some r, heard := m.monoNs }
  let g := if r.flags.testBit 1 then
      { g with chans := (List.range 8).map (fun c => { y0 := (Config.lampFallback a c).toNat, y1 := (Config.lampFallback a c).toNat }) } else g
  let m1 := (m.setFix a g).vmReport a (m.targetZone false a) r.energy r.power r.stamp
  match m1.derateOf r.temp with
  | none => m1
  | some k =>
    let far := 512 ≤ k - g.kSent ∨ 512 ≤ g.kSent - k ∨ (k = 32768 ∧ g.kSent ≠ 32768)
    if far then
      (m1.setFix a { g with kSent := k }).lampIssue
        { handle := 0, derate := some k, group := false, target := a, fade := 10000, curve := 0,
          latch := m1.now + minLead (m1.fixEnt a).medium * 1000000 }
    else m1

/-- REPORT_PROCESS. -/
def Chip.reportProcess (m : Chip) : Chip :=
  if !m.lampOn || m.lamp.ring.isEmpty then m else
  let (ok, m1) := m.lampJob 1 false
  if !ok then m1 else
  m1.lamp.ring.foldl (fun a e => a.oneReport e.1 e.2) (m1.setLamp { m1.lamp with ring := [] })

/-- FIXTURE_SILENT. -/
def Chip.fixSilent (m : Chip) (a : Nat) : Chip :=
  let f := m.fixNow a
  if (m.fixEnt a).on && decide (f.heard + 3 * (m.fixEnt a).period * 1000000000 ≤ m.monoNs) then m.setFix a { f with state := 2 } else m

/-! ### Photoperiods (R237, R238) -/

def Chip.zone (m : Chip) (z : Nat) : Zone := AMap.get {} m.lamp.zones z
def Chip.setZone (m : Chip) (z : Nat) (x : Zone) : Chip := m.setLamp { m.lamp with zones := AMap.put {} z x m.lamp.zones }

/-- The instant (ns) of an anchor on a local day. -/
def Chip.anchorAt (m : Chip) (e : ZoneEnt) (day anchor : Nat) (off : Int) : Nat :=
  let mid := m.localMidnight day
  if anchor = 0 then m.wallInstant ((day : Int) * 86400 + off * 60).toNat * 1000000000
  else
    let base := match Config.sun e.lat e.lon mid with
      | some (rise, set) => if anchor = 1 then rise else set
      | none => Config.solarNoon e.lon mid
    ((base : Int) + off * 60000000000).toNat

/-- The photoperiod of a local day: empty (end = start) where the end does not fall after the start. -/
def Chip.photoOf (m : Chip) (e : ZoneEnt) (day : Nat) : Nat × Nat :=
  let a := m.anchorAt e day e.startA e.startO
  let b := m.anchorAt e day e.endA e.endO
  (a, max a b)

/-- The local day of a zone at this instant: it begins at the day start. -/
def Chip.zoneDay (m : Chip) (e : ZoneEnt) : Nat :=
  let d := m.localDay m.nowSec
  if m.wallInstant (d * 86400 + e.dayStart) ≤ m.nowSec then d else d - 1

/-- DAY_START. -/
def Chip.lampDay (m : Chip) (z : Nat) : Chip :=
  let e := m.zoneEnt z
  let x := m.zone z
  let d := m.zoneDay e
  if !e.on || !m.lampOn || x.day == some d then m else
  let polar := (Config.sun e.lat e.lon (m.localMidnight d)).isNone
  let old := if x.day.isSome && x.day == some (d - 1) then (x.photo.drop 1).take 1 else [(0, 0)]
  let m1 := m.setZone z { x with photo := old ++ [d, d + 1, d + 2].map (m.photoOf e), day := some d,
                                 received := (if x.day.isSome then some 0 else x.received), parLost := false, allocZero := false }
  if polar then m1.post (ev 0x0B 0x0505 0 z (m1.wallInstant (d * 86400 + e.dayStart) * 1000000000) []) else m1

/-- The photoperiod that contains an instant. -/
def Zone.lit (x : Zone) (t : Nat) : Option (Nat × Nat) := x.photo.find? (fun p => decide (p.1 ≤ t ∧ t < p.2))

/-- Starts, ends and phase boundaries of a zone's photoperiods. -/
def Chip.edges (m : Chip) (e : ZoneEnt) (x : Zone) : List Nat :=
  let lit := x.photo.filter (fun p => decide (p.1 < p.2))
  (lit.map (fun p => [p.1, p.2] ++ (((m.recipe e.recipe).map (fun q => ((p.1 : Int) + q.1 * 60000000000).toNat)).filter
    (fun t => decide (p.1 < t ∧ t < p.2))))).flatten

/-- The recipe weight of each channel at an instant. -/
def Chip.weights (m : Chip) (e : ZoneEnt) (x : Zone) (t : Nat) : List Nat :=
  match x.lit t with
  | none => List.replicate 8 0
  | some p =>
    (((m.recipe e.recipe).filter (fun q => decide ((p.1 : Int) + q.1 * 60000000000 ≤ t))).getLast?.map (·.2)).getD (List.replicate 8 0)

/-! ### Allocation (R240) -/

/-- The step lengths (s) of the planner's profile (R174): segments in order up to the first whose count is 0. -/
def Chip.stepLens (m : Chip) : List Nat :=
  let segs := ((List.range 8).map (fun n => (m.get (R.PLAN_STEP_SEG_LEN n), m.get (R.PLAN_STEP_SEG_COUNT n)))).takeWhile (fun e => e.2 != 0)
  (segs.map (fun e => List.replicate e.2 (60 * e.1))).flatten

/-- The step that contains an instant `t` ns after the anchor. -/
def stepOf : List Nat → Nat → Option Nat
  | [], _ => none
  | l :: r, t => if t < l * 1000000000 then some 0 else (stepOf r (t - l * 1000000000)).map (· + 1)

/-- Whether a read answered a value that is GOOD or UNCERTAIN. -/
def usable (c : Half) (r : PointRec) : Bool := c == CC.ok && decide (Q.state r.quality ≤ 1)

/-- The allocation of a zone at instant l, in kW. -/
def Chip.alloc (m : Chip) (e : ZoneEnt) (l : Nat) : DWord × Chip :=
  if !e.planned || !m.hasUnit 0x0A then (e.static, m) else
  let (c0, r0, m1) := m.loopRead e.alloc
  if !usable c0 r0 || decide (l < r0.stamp.toNat) then (e.static, m1)
  else match stepOf m1.stepLens (l - r0.stamp.toNat) with
    | none => (e.static, m1)
    | some k =>
      let (c, r, m2) := m1.loopRead (e.alloc + BitVec.ofNat 40 k)
      (if usable c r then r.value else e.static, m2)

/-! ### Evaluation (R239) -/

/-- A value rounded to a whole level, ties away from zero, within the field. -/
def roundAway (x : DWord) : Nat :=
  let t := (Fp.toInteger 1 x).1
  let half := Fp.gt (Fp.fofInt (t + 1)) x == false || !Fp.gt (0x3FE0000000000000) (Fp.fsub x (Fp.fofInt t))
  min 65535 (if half then t + 1 else t).toNat

/-- Nanoseconds as seconds. -/
def secs (n : Nat) : DWord := Fp.fdiv (Fp.fofNat n) (Fp.fofNat 1000000000)

def million : DWord := 0x412E848000000000

/-- The light received up to now, and the chip after the PAR read: the value, the quality it is written with. -/
def Chip.par (m : Chip) (z : Nat) (e : ZoneEnt) (x : Zone) (h0 : DWord) : DWord × Half × Chip :=
  let dt := match x.tPrev with
    | some p => secs (m.now - p)
    | none => 0
  let add := fun (par : DWord) => Fp.fadd h0 (Fp.fdiv (Fp.fmul par dt) million)
  let own := Fp.fmul x.i e.ppfd
  if e.par = 0 then (add own, 0x4000, m) else
  let (c, r, m1) := m.loopRead e.par
  if c = CC.ok ∧ Q.state r.quality ≤ 1 then (add r.value, 0, m1)
  else
    let m2 := if x.parLost then m1 else (m1.post (ev 0x0B 0x0502 2 z e.par.toNat [])).setZone z { x with parLost := true }
    (add own, 0x4000, m2)

/-- The light received so far at the start: kept where the point holds a value stamped within the zone's local day (R257). -/
def Chip.received (m : Chip) (e : ZoneEnt) (x : Zone) : DWord × Chip :=
  match x.received with
  | some h => (h, m)
  | none =>
    let (c, r, m1) := m.loopRead e.received
    let start := m1.wallInstant (m1.zoneDay e * 86400 + e.dayStart) * 1000000000
    (if c = CC.ok ∧ start ≤ r.stamp.toNat ∧ r.stamp.toNat ≤ m1.now ∧ Q.state r.quality ≤ 1 then r.value else 0, m1)

/-- Whether an evaluation of a zone is due: a grid instant of its period, an edge that its latch would meet, or a commit that changed it. -/
def Chip.evalDue (m : Chip) (e : ZoneEnt) (x : Zone) : Bool :=
  let lead := e.lead * 1000000
  match x.tPrev with
  | none => true
  | some p => x.touched || decide (p / (e.period * 1000000000) < m.now / (e.period * 1000000000)) ||
      (m.edges e x).any (fun t => decide (p + lead < t ∧ t ≤ m.now + lead))

/-- The intensity of a zone at latch l with h received, before the allocation. -/
def Chip.intensity (m : Chip) (e : ZoneEnt) (x : Zone) (l : Nat) (h : DWord) : DWord × Chip :=
  match x.lit l with
  | none => (0, m)
  | some p =>
    if !e.dli then (Fp.one, m) else
    let (sun, m1) := if e.sun = 0 then (0, m) else
      let (c, r, m1) := m.loopRead e.sun
      (if usable c r then r.value else 0, m1)
    let req := Fp.fmax 0 (Fp.fsub (Fp.fdiv (Fp.fmul (Fp.fsub e.h h) million) (secs (p.2 - l))) sun)
    (Fp.fmin Fp.one (Fp.fdiv req e.ppfd), m1)

/-- The evaluation of a zone. -/
def Chip.evaluate (m : Chip) (z : Nat) : Chip :=
  let e := m.zoneEnt z
  let x0 := m.zone z
  let l := m.now + e.lead * 1000000
  let edge := match x0.tPrev with
    | some p => (m.edges e x0).any (fun t => decide (p + e.lead * 1000000 < t ∧ t ≤ l))
    | none => false
  let (h0, m1) := m.received e x0
  let (h, q, m2) := m1.par z e x0 h0
  let m3 := if e.received = 0 then m2 else m2.unitWrite e.received h 0 q
  let (i0, m4) := m3.intensity e x0 l h
  let full := (m4.zoneFix z).foldl (fun s a => Fp.fadd s
    (Fp.fmul (Fp.fofNat (m4.fixEnt a).rated.sum) (Fp.fdiv (Fp.fofNat ((m4.fixNow a).k.at m4.now)) (Fp.fofNat 32768)))) 0
  let (al, m5) := m4.alloc e l
  let i := Fp.fmin i0 (Fp.fdiv (Fp.fmul al (Fp.fofNat 1000)) full)
  let x1 := { m5.zone z with received := some h, tPrev := some m5.now, touched := false }
  if [h, i].any Fp.isNan then (m5.setZone z x1).post (ev 0x0B 0x0504 2 z 0 [])
  else
    let lvl := (m5.weights e x0 l).map (fun w => roundAway (Fp.fmul i (Fp.fofNat w)))
    let dark := Fp.isZero al && (x0.lit l).isSome && !x1.allocZero
    let far := match x1.last with
      | none => true
      | some old => (List.range 8).any (fun c => decide (e.band < lvl.getD c 0 - old.getD c 0 ∨ e.band < old.getD c 0 - lvl.getD c 0))
    let issue := far || edge
    let m6 := m5.setZone z { x1 with i := i, allocZero := x1.allocZero || dark, last := (if issue then some lvl else x1.last) }
    let m7 := if dark then m6.post (ev 0x0B 0x0503 1 z e.alloc.toNat []) else m6
    let m8 := if issue then (m7.zoneGroups z).foldl (fun a g => a.lampIssue
        { handle := 0, group := true, target := g, levels := lvl, fade := e.fade, curve := e.curve, latch := l }) m7 else m7
    if e.power = 0 then m8 else
    m8.unitWrite e.power (Fp.fdiv ((m8.zoneFix z).foldl (fun s a => Fp.fadd s (m8.fixPower a)) 0) (Fp.fofNat 1000))

/-- ZONE_EVALUATION: a job; refused, it is skipped and the zone's frames stand. -/
def Chip.zoneEval (m : Chip) (z : Nat) : Chip :=
  let e := m.zoneEnt z
  if !e.on || !e.auto || !m.on R.LAMP_CTL_AUTO_EN || !m.lampOn || !m.leads || !m.evalDue e (m.zone z) then m else
  let (ok, m1) := m.lampJob 0 false
  if ok then m1.evaluate z else m1.lampCount 3 1

/-! ### Firmware campaigns (R252, R253) -/

def Chip.fwState (m : Chip) : Nat := m.get R.LAMP_FW_STAT_STATE
def Chip.fwHead (m : Chip) : FwHead :=
  Config.fwHead (m.mem.filterMap (fun c => if c.1 / 2 ^ 40 = (Space.win .lampFw).idx then some (c.1 % 2 ^ 40, c.2) else none))

/-- The campaign ends with a code; FW_CAMPAIGN reports fixtures updated and failed. -/
def Chip.fwEnd (m : Chip) (c : Campaign) (code : Half) : Chip :=
  let all := (m.members c.group).length
  ((m.setLamp { m.lamp with fw := none }).put R.LAMP_FW_STAT_STATE 5 |>.put R.LAMP_FW_STAT_CODE code.toNat).post
    (ev 0x0B 0x0506 (if code = CC.ok then 0 else 2) c.group m.fwHead.id.toNat (le 4 c.took.length ++ le 4 (all - c.took.length)) code)

/-- Whether LAMP_FW_ACT leaves the group its minimum lead. -/
def Chip.fwLead (m : Chip) (g : Nat) : Bool := decide (m.now + m.targetLead true g * 1000000 ≤ (m.get64 R.LAMP_FW_ACT_LO).toNat)

/-- LAMP_FW_CTL.GO. -/
def Chip.fwGo (m : Chip) (key group : Nat) : Chip :=
  let code := fun (a : Chip) (c : Half) => a.put R.LAMP_FW_STAT_CODE c.toNat
  if !m.lampOn then code m CC.cancelled
  else if m.lamp.fw.isSome then code m CC.busy
  else
    let m1 := (m.put R.LAMP_FW_CTL_KEY key).put R.LAMP_FW_CTL_GROUP group
    if !m1.fwLead group then code m1 CC.checkFailed
    else (m1.setLamp { m1.lamp with fw := some { group := group, key := key } }).put R.LAMP_FW_STAT_STATE 1 |>.put R.LAMP_FW_STAT_ROUND 0

/-- LAMP_FW_CTL.ABORT. -/
def Chip.fwAbort (m : Chip) : Chip :=
  match m.lamp.fw with
  | some c => m.fwEnd c CC.cancelled
  | none => m

def Chip.setFw (m : Chip) (c : Campaign) : Chip := m.setLamp { m.lamp with fw := some c }

/-- Send a firmware frame to the campaign's group. -/
def Chip.fwSend (m : Chip) (c : Campaign) (type cls : Nat) (payload : List Byte) : Chip :=
  let (q, m1) := m.lampSeq
  m1.toGroup c.group (m1.members c.group) type cls q payload

/-- Verify the image under the campaign's key; then offer it. -/
def Chip.fwVerify (m : Chip) (c : Campaign) : Chip :=
  let h := m.fwHead
  let digest := Config.sha256 (m.bytes (.win .lampFw) 0 h.size)
  let s := m.vslot c.key
  if s.kind ≠ 0 ∧ s.count = 0 then m.fwEnd c CC.keyExhausted
  else
    let ok := s.kind == 7 && s.right 3 && Config.ecdsaP256 s.key (Config.sha256 (h.header ++ digest)) h.sig
    let m1 := m.useKey c.key
    if !ok then m1.fwEnd c CC.authFail
    else
      let n := (h.size + 511) / 512
      let m2 := m1.fwSend c 0x20 4 (le 4 h.id.toNat ++ le 4 h.version.toNat ++ le 4 h.size ++ le 4 n ++ digest ++ h.sig)
      (m2.setFw { c with todo := List.range n }).put R.LAMP_FW_STAT_STATE 2

/-- One FW_BURST job of up to 1 MiB; a refused one is tried again after 10 s. When no block is left the stations are asked. -/
def Chip.fwBurst (m : Chip) (c : Campaign) : Chip :=
  if c.todo.isEmpty then
    ((m.fwSend c 0x22 4 (le 4 m.fwHead.id.toNat)).setFw { c with missing := [], retryAt := none }).put R.LAMP_FW_STAT_STATE 3
  else match m.admitJob { cls := 2, cost := m.get (R.RIDGE_CLS_COST 2), draw := m.get (R.RIDGE_CLS_DRAW 2), owner := 2 ^ 32 + 3 } with
    | (.ok _, m1) =>
      let m2 := (c.todo.take 2048).foldl (fun a b => a.fwSend c 0x21 4
        (le 4 m.fwHead.id.toNat ++ le 4 b ++ m.bytes (.win .lampFw) (512 * b) 512)) m1
      (m2.endJob (fun j => j.cls == 2) none).setFw { c with todo := c.todo.drop 2048, retryAt := none }
    | (_, m1) => m1.setFw { c with retryAt := some (m1.monoNs + 10000000000) }

/-- FW_CAMPAIGN_STEP. The eighth resend round does not fit the 3 bits of ROUND, which then shows a free value (notes/assumptions/1.md). -/
def Chip.fwStep (m : Chip) : Chip :=
  match m.lamp.fw with
  | none => m
  | some c =>
    match m.fwState with
    | 1 => m.fwVerify c
    | 2 => if c.retryAt.isSome then m else m.fwBurst c
    | 3 =>
      if !c.missing.isEmpty ∧ c.round < 8 then
        let (v, m1) := if c.round = 7 then m.fresh else (BitVec.ofNat 64 (c.round + 1), m)
        ((m1.put R.LAMP_FW_STAT_ROUND v.toNat).setFw { c with todo := c.missing, round := c.round + 1 }).put R.LAMP_FW_STAT_STATE 2
      else if !m.fwLead c.group then m.fwEnd c CC.checkFailed
      else
        let m1 := m.fwSend c 0x24 6 (le 4 m.fwHead.id.toNat ++ le 8 (m.get64 R.LAMP_FW_ACT_LO).toNat)
        (m1.setFw { c with act := some m1.lamp.seq }).put R.LAMP_FW_STAT_STATE 4
    | _ => m.fwEnd c CC.ok

/-- FW_BURST_RETRY. -/
def Chip.fwRetry (m : Chip) : Chip :=
  match m.lamp.fw with
  | some c => match c.retryAt with
    | some t => if t ≤ m.monoNs then m.fwBurst { c with retryAt := none } else m
    | none => m
  | none => m

/-- FW_MISSING: the blocks whose bits are set in a fixture's bitmap are missing there. -/
def Chip.fwMissing (m : Chip) (f : RxFrame) : Chip :=
  let (ok, m1) := m.rx 0x23 f false
  match m1.lamp.fw with
  | none => m1
  | some c =>
    let p := f.payload
    let first := fld p 8 4
    let lost := (List.range (8 * (p.length - 12))).filterMap (fun b =>
      if (fld p (12 + b / 8) 1).testBit (b % 8) then some (first + b) else none)
    if ok ∧ fld p 0 4 = m1.fwHead.id.toNat then
      m1.setFw { c with missing := c.missing ++ lost.filter (fun b => !c.missing.contains b) }
    else m1

/-! ### Apply edges, disable, enable, start (R236, R257) -/

/-- Send a fixture its CONFIG frame. -/
def Chip.lampConfig (m : Chip) (a : Nat) : Chip :=
  let e := m.fixEnt a
  let (q, m1) := m.lampSeq
  let fb := (List.range 8).map (fun c => (Config.lampFallback a c).toNat)
  let m2 := m1.toFix a 0x03 5 q (le 4 e.group ++ le 2 e.addr ++ le 1 e.period ++ le 1 0 ++ le 4 Config.lampWatchdog.toNat ++
    (fb.map (le 2)).flatten ++ (fb.map (fun v => le 2 (65535 - v))).flatten ++ le 2 Config.lampTOff.toNat ++ le 2 0)
  m2.setFix a { m2.fix a with state := 1, config := some q }

/-- The engine's part of an apply edge: `old` is the chip before it. -/
def Chip.lampApplied (m old : Chip) : Chip :=
  let moved := m.fixtures.filter (fun a =>
    let e := m.fixEnt a
    let o := old.fixEnt a
    !o.on || e.group != o.group || e.code != o.code || e.addr != o.addr)
  let m1 := moved.foldl Chip.lampConfig m
  (m1.zonesOn.filter (fun z => m1.zoneEnt z != old.zoneEnt z)).foldl (fun a z => a.setZone z { a.zone z with touched := true }) m1

/-- Every fixture is UNCONFIRMED. -/
def Chip.unconfirm (m : Chip) : Chip := m.fixtures.foldl (fun a f => a.setFix f { a.fixNow f with state := 1 }) m

/-- A disable: frames whose distribution has not started end, and a campaign stops. -/
def Chip.lampDisable (m : Chip) : Chip :=
  let l := m.lamp.accepted ++ m.lamp.staged ++ m.lamp.frames.filter (fun x => !x.begun)
  let m1 := l.foldl (fun a x => a.frameEnded x CC.cancelled)
    (m.setLamp { m.lamp with accepted := [], staged := [], frames := m.lamp.frames.filter LFrame.begun })
  (m1.fwAbort).put R.LAMP_STAT_DISABLED 1

def Chip.lampEnable (m : Chip) : Chip := (m.put R.LAMP_STAT_DISABLED 0).unconfirm

/-- A start of PD2. -/
def Chip.lampStart (m : Chip) : Chip := m.setLamp {}

/-! ### C9 (R236) -/

/-- A multiple of every report period from 1 to 60 s. -/
def periodLcm : Nat := 9690712164777231700912800

/-- Whether a variant has a port of a medium. -/
def Chip.portIs (m : Chip) (medium port : Nat) : Bool :=
  match medium with
  | 0 => decide (port < m.t1sN) | 1 => decide (port < 8) | 2 => decide (port < m.plcN) | 3 => decide (port < m.canN)
  | 4 => decide (port < 4) | _ => false

def Chip.lampC9 (n : Chip) : Option Verdict :=
  let bad := fun (o : Nat) => (some ⟨CC.checkFailed, 9, 0x0B, BitVec.ofNat 64 o⟩ : Option Verdict)
  let bound := fun (t : BitVec 40) (p : Desc → Bool) =>
    t == 0 || (n.local t && !n.outOfRange t && (n.bindOf (tagIdx t)).1 != 0 && p (n.desc (n.bindOf (tagIdx t)).1))
  let unit := fun (d : Desc) => d.isFp && !d.critical && d.mask.testBit 1
  let fixOk := fun (a : Nat) =>
    let e := n.fixEnt a
    e.ok && e.zero && decide (1 ≤ e.period ∧ e.period ≤ 60) && n.portIs e.medium e.port && n.grpOn e.group
  let grpOk := fun (g : Nat) =>
    let w := n.rd (.win .lampGrp) (8 * g) 4
    n.rd (.win .lampGrp) (8 * g + 4) 4 == (crc32c (le 4 w)).toNat && w % 2 ^ 31 / 2 ^ 13 == 0 && (n.zoneEnt (n.grpZone g)).on
  let zoneOk := fun (z : Nat) =>
    let e := n.zoneEnt z
    e.ok && e.zero && n.recipeOk e.recipe &&
    decide (e.curve ≤ 3 ∧ 1 ≤ e.period ∧ e.period ≤ 3600 ∧ 10 ≤ e.fade ∧ e.fade ≤ 86400000 ∧ e.startA ≤ 2 ∧ e.endA ≤ 2 ∧
      e.lat.natAbs ≤ 90000000 ∧ e.lon.natAbs ≤ 180000000) &&
    decide ((n.zoneFix z).foldl (fun a x => max a (minLead (n.fixEnt x).medium)) 0 ≤ e.lead) &&
    bound e.par (fun _ => true) && bound e.alloc (fun _ => true) && bound e.sun (fun _ => true) && bound e.received unit && bound e.power unit
  let rate := (n.fixtures.map (fun a => periodLcm / (n.fixEnt a).period)).sum
  match n.fixtures.find? (fun a => !fixOk a) with
  | some a => bad (Win.obj .lampFix (32 * a))
  | none => match n.groups.find? (fun g => !grpOk g) with
    | some g => bad (Win.obj .lampGrp (8 * g))
    | none => match n.zonesOn.find? (fun z => !zoneOk z) with
      | some z => bad (Win.obj .lampZone (128 * z))
      | none =>
        if 350000 * periodLcm < rate then bad (Win.obj .lampZone 0)
        else if sfield 16 (n.get R.LAMP_DERATE_T_STOP) ≤ sfield 16 (n.get R.LAMP_DERATE_T_START) then bad R.LAMP_DERATE.addr
        else if 32768 < n.get R.LAMP_DERATE_MIN_K_MIN then bad R.LAMP_DERATE_MIN.addr
        else none

/-! ### Commands -/

def execDayStart (z : Fin 8192) (s : State) : Host.Outcome State Fault Refusal := s.act (·.lampDay z.val)
def execZoneEvaluation (z : Fin 8192) (s : State) : Host.Outcome State Fault Refusal := s.act (·.zoneEval z.val)
/-- LAMP_SUBMIT: the write of LAMP_SUB_CMD.GO with its mask and curve. -/
def execLampSubmit (mask : Byte) (curve : BitVec 2) (s : State) : Host.Outcome State Fault Refusal :=
  s.act (·.lampReg mask.toNat curve.toNat)
def execFrameCommit (s : State) : Host.Outcome State Fault Refusal := s.act Chip.frameCommit
def execFrameRetry (h : Word) (s : State) : Host.Outcome State Fault Refusal := s.act (·.frameRetry h)
def execLateWindowExpiry (h : Word) (s : State) : Host.Outcome State Fault Refusal := s.act (·.lateExpiry h)
def execAck (f : RxFrame) (s : State) : Host.Outcome State Fault Refusal := s.act (·.lampAck f)
def execReport (f : RxFrame) (s : State) : Host.Outcome State Fault Refusal := s.act (·.lampReport f)
def execReportProcess (s : State) : Host.Outcome State Fault Refusal := s.act Chip.reportProcess
def execFixtureSilent (a : BitVec 22) (s : State) : Host.Outcome State Fault Refusal := s.act (·.fixSilent a.toNat)
def execFwGo (key : Byte) (group : BitVec 18) (s : State) : Host.Outcome State Fault Refusal := s.act (·.fwGo key.toNat group.toNat)
def execFwAbort (s : State) : Host.Outcome State Fault Refusal := s.act Chip.fwAbort
def execFwBurstRetry (s : State) : Host.Outcome State Fault Refusal := s.act Chip.fwRetry
def execFwMissing (f : RxFrame) (s : State) : Host.Outcome State Fault Refusal := s.act (·.fwMissing f)
def execFwCampaignStep (s : State) : Host.Outcome State Fault Refusal := s.act Chip.fwStep

end Sys2Proof.Machine
end

