-- ==== Sys2Proof/Machine/Model.lean ====
section
/-! DEFINITION. The planner's model (chapter 8): element, binding and output tables, the commit conditions of Table 8-4, and the assembler that
turns tables, live points and the plan of record into one problem (R173 to R185). -/

namespace Sys2Proof.Machine

open Sys2Proof

/-! ### Tables (R177, R179, R180) -/

/-- An element record. -/
structure Elem where
  type : Nat
  flags : Nat
  medium : Nat
  segs : Nat
  number : Nat
  a : Nat
  b : Nat
  c : Nat
  zero : Bool
  params : List DWord
  ok : Bool
deriving DecidableEq, Repr

def elemOf (b : List Byte) : Elem :=
  { type := fld b 0 1, flags := fld b 1 1, medium := fld b 2 1, segs := fld b 3 1, number := fld b 4 4, a := fld b 8 4, b := fld b 12 4,
    c := fld b 16 4, zero := clear b 20 12 && clear b 248 4,
    params := (List.range 27).map (fun i => BitVec.ofNat 64 (fld b (32 + 8 * i) 8)),
    ok := fld b 252 4 == (crc32c (b.take 252)).toNat }

def Chip.elem (m : Chip) (e : Nat) : Elem := elemOf (m.bytes (.win .planElem) (256 * e) 256)
def Elem.relax (e : Elem) : Bool := e.flags.testBit 0
def Elem.noRamp (e : Elem) : Bool := e.flags.testBit 1

/-! Element types. -/

namespace ET

def node : Nat := 1
def pipe : Nat := 2
def pump : Nat := 3
def store : Nat := 4
def chp : Nat := 5
def heatPump : Nat := 6
def boiler : Nat := 7
def chiller : Nat := 8
def co2Source : Nat := 9
def co2Zone : Nat := 10
def grid : Nat := 11
def light : Nat := 12
def demand : Nat := 13
def bus : Nat := 14
def tie : Nat := 15

end ET

/-- The elements in use: records with a type among the first PLAN_ELEM_CNT. -/
def Chip.elems (m : Chip) : List Nat :=
  (m.rows (.win .planElem) 256).filter (fun e => decide (e < m.get R.PLAN_ELEM_CNT_COUNT) && (m.elem e).type != 0)

/-- A binding entry. -/
structure PBind where
  elem : Nat
  slot : Nat
  mode : Nat
  flags : Nat
  zero : Bool
  tag : BitVec 40
  count : Nat
  every : Nat
  base : BitVec 40
deriving DecidableEq, Repr

def pbindOf (b : List Byte) : PBind :=
  { elem := fld b 0 4, slot := fld b 4 1, mode := fld b 5 1, flags := fld b 6 1, zero := clear b 7 1 && clear b 29 3 && clear b 13 3,
    tag := BitVec.ofNat 40 (fld b 8 5), count := fld b 16 4, every := fld b 20 4, base := BitVec.ofNat 40 (fld b 24 5) }

def Chip.pbind (m : Chip) (i : Nat) : PBind := pbindOf (m.bytes (.win .planBind) (32 * i) 32)
def Chip.pbinds (m : Chip) : List (Nat × PBind) := (List.range (m.get R.PLAN_BIND_CNT_COUNT)).map (fun i => (i, m.pbind i))

/-- An output entry. -/
structure POut where
  elem : Nat
  code : Nat
  mode : Nat
  zero : Bool
  tag : BitVec 40
deriving DecidableEq, Repr

def poutOf (b : List Byte) : POut :=
  { elem := fld b 0 4, code := fld b 4 1, mode := fld b 5 1, zero := clear b 6 2 && clear b 13 3, tag := BitVec.ofNat 40 (fld b 8 5) }

def Chip.pout (m : Chip) (i : Nat) : POut := poutOf (m.bytes (.win .planOut) (16 * i) 16)
def Chip.pouts (m : Chip) : List POut := (List.range (m.get R.PLAN_OUT_CNT_COUNT)).map m.pout

/-! ### What the types have (Tables 8-2 and 8-3) -/

/-- Output codes, rows per step and slots in use of an element. -/
def Elem.codes (e : Elem) : Nat :=
  match e.type with | 1 => 2 | 2 => 2 | 3 => 2 | 4 => 3 | 5 => 4 | 6 => 2 | 7 => 2 | 8 => 2 | 9 => 1 | 10 => 2 | 11 => 2 | 12 => 1 | 14 => 1
                    | 15 => 1 | _ => 0
def Elem.rowsN (e : Elem) : Nat :=
  match e.type with | 1 => 1 | 2 => 1 | 3 => 1 + e.segs | 4 => 1 | 5 => 5 | 6 => 1 | 7 => 1 | 8 => 1 | 10 => 1 | 11 => 1 | 14 => 1 | _ => 0
def Elem.slots (e : Elem) : List Nat :=
  match e.type with
  | 1 => if e.medium = 3 then [5, 6] else [0, 1, 2, 3, 4, 5]
  | 2 => List.range 8
  | 3 => [0, 1] ++ ((List.range e.segs).map (fun i => [2 + 2 * i, 3 + 2 * i])).flatten ++ [10]
  | 4 => List.range 10
  | 5 => List.range 11
  | 6 => List.range 6
  | 7 => List.range 7
  | 8 => List.range 6
  | 9 => List.range 2
  | 10 => List.range 3
  | 11 => List.range 6
  | 12 => List.range 12
  | 13 => List.range 1
  | 14 => List.range 1
  | 15 => List.range 4
  | _ => []

/-- The slot that is a "now" value, where the type has one (R179). -/
def Elem.nowSlot (e : Elem) : Option Nat :=
  match e.type with | 2 => some 7 | 4 => some 9 | 5 => some 10 | 6 => some 5 | 7 => some 6 | 8 => some 5 | 11 => some 5 | 12 => some 8 | _ => none

/-- The output code of the ramp variable, and the slot of its weight (R185). -/
def Elem.ramp (e : Elem) : Option (Nat × Nat) :=
  if e.noRamp then none else
  match e.type with | 3 => some (0, 10) | 5 => some (0, 8) | 6 => some (0, 3) | 7 => some (0, 4) | 8 => some (0, 3) | 12 => some (0, 9) | _ => none

/-- KKT rows of the model: variables and rows over S steps, with per-horizon and per-day terms. -/
def Chip.kktRows (m : Chip) (steps days : Nat) : Nat :=
  (m.elems.map (fun i =>
    let e := m.elem i
    (e.codes + e.rowsN) * steps + (if e.type = ET.grid then 1 else 0) + (if e.type = ET.light then 2 * days else 0))).sum

/-- The structure of the model (R200): what the sparsity pattern depends on. -/
def Chip.planStruct (m : Chip) : List Nat :=
  m.stepLens ++ [m.get R.PLAN_ELEM_CNT_COUNT, m.get R.PLAN_BIND_CNT_COUNT, m.get R.PLAN_OUT_CNT_COUNT] ++
  (m.elems.map (fun i => let e := m.elem i; [i, e.type, e.flags, e.medium, e.segs, e.a, e.b, e.c])).flatten

/-! ### The commit conditions (R186, R212) -/

def noElem : Nat := 0xFFFFFFFF

/-- Whether an element number names an element of given types and media. -/
def Chip.isElem (m : Chip) (i : Nat) (types media : List Nat) : Bool :=
  decide (i < m.get R.PLAN_ELEM_CNT_COUNT) && types.contains (m.elem i).type && media.contains (m.elem i).medium

/-- Connections and medium of an element. -/
def Chip.linksOk (m : Chip) (e : Elem) : Bool :=
  let none_ := fun (x : Nat) => x == noElem
  let node := fun (x med : Nat) => m.isElem x [ET.node] [med]
  let bus := fun (x : Nat) => m.isElem x [ET.bus] [0]
  match e.type with
  | 1 => decide (1 ≤ e.medium ∧ e.medium ≤ 3) && none_ e.a && none_ e.b && none_ e.c
  | 2 => (e.medium == 1 || e.medium == 2) && node e.a e.medium && node e.b e.medium && none_ e.c
  | 3 => m.isElem e.a [ET.pipe] [1, 2] && bus e.b && none_ e.c && (e.medium == 0 || e.medium == (m.elem e.a).medium)
  | 4 => (e.medium == 1 || e.medium == 2) && node e.a e.medium && none_ e.b && none_ e.c
  | 5 => e.medium == 1 && node e.a 1 && bus e.b && (none_ e.c || node e.c 3)
  | 6 => e.medium == 1 && node e.a 1 && bus e.b && (none_ e.c || node e.c 2)
  | 7 => e.medium == 1 && node e.a 1 && none_ e.b && none_ e.c
  | 8 => e.medium == 2 && node e.a 2 && bus e.b && none_ e.c
  | 9 => e.medium == 3 && node e.a 3 && none_ e.b && none_ e.c
  | 10 => e.medium == 3 && node e.a 3 && none_ e.b && none_ e.c
  | 11 => e.medium == 0 && bus e.a && none_ e.b && none_ e.c
  | 12 => e.medium == 0 && bus e.a && none_ e.b && none_ e.c
  | 13 => (if e.medium = 0 then bus e.a else node e.a e.medium) && none_ e.b && none_ e.c
  | 14 => e.medium == 0 && none_ e.a && none_ e.b && none_ e.c
  | 15 => (if e.medium = 0 then bus e.a else node e.a e.medium) && none_ e.b && none_ e.c
  | _ => false

/-- The value of a whole FP64 number from 0 to `hi`, if it is one. -/
def whole (v : DWord) (hi : Nat) : Option Nat :=
  let n := (Fp.toInteger 1 v).1
  if Fp.finite v && Fp.eq (Fp.fofInt n) v && decide (0 ≤ n ∧ n ≤ hi) then some n.toNat else none

/-- Minimum and maximum pairs, values above 0, values at least 0. -/
def Elem.valuesOk (e : Elem) : Bool :=
  let p := fun (i : Nat) => e.params.getD i 0
  let le := fun (i j : Nat) => !Fp.gt (p i) (p j)
  let pos := fun (i : Nat) => Fp.gt (p i) 0
  let nn := fun (i : Nat) => !Fp.gt 0 (p i)
  e.slots.all (fun i => Fp.finite (p i)) && (List.range 27).all (fun i => e.slots.contains i || p i == 0) &&
  (match e.type with
    | 1 => (e.medium == 3 || le 0 1) && nn 5
    | 2 => le 1 2 && !Fp.gt (p 4) (Fp.fofNat 43200)
    | 3 => le 0 1 && nn 10
    | 4 => le 0 1 && pos 4 && pos 5
    | 5 => le 0 1 && pos 2 && pos 3 && nn 8
    | 6 => le 0 1 && pos 2 && nn 3
    | 7 => le 0 1 && pos 2 && nn 4
    | 8 => le 0 1 && pos 2 && nn 3
    | 10 => nn 2
    | 12 => nn 4 && nn 5 && nn 9
    | 14 => nn 0
    | 15 => le 0 1
    | _ => true)

/-- The points of an output entry. -/
def POut.tags (o : POut) (steps : Nat) : List Nat := (List.range (if o.mode = 0 then steps else 1)).map (· + o.tag.toNat)

def Chip.planC9 (n : Chip) : Option Verdict :=
  let bad := fun (o : Nat) => (some ⟨CC.checkFailed, 9, 0x0A, BitVec.ofNat 64 o⟩ : Option Verdict)
  let on := n.elems
  let lens := n.stepLens
  let zoneOf := fun (i : Nat) => whole ((n.elem i).params.getD 11 0) 8191
  let lights := on.filter (fun i => (n.elem i).type == ET.light)
  let ties := on.filter (fun i => (n.elem i).type == ET.tie)
  let partner := fun (i : Nat) => whole ((n.elem i).params.getD 2 0) 16383
  let elemOk := fun (i : Nat) =>
    let e := n.elem i
    decide (1 ≤ e.type ∧ e.type ≤ 15 ∧ e.flags < 4) && e.number == i && e.zero && e.ok && n.linksOk e && e.valuesOk &&
    (if e.type = ET.pump then decide (1 ≤ e.segs ∧ e.segs ≤ 4) else e.segs == 0) &&
    (e.type != ET.light || (match zoneOf i with
      | some z => (n.zoneEnt z).on && lights.all (fun j => j == i || zoneOf j != some z)
      | none => false)) &&
    (e.type != ET.tie || ((partner i).isSome && partner i != some (n.get R.POINT_CFG_DEVNUM) && (whole (e.params.getD 3 0) 65535).isSome))
  let bindOk := fun (b : PBind) =>
    on.contains b.elem && (n.elem b.elem).slots.contains b.slot && decide (b.mode ≤ 1 ∧ b.flags < 2) && b.zero &&
    (b.mode == 0 || decide (1 ≤ b.count ∧ 1 ≤ b.every))
  let point := fun (p : Desc → Bool) (t : Nat) =>
    let tag := BitVec.ofNat 40 t
    decide (t < 2 ^ 40) && n.local tag && !n.outOfRange tag && (n.bindOf (tagIdx tag)).1 != 0 && p (n.desc (n.bindOf (tagIdx tag)).1)
  let outOk := fun (o : POut) =>
    on.contains o.elem && decide (o.code < (n.elem o.elem).codes ∧ o.mode ≤ 1) && o.zero &&
    (o.tags lens.length).all (point (fun d => d.critical && d.isFp && d.mask.testBit 4))
  let outs := n.pouts
  let all := (outs.map (fun o => o.tags lens.length)).flatten
  let lim := fun (f : FRef) => let v := n.get64 f; Fp.finite v && Fp.gt v 0
  let diag := n.tagReg R.PLAN_DIAG_LO R.PLAN_DIAG_HI
  let segsOk := (List.range 8).all (fun k => n.get (R.PLAN_STEP_SEG_COUNT k) == 0 ||
    decide (1 ≤ n.get (R.PLAN_STEP_SEG_LEN k) ∧ n.get (R.PLAN_STEP_SEG_LEN k) ≤ 60))
  let within := fun (f : FRef) (lo hi : Nat) => decide (lo ≤ n.get f ∧ n.get f ≤ hi)
  let regs : List (Nat × Bool) :=
    [(R.PLAN_ELEM_CNT.addr, within R.PLAN_ELEM_CNT_COUNT 0 65536), (R.PLAN_BIND_CNT.addr, within R.PLAN_BIND_CNT_COUNT 0 262144),
     (R.PLAN_OUT_CNT.addr, within R.PLAN_OUT_CNT_COUNT 0 65536),
     ((R.PLAN_STEP_SEG 0).addr, segsOk && decide (4 ≤ lens.length ∧ lens.length ≤ 384 ∧ lens.sum ≤ 345600)),
     (R.PLAN_TIMING.addr, decide (n.get R.PLAN_TIMING_MARGIN * 100 < n.get R.PLAN_TIMING_LEAD * 1000) && within R.PLAN_TIMING_LEAD 0 600 &&
       within R.PLAN_TIMING_GRID 60 3600 && n.get R.PLAN_TIMING_GRID % 60 == 0),
     (R.PLAN_CADENCE.addr, within R.PLAN_CADENCE_PERIOD 60 3600 && decide (n.get R.PLAN_CADENCE_PHASE < n.get R.PLAN_CADENCE_PERIOD)),
     (R.PLAN_ACC_PRI_LO.addr, lim R.PLAN_ACC_PRI_LO), (R.PLAN_ACC_DUA_LO.addr, lim R.PLAN_ACC_DUA_LO), (R.PLAN_ACC_GAP_LO.addr, lim R.PLAN_ACC_GAP_LO),
     (R.PLAN_NUM.addr, within R.PLAN_NUM_ITER_MAX 10 200 && (n.get R.PLAN_NUM_REG_EXP == 0 || within R.PLAN_NUM_REG_EXP 8 60) &&
       within R.PLAN_NUM_PIV_EXP 20 60),
     (R.PLAN_TOL.addr, within R.PLAN_TOL_GAP 10 52 && within R.PLAN_TOL_DUA 10 52 && within R.PLAN_TOL_PRI 10 52),
     (R.PLAN_LEAGUE.addr, within R.PLAN_LEAGUE_MAX_ROUNDS 1 20 && within R.PLAN_LEAGUE_WAIT 1 10000),
     (R.PLAN_TIE.addr, decide (-20 ≤ sfield 8 (n.get R.PLAN_TIE_RHO_EXP) ∧ sfield 8 (n.get R.PLAN_TIE_RHO_EXP) ≤ 20)),
     (R.PLAN_DIAG_LO.addr, diag == 0 || (List.range 8).all (fun k => point (fun d => d.isFp && !d.critical && d.mask.testBit 1) (diag.toNat + k)))]
  match regs.find? (fun e => !e.2) with
  | some e => bad e.1
  | none => match on.find? (fun i => !elemOk i) with
    | some i => bad i
    | none =>
      if 4096 < ties.length ∨ 64 < ((ties.map partner).eraseDups).length then bad (ties.headD 0)
      else match n.pbinds.find? (fun e => !bindOk e.2) with
        | some e => bad e.1
        | none => match outs.zipIdx.find? (fun e => !outOk e.1) with
          | some e => bad e.2
          | none =>
            if 1048576 < all.length ∨ all.eraseDups.length ≠ all.length ∨ 4194304 < n.kktRows lens.length 3 then bad 0
            else none

/-! ### Live values (R179, R188) -/

/-- The parameters of a round: for each element its resolved values, per slot and step. -/
structure Params where
  vals : List ((Nat × Nat) × List DWord) := []
  degraded : Nat := 0
  short : Nat := 0
  first : Option (BitVec 40) := none
  lost : Option (BitVec 40) := none
  seen : List (Nat × Nat × DWord) := []
deriving DecidableEq, Repr

/-- Read a bound point once: 0 good, 1 uncertain, 2 unusable, and its value. -/
def Chip.boundValue (m : Chip) (p : Params) (tag : BitVec 40) (nanBad : Bool) : Nat × DWord × Params × Chip :=
  match p.seen.find? (fun e => e.1 == tag.toNat) with
  | some (_, s, v) => (s, v, p, m)
  | none =>
    let (c, r, m1) := m.loopRead tag
    let s := if c ≠ CC.ok ∨ 2 ≤ Q.state r.quality ∨ (nanBad ∧ Fp.isNan r.value) then 2 else Q.state r.quality
    (s, r.value, { p with seen := p.seen ++ [(tag.toNat, s, r.value)], degraded := p.degraded + (if s = 0 then 0 else 1) }, m1)

/-- Take an unusable value: the fallback where the binding allows it, else the round is lost. -/
def Params.miss (p : Params) (b : PBind) (tag : BitVec 40) : Params :=
  if b.flags.testBit 0 then { p with first := p.first.orElse (fun _ => some tag) } else { p with lost := p.lost.orElse (fun _ => some tag) }

/-- The values of a TRAJ binding, step by step. -/
def Chip.trajValues (m : Chip) (b : PBind) (fallback : DWord) (base : Int) : List (Nat × Nat) → Params → List DWord × Params × Chip
  | [], p => ([], p, m)
  | (t, dt) :: rest, p =>
    let raw : Int := ((t : Int) + dt * 500000000 - base) / ((b.every : Int) * 1000000000)
    let j : Int := max 0 (min raw ((b.count : Int) - 1))
    let p1 := if raw = j then p else { p with short := p.short + 1 }
    let tag := b.tag + BitVec.ofInt 40 j
    let (s, v, p2, m1) := m.boundValue p1 tag true
    let p3 := if s = 2 then p2.miss b tag else p2
    let (l, p4, m2) := m1.trajValues b fallback base rest p3
    ((if s = 2 then fallback else v) :: l, p4, m2)

/-- Resolve one binding over the steps (start in ns, length in s). -/
def Chip.resolve (m : Chip) (steps : List (Nat × Nat)) (p : Params) (b : PBind) : Params × Chip :=
  let static := (m.elem b.elem).params.getD b.slot 0
  if b.mode = 0 then
    let (s, v, p1, m1) := m.boundValue p b.tag true
    let p2 := if s = 2 then p1.miss b b.tag else p1
    ({ p2 with vals := p2.vals ++ [((b.elem, b.slot), List.replicate steps.length (if s = 2 then static else v))] }, m1)
  else
    let (s, v, p1, m1) := m.boundValue p b.base false
    if s = 2 then ({ p1.miss b b.base with vals := p1.vals ++ [((b.elem, b.slot), List.replicate steps.length static)] }, m1)
    else
      let (l, p2, m2) := m1.trajValues b static (sint v) steps p1
      ({ p2 with vals := p2.vals ++ [((b.elem, b.slot), l)] }, m2)

/-- Resolve every binding in table order; where one slot has two, the later applies. -/
def Chip.resolveAll (m : Chip) (steps : List (Nat × Nat)) : List PBind → Params → Params × Chip
  | [], p => (p, m)
  | b :: t, p => let (p1, m1) := m.resolve steps p b; m1.resolveAll steps t p1

/-- The value of a slot of an element in a step. -/
def Chip.param (m : Chip) (p : Params) (e slot k : Nat) : DWord :=
  match p.vals.reverse.find? (fun x => x.1 == (e, slot)) with
  | some x => x.2.getD k 0
  | none => (m.elem e).params.getD slot 0

/-! ### Steps, plan of record, days -/

/-- The steps of a round: start in ns and length in s. -/
def stepsFrom : Nat → List Nat → List (Nat × Nat)
  | _, [] => []
  | t, l :: r => (t, l) :: stepsFrom (t + l * 1000000000) r

/-- The value of a plan at an instant, where it covers it. -/
def PlanRec.at (p : PlanRec) (elem code t : Nat) : Option DWord :=
  if t < p.anchor then none else
  (stepOf p.lens (t - p.anchor)).map (fun k => AMap.get 0 p.vals (elem * 4096 + code * 512 + k))

/-- A length of a step in hours. -/
def hours (dt : Nat) : DWord := Fp.fdiv (Fp.fofNat dt) (Fp.fofNat 3600)

/-- The local day of an instant (ns) for a day-start parameter (s). -/
def Chip.lightDay (m : Chip) (start t : Nat) : Nat :=
  let s := t / 1000000000
  let d := m.localDay s
  if m.wallInstant (d * 86400 + start) ≤ s then d else d - 1

/-- Nanoseconds of overlap of two intervals. -/
def overlap (a b c d : Nat) : Nat := min b d - max a c

/-- The fraction of a step inside a zone's photoperiods. -/
def Chip.phi (m : Chip) (zone t dt : Nat) : DWord :=
  if !(m.zoneEnt zone).on then 0 else
  let ns := ((m.zone zone).photo.map (fun p => overlap t (t + dt * 1000000000) p.1 p.2)).sum
  Fp.fdiv (secs ns) (Fp.fofNat dt)

/-! ### Equations (R181 to R185) -/

/-- What the assembler works from: the chip, parameters, steps, plan of record. -/
structure Asm where
  m : Chip
  p : Params
  steps : List (Nat × Nat)
  on : List Nat
  vars : List PVar := []

def Asm.val (s : Asm) (e slot k : Nat) : DWord := s.m.param s.p e slot k
def Asm.el (s : Asm) (e : Nat) : Elem := s.m.elem e
def Asm.dh (s : Asm) (k : Nat) : DWord := hours (s.steps.getD k (0, 0)).2

/-- The lower bound of a converter's input under its availability and RELAX_MIN. -/
def Asm.low (s : Asm) (e slot aSlot k : Nat) : DWord := if (s.el e).relax then 0 else Fp.fmul (s.val e aSlot k) (s.val e slot k)

/-- The variables of an element in a step, by output code. -/
def Asm.stepVars (s : Asm) (e k : Nat) : List PVar :=
  let v := s.val e
  let dh := s.dh k
  let x := fun (code : Nat) (lo hi cost : DWord) => ({ elem := e, code := code, step := k, lo := lo, hi := hi, cost := cost } : PVar)
  let inf := Fp.inf false
  let pen := fun (slot : Nat) => Fp.fmul dh (v slot k)
  let last := k + 1 == s.steps.length
  match (s.el e).type with
  | 1 => (if (s.el e).medium = 3 then x 0 0 (v 6 k) 0 else x 0 (v 0 k) (v 1 k) 0) :: [x 1 0 inf (pen 5)]
  | 2 => [x 0 0 inf 0, x 1 (v 1 k) (v 2 k) 0]
  | 3 => [x 0 (v 0 k) (v 1 k) 0, x 1 0 inf 0]
  | 4 => [x 0 (if last then Fp.fmax (v 0 k) (v 7 k) else v 0 k) (v 1 k) (if last then Fp.negate (v 8 k) else 0), x 1 0 (v 2 k) 0, x 2 0 (v 3 k) 0]
  | 5 => [x 0 (s.low e 0 9 k) (Fp.fmul (v 9 k) (v 1 k)) (pen 5), x 1 0 inf 0, x 2 0 inf 0, x 3 0 inf 0]
  | 6 => [x 0 (s.low e 0 4 k) (Fp.fmul (v 4 k) (v 1 k)) 0, x 1 0 inf 0]
  | 7 => [x 0 (s.low e 0 5 k) (Fp.fmul (v 5 k) (v 1 k)) (pen 3), x 1 0 inf 0]
  | 8 => [x 0 (s.low e 0 4 k) (Fp.fmul (v 4 k) (v 1 k)) 0, x 1 0 inf 0]
  | 9 => [x 0 0 (v 0 k) (pen 1)]
  | 10 => [x 0 0 (v 0 k) 0, x 1 0 inf (pen 2)]
  | 11 => [x 0 0 (v 0 k) (pen 2), x 1 0 (v 1 k) (Fp.negate (pen 3))]
  | 12 => [x 0 0 (Fp.fmul (s.m.phi ((whole (v 11 k) 8191).getD 0) (s.steps.getD k (0, 0)).1 (s.steps.getD k (0, 0)).2) (v 0 k)) 0]
  | 14 => [x 0 0 inf (pen 0)]
  | 15 => [x 0 (v 0 k) (v 1 k) 0]
  | _ => []

/-- The local days that the horizon touches for a light zone. -/
def Asm.days (s : Asm) (e : Nat) : List Nat :=
  let start := (whole (s.val e 7 0) 172800).getD 0
  (s.steps.map (fun t => s.m.lightDay start t.1)).eraseDups

/-- The variables of an element: step by step, then those of the horizon or the days. -/
def Asm.elemVars (s : Asm) (e : Nat) : List PVar :=
  let per := ((List.range s.steps.length).map (s.stepVars e)).flatten
  let one := fun (lo cost : DWord) => ({ elem := e, code := 7, step := 0x1FF, lo := lo, cost := cost } : PVar)
  match (s.el e).type with
  | 11 => per ++ [one (s.val e 5 0) (s.val e 4 0)]
  | 12 => per ++ (s.days e).map (fun _ => one 0 (s.val e 4 0))
  | _ => per

/-- The number of a variable. -/
def Asm.ix (s : Asm) (e code k : Nat) : Nat := (s.vars.findIdx? (fun v => v.elem == e && v.code == code && v.step == k)).getD 0
/-- The number of the n-th variable per horizon or day of an element. -/
def Asm.ixOne (s : Asm) (e n : Nat) : Nat := (s.vars.findIdx? (fun v => v.elem == e && v.code == 7 && v.step == 0x1FF)).getD 0 + n

def minusOne : DWord := 0xBFF0000000000000

/-- The reference values of a pipe in a step: m̄ and θ̄ of node A. -/
def Asm.pipeRef (s : Asm) (e k : Nat) : DWord × DWord :=
  let a := (s.el e).a
  let mid := fun (x y : DWord) => Fp.fdiv (Fp.fadd x y) (Fp.fofNat 2)
  let plan := fun (el code : Nat) => s.m.plan.plan.bind (fun p => p.at el code (s.steps.getD k (0, 0)).1)
  ((plan e 1).getD (mid (s.val e 1 k) (s.val e 2 k)), (plan a 0).getD (mid (s.val a 0 k) (s.val a 1 k)))

/-- What a pipe delivers into node B in step k: coefficients of its q, and the constant part that q_now gives. -/
def Asm.delivered (s : Asm) (e k : Nat) : List (Nat × DWord) × DWord :=
  let v := fun (slot : Nat) => s.val e slot k
  let (mr, _) := s.pipeRef e k
  let tau := Fp.fmin (Fp.fdiv (Fp.fmul (v 6) (v 0)) (Fp.fmax mr (v 1))) (v 4)
  let keep := Fp.fsub Fp.one (Fp.fdiv (Fp.fmul (v 3) tau) (Fp.fofNat 3600))
  let t0 := (s.steps.getD 0 (0, 0)).1
  let at_ := fun (t : Nat) => secs (t - t0)
  let (tk, dt) := s.steps.getD k (0, 0)
  let a := Fp.fsub (at_ tk) tau
  let b := Fp.fsub (Fp.fadd (at_ tk) (Fp.fofNat dt)) tau
  let part := fun (lo hi : DWord) => Fp.fmul keep (Fp.fdiv (Fp.fmax 0 (Fp.fsub (Fp.fmin b hi) (Fp.fmax a lo))) (Fp.fofNat dt))
  let cs := (s.steps.zipIdx.map (fun x => (s.ix e 0 x.2, part (at_ x.1.1) (Fp.fadd (at_ x.1.1) (Fp.fofNat x.1.2))))).filter (fun c => !Fp.isZero c.2)
  (cs, Fp.fmul (part a 0) (s.val e 7 0))

/-- The balance of a node or bus in step k: terms, and the sum of its constant draws less its constant deliveries. -/
def Asm.balance (s : Asm) (n k : Nat) : List (Nat × DWord) × DWord :=
  s.on.foldl (fun acc e =>
    let el := s.el e
    let put := fun (l : List (Nat × DWord)) => (acc.1 ++ l, acc.2)
    match el.type with
    | 2 =>
      let d := if el.b = n then s.delivered e k else ([], 0)
      (acc.1 ++ d.1 ++ (if el.a = n then [(s.ix e 0 k, minusOne)] else []), Fp.fsub acc.2 d.2)
    | 3 => put (if el.b = n then [(s.ix e 1 k, minusOne)] else [])
    | 4 => put (if el.a = n then [(s.ix e 2 k, Fp.one), (s.ix e 1 k, minusOne)] else [])
    | 5 => put ((if el.a = n then [(s.ix e 2 k, Fp.one)] else []) ++ (if el.b = n then [(s.ix e 1 k, Fp.one)] else []) ++
        (if el.c = n then [(s.ix e 3 k, Fp.one)] else []))
    | 6 => put ((if el.a = n then [(s.ix e 1 k, Fp.one)] else []) ++ (if el.b = n then [(s.ix e 0 k, minusOne)] else []) ++
        (if el.c = n then [(s.ix e 1 k, minusOne), (s.ix e 0 k, Fp.one)] else []))
    | 7 => put (if el.a = n then [(s.ix e 1 k, Fp.one)] else [])
    | 8 => put ((if el.a = n then [(s.ix e 1 k, Fp.one)] else []) ++ (if el.b = n then [(s.ix e 0 k, minusOne)] else []))
    | 9 => put (if el.a = n then [(s.ix e 0 k, Fp.one)] else [])
    | 10 => put (if el.a = n then [(s.ix e 0 k, minusOne)] else [])
    | 11 => put (if el.a = n then [(s.ix e 0 k, Fp.one), (s.ix e 1 k, minusOne)] else [])
    | 12 => put (if el.a = n then [(s.ix e 0 k, minusOne)] else [])
    | 13 => (acc.1, if el.a = n then Fp.fadd acc.2 (s.val e 0 k) else acc.2)
    | 15 => put (if el.a = n then [(s.ix e 0 k, minusOne)] else [])
    | _ => acc) ([], 0)

/-- The rows of an element in a step. -/
def Asm.stepRows (s : Asm) (e k : Nat) : List PRow :=
  let el := s.el e
  let v := fun (slot : Nat) => s.val e slot k
  let i := fun (code : Nat) => s.ix e code k
  let dh := s.dh k
  let row := fun (place : Nat) (eq : Bool) (terms : List (Nat × DWord)) (rhs : DWord) =>
    ({ elem := e, place := place, step := k, eq := eq, terms := terms, rhs := rhs } : PRow)
  let prev := fun (code : Nat) (c : DWord) => if k = 0 then [] else [(s.ix e code (k - 1), c)]
  match el.type with
  | 1 =>
    let (t, d) := s.balance e k
    if el.medium = 3 then [row 0 true (t ++ [(i 0, minusOne), (i 1, Fp.one)]) d]
    else [row 0 true (t ++ [(i 0, Fp.negate (v 3)), (i 1, Fp.one)]) (Fp.fsub d (Fp.fmul (v 3) (v 4)))]
  | 2 =>
    let (mr, th) := s.pipeRef e k
    let ret := s.val el.a 2 k
    let c1 := Fp.fmul (v 5) mr
    let c2 := Fp.fmul (v 5) (Fp.fsub th ret)
    [row 0 true [(i 0, Fp.one), (s.ix el.a 0 k, Fp.negate c1), (i 1, Fp.negate c2)]
      (Fp.negate (Fp.fadd (Fp.fmul c1 ret) (Fp.fmul c2 mr)))]
  | 3 => row 0 true [(i 0, Fp.one), (s.ix el.a 1 k, minusOne)] 0 ::
      (List.range el.segs).map (fun g => row (1 + g) false [(i 0, v (2 + 2 * g)), (i 1, minusOne)] (Fp.negate (v (3 + 2 * g))))
  | 4 =>
    let carry := Fp.fsub Fp.one (Fp.fmul (v 6) dh)
    [row 0 true ([(i 0, Fp.one)] ++ prev 0 (Fp.negate carry) ++ [(i 1, Fp.negate (Fp.fmul dh (v 4))), (i 2, Fp.fdiv dh (v 5))])
      (if k = 0 then Fp.fmul carry (s.val e 9 0) else 0)]
  | 5 => [row 0 true [(i 1, Fp.one), (i 0, Fp.negate (v 2))] 0, row 1 true [(i 2, Fp.one), (i 0, Fp.negate (v 3))] 0,
      row 2 true [(i 3, Fp.one), (i 0, Fp.negate (v 4))] 0,
      row 3 false ([(i 0, Fp.one)] ++ prev 0 minusOne) (Fp.fadd (Fp.fmul (v 6) dh) (if k = 0 then s.val e 10 0 else 0)),
      row 4 false ([(i 0, minusOne)] ++ prev 0 Fp.one) (Fp.fsub (Fp.fmul (v 7) dh) (if k = 0 then s.val e 10 0 else 0))]
  | 6 => [row 0 true [(i 1, Fp.one), (i 0, Fp.negate (v 2))] 0]
  | 7 => [row 0 true [(i 1, Fp.one), (i 0, Fp.negate (v 2))] 0]
  | 8 => [row 0 true [(i 1, Fp.one), (i 0, Fp.negate (v 2))] 0]
  | 10 => [row 0 false [(i 0, minusOne), (i 1, minusOne)] (Fp.negate (v 1))]
  | 11 => [row 0 false [(i 0, Fp.one), (s.ixOne e 0, minusOne)] 0]
  | 14 => let (t, d) := s.balance e k; [row 0 true (t ++ [(i 0, Fp.one)]) d]
  | _ => []

/-- The light-integral row of the n-th day D of a light zone (R184). -/
def Asm.dayRow (s : Asm) (e n day : Nat) : PRow :=
  let start := (whole (s.val e 7 0) 172800).getD 0
  let mine := (List.range s.steps.length).filter (fun k => s.m.lightDay start (s.steps.getD k (0, 0)).1 == day)
  let v := fun (slot k : Nat) => s.val e slot k
  let sun := mine.foldl (fun a k => Fp.fadd a
    (Fp.fdiv (Fp.fmul (Fp.fmul (v 6 k) (v 10 k)) (Fp.fofNat (s.steps.getD k (0, 0)).2)) million)) 0
  let h0 := if s.m.lightDay start (s.steps.getD 0 (0, 0)).1 = day then v 8 0 else 0
  let terms := mine.map (fun k => (s.ix e 0 k, Fp.negate (Fp.fdiv (Fp.fmul (v 1 k) (Fp.fofNat (s.steps.getD k (0, 0)).2))
    (Fp.fmul (Fp.fofNat 1000) (v 2 k)))))
  { elem := e, place := 7, step := 0x1FF, eq := false, terms := terms ++ [(s.ixOne e n, minusOne)],
    rhs := Fp.negate (Fp.fsub (Fp.fsub (v 3 0) sun) h0) }

/-- The ramp terms of an element (R185): quadratic terms, and the linear cost that its "now" value adds in step 0. -/
def Asm.rampTerms (s : Asm) (e : Nat) : List (Nat × Nat × DWord) × List (Nat × DWord) :=
  match (s.el e).ramp with
  | none => ([], [])
  | some (code, slot) =>
    (List.range s.steps.length).foldl (fun acc k =>
      let w := s.val e slot k
      let x := s.ix e code k
      if k = 0 then
        match (s.el e).nowSlot with
        | some q => if (s.el e).type = ET.light then acc else
            (acc.1 ++ [(x, x, w)], acc.2 ++ [(x, Fp.negate (Fp.fmul (Fp.fmul (Fp.fofNat 2) w) (s.val e q 0)))])
        | none => acc
      else
        let y := s.ix e code (k - 1)
        (acc.1 ++ [(x, x, w), (x, y, Fp.negate (Fp.fmul (Fp.fofNat 2) w)), (y, y, w)], acc.2)) ([], [])

/-- The problem of a round. -/
def Asm.problem (s0 : Asm) : Problem :=
  let s := { s0 with vars := (s0.on.map s0.elemVars).flatten }
  let lights := s.on.filter (fun e => (s.el e).type == ET.light)
  let rows := (s.on.map (fun e => ((List.range s.steps.length).map (s.stepRows e)).flatten ++
    (if (s.el e).type = ET.light then (s.days e).zipIdx.map (fun d => s.dayRow e d.2 d.1) else []))).flatten
  let ramps := s.on.map s.rampTerms
  let lin := (ramps.map (·.2)).flatten
  let vars := s.vars.zipIdx.map (fun v => { v.1 with cost := (lin.filter (fun t => t.1 == v.2)).foldl (fun a t => Fp.fadd a t.2) v.1.cost })
  let short := (lights.map (fun e => (s.days e).zipIdx.map (fun d => (s.ixOne e d.2, s.ixOne e d.2, s.val e 5 0)))).flatten
  { vars := vars, rows := rows, quad := (ramps.map (·.1)).flatten ++ short }

/-- Rows of the KKT system: variables and general rows. -/
def Problem.kkt (p : Problem) : Nat := p.vars.length + p.rows.length

end Sys2Proof.Machine
end

