-- ==== Sys2Proof/Machine/Planner.lean ====
section
/-! DEFINITION. Planning rounds (chapters 8 and 9): launch, assembly, symbolic analysis, iterations, deadlines, coordination with partners,
acceptance, adoption, and how a round ends. The numbers of an iterate are `Config.iterate`'s; what is done with them is here. -/

namespace Sys2Proof.Machine

open Sys2Proof

def Chip.setPlan (m : Chip) (x : Planner) : Chip := m.withPlan x
def Chip.setRound (m : Chip) (r : Round) : Chip := m.setPlan { m.plan with round := some r }
def Chip.planPhase (m : Chip) (p : Nat) : Chip := m.put R.PLAN_STAT_PHASE p

/-- The values of PLAN_RES.END. -/
inductive PEnd where
  | converged | offer | fact | numeric | iterLimit | cancelled | preSolve | hardware
deriving DecidableEq, Repr

def PEnd.code : PEnd → Nat
  | .converged => 0 | .offer => 1 | .fact => 2 | .numeric => 3 | .iterLimit => 4 | .cancelled => 5 | .preSolve => 6 | .hardware => 7

/-! ### How a round ends (R206, R208, R216 to R218) -/

/-- The word of PLAN_RES_WHERE for a column: variables first, then rows. -/
def Problem.where_ (p : Problem) (col : Nat) : Word :=
  let w := fun (row code step elem : Nat) => BitVec.ofNat 32 (row * 2 ^ 31 + code * 2 ^ 28 + step * 2 ^ 16 + elem)
  if col < p.vars.length then
    (match p.vars[col]? with
      | some v => w 0 v.code v.step v.elem
      | none => 0)
  else match p.rows[col - p.vars.length]? with
    | some r => w 1 r.place r.step r.elem
    | none => 0

/-- The job of a round ends, settled at its measured energy. A round whose solve ended renews what later rounds declare. -/
def Chip.planSettle (m : Chip) (r : Round) (solvedEnd : Bool) : Nat × Chip :=
  let (v, m1) := m.fresh
  let (d, m2) := m1.fresh
  let e := v.toNat % 2 ^ 32
  let m3 := m2.endJob (fun j => j.cls == 0) (some (e * 1000))
  let p := m3.plan
  (e, if solvedEnd then m3.setPlan { p with energy := some (r.struct, e), draw := some (d.toNat % 2 ^ 16) } else m3)

/-- Write the diagnostic points (R217). -/
def Chip.planDiag (m : Chip) (r : Round) (col : Option Nat) : Chip :=
  let tag := m.tagReg R.PLAN_DIAG_LO R.PLAN_DIAG_HI
  if tag = 0 ∨ r.problem = {} then m else
  let off := match col with
    | some c => r.sol.getD c (Fp.causeNan 5)
    | none => 0
  let time := Fp.fdiv (Fp.fofNat (r.solved - r.assembled)) (Fp.fofNat 1000000000)
  ([r.it.rP, r.it.rD, r.it.rG, r.it.obj, Fp.fofNat r.j, time, off, r.mis].zipIdx).foldl
    (fun a v => a.unitWrite (tag + BitVec.ofNat 40 v.2) v.1) m

/-- End the round: PLAN_RES and its fellows take the result, ROUND_END is posted, the planner is idle. -/
def Chip.roundEnd (m0 : Chip) (r : Round) (code : Half) (e : PEnd) (cause : Nat) (col : Option Nat) (adopted : Bool) : Chip :=
  let solvedEnd := [PEnd.converged, .offer, .numeric, .iterLimit].contains e
  let open_ := m0.ridge.jobs.any (fun j => j.cls == 0)
  let (en, m) := if open_ then m0.planSettle r solvedEnd else (m0.get R.PLAN_RES_ENERGY, m0)
  let r := if r.solved = 0 then { r with solved := m.monoNs } else r
  let res : Nat := 2 ^ 31 + bit adopted * 2 ^ 30 + cause * 2 ^ 27 + e.code * 2 ^ 24 + min r.j 255 * 2 ^ 16 + code.toNat
  let nan3 := e == .fact
  let val := fun (v : DWord) => if nan3 then Fp.causeNan 3 else v
  let m1 := ((m.setReg R.PLAN_RES.addr (BitVec.ofNat 32 res)).setReg R.PLAN_RES_COL.addr
      (match col with
        | some c => BitVec.ofNat 32 (2 ^ 31 + c % 2 ^ 22)
        | none => 0)).setReg R.PLAN_RES_WHERE.addr
      (match col with
        | some c => r.problem.where_ c
        | none => 0)
  let m2 := ((((m1.put64 R.PLAN_RES_PRI_LO (val r.it.rP)).put64 R.PLAN_RES_DUA_LO (val r.it.rD)).put64 R.PLAN_RES_GAP_LO (val r.it.rG)).put64
    R.PLAN_RES_OBJ_LO (val r.it.obj)).put64 R.PLAN_RES_TIEMIS_LO r.mis
  let m3 := (((m2.put R.PLAN_RES_TIME (min 0xFFFFFFFF ((r.solved - r.launched) / 1000))).put R.PLAN_RES_ENERGY en).put R.PLAN_RES_INPUTS_TRAJ_SHORT
    (min 65535 r.short)).put R.PLAN_RES_INPUTS_DEGRADED (min 65535 r.degraded)
  let m4 := (m3.put R.PLAN_RES_REGCNT (min 0xFFFFFFFF r.replaced)).setReg R.PLAN_RES_TIES.addr
    (BitVec.ofNat 32 (r.c * 2 ^ 27 + bit r.closed * 2 ^ 26 + bit r.agreed * 2 ^ 25 + r.lost))
  let prices := if r.ties.isEmpty then m4.plan.prices else some (r.anchor, r.lens, r.ties.map (fun t => (t.elem, t.price)))
  let m5 := (m4.setPlan { m4.plan with round := none, prices := prices }).setReg R.PLAN_STAT.addr 0
  (m5.planDiag r col).post (ev 0x0A 0x0310 (if adopted then 0 else 2) 0 r.anchor
    (le 2 r.j ++ le 1 e.code ++ le 1 cause ++ le 4 ((col.map (fun c => 2 ^ 31 + c)).getD 0) ++ le 8 (val r.it.rP).toNat ++
      le 4 ((r.solved - r.assembled) / 1000)) code)

/-- A round that ends before its first iteration. -/
def Chip.preSolve (m : Chip) (r : Round) (code : Half) : Chip := m.roundEnd { r with problem := {}, it := {} } code .preSolve 0 none false

/-- A numeric fault: payload and first column. The solution keeps the last complete iterate but for the marked components. -/
def Chip.numericFault (m : Chip) (r : Round) (payload col : Nat) (reach : List Nat) : Chip :=
  let r1 := { r with sol := r.sol.zipIdx.map (fun v => if reach.contains v.2 then Fp.causeNan payload else v.1), solved := m.monoNs }
  (m.post (ev 0x0A 0x0311 2 0 r.anchor (le 4 col ++ le 4 (r.problem.where_ col).toNat ++ le 1 payload))).roundEnd r1 CC.nanResult .numeric payload
    (some col) false

/-- A CANCEL or a disable: the round ends, unless its adoption commit is pending (R187, R193, R210). -/
def Chip.planCancel (m : Chip) : Chip :=
  match m.plan.round with
  | some r => if m.get R.PLAN_STAT_PHASE = 8 then m else m.roundEnd r CC.cancelled .cancelled 0 none false
  | none => m

/-! ### Launch (R175, R187, R216, R228) -/

/-- The profile's divisor and lead addition. -/
def Chip.planDiv (m : Chip) : Nat := max 1 (m.get (R.RIDGE_PROF_PLAN_DIV (m.get R.RIDGE_STAT_PROFILE)))
def Chip.planLead (m : Chip) : Nat := min 600 (m.get R.PLAN_TIMING_LEAD + m.get (R.RIDGE_PROF_PLAN_LEAD_ADD (m.get R.RIDGE_STAT_PROFILE)))

/-- The horizon's end of a plan, in ns. -/
def PlanRec.ends (p : PlanRec) : Nat := p.anchor + p.lens.sum * 1000000000

/-- Whether a round launched now is deadline-critical (Table 10-3). -/
def Chip.planCrit (m : Chip) : Bool :=
  match m.plan.plan with
  | none => true
  | some p => decide (p.ends < m.now + (m.get R.PLAN_TIMING_LEAD + 2 * m.get R.PLAN_CADENCE_PERIOD * m.planDiv) * 1000000000)

/-- Declared cost (mJ) and draw (mW per quadrant) of a round. -/
def Chip.planCost (m : Chip) : Nat :=
  match m.plan.energy with
  | some (s, e) => if s = m.planStruct then (11 * e + 9) / 10 else (5000 * m.kktRows m.stepLens.length 3 + 999999) / 1000000
  | none => (5000 * m.kktRows m.stepLens.length 3 + 999999) / 1000000
def Chip.planDraw (m : Chip) : Nat := match m.plan.draw with | some d => (11 * d + 9) / 10 | none => 8000

/-- Launch a round: the completion code. `eligible` is false for a cadence tick that the profile's divisor skips. -/
def Chip.launch (m : Chip) (eligible : Bool) : Half × Chip :=
  if !m.on R.PLAN_CTL_EN || m.get R.PLAN_ELEM_CNT_COUNT == 0 then (CC.checkFailed, m)
  else if !m.trusted then (CC.checkFailed, m)
  else if m.plan.round.isSome then (CC.busy, m)
  else if !eligible then (CC.noBudget, m)
  else match m.admitJob { cls := 0, cost := m.planCost, draw := m.planDraw, crit := m.planCrit } with
    | (.ok q, m1) =>
      let grid := m1.get R.PLAN_TIMING_GRID * 1000000000
      let anchor := (m1.now + m1.planLead * 1000000000 + grid - 1) / grid * grid
      let r : Round := { launched := m1.monoNs, anchor := anchor, deadline := anchor - m1.get R.PLAN_TIMING_MARGIN * 100000000,
                         lens := m1.stepLens, struct := m1.planStruct }
      (CC.ok, (((m1.setRound r).setReg R.PLAN_STAT.addr 0).put R.PLAN_STAT_QUADS q).planPhase 2)
    | (_, m1) => (CC.noBudget, m1)

/-- CADENCE_TICK: the latest tick that has come; a refused one is skipped. -/
def Chip.cadence (m : Chip) : Chip :=
  let per := m.get R.PLAN_CADENCE_PERIOD * 1000000000
  let ph := m.get R.PLAN_CADENCE_PHASE * 1000000000
  if !m.hasUnit 0x0A || !m.on R.PLAN_CTL_CAD_EN || decide (m.now < ph) || !m.leads then m else
  let t := (m.now - ph) / per * per + ph
  if m.plan.lastTick = some t then m else
  let el := m.plan.ticks % m.planDiv == 0
  let m1 := m.setPlan { m.plan with lastTick := some t, ticks := m.plan.ticks + 1 }
  let (c, m2) := m1.launch el
  if c = CC.ok then m2 else (m2.count R.PLAN_SKIP_CNT none).post (ev 0x0A 0x0301 1 0 t [] c)

/-- PLAN_CMD LAUNCH and CANCEL. -/
def Chip.planCmd (m : Chip) (cancel : Bool) : Chip :=
  if !m.hasUnit 0x0A then m
  else if cancel then m.planCancel.put R.PLAN_CMD_RES_CODE CC.ok.toNat
  else let (c, m1) := m.launch true; m1.put R.PLAN_CMD_RES_CODE c.toNat

/-! ### Assembly and analysis (R188, R200, R201) -/

/-- The ties of the model with their first prices: those of the previous round, shifted to the anchor (R213). -/
def Chip.planTies (m : Chip) (on : List Nat) (anchor : Nat) (lens : List Nat) : List Tie :=
  let price := fun (e t : Nat) => match m.plan.prices with
    | none => (0 : DWord)
    | some (a, ls, l) => if t < a then 0 else match stepOf ls (t - a), assoc l e with
      | some k, some v => v.getD k 0
      | _, _ => 0
  if !m.on R.PLAN_LEAGUE_EN then [] else
  (on.filter (fun e => (m.elem e).type == ET.tie)).map (fun e => { elem := e, price := (stepsFrom anchor lens).map (fun s => price e s.1) })

/-- The step after assembly or analysis: the fill test, then the starting point and the iterations. -/
def Chip.startSolve (m : Chip) (r : Round) : Chip :=
  let m1 := m.put R.PLAN_RES_FILL (min 0xFFFFFFFF (Config.fill r.struct))
  if 67108864 < Config.fill r.struct then m1.preSolve r CC.overflow
  else
    let s := Config.iterate r.problem (m1.reg R.PLAN_NUM.addr) (m1.reg R.PLAN_TOL.addr) r.warm 0
    ((m1.setRound { r with it := s, j := 0, hist := [], sol := s.x }).put R.PLAN_STAT_ITER 0).planPhase 5

/-- ASSEMBLY_DONE. -/
def Chip.assembly (m : Chip) : Chip :=
  match m.plan.round with
  | none => m
  | some r =>
    if m.get R.PLAN_STAT_PHASE ≠ 2 ∨ !m.pdReady 5 then m else
    let on := m.elems
    let steps := stepsFrom r.anchor r.lens
    if on.any (fun e => !(m.elem e).ok) then m.preSolve { r with assembled := m.monoNs } CC.checkFailed else
    let (p, m1) := m.resolveAll steps (m.pbinds.map (·.2)) {}
    let r1 := { r with degraded := p.degraded, short := p.short, assembled := m1.monoNs }
    let m2 := m1.put R.PLAN_STAT_DEGRADED (min 2047 p.degraded)
    match p.lost with
    | some _ => m2.roundEnd { r1 with problem := {} } CC.nanResult .preSolve 4 none false
    | none =>
      let m3 := match p.first with
        | some t => m2.post (ev 0x0A 0x0300 1 0 t.toNat (le 4 p.degraded ++ le 4 p.short))
        | none => m2
      let prob := ({ m := m3, p := p, steps := steps, on := on } : Asm).problem
      let r2 := { r1 with problem := prob, ties := m3.planTies on r.anchor r.lens }
      if 4194304 < prob.kkt then m3.preSolve r2 CC.overflow
      else if m3.plan.struct = some r.struct then m3.startSolve r2
      else (m3.setRound r2).planPhase 3

/-- SYMBOLIC_ANALYSIS_DONE. -/
def Chip.analysed (m : Chip) : Chip :=
  match m.plan.round with
  | some r =>
    if m.get R.PLAN_STAT_PHASE ≠ 3 then m else
    let m1 := (m.setPlan { m.plan with struct := some r.struct }).post (ev 0x0A 0x0312 0 0 (Config.digest r.struct).toNat
      (le 4 (Config.fill r.struct) ++ le 4 (200000 + Config.nonzeros r.struct / 25)))
    m1.startSolve r
  | none => m

/-! ### Acceptance and adoption (R190, R191) -/

/-- The values of a solution by element, code and step. -/
def Problem.values (p : Problem) (x : List DWord) : AMap DWord :=
  (p.vars.zipIdx.filter (fun v => v.1.step != 0x1FF)).foldl
    (fun a v => AMap.put 0 (v.1.elem * 4096 + v.1.code * 512 + v.1.step) (x.getD v.2 0) a) []

/-- |v| with 1 as its least value. -/
def atLeastOne (v : DWord) : DWord := Fp.fmax Fp.one (Fp.absolute v)

/-- A value held to its bounds: none where it lies outside by more than tol × max(1, |bound|). -/
def PVar.fit (v : PVar) (tol x : DWord) : Option DWord :=
  if Fp.isNan x then none
  else if Fp.gt v.lo x then (if Fp.gt (Fp.fsub v.lo x) (Fp.fmul tol (atLeastOne v.lo)) then none else some v.lo)
  else if Fp.gt x v.hi then (if Fp.gt (Fp.fsub x v.hi) (Fp.fmul tol (atLeastOne v.hi)) then none else some v.hi)
  else some x

/-- The variable of an output in a step. -/
def Problem.find (p : Problem) (e code k : Nat) : Option (PVar × Nat) := p.vars.zipIdx.find? (fun v => v.1.elem == e && v.1.code == code && v.1.step == k)

/-- The output writes of a solution, in table order: tag and value. -/
def Chip.planOutputs (m : Chip) (r : Round) (x : List DWord) : List (Option (Nat × DWord)) :=
  let tol := m.get64 R.PLAN_ACC_PRI_LO
  (m.pouts.map (fun o => (List.range (if o.mode = 0 then r.lens.length else 1)).map (fun k =>
    match r.problem.find o.elem o.code k with
    | some (v, i) => (v.fit tol (x.getD i 0)).map (fun y => (o.tag.toNat + k, y))
    | none => none))).flatten

/-- The unserved and shortfall variables above 0.001: their number, the element and value of the largest. -/
def Chip.planSlack (m : Chip) (r : Round) (x : List DWord) : Nat × Nat × DWord :=
  let slack := fun (v : PVar) => match (m.elem v.elem).type with
    | 1 => v.code == 1 | 14 => v.code == 0 | 10 => v.code == 1 | 12 => v.code == 7 | _ => false
  (r.problem.vars.zipIdx.filter (fun v => slack v.1 && Fp.gt (x.getD v.2 0) 0x3F50624DD2F1A9FC)).foldl
    (fun a v => if Fp.gt (x.getD v.2 0) a.2.2 then (a.1 + 1, v.1.elem, x.getD v.2 0) else (a.1 + 1, a.2)) (0, 0, 0)

/-- The adoption fails: PLAN_NOT_ADOPTED, and the round ends with the code. -/
def Chip.notAdopted (m : Chip) (r : Round) (code : Half) : Chip :=
  (m.post (ev 0x0A 0x0303 2 0 r.anchor [] code)).roundEnd r code (if r.fin = 1 then .offer else .converged) 0 none false

/-- Channel 1's commit has applied: the plan becomes the plan of record. -/
def Chip.planApplied (m : Chip) : Chip :=
  match m.plan.round with
  | none => m
  | some r => match r.plan with
    | none => m
    | some p =>
      let m1 := (m.setPlan { m.plan with plan := some p }).post (ev 0x0A 0x0302 0 0 r.anchor (le 4 r.points ++ le 4 (m.get (R.COMMIT_GEN 1))))
      m1.roundEnd r CC.ok (if r.fin = 1 then .offer else .converged) 0 none true

/-- Stage an accepted plan on channel 1 and write GO in mode AT at the anchor. A plan without output writes makes an empty set, whose GO ends
with OK at once (R59). -/
def Chip.adopt (m : Chip) (r : Round) (outs : List (Nat × DWord)) (x : List DWord) : Chip :=
  let r1 := { r with points := outs.length, plan := some { anchor := r.anchor, lens := r.lens, vals := r.problem.values x } }
  let late := match m.plan.plan with
    | some p => decide (r.anchor ≤ p.anchor)
    | none => false
  let m0 := m.setRound r1
  if late then m0.notAdopted r1 CC.checkFailed
  else
    let ws := outs.map (fun o => ({ tag := BitVec.ofNat 40 o.1, src := .plan, value := o.2, second := ~~~o.2 } : PtWrite))
    let m1 := ((m0.setBank 1 { points := ws }).put (R.COMMIT_MODE_MODE 1) 2).put64 (R.COMMIT_AT_LO 1) (BitVec.ofNat 64 r.anchor)
    let m2 := (m1.goWith 1 (m1.pointRules 2 0 (BitVec.ofNat 64 r.anchor))).planPhase 8
    if ws.isEmpty then m2.planApplied else m2

/-- Offer a solve for acceptance (R189, R190); `fin` is 0 for a converged solution, 1 for an iterate offered at the deadline. -/
def Chip.accept (m0 : Chip) (r0 : Round) (fin : Nat) : Chip :=
  let r := { r0 with fin := fin, solved := m0.monoNs, sol := r0.it.x }
  let e : PEnd := if fin = 1 then .offer else .converged
  let fail := if fin = 1 then CC.deadline else CC.checkFailed
  let le_ := fun (x : DWord) (f : FRef) => !Fp.isNan x && !Fp.gt x (m0.get64 f)
  let outs := m0.planOutputs r r.it.x
  let vals := (m0.pouts.map (fun o => (List.range r.lens.length).map (fun k =>
    match r.problem.find o.elem o.code k with
    | some (_, i) => r.it.x.getD i 0
    | none => 0))).flatten
  let (en, m) := m0.planSettle r true
  let m := m.put R.PLAN_RES_ENERGY en
  if r.stale then m.roundEnd r CC.superseded e 0 none false
  else if vals.any Fp.isNan then m.roundEnd r CC.nanResult e 0 none false
  else if !(le_ r.it.rP R.PLAN_ACC_PRI_LO && le_ r.it.rD R.PLAN_ACC_DUA_LO && le_ r.it.rG R.PLAN_ACC_GAP_LO) || outs.any (·.isNone) then
    m.roundEnd r fail e 0 none false
  else
    let (n, el, big) := m.planSlack r r.it.x
    let m1 := if 0 < n then m.post (ev 0x0A 0x0305 2 0 el (le 8 big.toNat ++ le 4 n)) else m
    m1.adopt r (outs.filterMap id) r.it.x

/-- Channel 1's commit has ended otherwise. -/
def Chip.planWatch (m : Chip) : Chip :=
  match m.plan.round with
  | some r => if m.get R.PLAN_STAT_PHASE = 8 ∧ (m.pend 1).isNone then m.notAdopted r (BitVec.ofNat 16 (m.get (R.COMMIT_RES_CODE 1))) else m
  | none => m

/-! ### Coordination (R211 to R215) -/

/-- 2^e as FP64. -/
def pow2 (e : Int) : DWord := Fp.pack false (1023 + e).toNat 0

def Chip.rho (m : Chip) : DWord := pow2 (sfield 8 (m.get R.PLAN_TIE_RHO_EXP))

/-- A tie's trajectory in the present solution. -/
def Round.tieX (r : Round) (e : Nat) : List DWord :=
  (List.range r.lens.length).map (fun k => match r.problem.find e 0 k with
    | some (_, i) => r.it.x.getD i 0
    | none => 0)

/-- The problem of the next solve: live ties with price and proximal terms, frozen and closed ones fixed. -/
def Round.priced_ (r : Round) (rho : DWord) (base : Problem) : Problem :=
  let tieOf := fun (v : PVar) => if v.code = 0 then r.ties.find? (fun t => t.elem == v.elem) else none
  let dh := fun (k : Nat) => hours (r.lens.getD k 0)
  let vars := base.vars.map (fun v => match tieOf v with
    | none => v
    | some t => match t.fixed with
      | some f => { v with lo := f.getD v.step 0, hi := f.getD v.step 0 }
      | none => { v with cost := Fp.fmul (dh v.step) (Fp.fsub (t.price.getD v.step 0) (Fp.fmul rho (t.hat.getD v.step 0))) })
  let quad := (base.vars.zipIdx.filterMap (fun v => match tieOf v.1 with
    | some t => if t.fixed.isNone then some (v.2, v.2, Fp.fmul (dh v.1.step) (Fp.fdiv rho (Fp.fofNat 2))) else none
    | none => none))
  { base with vars := vars, quad := base.quad.filter (fun q => !quad.any (fun p => p.1 == q.1 && p.2.1 == q.2.1)) ++ quad }

/-- The tie message of Table 9-3. -/
def Chip.tieBody (m : Chip) (r : Round) (t : Tie) : List Byte :=
  let p := fun (i : Nat) => (whole ((m.elem t.elem).params.getD i 0) 65535).getD 0
  let words := ((List.range 8).map (fun n => le 4 (m.reg (R.PLAN_STEP_SEG n).addr).toNat)).flatten
  let body := le 2 1 ++ le 2 t.elem ++ le 2 (p 3) ++ le 2 (m.get R.POINT_CFG_DEVNUM) ++ le 2 r.c ++ le 2 r.lens.length ++ le 8 r.anchor ++
    le 4 (crc32c words).toNat ++ le 1 (m.get R.PLAN_TIE_RHO_EXP) ++ le 7 0 ++
    ((r.tieX t.elem).map (fun x => le 8 x.toNat)).flatten ++ (t.price.map (fun x => le 8 x.toNat)).flatten
  body ++ le 4 (crc32c body).toNat

/-- Begin a coordination round: send every live tie's message and wait. -/
def Chip.exchange (m : Chip) (r : Round) : Chip :=
  let r1 := { r with c := r.c + 1, waitFrom := m.monoNs, ties := r.ties.map (fun t => { t with answer := none }) }
  let m1 := (((m.setRound r1).put R.PLAN_STAT_CROUND r1.c).put R.PLAN_STAT_LEAGUE 1).planPhase 6
  (r1.ties.filter (fun t => !t.frozen)).foldl (fun a t =>
    match a.leagueSta ((whole ((a.elem t.elem).params.getD 2 0) 16383).getD 0) with
    | some n => a.sendPlain n 0x45 2 (a.tieBody r1 t)
    | none => a) m1

/-- Coordination stops short: nothing is adopted under STRICT, else the last solve that converged is offered (R215). -/
def Chip.coordStop (m : Chip) (r : Round) (code : Half) : Chip :=
  match r.good with
  | some g =>
    if m.on R.PLAN_LEAGUE_STRICT then m.roundEnd { r with solved := m.monoNs } code (if code = CC.deadline then .offer else .converged) 0 none false
    else (m.post (ev 0x0A 0x0314 2 0 r.anchor (le 8 r.mis.toNat ++ le 2 r.misTie))).accept { r with it := g } 0
  | none => m.roundEnd { r with solved := m.monoNs } code .preSolve 0 none false

/-- Launch the next solve as a league-coordination job: always deadline-critical, no draw. -/
def Chip.coordSolve (m : Chip) (r : Round) : Chip :=
  let cost := match m.plan.warm with
    | some e => (11 * e + 9) / 10
    | none => ((m.plan.energy.map (·.2)).getD m.planCost * 3 + 9) / 10
  match m.admitJob { cls := 1, cost := cost, draw := 0, crit := true } with
  | (.ok _, m1) => m1.startSolve { r with problem := r.priced_ m1.rho r.problem, warm := some r.it.x, priced := true }
  | (_, m1) => m1.coordStop r CC.noBudget

/-- Freeze a tie: fixed at its plan-of-record trajectory, 0 where that does not cover a step; TIE_LOST gives the cause. -/
def Chip.freeze (m : Chip) (r : Round) (t : Tie) (cause : Nat) : Tie × Chip :=
  let traj := (stepsFrom r.anchor r.lens).map (fun s => (m.plan.plan.bind (fun p => p.at t.elem 0 s.1)).getD 0)
  ({ t with frozen := true, fixed := some traj },
   m.post (ev 0x0A 0x0313 2 0 ((whole ((m.elem t.elem).params.getD 2 0) 16383).getD 0) (le 2 t.elem ++ le 1 cause)))

/-- Take the answers of a coordination round: ties without a valid one freeze. -/
def Chip.freezeAll (m : Chip) (r : Round) : List Tie → List Tie × Nat × Chip
  | [] => ([], 0, m)
  | t :: rest =>
    let (t1, n1, m1) :=
      if t.frozen then (t, 0, m) else
      match t.answer with
      | some a => match a.cause with
        | none => (t, 0, m)
        | some c => let (u, a1) := m.freeze r t c; (u, 1, a1)
      | none => let (u, a1) := m.freeze r t 0; (u, 1, a1)
    let (l, n, m2) := m1.freezeAll r rest
    (t1 :: l, n1 + n, m2)

def zipWith3 (f : DWord → DWord → DWord) (a b : List DWord) : List DWord := List.zipWith f a b

/-- The coordination step after an exchange. -/
def Chip.coordStep (m0 : Chip) (r0 : Round) : Chip :=
  let (ties, lost, m) := m0.freezeAll r0 r0.ties
  let r := { r0 with ties := ties, lost := r0.lost + lost }
  let rho := m.rho
  let half := fun (x : DWord) => Fp.fdiv x (Fp.fofNat 2)
  let xp := fun (t : Tie) => (t.answer.map (·.x)).getD []
  let lp := fun (t : Tie) => (t.answer.map (·.price)).getD []
  let res := fun (t : Tie) => zipWith3 Fp.fadd (r.tieX t.elem) (xp t)
  let (mis, mt) := (r.ties.filter (fun t => !t.frozen)).foldl (fun a t =>
    (res t).foldl (fun b v => if Fp.gt (Fp.absolute v) b.1 then (Fp.absolute v, t.elem) else b) a) ((0 : DWord), 0)
  let ties1 := r.ties.map (fun t => if t.frozen then t else
    if r.c = 1 then { t with price := zipWith3 (fun a b => half (Fp.fadd a b)) t.price (lp t) } else t)
  let tol := Fp.fdiv (Fp.fofNat (m.get R.PLAN_TIE_TOL)) (Fp.fofNat 100)
  let r1 := { r with ties := ties1, mis := mis, misTie := mt }
  if !Fp.gt mis tol then m.accept { r1 with agreed := true } 0
  else
    let ties2 := ties1.map (fun t => if t.frozen then t else
      { t with price := zipWith3 (fun a b => Fp.fadd a (Fp.fmul rho b)) t.price (res t),
               hat := zipWith3 (fun a b => half (Fp.fsub a b)) (r.tieX t.elem) (xp t) })
    if r.c = m.get R.PLAN_LEAGUE_MAX_ROUNDS then
      m.coordSolve { r1 with ties := ties2.map (fun t => if t.frozen then t else { t with fixed := some t.hat }), closing := true }
    else m.coordSolve { r1 with ties := ties2 }

/-- Whether every live tie has an answer. -/
def Round.answered (r : Round) : Bool := r.ties.all (fun t => t.frozen || t.answer.isSome)

/-- COORD_WAIT_EXPIRY: PLAN_LEAGUE.WAIT has passed, or no answer is outstanding. -/
def Chip.coordWait (m : Chip) : Chip :=
  match m.plan.round with
  | some r =>
    if m.get R.PLAN_STAT_PHASE = 6 ∧ (r.answered ∨ r.waitFrom + m.get R.PLAN_LEAGUE_WAIT * 1000000 ≤ m.monoNs) then m.coordStep r else m
  | none => m

/-- The check of a tie message (R214): the cause for which it is not valid. -/
def Chip.tieCause (m : Chip) (r : Round) (t : Tie) (p : List Byte) : Option Nat :=
  let n := p.length
  let pr := fun (i : Nat) => (whole ((m.elem t.elem).params.getD i 0) 65535).getD 0
  let words := ((List.range 8).map (fun k => le 4 (m.reg (R.PLAN_STEP_SEG k).addr).toNat)).flatten
  if fld p (n - 4) 4 ≠ (crc32c (p.take (n - 4))).toNat ∨ fld p 0 2 ≠ 1 then some 1
  else if fld p 2 2 ≠ pr 3 ∨ fld p 6 2 ≠ pr 2 then some 2
  else if fld p 8 2 ≠ r.c then some 5
  else if fld p 10 2 ≠ r.lens.length ∨ fld p 12 8 ≠ r.anchor ∨ fld p 20 4 ≠ (crc32c words).toNat ∨ n ≠ 36 + 16 * r.lens.length then some 3
  else if fld p 24 1 ≠ m.get R.PLAN_TIE_RHO_EXP then some 4
  else none

/-- TIE_MESSAGE: an answer for the tie it names, for the coordination round that waits; when every tie has one, the next step is taken. -/
def Chip.tieMessage (m : Chip) (f : RxFrame) : Chip :=
  let (ok, m1) := m.rx 0x45 f false
  match m1.plan.round with
  | none => m1
  | some r =>
    if !ok ∨ m1.get R.PLAN_STAT_PHASE ≠ 6 then m1 else
    let p := f.payload
    let s := r.lens.length
    let take := fun (off : Nat) => (List.range s).map (fun k => BitVec.ofNat 64 (fld p (off + 8 * k) 8))
    let r1 := { r with ties := r.ties.map (fun t =>
      if t.frozen ∨ t.answer.isSome ∨ t.elem ≠ fld p 4 2 then t
      else { t with answer := some { cause := m1.tieCause r t p, x := take 32, price := take (32 + 8 * s) } }) }
    let m2 := m1.setRound r1
    if r1.answered then m2.coordStep r1 else m2

/-! ### Iterations (R202 to R207) -/

/-- 2^-n. -/
def twoTo (n : Nat) : DWord := Fp.pack false (1023 - n) 0

/-- Whether an iterate has converged. -/
def Chip.converged (m : Chip) (i : Iterate) : Bool :=
  let le_ := fun (x : DWord) (n : Nat) => !Fp.isNan x && !Fp.gt x (twoTo n)
  le_ i.rP (m.get R.PLAN_TOL_PRI) && le_ i.rD (m.get R.PLAN_TOL_DUA) && le_ i.rG (m.get R.PLAN_TOL_GAP)

/-- Whether iteration j, with the earlier primal residuals (latest first), shows the problem infeasible (R207). -/
def Chip.infeasible (m : Chip) (i : Iterate) (j : Nat) (hist : List DWord) : Bool :=
  decide (10 ≤ j) && Fp.gt i.rP (Fp.fmul (Fp.fofNat 100) (twoTo (m.get R.PLAN_TOL_PRI))) &&
  (match hist[7]? with
    | some old => Fp.gt (Fp.fmul (Fp.fofNat 2) i.rP) old
    | none => false) &&
  Fp.gt (Fp.fmul (Fp.fofNat 10) (twoTo (m.get R.PLAN_TOL_GAP))) i.mu

/-- A solve has converged: without coordination it is offered; else the next exchange, or the adoption of the closing solve. -/
def Chip.solved (m0 : Chip) (r : Round) : Chip :=
  let (m, warm) := if 0 < r.c then
      (let (v, a) := m0.fresh
       let e := v.toNat % 2 ^ 32
       let b := a.endJob (fun j => j.cls == 1) none
       (b.setPlan { b.plan with warm := some e }, true))
    else (m0, false)
  let r1 := { r with good := some r.it }
  if !m.on R.PLAN_LEAGUE_EN then m.accept r1 0
  else if r.closing && warm then m.accept { r1 with closed := true } 0
  else
    let m1 := m.exchange r1
    match m1.plan.round with
    | some r2 => if r2.answered then m1.coordStep r2 else m1
    | none => m1

/-- SOLVER_ITERATION. -/
def Chip.iteration (m : Chip) : Chip :=
  match m.plan.round with
  | none => m
  | some r =>
    if m.get R.PLAN_STAT_PHASE ≠ 5 then m else
    let i := Config.iterate r.problem (m.reg R.PLAN_NUM.addr) (m.reg R.PLAN_TOL.addr) r.warm (r.j + 1)
    match i.mark with
    | some (payload, col) => m.numericFault r payload col i.reach
    | none =>
      let j := r.j + 1
      let r1 := { r with it := i, j := j, hist := r.it.rP :: r.hist, replaced := r.replaced + i.replaced, sol := i.x }
      let m1 := (m.setRound r1).put R.PLAN_STAT_ITER (min 255 j)
      if m1.converged i then m1.solved r1
      else if m1.infeasible i j r1.hist then
        m1.numericFault r1 5 (r.problem.vars.length + i.worst) ((r.problem.rows.getD i.worst ⟨0, 0, 0, true, [], 0⟩).terms.map (·.1))
      else if m1.get R.PLAN_NUM_ITER_MAX ≤ j then m1.roundEnd { r1 with solved := m1.monoNs } CC.checkFailed .iterLimit 0 none false
      else m1

/-! ### Deadlines, expiry, scratch errors (R192, R197, R209) -/

/-- ROUND_DEADLINE: `factoring` says whether it falls in phase F of an iteration. -/
def Chip.planDeadline (m : Chip) (factoring : Bool) : Chip :=
  match m.plan.round with
  | none => m
  | some r =>
    let ph := m.get R.PLAN_STAT_PHASE
    if !m.reached r.deadline ∨ 7 ≤ ph then m
    else if ph = 2 ∨ ph = 3 then m.preSolve r CC.deadline
    else if m.on R.PLAN_LEAGUE_EN ∧ 0 < r.c then m.coordStop r CC.deadline
    else if factoring then
      m.roundEnd { r with sol := r.sol.map (fun _ => Fp.causeNan 3), solved := m.monoNs } CC.deadline .fact 3 none false
    else m.accept r 1

/-- PLAN_EXPIRED. -/
def Chip.planExpired (m : Chip) : Chip :=
  match m.plan.plan with
  | some p =>
    if !p.expired ∧ m.reached p.ends then
      (m.setPlan { m.plan with plan := some { p with expired := true } }).post (ev 0x0A 0x0304 3 0 p.anchor [])
    else m
  | none => m

/-- SCRATCH_ECC_ERROR. -/
def Chip.scratchError (m : Chip) : Chip :=
  match m.plan.round with
  | some r => if 2 ≤ m.get R.PLAN_STAT_PHASE ∧ m.get R.PLAN_STAT_PHASE ≤ 7 then
      m.roundEnd { r with solved := m.monoNs } CC.checkFailed .hardware 0 none false else m
  | none => m

/-! ### Apply edges and starts (R189, R192, R228) -/

/-- A channel 0 commit that writes a PLAN register or window makes a round stale; a change of the cadence counts its grid afresh. -/
def Chip.planTouched (m old : Chip) (touched : Bool) : Chip :=
  let fresh := (m.on R.PLAN_CTL_CAD_EN && !old.on R.PLAN_CTL_CAD_EN) || m.get R.PLAN_CADENCE != old.get R.PLAN_CADENCE
  let per := m.get R.PLAN_CADENCE_PERIOD * 1000000000
  let ph := m.get R.PLAN_CADENCE_PHASE * 1000000000
  let m1 := if fresh then m.setPlan { m.plan with lastTick := (if m.now < ph then none else some ((m.now - ph) / per * per + ph)) } else m
  match m1.plan.round with
  | some r => if touched ∧ m1.get R.PLAN_STAT_PHASE ≠ 8 then m1.setRound { r with stale := true } else m1
  | none => m1

/-- A supply profile takes effect: ticks count from the next one. -/
def Chip.planProfile (m : Chip) : Chip := m.setPlan { m.plan with ticks := 0 }

/-- A start of PD2. -/
def Chip.planStart (m : Chip) : Chip := m.setPlan {}

/-! ### Commands -/

def execCadenceTick (s : State) : Host.Outcome State Fault Refusal := s.act Chip.cadence
def execLaunch (s : State) : Host.Outcome State Fault Refusal := s.act (·.planCmd false)
def execCancel (s : State) : Host.Outcome State Fault Refusal := s.act (·.planCmd true)
def execAssemblyDone (s : State) : Host.Outcome State Fault Refusal := s.act Chip.assembly
def execSymbolicAnalysisDone (s : State) : Host.Outcome State Fault Refusal := s.act Chip.analysed
def execSolverIteration (s : State) : Host.Outcome State Fault Refusal := s.act Chip.iteration
/-- ROUND_DEADLINE: `factoring` says whether the deadline falls in phase F. -/
def execRoundDeadline (factoring : Bool) (s : State) : Host.Outcome State Fault Refusal := s.act (·.planDeadline factoring)
def execPlanExpired (s : State) : Host.Outcome State Fault Refusal := s.act Chip.planExpired
def execScratchEccError (s : State) : Host.Outcome State Fault Refusal := s.act Chip.scratchError
def execTieMessage (f : RxFrame) (s : State) : Host.Outcome State Fault Refusal := s.act (·.tieMessage f)
def execCoordWaitExpiry (s : State) : Host.Outcome State Fault Refusal := s.act Chip.coordWait

end Sys2Proof.Machine
end

