-- ==== Sys2Proof/Machine/Can.lean ====
section
/-! DEFINITION. The CAN FD controllers (chapter 17): identifiers, segmentation and reassembly, the choice of the next frame, software buffers,
errors and bus-off. -/

namespace Sys2Proof.Machine

open Sys2Proof

def Chip.can (m : Chip) (n : Nat) : Can := AMap.get {} m.ports.cans n
def Chip.setCan (m : Chip) (n : Nat) (x : Can) : Chip := m.withPorts { m.ports with cans := AMap.put {} n x m.ports.cans }

/-! The values of CAN_STAT.STATE. -/

namespace CS

def off : Nat := 0
def integrating : Nat := 1
def active : Nat := 2
def passive : Nat := 3
def busOff : Nat := 4
def recovering : Nat := 5

end CS

def Chip.canState (m : Chip) (n : Nat) : Nat := m.get (R.CAN_STAT_STATE n)
def Chip.setCanState (m : Chip) (n s : Nat) : Chip := m.put (R.CAN_STAT_STATE n) s

/-- Whether a channel takes part in the bus. -/
def Chip.canOn (m : Chip) (n : Nat) : Bool :=
  decide (n < m.canN) && (m.canState n == CS.active || m.canState n == CS.passive) && m.pdReady 10

/-- The level of CAN_STB: the transceiver is in standby while the channel is off (R363, R366). -/
def Chip.canStb (m : Chip) (n : Nat) : Bool := (m.canState n == CS.off) != m.on (R.CAN_CFG_STB_POL n)

/-- A diagnostic counter of a channel: 0 discards, 1 refused frames, 2 protocol exceptions. -/
def Chip.canCount (m : Chip) (n k : Nat) (times : Nat) : Chip :=
  m.countN ⟨(R.CAN_SEG_CNT n).addr + 4 * k, 31, 0⟩ (some ⟨(R.CAN_STAT n).addr, 24 + k, 24 + k⟩) times

/-! ### Data lengths and identifiers (R354 to R356) -/

/-- Bytes of a data length code. -/
def dlcBytes (d : Nat) : Nat :=
  match d with | 9 => 12 | 10 => 16 | 11 => 20 | 12 => 24 | 13 => 32 | 14 => 48 | 15 => 64 | _ => min d 8

/-- The smallest CAN FD data length code that holds a number of bytes. -/
def dlcFor (k : Nat) : Nat := ((List.range 16).find? (fun d => decide (k ≤ dlcBytes d))).getD 15

/-- An identifier's place in arbitration: the lower wins; a base identifier beats an extended one with equal upper bits. -/
def arbKey (xtd : Bool) (id : Nat) : Nat := if xtd then 2 * id + 1 else 2 * (id * 2 ^ 18)

/-- The bytes of a Mirfor frame: header, payload, CRC (R254). -/
def Chip.mirforBytes (m : Chip) (f : MFrame) : List Byte :=
  let body := le 1 1 ++ le 1 f.type ++ le 2 f.payload.length ++ le 4 f.seq.toNat ++ le 4 f.target.toNat ++ le 2 (m.get R.POINT_CFG_DEVNUM) ++
    le 1 f.cls ++ le 1 0 ++ f.payload
  body ++ le 4 (crc32c body).toNat

/-- The device's SRC: 0 active, 1 standby. -/
def Chip.canSrc (m : Chip) : Nat := bit m.standby

/-- Segments of a frame of `len` bytes. -/
def segCount (len : Nat) : Nat := (len + 63) / 64

/-- The extended identifier of segment k of a Mirfor frame (Table 17-3). -/
def Chip.segId (m : Chip) (f : MFrame) (k : Nat) : Nat :=
  let n := segCount (20 + f.payload.length)
  let dst := match f.station with
    | some s => (m.staEnt s).addr % 256
    | none => 255
  let kind := if n = 1 then 3 else if k = 0 then 1 else if k + 1 = n then 2 else 0
  (8 - f.cls) * 2 ^ 25 + m.canSrc * 2 ^ 16 + dst * 2 ^ 8 + kind * 2 ^ 6 + k

/-- A byte string padded with zeros to the data length that holds it. -/
def padded (l : List Byte) : List Byte := pad l (dlcBytes (dlcFor l.length))

/-! ### Transmission (R358, R359) -/

/-- The Mirfor segment that goes next: by class, a frame begun before a frame that waits. -/
def Chip.nextSegment (m : Chip) (n : Nat) : Option (MFrame × Nat) :=
  let c := m.can n
  ([6, 5, 4, 3, 2, 1, 0].filterMap (fun k =>
    match assoc c.begun k with
    | some x => some x
    | none => ((m.egress (96 + n)).find? (fun f => f.cls == k)).map (fun f => (f, 0)))).head?

def Chip.bufPending (m : Chip) (n b : Nat) : Bool := m.on (R.CAN_TXB_STAT_PENDING n b)
def Chip.bufKey (m : Chip) (n b : Nat) : Nat := arbKey (m.on (R.CAN_TXB_ID_XTD n b)) (m.get (R.CAN_TXB_ID_ID n b))

/-- The pending software buffer that TXORD selects. -/
def Chip.nextBuffer (m : Chip) (n : Nat) : Option Nat :=
  let l := [0, 1, 2].filter (m.bufPending n)
  if m.on (R.CAN_CFG_TXORD n) then l.head?
  else l.foldl (fun a b => match a with
    | none => some b
    | some x => if m.bufKey n b < m.bufKey n x then some b else a) none

/-- The frame that the channel starts at a chance to start one. -/
def Chip.canChoice (m : Chip) (n : Nat) : Option CanTx :=
  match (m.egress (96 + n)).find? (fun f => f.cls == 7) with
  | some f => some (.lane f)
  | none => match m.nextSegment n, m.nextBuffer n with
    | some (f, k), some b => if m.bufKey n b < arbKey true (m.segId f k) then some (.buffer b) else some (.segment f k)
    | some (f, k), none => some (.segment f k)
    | none, some b => some (.buffer b)
    | none, none => none

/-- A beacon takes the league time at which it leaves (R361). -/
def Chip.restamp (m : Chip) (f : MFrame) : MFrame := if f.type = 0x08 then { f with payload := le 8 m.now ++ f.payload.drop 8 } else f

/-- Start the next frame, in NORMAL mode on a channel that takes part in the bus. -/
def Chip.canStartTx (m : Chip) (n : Nat) : Chip :=
  if !m.canOn n || m.get (R.CAN_CFG_MODE n) != 0 || (m.can n).bus.isSome || !(m.leads || m.standby) then m else
  match m.canChoice n with
  | none => m
  | some t =>
    let m1 := m.setCan n { m.can n with bus := some t }
    match t with
    | .buffer b => m1.put (R.CAN_TXB_STAT_ACTIVE n b) 1
    | _ => m1

/-- Put a frame of the bus on record: format bits, identifier, data length code, data. -/
def Chip.canEmit (m : Chip) (n : Nat) (xtd : Bool) (id : Nat) (fdf brs : Bool) (l : List Byte) : Chip :=
  m.emit (.frame 9 n "CAN" ([bit xtd, id, bit fdf, bit brs, bit (m.canState n == CS.passive), dlcFor l.length] ++ l.map BitVec.toNat))

/-- A software buffer ends with a code. -/
def Chip.bufEnd (m : Chip) (n b : Nat) (code : Half) (aborted lost : Bool) : Chip :=
  let m1 := ((m.put (R.CAN_TXB_STAT_PENDING n b) 0).put (R.CAN_TXB_STAT_ACTIVE n b) 0).put (R.CAN_TXB_STAT_CODE n b) code.toNat
  let m2 := (m1.put (R.CAN_TXB_STAT_ABORTED n b) (bit aborted)).put (R.CAN_TXB_STAT_ARB_LOST n b) (bit lost)
  m2.setCan n { m2.can n with aborts := (m2.can n).aborts.filter (· != b) }

/-- The data of a software buffer. -/
def Chip.bufData (m : Chip) (n b : Nat) : List Byte :=
  (((List.range 16).map (fun w => le 4 (m.reg (R.CAN_TXB_DATA n b w).addr).toNat)).flatten).take (dlcBytes (m.get (R.CAN_TXB_CTL_DLC n b)))

/-- The error counters as CAN_ERR and CAN_STAT show them, with the state that they give (R362). -/
def Chip.setCounters (m : Chip) (n tec rec_ : Nat) : Chip :=
  let c := m.can n
  let m1 := m.setCan n { c with tec := tec, rec_ := rec_ }
  let m2 := ((m1.put (R.CAN_ERR_TEC n) (min 255 tec)).put (R.CAN_ERR_REC n) (rec_ % 128)).put (R.CAN_ERR_RP n) (bit (decide (128 ≤ rec_)))
  let m3 := m2.put (R.CAN_STAT_EW n) (bit (decide (96 ≤ tec ∨ 96 ≤ rec_)))
  let body := le 1 (min 255 tec) ++ le 1 (min 255 rec_)
  let m4 := if (c.tec < 96 ∧ 96 ≤ tec) ∨ (c.rec_ < 96 ∧ 96 ≤ rec_) then m3.post (ev 9 0x0B00 1 n 0 body) else m3
  if m4.canState n = CS.active ∧ (128 ≤ tec ∨ 128 ≤ rec_) then (m4.setCanState n CS.passive).post (ev 9 0x0B01 2 n 0 body)
  else if m4.canState n = CS.passive ∧ tec < 128 ∧ rec_ < 128 then m4.setCanState n CS.active
  else m4

/-- A frame has gone: TEC falls by one. -/
def Chip.txGood (m : Chip) (n : Nat) : Chip := m.setCounters n ((m.can n).tec - 1) (m.can n).rec_
/-- A frame has been received: REC falls by one, or to 127 from above it. -/
def Chip.rxGood (m : Chip) (n : Nat) : Chip :=
  let r := (m.can n).rec_
  if m.get (R.CAN_CFG_MODE n) = 0 then m.setCounters n (m.can n).tec (if 127 < r then 127 else r - 1) else m

/-- CAN_TX_COMPLETE: the frame on the bus ends (0 sent, 1 arbitration lost, 2 error), and the next is chosen. A failed frame goes again after
the choice has been made again. -/
def Chip.canTxDone (m : Chip) (n how : Nat) : Chip :=
  let c := m.can n
  let free := m.setCan n { c with bus := none }
  let m1 := match c.bus with
    | none => m
    | some (.lane f) =>
      if how = 0 then
        ((free.setEgress (96 + n) ((m.egress (96 + n)).erase f)).canEmit n false m.canSrc true true (padded (m.mirforBytes f))).txGood n
      else free
    | some (.segment f k) =>
      if how = 0 then
        let g := m.restamp f
        let bytes := m.mirforBytes g
        let a := free.canEmit n true (m.segId f k) true true (padded ((bytes.drop (64 * k)).take 64))
        let rest := unassoc c.begun f.cls
        let b := if k = 0 then a.setEgress (96 + n) ((a.egress (96 + n)).erase f) else a
        let more := decide (k + 1 < segCount bytes.length)
        (b.setCan n { b.can n with begun := if more then reassoc rest f.cls (g, k + 1) else rest }).txGood n
      else free
    | some (.buffer b) =>
      if how = 0 then
        ((free.canEmit n (m.on (R.CAN_TXB_ID_XTD n b)) (m.get (R.CAN_TXB_ID_ID n b)) (m.on (R.CAN_TXB_CTL_FDF n b))
          (m.on (R.CAN_TXB_CTL_BRS n b)) (m.bufData n b)).bufEnd n b CC.ok false false).txGood n
      else if c.aborts.contains b then free.bufEnd n b CC.superseded true false
      else if m.on (R.CAN_TXB_CTL_ONESHOT n b) then free.bufEnd n b CC.timeout false (how == 1)
      else free.put (R.CAN_TXB_STAT_ACTIVE n b) 0
  if (m1.can n).retune ∧ (m1.can n).bus.isNone then
    (m1.setCan n { m1.can n with retune := false }).setCanState n CS.integrating
  else m1.canStartTx n

/-- Whether an identifier lies in the software ranges of Table 17-2. -/
def softId (xtd : Bool) (id : Nat) : Bool :=
  if xtd then decide ((0x00400000 ≤ id ∧ id ≤ 0x01FFFFFF) ∨ 0x12000000 ≤ id) else decide (0x010 ≤ id ∧ id ≤ 0x7FF)

/-- CAN_TXB_CMD.REQ. -/
def Chip.txbReq (m : Chip) (n b : Nat) : Chip :=
  if m.canN ≤ n || m.bufPending n b then m
  else
    let fdf := m.on (R.CAN_TXB_CTL_FDF n b)
    if !softId (m.on (R.CAN_TXB_ID_XTD n b)) (m.get (R.CAN_TXB_ID_ID n b)) || (!fdf && decide (8 < m.get (R.CAN_TXB_CTL_DLC n b))) ||
        (!fdf && m.on (R.CAN_TXB_CTL_BRS n b)) then m.bufEnd n b CC.checkFailed false false
    else if !m.on (R.CAN_CFG_EN n) || !m.unitOpen (UK.can n) || m.canState n == CS.busOff || m.canState n == CS.recovering then
      m.bufEnd n b CC.cancelled false false
    else (m.setReg (R.CAN_TXB_STAT n b).addr 0).put (R.CAN_TXB_STAT_PENDING n b) 1

/-- CAN_TXB_CMD.ABORT: before its transmission starts the buffer ends; during it, that attempt finishes. -/
def Chip.txbAbort (m : Chip) (n b : Nat) : Chip :=
  if !m.bufPending n b then m
  else if m.on (R.CAN_TXB_STAT_ACTIVE n b) then m.setCan n { m.can n with aborts := ((m.can n).aborts.filter (· != b)) ++ [b] }
  else m.bufEnd n b CC.superseded true false

/-! ### Reception (R354, R355, R357, R360) -/

/-- Whether an extended identifier lies in the Mirfor range. -/
def mirforId (id : Nat) : Bool := decide (0x02000000 ≤ id ∧ id ≤ 0x11FFFFFF)

/-- The buffer that a software frame goes to. -/
def Chip.rxbFor (m : Chip) (n : Nat) (f : CanFrame) : Option Nat :=
  (List.range 16).find? (fun r =>
    let mask := m.get (R.CAN_RXB_MASK_MASK n r)
    m.on (R.CAN_RXB_FLT_EN n r) && m.on (R.CAN_RXB_FLT_XTD n r) == f.xtd && (f.id.toNat &&& mask) == (m.get (R.CAN_RXB_FLT_FILTER n r) &&& mask))

/-- CAN_FRAME_RECEIVE. -/
def Chip.canFrame (m : Chip) (n : Nat) (f : CanFrame) : Chip :=
  if !m.canOn n || (f.xtd && mirforId f.id.toNat) then m else
  let m1 := m.rxGood n
  if !f.xtd ∧ f.id.toNat < 0x010 then (if 2 ≤ f.id.toNat then m1.canCount n 1 1 else m1)
  else if f.rtr then m1
  else match m1.rxbFor n f with
    | none => m1
    | some r =>
      let body := (f.data.take (dlcBytes f.dlc.toNat) ++ List.replicate 64 0).take 64
      let ctl : Nat := bit f.fdf * 2 ^ 31 + bit f.brs * 2 ^ 30 + bit f.esi * 2 ^ 29 + f.dlc.toNat
      let m2 := (m1.setReg (R.CAN_RXB_ID n r).addr (BitVec.ofNat 32 (bit f.xtd * 2 ^ 31 + f.id.toNat))).setReg (R.CAN_RXB_CTL n r).addr
        (BitVec.ofNat 32 ctl)
      let m3 := (List.range 16).foldl (fun a w => a.setReg (R.CAN_RXB_DATA n r w).addr (BitVec.ofNat 32 (fld body (4 * w) 4)))
        (m2.put64 (R.CAN_RXB_STAMP_LO n r) f.sof)
      let m4 := if m3.on (R.CAN_RXB_STAT_NEW n r) then m3.put (R.CAN_RXB_STAT_LOST n r) 1 else m3
      m4.put (R.CAN_RXB_STAT_NEW n r) 1

/-- Hand a received Mirfor frame to whoever takes its type. -/
def Chip.deliver (m : Chip) (type : Nat) (f : RxFrame) : Chip :=
  match type with
  | 0x04 => m.lampAck f | 0x08 => m.timeBeacon f | 0x10 => m.lampReport f | 0x23 => m.fwMissing f | 0x30 => m.ioReport f
  | 0x32 => m.ioAck f | 0x33 => m.hello f | 0x39 => m.quenchAck f | 0x40 => m.lgRead f | 0x41 => m.lgWrite f | 0x42 => m.lgResp f
  | 0x43 => m.lgUpdate f | 0x44 => m.lgSubscribe f | 0x45 => m.tieMessage f | 0x46 => m.lgAnnounce f
  | t => if (typeClass t).isNone then m.txnCount 4 else m

/-- The station that sends on a channel under an address. -/
def Chip.canSta (m : Chip) (n addr : Nat) : Option Nat :=
  m.stations.find? (fun s => (m.staEnt s).medium == 3 && (m.staEnt s).port == n && (m.staEnt s).addr == addr)

def Chip.setReasm (m : Chip) (n : Nat) (l : List Reasm) : Chip := (m.setCan n { m.can n with reasm := l }).put (R.CAN_STAT_REASM n) l.length

/-- A Mirfor frame is complete: it is handed on where its length lies within the last segment and only zeros follow it. A beacon of the twin is
noted by its number. -/
def Chip.canWhole (m : Chip) (n sender : Nat) (bytes : List Byte) (last occ deep : Nat) : Chip :=
  let len := 20 + fld bytes 2 2
  if len ≤ bytes.length - last ∨ bytes.length < len ∨ (bytes.drop len).any (· != 0) then m.canCount n 0 1
  else
    let f : RxFrame := { station := 0, version := bytes.getD 0 0, seq := BitVec.ofNat 32 (fld bytes 4 4),
                         target := BitVec.ofNat 32 (fld bytes 8 4), device := BitVec.ofNat 16 (fld bytes 12 2), cls := bytes.getD 14 0,
                         payload := (bytes.drop 16).take (fld bytes 2 2), crc := BitVec.ofNat 32 (fld bytes (len - 4) 4), occ := occ, deep := deep }
    let type := fld bytes 1 1
    if sender < 256 then
      (if m.standby ∧ type = 0x08 then
        (m.withSadl { m.sadl with beaconSeen := AMap.put 0 (96 + n) f.seq m.sadl.beaconSeen }) else m)
    else match m.canSta n (sender % 256) with
      | some s => m.deliver type { f with station := BitVec.ofNat 18 s }
      | none => m

/-- CAN_SEGMENT_RECEIVE. -/
def Chip.canSegment (m : Chip) (n : Nat) (f : CanFrame) (occ deep : Nat) : Chip :=
  let id := f.id.toNat
  if !m.canOn n || !(f.xtd && mirforId id) then m else
  let m1 := m.rxGood n
  let stn := bits id 24 24
  let src := bits id 23 16
  let dst := bits id 15 8
  let kind := bits id 7 6
  let index := bits id 5 0
  if !f.fdf ∨ 240 ≤ src ∨ (stn = 0 ∧ 1 < src) ∨ (stn = 1 ∧ src < 2) then m1.canCount n 1 1
  else if dst ≠ 0 ∧ dst ≠ 255 then m1
  else
    let sender := 256 * stn + src
    let cls := 8 - bits id 28 25
    let data := f.data.take (dlcBytes f.dlc.toNat)
    let l := (m1.can n).reasm
    let mine := fun (r : Reasm) => r.sender == sender && r.cls == cls
    let others := l.filter (fun r => !mine r)
    let open_ := l.find? mine
    if kind = 1 ∨ kind = 3 then
      let m2 := if open_.isSome then (m1.setReasm n others).canCount n 0 1 else m1
      if kind = 3 then m2.canWhole n sender data data.length occ deep
      else if 256 ≤ others.length then m2.canCount n 0 1
      else m2.setReasm n (others ++ [{ sender := sender, cls := cls, index := index, since := m2.monoNs, data := data }])
    else match open_ with
      | none => m1.canCount n 0 1
      | some r =>
        if index ≠ r.index + 1 then (m1.setReasm n others).canCount n 0 2
        else if kind = 0 then m1.setReasm n (others ++ [{ r with index := index, data := r.data ++ data }])
        else (m1.setReasm n others).canWhole n sender (r.data ++ data) data.length occ deep

/-- REASSEMBLY_TIMEOUT: reassemblies older than 200 ms are discarded. -/
def Chip.reasmTimeout (m : Chip) (n : Nat) : Chip :=
  let l := (m.can n).reasm
  let live := l.filter (fun r => decide (m.monoNs < r.since + 200000000))
  if live.length = l.length then m else (m.setReasm n live).canCount n 0 (l.length - live.length)

/-! ### Errors, bus-off, recovery (R362, R363) -/

/-- Queued Mirfor frames are discarded and pending buffers end. -/
def Chip.canFlush (m : Chip) (n : Nat) : Chip :=
  let m1 := (m.setEgress (96 + n) []).setCan n { m.can n with bus := none, begun := [], retune := false }
  [0, 1, 2].foldl (fun a b => if a.bufPending n b then a.bufEnd n b CC.cancelled false false else a) m1

/-- Bus-off. -/
def Chip.canBusOff (m : Chip) (n code phase : Nat) : Chip :=
  let m1 := (m.setCanState n CS.busOff).canFlush n
  let m2 := m1.setCan n { m1.can n with offAt := m1.monoNs }
  (m2.portCancel 3 n).post (ev 9 0x0B02 3 n 0 (le 1 code ++ le 1 phase))

/-- CAN_BUS_ERROR: the error's code and phase, and how ISO 11898-1 counts it: 0 REC by 1, 1 REC by 8, 2 TEC by 8, 3 not at all. -/
def Chip.canError (m : Chip) (n code : Nat) (data : Bool) (how : Nat) : Chip :=
  if !m.canOn n || m.get (R.CAN_CFG_MODE n) != 0 then m else
  let c := m.can n
  let m1 := m.put (if data then R.CAN_ERR_DLEC n else R.CAN_ERR_LEC n) code
  let m2 := match how with
    | 0 => m1.setCounters n c.tec (min 255 (c.rec_ + 1))
    | 1 => m1.setCounters n c.tec (min 255 (c.rec_ + 8))
    | 2 => m1.setCounters n (c.tec + 8) c.rec_
    | _ => m1
  if 255 < (m2.can n).tec then m2.canBusOff n code (bit data) else m2

/-- CAN_CMD.RECOVER: ignored unless the channel is bus-off, enabled and not draining. -/
def Chip.canRecover (m : Chip) (n : Nat) : Chip :=
  if m.canState n == CS.busOff && m.on (R.CAN_CFG_EN n) && m.unitOpen (UK.can n) then m.setCanState n CS.recovering else m

/-- BUS_RECOVERED. -/
def Chip.canRecovered (m : Chip) (n : Nat) : Chip :=
  if m.canState n = CS.recovering then
    let m1 := (m.setCanState n CS.active).setCounters n 0 0
    m1.post (ev 9 0x0B03 1 n 0 (le 8 (m1.monoNs - (m1.can n).offAt)))
  else m

/-- BUS_INTEGRATION: 11 recessive bits have been seen; `exception` says that a protocol exception begins one (Table 17-1, PXE). -/
def Chip.canIntegrated (m : Chip) (n : Nat) (exception : Bool) : Chip :=
  if exception then
    (if m.canOn n && m.on (R.CAN_CFG_PXE n) then (m.canCount n 2 1).setCanState n CS.integrating else m)
  else if m.canState n = CS.integrating then
    let c := m.can n
    (m.setCanState n (if 128 ≤ c.tec ∨ 128 ≤ c.rec_ then CS.passive else CS.active)).canStartTx n
  else m

/-! ### Start, disable, apply edges, C9 (R352, R364, R366) -/

def Chip.canStart (m : Chip) (n : Nat) : Chip :=
  (((m.setCan n {}).setCounters n 0 0).put (R.CAN_STAT_DISABLED n) 0 |>.put (R.CAN_STAT_REASM n) 0).setCanState n CS.integrating

/-- The end of a disable's drain. -/
def Chip.canDisable (m : Chip) (n : Nat) : Chip := ((m.canFlush n).setCanState n CS.off).put (R.CAN_STAT_DISABLED n) 1

/-- The channels that an apply edge starts, or whose bit timing it changes. -/
def Chip.canApplied (m old : Chip) : Chip :=
  (List.range m.canN).foldl (fun a n =>
    let en := a.on (R.CAN_CFG_EN n)
    if en && !old.on (R.CAN_CFG_EN n) && a.unitOpen (UK.can n) then a.canStart n
    else if en && (a.get (R.CAN_NBT n) != old.get (R.CAN_NBT n) || a.get (R.CAN_DBT n) != old.get (R.CAN_DBT n)) && a.canOn n then
      (if (a.can n).bus.isSome then a.setCan n { a.can n with retune := true } else a.setCanState n CS.integrating)
    else a) m

/-- PD10 comes on: every enabled channel starts. -/
def Chip.canPower (m : Chip) : Chip := (List.range m.canN).foldl (fun a n => if a.on (R.CAN_CFG_EN n) then a.canStart n else a) m

def Chip.canC9 (n : Chip) : Option Verdict :=
  let bad := fun (o : Nat) => (some ⟨CC.checkFailed, 9, 0x09, BitVec.ofNat 64 o⟩ : Option Verdict)
  let within := fun (f : FRef) (lo hi : Nat) => decide (lo ≤ n.get f ∧ n.get f ≤ hi)
  let ok := fun (c : Nat) =>
    within (R.CAN_CFG_BCN c) 1 200 && within (R.CAN_CFG_MODE c) 0 2 && within (R.CAN_NBT_NBRP c) 1 256 && within (R.CAN_NBT_NSEG1 c) 2 255 &&
    within (R.CAN_NBT_NSEG2 c) 1 127 && within (R.CAN_NBT_NSJW c) 1 127 && within (R.CAN_DBT_DBRP c) 1 31 && within (R.CAN_DBT_DSEG1 c) 1 31 &&
    within (R.CAN_DBT_DSEG2 c) 1 15 && within (R.CAN_DBT_DSJW c) 1 15 &&
    decide (n.get (R.CAN_NBT_NSJW c) ≤ n.get (R.CAN_NBT_NSEG2 c) ∧ n.get (R.CAN_DBT_DSJW c) ≤ n.get (R.CAN_DBT_DSEG2 c) ∧
      n.get (R.CAN_DBT_DBRP c) * (1 + n.get (R.CAN_DBT_DSEG1 c) + n.get (R.CAN_DBT_DSEG2 c)) ≤
        n.get (R.CAN_NBT_NBRP c) * (1 + n.get (R.CAN_NBT_NSEG1 c) + n.get (R.CAN_NBT_NSEG2 c)))
  let stas := (n.stations.map (fun k => (k, n.staEnt k))).filter (fun e => e.2.medium == 3)
  match (List.range n.canN).find? (fun c => !ok c) with
  | some c => bad (R.CAN_CFG c).addr
  | none => match stas.find? (fun e => !decide (2 ≤ e.2.addr ∧ e.2.addr ≤ 239) ||
      stas.any (fun o => o.1 != e.1 && o.2.port == e.2.port && o.2.addr == e.2.addr)) with
    | some e => bad e.1
    | none => none

/-! ### Commands -/

def execCanFrameReceive (n : Fin 32) (f : CanFrame) (s : State) : Host.Outcome State Fault Refusal := s.act (·.canFrame n.val f)
/-- CAN_SEGMENT_RECEIVE: `occ` and `deep` are the buffer levels that a completed frame finds (notes/assumptions/24.md). -/
def execCanSegmentReceive (n : Fin 32) (f : CanFrame) (occ deep : Nat) (s : State) : Host.Outcome State Fault Refusal :=
  s.act (·.canSegment n.val f occ deep)
def execReassemblyTimeout (n : Fin 32) (s : State) : Host.Outcome State Fault Refusal := s.act (·.reasmTimeout n.val)
def execTxbReq (n : Fin 32) (b : Fin 3) (s : State) : Host.Outcome State Fault Refusal := s.act (·.txbReq n.val b.val)
def execTxbAbort (n : Fin 32) (b : Fin 3) (s : State) : Host.Outcome State Fault Refusal := s.act (·.txbAbort n.val b.val)
/-- CAN_TX_COMPLETE: 0 sent, 1 arbitration lost, 2 error; with nothing on the bus it is the chance to start a frame. -/
def execCanTxComplete (n : Fin 32) (how : Fin 3) (s : State) : Host.Outcome State Fault Refusal := s.act (·.canTxDone n.val how.val)
def execCanBusError (n : Fin 32) (code : Fin 7) (data : Bool) (how : Fin 4) (s : State) : Host.Outcome State Fault Refusal :=
  s.act (·.canError n.val code.val data how.val)
def execRecover (n : Fin 32) (s : State) : Host.Outcome State Fault Refusal := s.act (·.canRecover n.val)
def execBusRecovered (n : Fin 32) (s : State) : Host.Outcome State Fault Refusal := s.act (·.canRecovered n.val)
def execBusIntegration (n : Fin 32) (exception : Bool) (s : State) : Host.Outcome State Fault Refusal := s.act (·.canIntegrated n.val exception)

end Sys2Proof.Machine
end

