-- ==== Sys2Proof/Machine/Saddle.lean ====
section
/-! DEFINITION. The saddle link (chapter 18): pairing, roles, the streams that keep a standby's copy, comparison of loops, health, switch-over. The
replicated commits and the echo of scan cycles are in Machine/Echo.lean. -/

namespace Sys2Proof.Machine

open Sys2Proof

def Chip.setSadl (m : Chip) (x : Saddle) : Chip := m.withSadl x

/-- Whether the link may carry frames: present, pairing enabled, not draining, PD14 on. -/
def Chip.sadlRuns (m : Chip) : Bool := m.hasUnit 0x0E && m.on R.SADL_CTL_EN && m.unitOpen UK.sadl && m.pdReady 14

/-- Whether a lane is up. -/
def Chip.sadlLink (m : Chip) : Bool := m.on R.SADL_STAT_LANE0 || m.on R.SADL_STAT_LANE1

/-- A diagnostic counter of SADL: 0 MISM, 1 CRC, 2 RESYNC, 3 TAKEOVER. -/
def Chip.sadlCount (m : Chip) (k : Nat) : Chip :=
  m.count ⟨R.SADL_MISM_CNT.addr + 4 * k, 31, 0⟩ (some ⟨R.SADL_STAT.addr, 18 + k, 18 + k⟩)

/-! ### Roles and sync states (R368, R370) -/

/-- The field roles follow the device's role (R344, R345, R365): node 0 or 1 on each T1S segment, coordinator on G3-PLC or receiver. -/
def Chip.fieldRoles (m : Chip) : Chip :=
  let m1 := (List.range m.t1sN).foldl (fun a s => if a.segOn s then a.put (R.FLD_T1S_STAT_NODE s) (bit a.standby) else a) m
  (List.range m.plcN).foldl (fun a i =>
    if a.plcOn i && !(a.plc i).listening then a.put (R.FLD_PLC_STAT_COORD i) (bit a.leads) else a) m1

/-- Change the sync state; PAIR_STATE is posted on a change. -/
def Chip.setSync (m : Chip) (v : Nat) : Chip :=
  let old := m.syncState
  if old = v then m else (m.put R.SADL_STAT_SYNC v).post (ev 0x0E 0x0C00 0 0 m.sadl.twin.toNat (le 1 old ++ le 1 v))

/-- Change the role: cause 0 pairing, 1 takeover, 2 SWITCH, 3 TAKE, 4 LEAVE. ROLE_CHANGE is posted on a change, and the field roles follow. -/
def Chip.setRole (m : Chip) (v cause : Nat) : Chip :=
  let old := m.role
  if old = v then m
  else ((m.put R.SADL_STAT_ROLE v).post (ev 0x0E 0x0C01 2 0 m.sadl.twin.toNat (le 1 old ++ le 1 v ++ le 1 cause))).fieldRoles

/-- A resynchronisation starts (R388): it is counted, and nothing that waits for an echo is kept. -/
def Chip.resync (m : Chip) : Chip :=
  ((m.setSadl { m.sadl with images := [], deltas := [] }).sadlCount 2).setSync 2

/-- The standby becomes SUSPECT, clears FIT and resynchronises (R382). -/
def Chip.suspect (m : Chip) : Chip := if m.standby && m.syncState == 3 then (m.put R.SADL_STAT_SUSPECT 1).resync else m

/-- The end of a pairing: an active goes on alone, a standby is detached. -/
def Chip.unpair (m : Chip) : Chip :=
  let m1 := m.setSadl { m.sadl with switchAt := none, images := [], deltas := [] }
  if m1.role = 1 then m1.setSync 0 else if m1.standby then m1.setSync 4 else m1

/-! ### Pairing (R369, R370) -/

/-- The content of the device's own HELLO. -/
def Chip.helloBody (m : Chip) : List Nat :=
  [bit (m.on R.SADL_CTL_EN), m.variant.units, m.capIo, m.capMem, m.get R.POINT_CFG_DEVNUM, m.vault.ident.toNat, bit (m.on R.SADL_CTL_PREF),
   bit (m.role == 1)]

/-- PAIRING_RETRY: a device that is not paired sends HELLO; its domain is asked for where it is gated. -/
def Chip.pairRetry (m : Chip) : Chip :=
  if !m.hasUnit 0x0E || !m.on R.SADL_CTL_EN || !m.unitOpen UK.sadl || m.paired then m
  else if !m.pdReady 14 then m.domainOn 14
  else if m.sadlLink then m.emit (.frame 0x0E 0 "HELLO" m.helloBody)
  else m

/-- Why a HELLO is refused (Table 18-6): 3 twin not enabled, 0 units, 1 device number, 2 MAC. -/
def Chip.helloBad (m : Chip) (en : Bool) (units capIo capMem dev : Nat) (mac : Bool) : Option Nat :=
  if !en then some 3
  else if units ≠ m.variant.units ∨ capIo ≠ m.capIo ∨ capMem ≠ m.capMem then some 0
  else if dev ≠ m.get R.POINT_CFG_DEVNUM then some 1
  else if !mac || (m.vslot 3).kind == 0 then some 2
  else none

/-- The role that pairing gives this device: an ACTIVE device stays so; else PREF and then the lower identity decide. -/
def Chip.pairsActive (m : Chip) (ident : DWord) (pref active : Bool) : Bool :=
  let mine := m.role == 1
  if mine != active then mine
  else
    let p := m.on R.SADL_CTL_PREF
    if p != pref then !p else decide (m.vault.ident.toNat < ident.toNat)

/-- A HELLO of the twin. -/
def Chip.sadlHello (m : Chip) (en : Bool) (units capIo capMem dev : Nat) (ident : DWord) (pref active mac : Bool) : Chip :=
  if m.paired then m
  else match m.helloBad en units capIo capMem dev mac with
    | some c => m.post (ev 0x0E 0x0C07 2 0 ident.toNat (le 1 c))
    | none =>
      let lead := m.pairsActive ident pref active
      let m1 := (m.setSadl { m.sadl with twin := ident, bootAt := none, healthAt := m.monoNs, timeAt := none, selfFail := false, mism := [],
                                         lastBad := [], rxBuf := [] }).put64 R.SADL_PEER_ID_LO ident
      ((m1.setRole (if lead then 1 else 2) 0).put R.SADL_STAT_SUSPECT 0).resync

/-- PAIRING_TIMEOUT: a PREF 0 device that has not paired 5 s after the apply of its boot commit; `hb` is what SDL_HB_IN shows. -/
def Chip.pairTimeout (m : Chip) (hb : Bool) : Chip :=
  match m.sadl.bootAt with
  | none => m
  | some t =>
    if m.on R.SADL_CTL_PREF || m.role != 0 || m.syncState != 1 || decide (m.monoNs < t + 5000000000) then m
    else
      let m1 := (m.setSadl { m.sadl with bootAt := none }).put R.SADL_STAT_HB_IN (bit hb)
      if hb then (m1.setRole 2 0).setSync 4 else (m1.setRole 1 0).setSync 0

/-- An apply edge that changes SADL_CTL.EN: at the boot commit the role waits for pairing; a device that already runs alone goes on as ACTIVE.
Without EN the device is STANDALONE. -/
def Chip.sadlApplied (m old : Chip) : Chip :=
  if !m.hasUnit 0x0E then m
  else if m.on R.SADL_CTL_EN then
    (if old.on R.SADL_CTL_EN then m
     else
       let m1 := m.domainOn 14
       if m1.booting then (m1.setSadl { m1.sadl with bootAt := some m1.monoNs }).setSync 1
       else (m1.setRole 1 0).setSync 0)
  else if old.on R.SADL_CTL_EN then (m.setSync 0).setRole 0 0
  else m

/-- C9 of the saddle link. -/
def Chip.sadlC9 (n : Chip) : Option Verdict :=
  let tmo := n.get R.SADL_CTL_TMO
  let tag := BitVec.ofNat 40 (n.get R.SADL_HEALTH_TAG_HI_TAG * 2 ^ 32 + n.get R.SADL_HEALTH_TAG_LO)
  let d := n.desc (n.bindOf (tagIdx tag)).1
  let tagOk := tag == 0 || (n.local tag && !n.outOfRange tag && (n.bindOf (tagIdx tag)).1 != 0 && d.typ == 3 && d.mask.testBit 1)
  if tmo < 100 ∨ 50000 < tmo then some ⟨CC.checkFailed, 9, 0x0E, BitVec.ofNat 64 R.SADL_CTL.addr⟩
  else if !tagOk then some ⟨CC.checkFailed, 9, 0x0E, BitVec.ofNat 64 R.SADL_HEALTH_TAG_LO.addr⟩
  else none

/-! ### Health (R383) -/

/-- Record a health word: HEALTH_CHANGE where FIT or a fault bit differs from the last one. -/
def Chip.healthShow (m : Chip) (w : Word) : Chip :=
  let mask : Word := 0x9C000000
  let m1 := m.setSadl { m.sadl with shown := w }
  if w &&& mask = m.sadl.shown &&& mask then m1 else m1.post (ev 0x0E 0x0C06 2 0 0 (le 4 w.toNat))

/-- Write the health point, where SADL_HEALTH_TAG names one. -/
def Chip.healthPoint (m : Chip) (w : Word) : Chip :=
  let tag := BitVec.ofNat 40 (m.get R.SADL_HEALTH_TAG_HI_TAG * 2 ^ 32 + m.get R.SADL_HEALTH_TAG_LO)
  if tag = 0 then m
  else (m.ptWrite .units { tag := tag, src := .unit, value := w.zeroExtend 64, second := ~~~(w.zeroExtend 64) }).2

/-- The standby's report word (Table 18-4); `ecc` says that a memory error was not corrected since the last report. -/
def Chip.healthWord (m : Chip) (ecc : Bool) : Word :=
  let synced := m.syncState == 3
  let ports := m.sadl.heardPort.countP (fun e => decide (m.monoNs < e.2 + 1000000000))
  let lanes := m.get R.SADL_STAT_LANE0 + m.get R.SADL_STAT_LANE1
  BitVec.ofNat 32 (bit (synced && !m.on R.SADL_STAT_SUSPECT && !m.sadl.selfFail) * 2 ^ 31 + bit synced * 2 ^ 30 + bit m.trusted * 2 ^ 29 +
    bit m.sadl.selfFail * 2 ^ 28 + bit ecc * 2 ^ 27 + bit (lanes == 1) * 2 ^ 26 + min ports 65535)

/-- HEALTH_REPORT: the paired standby sends its report. -/
def Chip.healthReport (m : Chip) (ecc : Bool) : Chip :=
  if m.standby && m.paired && m.sadlRuns then
    let w := m.healthWord ecc
    ((m.setReg R.SADL_HEALTH.addr w).healthShow w).emit (.frame 0x0E 0 "HEALTH" [w.toNat])
  else m

/-- A report reaches the active. -/
def Chip.healthTake (m : Chip) (w : Word) : Chip :=
  if !m.pairedActive then m
  else (((m.setReg R.SADL_HEALTH.addr w).setSadl { m.sadl with healthAt := m.monoNs }).healthShow w).healthPoint w

/-- HEALTH_REPORT_MISSING: three reports in a row. -/
def Chip.healthMissing (m : Chip) : Chip :=
  if m.pairedActive && decide (m.sadl.healthAt + 300000000 ≤ m.monoNs) then
    let w := m.reg R.SADL_HEALTH.addr &&& 0x7FFFFFFF
    (m.healthShow w).healthPoint w
  else m

/-- SELF_TEST of a scan core, or of memory, on a synchronised standby. -/
def Chip.selfTest (m : Chip) (pass : Bool) : Chip :=
  if !m.standby || m.syncState != 3 || pass then m
  else (m.setSadl { m.sadl with selfFail := true }).suspect

/-! ### Mismatches (R382) -/

/-- Count and post a mismatch of a task's cycle or a loop's sample; the standby may become SUSPECT. -/
def Chip.mismatch (m : Chip) (loop : Bool) (sub object idx : Nat) (again : Bool) : Chip :=
  let l := m.sadl.mism.filter (fun t => decide (m.monoNs < t + 60000000000)) ++ [m.monoNs]
  let m1 := ((m.setSadl { m.sadl with mism := l }).sadlCount 0).post
    (ev 0x0E 0x0C02 3 sub object (le 1 (bit loop) ++ List.replicate 3 0 ++ le 4 idx))
  if again || decide (max 1 (m.get R.SADL_MISM_LIM_LIM) ≤ l.length) then m1.suspect else m1

/-! ### Streams that the standby receives (R374, R379 to R381, R388) -/

/-- TIME_FRAME: league time at the frame's start, its trust and lock, the UTC word; `rtt` is the measured round trip in ns. The first frame
steps, later ones slew. -/
def Chip.timeFrame (m : Chip) (t : DWord) (trusted locked : Bool) (utc : Word) (rtt : Nat) : Chip :=
  if !m.followsTwin then m
  else
    let m1 := m.setSadl { m.sadl with timeAt := some m.monoNs }
    let m2 := if m.sadl.timeAt.isNone then m1.timeStep (t.toNat + rtt / 2) else m1.slew
    let m3 := m2.setUtc (fieldOf R.UPL_UTC_OFS utc) (fieldOf R.UPL_UTC_VALID utc == 1) (fieldOf R.UPL_UTC_LI61 utc == 1)
      (fieldOf R.UPL_UTC_LI59 utc == 1)
    (m3.put R.UPL_TIME_STAT_LOCKED (bit locked)).setTrust trusted (if trusted then 2 else 3)

/-- TIME_FRAME_TIMEOUT. -/
def Chip.timeFrameLost (m : Chip) : Chip :=
  let hold := max 1 (m.get R.UPL_TIME_HOLD) * 1000000000
  if m.followsTwin && decide ((m.sadl.timeAt.getD 0) + hold ≤ m.monoNs) then m.setTrust false 3 else m

/-- FRAME_FRAME: a class 7 frame of the active goes out once more, with its number. -/
def Chip.frameFrame (m : Chip) (f : MFrame) : Chip :=
  if m.standby && m.syncState == 3 && f.cls == 7 then m.sendCopy f else m

/-- POINT_FRAME: the record image replaces the record unchanged. -/
def Chip.pointFrame (m : Chip) (i : Nat) (r : PointRec) : Chip :=
  if m.standby && m.paired && decide (i < m.capPts) then m.setRec i r else m

/-- PAN_FRAME: the PAN state of an interface, with its GMK wrapped under the pair key. -/
def Chip.panFrame (m : Chip) (i : Nat) (joined : List (DWord × Nat)) (routes : List (Nat × Nat)) (seq : Word) (gmk : List Byte) : Chip :=
  if m.standby && m.paired && m.plcOn i then
    let m1 := (m.setPlc i { m.plc i with routes := routes }).setJoined i joined
    let m2 := m1.setSadl { m1.sadl with beaconSeen := AMap.put 0 (64 + i) seq m1.sadl.beaconSeen }
    match openBlob (m2.vslot 3).key gmk 5 with
    | some x => m2.setVslot (m2.get (R.FLD_PLC_KEY_GMK_SLOT i)) x
    | none => m2
  else m

/-- LOOP_FRAME: u is computed again from the record's PV and setpoint pair and the previous record's state, and compared bit for bit; the record's state
is then the loop's. None is computed in MANUAL. -/
def Chip.loopFrame (m : Chip) (x : LoopRec) : Chip :=
  if !m.standby || !m.paired then m
  else
    let n := x.loop.val
    let ent := m.loopEnt n
    let st := m.loopSt n
    let sp := if pairOk x.sp x.spC && !Fp.isNan x.sp then { st with spGood := x.sp, haveSp := true } else st
    let r := law (m.coefs n (m.loopBank n)) ent { sp with first := false } x.pv 0 0 0
    let auto := x.state == LS.auto && !st.first
    let new := { sp with first := x.state != LS.auto, i := x.i, d := x.d, pvPrev := x.pv, havePrev := true, acc := x.acc.toNat,
                         gridDone := some x.instant.toNat }
    let m1 := (m.setLoopSt n new).put (R.LOOP_L_STAT_STATE n) x.state
    if m.syncState == 3 && auto && r.u != x.u then m1.mismatch true n x.instant.toNat 0 false else m1

/-- IMAGE_FRAME and DELTA_FRAME wait for the echo. A standby whose echo falls two cycles behind a task's deltas resynchronises. -/
def Chip.imageFrame (m : Chip) (x : SadImage) : Chip :=
  if m.standby && m.syncState == 3 then m.setSadl { m.sadl with images := m.sadl.images ++ [x] } else m

def Chip.deltaFrame (m : Chip) (x : SadDelta) : Chip :=
  if !m.standby || m.syncState != 3 then m
  else
    let m1 := m.setSadl { m.sadl with deltas := m.sadl.deltas ++ [x] }
    if 3 ≤ m1.sadl.deltas.countP (fun d => d.task == x.task) then m1.resync else m1

/-- BULK_FRAME: a piece of the active's state. -/
def Chip.bulkFrame (m : Chip) (x : SadBulk) : Chip :=
  if !m.standby || !m.paired then m
  else match x with
    | .point i r => m.setRec i r
    | .reg a w => m.setReg a w
    | .bytes w off b => m.setBytes (.win w) off b
    | .image t g => (m.loadData t.val g).setTask t.val { m.task t.val with img := g }
    | .data t off b => m.setBytes (.data t.val) off b
    | .slot n y => m.setSlot n y
    | .loop n i d pv sp => m.setLoopSt n.val { m.loopSt n.val with first := false, i := i, d := d, pvPrev := pv, havePrev := true, spGood := sp,
                                                                    haveSp := true }
    | .pan i joined routes => (m.setPlc i.val { m.plc i.val with routes := routes }).setJoined i.val joined
    | .seq n type q => m.setSta n { m.sta n with outSeq := AMap.put 0 type q (m.sta n).outSeq }

/-- RESYNC_DONE: the copy has ended; the standby is SYNCED at the next boundary and no longer SUSPECT. -/
def Chip.resyncDone (m : Chip) : Chip :=
  if m.syncState != 2 then m
  else ((m.setSadl { m.sadl with selfFail := false, mism := [], lastBad := [] }).put R.SADL_STAT_SUSPECT 0).setSync 3

/-- BACKLOG: KiB waiting, and whether a frame other than BULK has waited more than 20 ms. -/
def Chip.backlog (m : Chip) (kib : Nat) (late : Bool) : Chip :=
  let m1 := m.put R.SADL_STAT_BACKLOG (min kib 0x3FFFF)
  if (decide (65536 < kib) || late) && m1.syncState == 3 then (m1.post (ev 0x0E 0x0C08 2 0 0 (le 4 kib))).resync else m1

/-! ### Landing (R385) -/

/-- Take a received frame by its type. -/
def Chip.landFrame (m : Chip) (type : Nat) (f : RxFrame) : Chip :=
  match type with
  | 0x04 => m.lampAck f
  | 0x10 => m.lampReport f
  | 0x23 => m.fwMissing f
  | 0x30 => m.ioReport f
  | 0x32 => m.ioAck f
  | 0x33 => m.hello f
  | 0x39 => m.quenchAck f
  | 0x40 => m.lgRead f
  | 0x41 => m.lgWrite f
  | 0x42 => m.lgResp f
  | 0x43 => m.lgUpdate f
  | 0x44 => m.lgSubscribe f
  | 0x45 => m.tieMessage f
  | 0x46 => m.lgAnnounce f
  | _ => m

/-- A cycle whose image arrived without its delta is run here: READY with that image and release instant. -/
def Chip.adoptCycle (m : Chip) (x : SadImage) : Chip :=
  let t := x.task
  let e := m.taskEnt t
  let k := { m.task t with ent := e, imap := m.mapEnts .scanImap e.imap e.imapN, omap := m.mapEnts .scanOmap e.omap e.omapN, release := x.release,
                           releasedAt := m.monoNs, prevMono := some m.monoNs, next := x.cycle + 1, ctx := none, buf := [],
                           gridDone := some x.release.toNat }
  let m1 := ((m.setTask t k).setBytes (.data t) 0x10000000 x.bytes).put (R.SCAN_TS_CYCLES t) x.cycle.toNat
  (m1.markBoundary t false).setTState t TS.ready

/-- The twins' announcements of their addresses on an uplink. -/
def Chip.ownAddresses (m : Chip) (u : Nat) : Chip :=
  if !m.on (R.UPL_P_CFG_EN u) then m
  else
    let b := m.addrEnt u
    (m.emit (.frame 7 u "GRATUITOUS_ARP" [fld b 20 4])).emit (.frame 7 u "UNSOLICITED_ADVERTISEMENT" [fld b 0 16])

/-- Become ACTIVE UNPAIRED by the steps of R385: role, the buffered frames, cycles without their delta, loops, field and uplink roles, fixtures. Grid instants
that have passed are not made up for. -/
def Chip.takeOver (m : Chip) (cause : Nat) : Chip :=
  let buf := m.sadl.rxBuf.filter (fun e => decide (m.monoNs ≤ e.1 + 2000000))
  let due := m.sadl.images.filter (fun x => !m.sadl.deltas.any (fun d => d.task == x.task && d.cycle == x.cycle))
  let m0 := ((m.setRole 1 cause).setSync 0).sadlCount 3
  let m1 := m0.setSadl { m0.sadl with rxBuf := [], images := [], deltas := [], switchAt := none }
  let m2 := buf.foldl (fun a e => a.landFrame e.2.1 e.2.2) m1
  let m3 := (m2.scan.tasks.map (·.1)).foldl Chip.anchor m2
  let m4 := due.foldl Chip.adoptCycle m3
  let m5 := m4.loopsOn.foldl (fun a n => (a.loopAnchor n).setLoopSt n { (a.loopAnchor n).loopSt n with prevMono := none }) m4
  let m6 := (List.range 4).foldl Chip.ownAddresses ((m5.setUpl { m5.upl with noMaster := some m5.monoNs }).ptpShow)
  m6.fixtures.foldl (fun a x => a.setFix x { a.fix x with state := 1 }) m6

/-! ### Silence and heartbeat (R371, R384) -/

/-- What a paired standby does once the link has been silent for TMO. -/
def Chip.sadlDecide (m : Chip) : Chip :=
  if !m.standby || !m.paired || m.sadlLink || decide (m.monoNs < m.sadl.silentAt + m.get R.SADL_CTL_TMO * 1000) then m
  else if m.on R.SADL_STAT_HB_IN then (m.unpair).post (ev 0x0E 0x0C04 2 0 0 [])
  else if m.syncState = 3 ∧ !m.on R.SADL_STAT_SUSPECT then m.takeOver 1
  else m.unpair

/-- LANE_UP. -/
def Chip.laneUp (m : Chip) (lane : Nat) : Chip :=
  let f := if lane = 0 then R.SADL_STAT_LANE0 else R.SADL_STAT_LANE1
  if !m.sadlRuns || m.on f then m else (m.put f 1).post (ev 0x0E 0x0C03 1 0 0 (le 1 lane ++ le 1 1))

/-- A lane goes down; with the last one the link is silent, and the active of a pair goes on alone. -/
def Chip.laneDrop (m : Chip) (lane : Nat) : Chip :=
  let f := if lane = 0 then R.SADL_STAT_LANE0 else R.SADL_STAT_LANE1
  if !m.on f then m
  else
    let m1 := (m.put f 0).post (ev 0x0E 0x0C03 1 0 0 (le 1 lane ++ le 1 0))
    if m1.sadlLink then m1
    else
      let m2 := m1.setSadl { m1.sadl with silentAt := m1.monoNs }
      if m2.pairedActive then m2.unpair else m2

/-- LANE_DOWN. -/
def Chip.laneDown (m : Chip) (lane : Nat) : Chip := (m.laneDrop lane).sadlDecide

/-- HEARTBEAT_LOSS. -/
def Chip.heartbeatLost (m : Chip) : Chip :=
  if !m.hasUnit 0x0E then m
  else
    let m1 := m.put R.SADL_STAT_HB_IN 0
    if m1.standby && m1.paired && m1.sadlLink then m1.post (ev 0x0E 0x0C05 3 0 0 []) else m1.sadlDecide

/-- TAKEOVER: TMO has passed; `hb` is what SDL_HB_IN shows. -/
def Chip.tmoPassed (m : Chip) (hb : Bool) : Chip := if m.hasUnit 0x0E then (m.put R.SADL_STAT_HB_IN (bit hb)).sadlDecide else m

/-! ### Role commands (R386, R387) -/

/-- Report a role command. -/
def Chip.sadlRes (m : Chip) (code : Half) : Chip := (m.put R.SADL_CMD_RES_DONE 1).put R.SADL_CMD_RES_CODE code.toNat

/-- SWITCH: a synchronised active with a FIT standby sets T. -/
def Chip.sadlSwitch (m : Chip) : Chip :=
  if !m.hasUnit 0x0E then m
  else if m.sadl.switchAt.isSome then m.sadlRes CC.busy
  else if m.role ≠ 1 ∨ m.syncState ≠ 3 ∨ !(m.reg R.SADL_HEALTH.addr).getLsbD 31 then m.sadlRes CC.checkFailed
  else
    let t := (m.now + 2000000 + 999999) / 1000000 * 1000000
    (m.setSadl { m.sadl with switchAt := some t }).emit (.frame 0x0E 0 "SWITCH" [t])

/-- SWITCH_INSTANT: at T the roles and the field roles exchange. -/
def Chip.switchInstant (m : Chip) : Chip :=
  match m.sadl.switchAt with
  | none => m
  | some t =>
    if !m.reached t || m.syncState != 3 then m
    else
      let m1 := m.setSadl { m.sadl with switchAt := none, healthAt := m.monoNs, timeAt := none }
      if m1.role = 1 then (m1.sadlRes CC.ok).setRole 2 2
      else if m1.standby then
        let m2 := m1.setRole 1 2
        let m3 := (m2.scan.tasks.map (·.1)).foldl Chip.anchorStep m2
        m3.loopsOn.foldl Chip.loopStep m3
      else m1

/-- TAKE. -/
def Chip.sadlTake (m : Chip) (hb : Bool) : Chip :=
  if !m.hasUnit 0x0E then m
  else
    let m1 := m.put R.SADL_STAT_HB_IN (bit hb)
    if m1.sadl.switchAt.isSome then m1.sadlRes CC.busy
    else if hb || !(m1.standby || (m1.role == 0 && m1.syncState != 0)) then m1.sadlRes CC.checkFailed
    else (m1.takeOver 3).sadlRes CC.ok

/-- LEAVE. -/
def Chip.sadlLeave (m : Chip) : Chip :=
  if !m.hasUnit 0x0E then m
  else if m.sadl.switchAt.isSome then m.sadlRes CC.busy
  else if m.role = 0 then m.sadlRes CC.checkFailed
  else ((if m.paired then m.emit (.frame 0x0E 0 "ENDED" []) else m).unpair).sadlRes CC.ok

/-- RESYNC on a DETACHED or SUSPECT standby. -/
def Chip.sadlResync (m : Chip) : Chip :=
  if !m.hasUnit 0x0E then m
  else if m.sadl.switchAt.isSome then m.sadlRes CC.busy
  else if m.standby && (m.syncState == 4 || m.on R.SADL_STAT_SUSPECT) then (m.resync).sadlRes CC.ok
  else m.sadlRes CC.checkFailed

/-- CTRL_FRAME. -/
def Chip.ctrlFrame (m : Chip) (x : SadCtrl) : Chip :=
  if !m.sadlRuns || !m.sadlLink then m
  else match x with
    | .hello en units capIo capMem dev ident pref active mac => m.sadlHello en units capIo capMem dev ident pref active mac
    | .health w => m.healthTake w
    | .handover t => if m.standby && m.syncState == 3 then m.setSadl { m.sadl with switchAt := some t.toNat } else m
    | .ended => if m.paired then m.unpair else m

/-! ### Disable and start (R389) -/

/-- The link's work at its disable: it falls silent, and the pairing ends. -/
def Chip.sadlDisable (m : Chip) : Chip :=
  (((m.laneDrop 0).laneDrop 1).unpair).setSadl { (((m.laneDrop 0).laneDrop 1).unpair).sadl with switchAt := none }

/-! ### Commands -/

def execCtrlFrame (x : SadCtrl) (s : State) : Host.Outcome State Fault Refusal := s.act (·.ctrlFrame x)
def execPairingRetry (s : State) : Host.Outcome State Fault Refusal := s.act Chip.pairRetry
def execPairingTimeout (hb : Bool) (s : State) : Host.Outcome State Fault Refusal := s.act (·.pairTimeout hb)
def execTimeFrame (t : DWord) (trusted locked : Bool) (utc : Word) (rtt : Nat) (s : State) : Host.Outcome State Fault Refusal :=
  s.act (·.timeFrame t trusted locked utc rtt)
def execTimeFrameTimeout (s : State) : Host.Outcome State Fault Refusal := s.act Chip.timeFrameLost
def execFrameFrame (f : MFrame) (s : State) : Host.Outcome State Fault Refusal := s.act (·.frameFrame f)
def execImageFrame (x : SadImage) (s : State) : Host.Outcome State Fault Refusal := s.act (·.imageFrame x)
def execDeltaFrame (x : SadDelta) (s : State) : Host.Outcome State Fault Refusal := s.act (·.deltaFrame x)
def execLoopFrame (x : LoopRec) (s : State) : Host.Outcome State Fault Refusal := s.act (·.loopFrame x)
def execPointFrame (i : BitVec 25) (r : PointRec) (s : State) : Host.Outcome State Fault Refusal := s.act (·.pointFrame i.toNat r)
def execPanFrame (i : Fin 8) (joined : List (DWord × Nat)) (routes : List (Nat × Nat)) (seq : Word) (gmk : List Byte) (s : State) :
    Host.Outcome State Fault Refusal := s.act (·.panFrame i.val joined routes seq gmk)
def execBulkFrame (x : SadBulk) (s : State) : Host.Outcome State Fault Refusal := s.act (·.bulkFrame x)
def execLaneUp (lane : Fin 2) (s : State) : Host.Outcome State Fault Refusal := s.act (·.laneUp lane.val)
def execLaneDown (lane : Fin 2) (s : State) : Host.Outcome State Fault Refusal := s.act (·.laneDown lane.val)
def execBacklog (kib : Nat) (late : Bool) (s : State) : Host.Outcome State Fault Refusal := s.act (·.backlog kib late)
def execHeartbeatLoss (s : State) : Host.Outcome State Fault Refusal := s.act Chip.heartbeatLost
def execTakeover (hb : Bool) (s : State) : Host.Outcome State Fault Refusal := s.act (·.tmoPassed hb)
def execSwitch (s : State) : Host.Outcome State Fault Refusal := s.act Chip.sadlSwitch
def execSwitchInstant (s : State) : Host.Outcome State Fault Refusal := s.act Chip.switchInstant
def execTake (hb : Bool) (s : State) : Host.Outcome State Fault Refusal := s.act (·.sadlTake hb)
def execLeave (s : State) : Host.Outcome State Fault Refusal := s.act Chip.sadlLeave
def execResync (s : State) : Host.Outcome State Fault Refusal := s.act Chip.sadlResync
def execResyncDone (s : State) : Host.Outcome State Fault Refusal := s.act Chip.resyncDone
def execHealthReport (ecc : Bool) (s : State) : Host.Outcome State Fault Refusal := s.act (·.healthReport ecc)
def execHealthReportMissing (s : State) : Host.Outcome State Fault Refusal := s.act Chip.healthMissing
def execSelfTest (pass : Bool) (s : State) : Host.Outcome State Fault Refusal := s.act (·.selfTest pass)
def execSaddleCrcError (s : State) : Host.Outcome State Fault Refusal := s.act (fun m => if m.sadlRuns then m.sadlCount 1 else m)

end Sys2Proof.Machine
end

