-- ==== Sys2Proof/Machine/Guard.lean ====
section
/-! DEFINITION. The guard (chapter 19): the guard die's evaluation, its interlock table, input and output faults, the lockstep core and the guard link. -/

namespace Sys2Proof.Machine

open Sys2Proof

/-! ### The interlock table (R394) -/

/-- An input entry: type, filter (ms), discrepancy time (ms), zero bytes. -/
structure GIn where
  typ : Nat
  filt : Nat
  disc : Nat
  zero : Bool
deriving DecidableEq, Repr

/-- An output entry. -/
structure GOut where
  mask : Nat
  flags : Nat
  rst : Nat
  period : Nat
  width : Nat
  tag : BitVec 40
  zero : Bool
deriving DecidableEq, Repr

def gIn (b : List Byte) (i : Nat) : GIn :=
  let o := 16 + 8 * i
  { typ := fld b o 1, filt := fld b (o + 1) 1, disc := fld b (o + 2) 2, zero := clear b (o + 4) 4 }

def gOut (b : List Byte) (k : Nat) : GOut :=
  let o := 144 + 32 * k
  { mask := fld b o 2, flags := fld b (o + 2) 1, rst := fld b (o + 3) 1, period := fld b (o + 4) 2, width := fld b (o + 6) 1,
    tag := BitVec.ofNat 40 (fld b (o + 8) 5), zero := clear b (o + 7) 1 && clear b (o + 13) 3 && clear b (o + 16) 16 }

def GOut.enabled (e : GOut) : Bool := e.flags.testBit 0
def GOut.manual (e : GOut) : Bool := e.flags.testBit 1
def GOut.tested (e : GOut) : Bool := e.flags.testBit 2

/-- C9 of the guard on a set that stages GUARD_ILT: `boot` says that the set is a commit group of a boot. -/
def Chip.guardC9 (n : Chip) (boot : Bool) : Option Verdict :=
  let b := n.bytes (.win .guardIlt) 0 512
  let bad := fun (o : Nat) => (some ⟨CC.checkFailed, 9, 0x0F, BitVec.ofNat 64 o⟩ : Option Verdict)
  let inOk := fun (i : Nat) =>
    let e := gIn b i
    decide (e.typ ≤ 3) && e.zero && (e.typ == 0 || (decide (1 ≤ e.filt ∧ e.filt ≤ 20) && (e.typ == 3 || decide (5 ≤ e.disc ∧ e.disc ≤ 1000))))
  let typ := fun (i : Nat) => (gIn b i).typ
  let outOk := fun (k : Nat) =>
    let e := gOut b k
    let d := n.desc (n.bindOf (tagIdx e.tag)).1
    e.zero && decide (e.flags < 8) && (e.rst == 0xFF || (decide (e.rst < 16) && typ e.rst == 3)) &&
      (!e.tested || decide (1 ≤ e.period ∧ e.period ≤ 3600 ∧ 20 ≤ e.width ∧ e.width ≤ 50)) &&
      (List.range 16).all (fun i => !e.mask.testBit i || typ i == 1 || typ i == 2) &&
      (!e.enabled || e.mask != 0) && (!e.manual || e.rst != 0xFF) &&
      (e.tag == 0 || (n.local e.tag && !n.outOfRange e.tag && (n.bindOf (tagIdx e.tag)).1 != 0 && d.typ == 1 && !d.critical))
  if !boot || n.guard.table.isSome then bad (Win.obj .guardIlt 0)
  else if fld b 508 4 ≠ (crc32c (b.take 508)).toNat then bad (Win.obj .guardIlt 508)
  else if fld b 0 2 ≠ 1 ∨ !clear b 2 2 ∨ !clear b 8 8 ∨ !clear b 400 108 then bad (Win.obj .guardIlt 0)
  else match (List.range 16).find? (fun i => !inOk i) with
    | some i => bad (Win.obj .guardIlt (16 + 8 * i))
    | none => match (List.range 8).find? (fun k => !outOk k) with
      | some k => bad (Win.obj .guardIlt (144 + 32 * k))
      | none => none

/-! ### Guard reset and the main die's view (R393, R406, R408) -/

def Chip.setGuard (m : Chip) (g : Guard) : Chip := m.withGuard g

/-- A diagnostic counter of GUARD: 0 TRIP, 1 FLT, 2 LINK. -/
def Chip.guardCount (m : Chip) (k : Nat) : Chip :=
  m.count ⟨R.GUARD_TRIP_CNT.addr + 4 * k, 31, 0⟩ (some ⟨R.GUARD_STAT.addr, 23 + k, 23 + k⟩)

/-- What the main die learns: a counter (3 none) and an event; while PD2 is off it waits. -/
def Chip.guardTell (m : Chip) (k : Nat) (e : Event) : Chip :=
  if m.pd2 then (if k < 3 then m.guardCount k else m).post e
  else m.setGuard { m.guard with owed := m.guard.owed ++ [(k, e)] }

/-- A start of PD2 resets the guard die and ends the reset: outputs off, table cleared, latches cleared. Without VDD_GUARD the die stays off. -/
def Chip.guardStart (m : Chip) : Chip := m.setGuard { power := m.guard.power, held := !m.guard.power, owed := m.guard.owed }

/-- The die is off or held in reset. -/
def Chip.guardHold (m : Chip) (power : Bool) : Chip :=
  m.setGuard { power := power, held := true, core := m.guard.core, seqOut := m.guard.seqOut, owed := m.guard.owed }

def Guard.outs (g : Guard) : List (Nat × GOut) :=
  match g.table with
  | some b => ((List.range 8).map (fun k => (k, gOut b k))).filter (fun e => e.2.enabled)
  | none => []

def Guard.ins (g : Guard) : List (Nat × GIn) :=
  match g.table with
  | some b => ((List.range 16).map (fun i => (i, gIn b i))).filter (fun e => e.2.typ != 0)
  | none => []

def Guard.cause (g : Guard) (o : Nat) : List Nat := AMap.get [] g.causes o
def Guard.setCause (g : Guard) (o : Nat) (l : List Nat) : Guard := { g with causes := AMap.put [] o l g.causes }

/-- R396: on the apply edge of the commit that loads it the core sends the table over the guard link. -/
def Chip.guardLoad (m : Chip) : Chip := m.setGuard { m.guard with sent := some (m.bytes (.win .guardIlt) 0 512) }

/-- TABLE_STATE: the die locks the table that it received where the three CRCs agree; MANUAL outputs then stand tripped. A die in guard reset
refuses it. A locked table is not changed (R393): what reaches a die with one is discarded (notes/assumptions/106.md). -/
def Chip.guardTable (m : Chip) (agree : Bool) : Chip :=
  match m.guard.sent with
  | none => m
  | some b =>
    let id := fld b 4 4
    let g : Guard := { m.guard with sent := none }
    if g.table.isSome then m.setGuard g
    else if g.held || !agree || fld b 508 4 != (crc32c (b.take 508)).toNat then
      ((m.setGuard g).put R.GUARD_STAT_TABLE 2).post (ev 0x0F 0x0D00 3 0 id (le 1 2))
    else
      let g1 : Guard := { g with table := some b, lockedAt := g.tick, validAt := g.tick }
      let g2 := g1.outs.foldl (fun a e => if e.2.manual then a.setCause e.1 [6] else a) g1
      (((((m.setGuard g2).put R.GUARD_STAT_TABLE 1).put R.GUARD_STAT_LOCK 1).setReg R.GUARD_TABLE_ID.addr (BitVec.ofNat 32 id)).setReg
        R.GUARD_TABLE_CRC.addr (BitVec.ofNat 32 (fld b 508 4))).post (ev 0x0F 0x0D00 0 0 id (le 1 1))

/-! ### Inputs (R397 to R399) -/

/-- One sample of a channel: its filtered level, and how many samples have differed. -/
def filt1 (limit : Nat) (raw lvl : Bool) (n : Nat) : Bool × Nat :=
  if raw == lvl then (lvl, 0) else if limit ≤ n + 1 then (raw, 0) else (lvl, n + 1)

/-- One sample of all channels, every 100 µs. -/
def Guard.sample (g : Guard) (x : BitVec 16 × BitVec 16) : Guard :=
  (List.range 16).foldl (fun a i =>
    let limit := match g.table with
      | some b => 10 * max 1 (gIn b i).filt
      | none => 10
    let (la, na) := filt1 limit (x.1.getLsbD i) (a.filtA.testBit i) (AMap.get 0 a.cnt i)
    let (lb, nb) := filt1 limit (x.2.getLsbD i) (a.filtB.testBit i) (AMap.get 0 a.cnt (16 + i))
    { a with filtA := setBits a.filtA i i (bit la), filtB := setBits a.filtB i i (bit lb),
             cnt := AMap.put 0 (16 + i) nb (AMap.put 0 i na a.cnt) }) g

/-- Whether channels A and B show their safe levels; a RESET input is judged as EQUIV. -/
def Guard.safeA (g : Guard) (i : Nat) : Bool := g.filtA.testBit i
def Guard.safeB (g : Guard) (i typ : Nat) : Bool := if typ = 2 then !g.filtB.testBit i else g.filtB.testBit i

/-- The state of an input as GUARD_IN shows it. -/
def Guard.inState (g : Guard) (i : Nat) : Nat :=
  match g.ins.find? (fun e => e.1 == i) with
  | none => 3
  | some (_, e) =>
    if AMap.get 0 g.inFault i ≠ 0 then 2
    else if e.typ = 3 then 3
    else if g.safeA i && g.safeB i e.typ then 0 else 1

/-- The permits that the input states give. -/
def Guard.judge (g : Guard) : Nat :=
  g.outs.foldl (fun p e => if (List.range 16).all (fun i => !e.2.mask.testBit i || g.inState i == 0) then p + 2 ^ e.1 else p) 0

/-- The inputs in DEMAND. -/
def Guard.demand (g : Guard) : Nat :=
  (List.range 16).foldl (fun p i => if g.inState i = 1 ∨ g.inState i = 2 then p + 2 ^ i else p) 0

/-- After the samples of an evaluation: when discrepancies began, and faults whose channels have shown both levels again. -/
def Guard.track (g : Guard) : Guard :=
  g.ins.foldl (fun a e =>
    let i := e.1
    let sa := g.safeA i
    let sb := g.safeB i e.2.typ
    let disc := if sa == sb then unassoc a.disc i else match assoc a.disc i with
      | some _ => a.disc
      | none => reassoc a.disc i g.tick
    let f := AMap.get 0 a.inFault i
    let f1 := if f = 1 ∧ !sa ∧ !sb then 2 else if f = 2 ∧ sa ∧ sb then 0 else f
    { a with disc := disc, inFault := AMap.put 0 i f1 a.inFault }) g

/-- The RESET inputs that operate in this evaluation, and the die with their levels noted. -/
def Guard.resets (g : Guard) : List Nat × Guard :=
  (g.ins.filter (fun e => e.2.typ == 3)).foldl (fun (ops, a) e =>
    let i := e.1
    let up := g.filtA.testBit i && g.filtB.testBit i
    let down := !g.filtA.testBit i && !g.filtB.testBit i
    match assoc a.high i with
    | none => (ops, if up then { a with high := reassoc a.high i g.tick } else a)
    | some t =>
      if down then
        (if decide (50 ≤ g.tick - t ∧ g.tick - t ≤ 5000) && AMap.get 0 g.inFault i == 0 then ops ++ [i] else ops,
          { a with high := unassoc a.high i })
      else (ops, a)) ([], g)

/-! ### Outputs (R392, R400 to R405) -/

/-- Latch a cause on an output. -/
def Guard.latch (g : Guard) (o code : Nat) : Guard :=
  if (g.cause o).contains code then g else g.setCause o (g.cause o ++ [code])

/-- Latch an output fault that is counted and posted. -/
def Chip.outFault (m : Chip) (o code : Nat) : Chip :=
  if (m.guard.cause o).contains code then m
  else (m.setGuard (m.guard.latch o code)).guardTell 1 (ev 0x0F 0x0D02 3 o 0 (le 1 code))

/-- The outputs whose permits are both 1. -/
def Guard.agreed (g : Guard) : Nat := g.permits &&& g.corePermits

/-- Outputs that trip as a permit falls: counted and posted; a MANUAL output stays tripped. -/
def Chip.trips (m : Chip) (before : Nat) : Chip :=
  m.guard.outs.foldl (fun a e =>
    if before.testBit e.1 && !a.guard.agreed.testBit e.1 then
      let a1 := if e.2.manual then a.setGuard (a.guard.latch e.1 6) else a
      a1.guardTell 0 (ev 0x0F 0x0D01 2 e.1 0 (le 2 a1.guard.demand))
    else a) m

/-- An operation of a reset input: while a demand or a fault cause persists it is ignored; else faults clear, and a MANUAL output with no
fault latched is tripped no longer. `rb` is the readback levels. -/
def Guard.operate (g : Guard) (ops : List Nat) (rb : Nat) : Guard :=
  g.outs.foldl (fun a e =>
    let o := e.1
    let l := a.cause o
    let holds := l.any (fun c => (c == 2 && rb.testBit o) || (c == 5 && !g.linkUp) || c == 7)
    if !ops.contains e.2.rst || !g.agreed.testBit o || holds then a
    else a.setCause o (if l.any (· != 6) then l.filter (· == 6) else [])) g

/-- What is driven (R392). -/
def Guard.drive (g : Guard) : Nat :=
  g.outs.foldl (fun p e => if g.agreed.testBit e.1 && g.requests.testBit e.1 && (g.cause e.1).isEmpty then p + 2 ^ e.1 else p) 0

/-- Since when the permits of each output differ. -/
def Guard.differing (g : Guard) : Guard :=
  { g with differ := g.outs.filterMap (fun e =>
      if g.permits.testBit e.1 == g.corePermits.testBit e.1 then none else some (e.1, (assoc g.differ e.1).getD g.tick)) }

/-- GUARD_EVALUATION: the samples of the last millisecond and the readback levels. -/
def Chip.guardEval (m : Chip) (samples : List (BitVec 16 × BitVec 16)) (rb : Nat) : Chip :=
  if m.guard.held || !m.hasUnit 0x0F then m
  else
    let before := m.guard.agreed
    let g1 := (samples.foldl Guard.sample { m.guard with tick := m.guard.tick + 1 }).track
    let (ops, g2) := g1.resets
    let m1 := (m.setGuard ({ g2 with permits := g2.judge }).differing).trips before
    let g3 := m1.guard.operate ops rb
    m1.setGuard { g3 with driven := g3.drive }

/-- An output switches off at once. -/
def Guard.off (g : Guard) (o : Nat) : Guard := { g with driven := setBits g.driven o o 0 }

/-- OFF_PULSE of an output: once per test period, at its offset, while it is driven with TEST. `ok` is the readback check. -/
def Chip.offPulse (m : Chip) (o : Nat) (ok : Bool) : Chip :=
  let g := m.guard
  match g.outs.find? (fun e => e.1 == o) with
  | none => m
  | some (_, e) =>
    let ms := e.period * 1000
    if !e.tested || !g.driven.testBit o || decide ((g.tick - g.lockedAt) % ms ≠ o * ms / 8) then m
    else
      let m1 := m.emit (.frame 0x0F o "OFF_PULSE" [e.width * 10])
      if ok then m1 else (m1.outFault o 3).setGuard ((m1.outFault o 3).guard.off o)

/-- READBACK_FAULT of an output: low for more than 1 ms while driven, or high for more than 1 ms after it was switched off. -/
def Chip.readback (m : Chip) (o : Nat) : Chip :=
  if !m.guard.outs.any (fun e => e.1 == o) then m
  else
    let m1 := m.outFault o (if m.guard.driven.testBit o then 1 else 2)
    m1.setGuard (m1.guard.off o)

/-- DISCREPANCY_TIMEOUT of an input. -/
def Chip.discrepancy (m : Chip) (i : Nat) : Chip :=
  let g := m.guard
  match g.ins.find? (fun e => e.1 == i), assoc g.disc i with
  | some (_, e), some t =>
    let lim := if e.typ = 3 then 1000 else e.disc
    if AMap.get 0 g.inFault i = 0 ∧ lim ≤ g.tick - t then
      let before := g.agreed
      let g1 := { g with inFault := AMap.put 0 i 1 g.inFault }
      let m1 := (m.setGuard g1).guardTell 3
        (ev 0x0F 0x0D03 3 i 0 (le 1 (bit (g.filtA.testBit i)) ++ le 1 (bit (g.filtB.testBit i))))
      (m1.setGuard { m1.guard with permits := g1.judge }).trips before
    else m
  | _, _ => m

/-- DISAGREE_TIMEOUT of an output. -/
def Chip.disagree (m : Chip) (o : Nat) : Chip :=
  let g := m.guard
  match assoc g.differ o with
  | some t =>
    if 20 ≤ g.tick - t ∧ !(g.cause o).contains 4 then
      (m.outFault o 4).guardTell 3 (ev 0x0F 0x0D04 3 o 0 (le 1 g.permits ++ le 1 g.corePermits))
    else m
  | none => m

/-! ### The guard link and the core (R401, R402, R406) -/

/-- The registers that a link frame brings up to date. -/
def Chip.guardShow (m : Chip) : Chip :=
  let g := m.guard
  let ins := (List.range 16).foldl (fun p i => p + g.inState i * 4 ^ i) 0
  let outs := (List.range 8).foldl (fun p o => p + (bit (g.driven.testBit o) * 8 + bit (g.permits.testBit o) * 4 +
    bit (g.corePermits.testBit o) * 2 + bit (g.requests.testBit o)) * 16 ^ o) 0
  let flts := (List.range 8).foldl (fun p o => p + ((g.cause o).headD 0) * 16 ^ o) 0
  let m1 := ((m.setReg R.GUARD_IN.addr (BitVec.ofNat 32 ins)).setReg R.GUARD_IN_RAW.addr (BitVec.ofNat 32 (g.filtB * 65536 + g.filtA))).setReg
    R.GUARD_OUT.addr (BitVec.ofNat 32 outs)
  ((((m1.setReg R.GUARD_OUT_FLT.addr (BitVec.ofNat 32 flts)).put R.GUARD_STAT_LOCK (bit g.table.isSome)).put R.GUARD_STAT_LINK 1).put
    R.GUARD_STAT_STALE 0).put R.GUARD_STAT_CORE 1

/-- The request vector (R401). -/
def Chip.guardRequests (m : Chip) : Nat × Chip :=
  m.guard.outs.foldl (fun (x : Nat × Chip) (e : Nat × GOut) =>
    if e.2.tag = 0 then (x.1 + 2 ^ e.1, x.2)
    else
      let (c, r, a1) := x.2.ptRead .units e.2.tag
      let v := r.getD unboundRec
      (if c = CC.ok ∧ Q.state v.quality < 2 ∧ v.value = 1 then x.1 + 2 ^ e.1 else x.1, a1)) (0, m)

/-- CORE_LINK_FRAME: the core evaluates the table from the forwarded samples and sends its frame; the main die learns what the die has to tell. -/
def Chip.coreFrame (m : Chip) : Chip :=
  if !m.hasUnit 0x0F || !m.guard.core then m
  else
    let (req, m1) := m.guardRequests
    let seq := m1.guard.seqOut + 1
    let m2 := (m1.setGuard { m1.guard with seqOut := seq, owed := [] }).emit (.frame 0x0F 0 "LINK" [m1.guard.judge, req, seq.toNat])
    let m3 := m1.guard.owed.foldl (fun a e => (if e.1 < 3 then a.guardCount e.1 else a).post e.2) m2
    if m3.guard.held || !m3.guard.linkUp then m3 else m3.guardShow

/-- LINK_FRAME_RECEIVE: the core's frame as it reaches the die; `ok` says that its CRC verifies. -/
def Chip.linkFrame (m : Chip) (permits requests : Byte) (seq : Word) (ok : Bool) : Chip :=
  let g := m.guard
  let next := match g.seqIn with
    | some q => newer seq q
    | none => true
  if g.held || !m.hasUnit 0x0F || !ok || !next then m
  else
    (m.setGuard ({ g with corePermits := permits.toNat, requests := requests.toNat, seqIn := some seq, validAt := g.tick,
                          linkUp := true }).differing).trips (if g.linkUp then g.agreed else 0)

/-- The link is lost: no core permit, no request, LINK on every enabled output; the main die holds its last values. -/
def Chip.linkLost (m : Chip) : Chip :=
  let g := m.guard
  let g1 := g.outs.foldl (fun a e => a.latch e.1 5) { g with corePermits := 0, requests := 0, linkUp := false, driven := 0 }
  (((m.setGuard g1).put R.GUARD_STAT_LINK 0).put R.GUARD_STAT_STALE 1).guardTell 2
    (ev 0x0F 0x0D05 4 0 0 (le 4 ((g.seqIn.getD 0).toNat)))

/-- GUARD_LINK_TIMEOUT: no valid frame for 5 ms. -/
def Chip.linkTimeout (m : Chip) : Chip :=
  let g := m.guard
  if g.held || !m.hasUnit 0x0F || !g.linkUp || decide (g.tick < g.validAt + 5) then m else m.linkLost

/-- LOCKSTEP_MISMATCH: the core halts, and the latch lasts until the next start of PD2. -/
def Chip.lockstep (m : Chip) : Chip :=
  if !m.hasUnit 0x0F || !m.guard.core then m
  else
    let g := m.guard.outs.foldl (fun a e => a.latch e.1 7) m.guard
    ((m.setGuard { g with core := false }).put R.GUARD_STAT_CORE 0).post (ev 0x0F 0x0D06 4 0 0 [])

/-- GUARD_SUPPLY_LOSS and GUARD_SUPPLY_RETURN (R475): outputs unpowered, the link silent; after its return the die is held in guard reset until
the next start of PD2. -/
def Chip.guardSupply (m : Chip) (back : Bool) : Chip :=
  if !m.hasUnit 0x0F || m.guard.power == back then m
  else (if m.guard.linkUp then m.linkLost else m).guardHold back

/-! ### Commands -/

def execGuardEvaluation (samples : List (BitVec 16 × BitVec 16)) (rb : Byte) (s : State) : Host.Outcome State Fault Refusal :=
  s.actAll (·.guardEval samples rb.toNat)
def execOffPulse (o : Fin 8) (ok : Bool) (s : State) : Host.Outcome State Fault Refusal := s.actAll (·.offPulse o.val ok)
def execReadbackFault (o : Fin 8) (s : State) : Host.Outcome State Fault Refusal := s.actAll (·.readback o.val)
def execTableState (agree : Bool) (s : State) : Host.Outcome State Fault Refusal := s.act (·.guardTable agree)
def execDiscrepancyTimeout (i : Fin 16) (s : State) : Host.Outcome State Fault Refusal := s.actAll (·.discrepancy i.val)
def execCoreLinkFrame (s : State) : Host.Outcome State Fault Refusal := s.act Chip.coreFrame
def execLinkFrameReceive (permits requests : Byte) (seq : Word) (ok : Bool) (s : State) : Host.Outcome State Fault Refusal :=
  s.actAll (·.linkFrame permits requests seq ok)
def execGuardLinkTimeout (s : State) : Host.Outcome State Fault Refusal := s.actAll Chip.linkTimeout
def execLockstepMismatch (s : State) : Host.Outcome State Fault Refusal := s.act Chip.lockstep
def execDisagreeTimeout (o : Fin 8) (s : State) : Host.Outcome State Fault Refusal := s.actAll (·.disagree o.val)
def execGuardSupplyLoss (s : State) : Host.Outcome State Fault Refusal := s.actAll (·.guardSupply false)
def execGuardSupplyReturn (s : State) : Host.Outcome State Fault Refusal := s.actAll (·.guardSupply true)

end Sys2Proof.Machine
end

