-- ==== Sys2Proof/Machine/Panel.lean ====
section
/-! DEFINITION. The cabinet status panel (chapter 22): requests, passes, lines, the integrity record, the crack loop. -/

namespace Sys2Proof.Machine

open Sys2Proof

def Chip.setPanel (m : Chip) (x : Panel) : Chip := m.withPanel x

/-- Whether the panel driver runs. -/
def Chip.panelRuns (m : Chip) : Bool := m.hasUnit 0x11 && m.on R.PANEL_CTL_EN && m.pdReady 15

/-- Report a completed request. -/
def Chip.panelDone (m : Chip) (code : Half) : Chip := (m.put R.PANEL_RES_DONE 1).put R.PANEL_RES_CODE code.toNat

/-- A row of an image. -/
def rowBytes (image : List Byte) (y : Nat) : List Byte := (image.drop (30 * y)).take 30

/-- Byte 29 of a row of the restart marker: border bright, inside dark. -/
def markByte (y : Nat) : Byte := if y = 0 ∨ y = 7 then 0xFF else 0x81

/-- The image as drawn: with the restart marker while MARK is 1 (R453). -/
def Chip.drawn (m : Chip) (image : List Byte) : List Byte :=
  if m.on R.PANEL_STAT_MARK then (List.range 8).foldl (fun l y => l.set (30 * y + 29) (markByte y)) image else image

/-- The rows that a pass writes (R447). -/
def Chip.passRows (m : Chip) (r : PanelReq) : List Nat :=
  match m.panel.image with
  | some old => if r.full || m.panel.full then List.range 96 else (List.range 96).filter (fun y => rowBytes old y != rowBytes r.image y)
  | none => List.range 96

/-- Write the integrity record. -/
def Chip.panelRecord (m : Chip) (started : Bool) (gen row : Nat) : Chip :=
  ((m.setPanel { m.panel with started := started, gen := gen, row := row }).put R.PANEL_STAT_GEN gen).put R.PANEL_STAT_ROW row

/-- A pass ends: the record, its completion, and where it ended with OK its image is the one the next pass is compared with. -/
def Chip.passEnd (m : Chip) (r : PanelReq) (code : Half) : Chip :=
  let m1 := m.panelRecord false m.panel.gen m.panel.row
  let p := { m1.panel with run := none }
  let p1 := if code = CC.ok then { p with image := some r.image, full := false } else if code = CC.cancelled then { p with full := true } else p
  ((m1.setPanel p1).put R.PANEL_STAT_BUSY 0).panelDone code

/-- Start a pass; one without a row to write ends at once. -/
def Chip.passStart (m : Chip) (r : PanelReq) : Chip :=
  let rows := m.passRows r
  let m1 := (m.setPanel { m.panel with run := some (r, rows, CC.ok) }).panelRecord true r.gen m.panel.row
  if rows.isEmpty then m1.passEnd r CC.ok else m1.put R.PANEL_STAT_BUSY 1

/-- PANEL_UPDATE: the command word names FULL and the generation. -/
def Chip.panelUpdate (m : Chip) (w : Word) : Chip :=
  if !m.hasUnit 0x11 then m
  else
    let a := m.get R.PANEL_SRC_HI_ADDR * 2 ^ 32 + m.get R.PANEL_SRC_LO
    let m1 := m.put R.PANEL_RES_ACC 0
    if !m.unitOpen UK.panel then m1.panelDone CC.cancelled
    else if !m.on R.PANEL_CTL_EN || m.on R.PANEL_STAT_CRACK || a % 64 != 0 || !m.inShared a 2880 then m1.panelDone CC.checkFailed
    else
      let r : PanelReq := { image := m.drawn (m.bytes .dram a 2880), gen := fieldOf R.PANEL_CMD_GEN w, full := fieldOf R.PANEL_CMD_FULL w == 1 }
      let m2 := m1.put R.PANEL_RES_ACC 1
      match m.panel.run with
      | none => m2.passStart r
      | some _ =>
        let m3 := if m.panel.pend.isSome then m2.panelDone CC.superseded else m2
        (m3.setPanel { m3.panel with pend := some r }).put R.PANEL_STAT_PENDING 1

/-- What the columns carry for a row: its data bits and, for each pixel, its polarity (R449, R450). -/
def Chip.lineBits (m : Chip) (r : PanelReq) (y : Nat) : List Nat :=
  let phase := AMap.get false m.panel.phases y
  let inv := m.get R.PANEL_CTL_INV
  let row := rowBytes r.image y
  (List.range (m.get R.PANEL_CHAIN_COL_BITS)).map (fun x =>
    if 240 ≤ x then 0
    else
      let data := (row.getD (x / 8) 0).getLsbD (x % 8)
      let odd := if inv = 0 then 0 else if inv = 1 then y % 2 else (x + y) % 2
      bit data * 2 + bit (phase != (odd == 1)))

/-- PANEL_LINE: a line completes; then the next line, or the end of the pass and the pending request's pass. -/
def Chip.panelLine (m : Chip) : Chip :=
  match m.panel.run with
  | none => m
  | some (r, rows, code) =>
    match rows with
    | [] => m
    | y :: rest =>
      if !m.panelRuns then m
      else
        let m1 := m.emit (.frame 0x11 0 "LINE" (y :: m.lineBits r y))
        let p := { m1.panel with run := some (r, rest, code), phases := AMap.put false y (!AMap.get false m1.panel.phases y) m1.panel.phases }
        let m2 := (m1.setPanel p).panelRecord true r.gen y
        if !rest.isEmpty then m2
        else
          let m3 := m2.passEnd r code
          match m3.panel.pend with
          | none => m3
          | some n =>
            let m4 := (m3.setPanel { m3.panel with pend := none }).put R.PANEL_STAT_PENDING 0
            if code = CC.ok then m4.passStart n else m4.panelDone code

/-- End the running pass at its line boundary, and the pending request, with a code. -/
def Chip.panelStop (m : Chip) (code : Half) : Chip :=
  match m.panel.run with
  | some (r, rows, _) => m.setPanel { m.panel with run := some (r, rows.take 1, code) }
  | none => m

/-- PANEL_CRACK. -/
def Chip.panelCrack (m : Chip) : Chip :=
  if !m.panelRuns || !m.on R.PANEL_CTL_CRK_EN || m.on R.PANEL_STAT_CRACK then m
  else ((m.put R.PANEL_STAT_CRACK 1).post (ev 0x11 0x1001 3 0 0 (le 1 1))).panelStop CC.checkFailed

/-- CRK_CLR; `edges` says that the loop has shown edges for 1 s. -/
def Chip.crackClear (m : Chip) (edges : Bool) : Chip :=
  if m.on R.PANEL_STAT_CRACK && edges then (m.put R.PANEL_STAT_CRACK 0).post (ev 0x11 0x1001 3 0 0 (le 1 0)) else m

/-- MARK_CLR: the next pass is full. -/
def Chip.markClear (m : Chip) : Chip :=
  if m.on R.PANEL_STAT_MARK then (m.put R.PANEL_STAT_MARK 0).setPanel { (m.put R.PANEL_STAT_MARK 0).panel with full := true } else m

/-- What still runs is cancelled, and the outputs go low (R455). -/
def Chip.panelCancel (m : Chip) : Chip :=
  let m1 := match m.panel.run with
    | some (r, _, _) => m.passEnd r CC.cancelled
    | none => m
  let m2 := if m1.panel.pend.isSome then m1.panelDone CC.cancelled else m1
  (m2.setPanel { m2.panel with pend := none, full := true }).put R.PANEL_STAT_PENDING 0

/-- A start of PD2 and PD15: phases at 0, the first pass full; a STARTED record sets MARK and is reported (R453). -/
def Chip.panelStart (m : Chip) : Chip :=
  if !m.hasUnit 0x11 then m
  else
    let p := m.panel
    let m1 := m.setPanel { started := p.started, gen := p.gen, row := p.row }
    let m2 := (m1.put R.PANEL_STAT_GEN p.gen).put R.PANEL_STAT_ROW p.row
    if p.started then (m2.put R.PANEL_STAT_MARK 1).post (ev 0x11 0x1000 1 0 0 (le 2 p.gen ++ le 1 p.row)) else m2

/-- C9 of the panel (R456). -/
def Chip.panelC9 (n : Chip) : Option Verdict :=
  let clk := n.get R.PANEL_TIMING_CLK
  let drive := n.get R.PANEL_TIMING_DRIVE_US
  let line := n.get R.PANEL_TIMING_LINE_US
  let col := n.get R.PANEL_CHAIN_COL_BITS
  let row := n.get R.PANEL_CHAIN_ROW_BITS
  let bad := fun (a : Nat) => (some ⟨CC.checkFailed, 9, 0x11, BitVec.ofNat 64 a⟩ : Option Verdict)
  if n.get R.PANEL_CTL_INV = 3 then bad R.PANEL_CTL.addr
  else if clk < 1 ∨ 10 < clk ∨ drive < 100 ∨ 1900 < drive ∨ line < 200 ∨ 2000 < line then bad R.PANEL_TIMING.addr
  else if col < 240 ∨ 256 < col ∨ row < 96 ∨ 128 < row then bad R.PANEL_CHAIN.addr
  else if line * clk < 2 * col + (drive + 20) * clk then bad R.PANEL_TIMING.addr
  else none

/-! ### Commands -/

def execPanelUpdate (w : Word) (s : State) : Host.Outcome State Fault Refusal := s.act (·.panelUpdate w)
def execPanelLine (s : State) : Host.Outcome State Fault Refusal := s.act Chip.panelLine
def execPanelCrack (s : State) : Host.Outcome State Fault Refusal := s.act Chip.panelCrack
def execMarkClr (s : State) : Host.Outcome State Fault Refusal := s.act Chip.markClear
def execCrkClr (edges : Bool) (s : State) : Host.Outcome State Fault Refusal := s.act (·.crackClear edges)

end Sys2Proof.Machine
end

