-- ==== Sys2Proof/Machine/Units.lean ====
section
/-! DEFINITION. Disabling and enabling units (R19 to R21, R156, R193, R273, R294, R331, R389, R444, R455): the four steps of drain before dark. -/

namespace Sys2Proof.Machine

open Sys2Proof

/-- The power domain of a unit key. -/
def unitDomain (u : Nat) : Nat :=
  if u < 2 then 3 + u else if u < 6 then 3 + u else if u = 6 then 13 else if u < 9 then 12 else if u = 9 then 11 else if u = 10 then 14
  else if u < 24 then 9 else if u < 80 then 10 else 15

/-- The unit number of Table 1-3 that a key belongs to. -/
def unitNumber (u : Nat) : Nat :=
  if u < 2 then 4 else if u < 6 then 0x0A else if u = 6 then 0x0B else if u = 7 then 0x0C else if u = 8 then 0x0D else if u = 9 then 0x10
  else if u = 10 then 0x0E else if u < 24 then 7 else if u < 48 then 8 else if u < 80 then 9 else 0x11

/-- Whether the variant has the unit of a key. -/
def Chip.keyPresent (m : Chip) (u : Nat) : Bool :=
  decide (u ≤ 80) && m.hasUnit (unitNumber u) &&
    (if 24 ≤ u ∧ u < 40 then decide (u - 24 < m.t1sN) else if 40 ≤ u ∧ u < 48 then decide (u - 40 < m.plcN)
     else if 48 ≤ u ∧ u < 80 then decide (u - 48 < m.canN) else true)

/-- The tasks of a scan cluster. -/
def Chip.clusterTasks (m : Chip) (k : Nat) : List Nat :=
  (m.scan.tasks.filter (fun e => e.2.ent.core / 16 == k)).map (·.1)

/-- The unit's DISABLED status bit, where it has one. -/
def Chip.disabledBit (m : Chip) (u : Nat) (v : Bool) : Chip :=
  if u = UK.lamp then m.put R.LAMP_STAT_DISABLED (bit v)
  else if u = UK.loop then m.put R.LOOP_STAT_DISABLED (bit v)
  else if u = UK.meter then m.put R.METER_STAT_DISABLED (bit v)
  else if u = UK.vault then m.put R.VAULT_STAT_DISABLED (bit v)
  else if u = UK.sadl then m.put R.SADL_STAT_DISABLED (bit v)
  else if u = UK.panel then m.put R.PANEL_STAT_DISABLED (bit v)
  else if 48 ≤ u ∧ u < 80 then m.put (R.CAN_STAT_DISABLED (u - 48)) (bit v)
  else m

/-! ### The request (R19 step 1) -/

/-- What a unit does on the edge that accepts the request. -/
def Chip.drainStart (m : Chip) (u : Nat) : Chip :=
  if u < 2 then (m.clusterTasks u).foldl (fun a t => if a.tState t = TS.idle ∧ (a.task t).swap.isNone then a.setTState t TS.held else a) m
  else if u = UK.panel then m.panelStop CC.cancelled
  else if 24 ≤ u ∧ u < 48 then m.setEgress (if u < 40 then u - 24 else u - 40 + 64) []
  else m

/-- UNIT_DISABLE_REQUEST. -/
def Chip.unitDisable (m : Chip) (u : Nat) : Chip :=
  if !m.keyPresent u || !m.unitOpen u then m
  else (m.setUnitRun u { draining := true }).drainStart u

/-! ### Work in flight (R19 step 2, R21) -/

/-- Whether work is in flight in a draining unit. -/
def Chip.unitBusy (m : Chip) (u : Nat) : Bool :=
  if u < 2 then (m.clusterTasks u).any m.inCycle
  else if u < 6 then m.plan.round.isSome && decide (u - 2 < m.get R.RIDGE_STAT_QGRANT ∧ m.get R.PLAN_STAT_PHASE ≠ 8)
  else if u = UK.vault then !m.vault.queue.isEmpty
  else if 48 ≤ u ∧ u < 80 then (m.can (u - 48)).bus.isSome
  else if u = UK.panel then m.panel.run.isSome
  else false

/-- End what is still in flight with CANCELLED_DISABLE. A hand-off that has begun goes on; a release that waits for its snapshot is
cancelled and not counted (R156). -/
def Chip.drainCancel (m : Chip) (u : Nat) : Chip :=
  if u < 2 then
    (m.clusterTasks u).foldl (fun a t =>
      let st := a.tState t
      if st = TS.snapshot then a.settleTask t
      else if st = TS.ready then a.abandonTask t
      else if st = TS.running then (a.setCore (a.get (R.SCAN_TS_STATE_CORE t)) {}).abandonTask t
      else a) m
  else if u < 6 then m.planCancel
  else if u = UK.vault then m.vaultCancel
  else if 48 ≤ u ∧ u < 80 then m.setCan (u - 48) { m.can (u - 48) with bus := none }
  else if u = UK.panel then m.panelCancel
  else m

/-- DRAIN_LIMIT_EXPIRY. -/
def Chip.drainLimit (m : Chip) (u : Nat) : Chip := if (m.unitRun u).draining then m.drainCancel u else m

/-! ### DISABLED (R19 steps 3 and 4) -/

/-- What a unit does as its drain ends. `l` is what the metering DSP has integrated up to its last sample (R294). -/
def Chip.drainEnd (m : Chip) (u : Nat) (l : List Energy) : Chip :=
  if u = UK.lamp then m.lampDisable
  else if u = UK.loop then m.loopDisable
  else if u = UK.meter then m.meterDisable l
  else if u = UK.sadl then m.sadlDisable
  else if u = UK.panel then m.panelCancel
  else if 11 ≤ u ∧ u < 15 then
    let p := u - 11
    let m1 := m.linkSet (R.UPL_P_STAT_LINK p) p false
    let m2 := m1.setUpl { m1.upl with masters := m1.upl.masters.filter (fun x => x.port != p), delay := AMap.put none p none m1.upl.delay }
    let nbrs := m2.stations.filter (fun n => (m2.staEnt n).medium == 4 && m2.uplinkOf (m2.staEnt n).addr == p)
    (nbrs.foldl Chip.staCancel m2).ptpSelect (nbrs.foldl Chip.staCancel m2).bestMaster
  else if 15 ≤ u ∧ u < 23 then (m.linkSet (R.UPL_SG_STAT_LINK (u - 15)) (u + 1) false).portCancel 1 (u - 15)
  else if u = UK.pcie then m.pcieDown
  else if 24 ≤ u ∧ u < 40 then (m.setSeg (u - 24) {}).portCancel 0 (u - 24)
  else if 40 ≤ u ∧ u < 48 then ((m.setPlc (u - 40) {}).put (R.FLD_PLC_STAT_COORD (u - 40)) 0).portCancel 2 (u - 40)
  else if 48 ≤ u ∧ u < 80 then (m.canDisable (u - 48)).portCancel 3 (u - 48)
  else m

/-- The event that a disabled unit posts. The spec gives it neither a code nor a severity: both are free (notes/assumptions/58.md). -/
def Chip.postDisabled (m : Chip) (u : Nat) : Chip :=
  let (v, m1) := m.fresh
  m1.post (ev (unitNumber u) (v.extractLsb' 0 16) (v.toNat / 65536 % 5) 0 0 [])

/-- The keys of the present units of a domain. -/
def Chip.domainUnits (m : Chip) (d : Nat) : List Nat := (List.range 81).filter (fun u => unitDomain u == d && m.keyPresent u)

/-- Switch a domain off where no unit in it is still enabled; what PD12 holds of the loops is lost with it (R273). -/
def Chip.domainDark (m : Chip) (d : Nat) : Chip :=
  if !m.pdOn d || (m.domainUnits d).any (fun u => !(m.unitRun u).disabled) then m
  else
    let m1 := m.domainOff d
    let m2 := if d = 3 ∨ d = 4 then m1.put (R.RIDGE_SCAN_CLK_CUR (d - 3)) 0 else m1
    (if d = 12 then (m2.withLoop { m2.loop with loops := [] }) else m2).stepVcore

/-- DRAIN_COMPLETE. Where an enable is held, the domain is not switched off. -/
def Chip.drainDone (m : Chip) (u : Nat) (l : List Energy) : Chip :=
  let r := m.unitRun u
  if !r.draining || m.unitBusy u then m
  else
    let m1 := m.drainEnd u l
    let m2 := ((m1.setUnitRun u { disabled := true, heldEnable := r.heldEnable }).disabledBit u true).postDisabled u
    if r.heldEnable then m2 else m2.domainDark (unitDomain u)

/-! ### Enabling (R20) -/

/-- What a unit does as it is enabled. -/
def Chip.unitStart (m : Chip) (u : Nat) : Chip :=
  if u < 2 then (m.clusterTasks u).foldl (fun a t => if a.tState t = TS.held then (a.anchor t).setTState t TS.idle else a) m
  else if u = UK.lamp then m.lampEnable
  else if u = UK.loop then m.loopEnable
  else if u = UK.meter then m.meterEnable
  else if 24 ≤ u ∧ u < 40 then (if m.segOn (u - 24) then m.segStart (u - 24) else m)
  else if 40 ≤ u ∧ u < 48 then (if m.plcOn (u - 40) then m.plcStart (u - 40) else m)
  else if 48 ≤ u ∧ u < 80 then (if m.on (R.CAN_CFG_EN (u - 48)) && m.pdReady 10 then m.canStart (u - 48) else m)
  else if 11 ≤ u ∧ u < 15 then m.ptpShow
  else m

/-- Whether a unit's domain stays on without a job in it. -/
def standing (d : Nat) : Bool := [3, 4, 9, 10, 12, 14, 15].contains d

/-- Carry out an enable: the domain is asked for, and the unit starts. -/
def Chip.enableNow (m : Chip) (u : Nat) : Chip :=
  let d := unitDomain u
  let m1 := (m.setUnitRun u {}).disabledBit u false
  (if standing d then m1.domainOn d else m1).unitStart u

/-- UNIT_ENABLE_REQUEST: held while the unit drains. -/
def Chip.unitEnable (m : Chip) (u : Nat) : Chip :=
  let r := m.unitRun u
  if r.draining then m.setUnitRun u { r with heldEnable := true }
  else if r.disabled then m.enableNow u
  else m

/-- Held enables are carried out once DISABLED has been set for a spine clock. -/
def Chip.heldEnables (m : Chip) : Chip :=
  (m.units.filter (fun e => e.2.disabled && e.2.heldEnable)).foldl (fun a e => a.enableNow e.1) m

/-! ### Commands -/

def execUnitDisableRequest (u : Fin 81) (s : State) : Host.Outcome State Fault Refusal := s.act (·.unitDisable u.val)
def execDrainLimitExpiry (u : Fin 81) (s : State) : Host.Outcome State Fault Refusal := s.act (·.drainLimit u.val)
def execDrainComplete (u : Fin 81) (l : List Energy) (s : State) : Host.Outcome State Fault Refusal := s.act (·.drainDone u.val l)
def execUnitEnableRequest (u : Fin 81) (s : State) : Host.Outcome State Fault Refusal := s.act (·.unitEnable u.val)

end Sys2Proof.Machine
end

