-- ==== Sys2Proof/Machine/Clock.lean ====
section
/-! DEFINITION. One edge of the spine clock (R13, R314): what happens on it whatever is commanded. The step takes an edge where no command waits
(notes/assumptions/6.md). -/

namespace Sys2Proof.Machine

open Sys2Proof

/-- The spine period in quarters of a nanosecond: 1.25 ns at 800 MHz, 10 ns at 100 MHz. -/
def Chip.period (m : Chip) : Nat := if m.clk.fast then 5 else 40

/-- League time on the next edge: PLL_AUX ticks 0.24576 times in 1.25 ns, each adding the rate word. -/
def Chip.edge (m : Chip) : Chip :=
  let p := m.clk.auxPhase + m.period * 24576 / 5
  m.withClk { m.clk with mono := m.clk.mono + m.period, auxPhase := p % 100000, league := m.clk.league + p / 100000 * m.clk.rate }

/-- The TIME stream of the active of a pair: a frame for every millisecond (Table 18-2). -/
def Chip.timeStream (m : Chip) (before : Nat) : Chip :=
  if before / 4000000 = m.clk.mono / 4000000 then m
  else m.stream "TIME" [m.now, bit m.trusted, m.get R.UPL_TIME_STAT_LOCKED, m.get R.UPL_UTC]

/-- One edge: the keeper counts; with PD2 on, league time advances, held enables are carried out and the TIME stream runs. -/
def Chip.tick (m : Chip) : Chip :=
  let m1 := m.rtcCount m.period
  if m1.pd2 then (m1.edge.timeStream m1.clk.mono).heldEnables else m1

end Sys2Proof.Machine
end

