-- ==== Sys2Proof/Machine/Governor.lean ====
section
/-! DEFINITION. The ridge governor's 1 ms evaluation (R224, R228, R229), the changes of device state between WATCH and WORK and the domains' ready and
idle edges (R220 to R223). HOLD, the thermal trip and the wake are in Machine/Power.lean. -/

namespace Sys2Proof.Machine

open Sys2Proof

/-! ### Target changes (R220) -/

/-- The domains that WATCH keeps on (Table 10-1). -/
def watchDomains : List Nat := [3, 9, 10, 12, 15]

/-- The target that holds: TARGET, not above the profile's CEIL. -/
def Chip.wantTarget (m : Chip) : Nat :=
  min (m.get R.RIDGE_CTL_TARGET) (m.get (R.RIDGE_PROF_LIM_CEIL (m.get R.RIDGE_STAT_PROFILE)))

/-- The target that the present state meets. -/
def Chip.nowTarget (m : Chip) : Nat := if m.get R.RIDGE_STAT_STATE = 2 then 1 else 2

/-- Whether bounded jobs still run. -/
def Chip.bounded (m : Chip) : Bool := m.ridge.jobs.any (fun j => j.cls != 3)

/-- What a change in progress does next: towards WATCH, once no bounded job runs, scan cluster B and uplinks 1 to 3 are disabled; towards HOLD every
unit of PD3 to PD15. -/
def Chip.changeStep (m : Chip) : Chip :=
  match m.ridge.changing with
  | some 1 => if m.bounded then m else [UK.scan 1, UK.uplink 1, UK.uplink 2, UK.uplink 3].foldl Chip.unitDisable m
  | some 0 => (List.range 81).foldl Chip.unitDisable m
  | _ => m

/-- A new target: it is held while a change is in progress. Towards WORK, PD4, the uplinks and the voltage are asked for. -/
def Chip.beginTarget (m : Chip) (v : Nat) : Chip :=
  if m.ridge.changing.isSome then (m.withRidge { m.ridge with held := some v })
  else if v = m.nowTarget then m
  else
    let m1 := (m.withRidge { m.ridge with changing := some v }).put R.RIDGE_STAT_CHANGING 1
    if v = 2 then ([UK.scan 1, UK.uplink 1, UK.uplink 2, UK.uplink 3].foldl Chip.unitEnable (m1.domainOn 4)).stepVcore else m1.changeStep

/-- The lasting upgrades of the clusters end without a revocation. -/
def Chip.endUpgrades (m : Chip) : Chip := m.setJobs (m.ridge.jobs.filter (fun j => j.cls != 3))

/-- Take the clocks that the state and the upgrades give. -/
def Chip.retuneClocks (m : Chip) : Chip :=
  [0, 1].foldl (fun a c =>
    if !a.pdReady (3 + c) then a
    else a.setClock c (if a.ridge.jobs.any (fun j => j.cls == 3 && j.owner == c) && a.baseClock c == a.get (R.RIDGE_SCAN_CLK_FLOOR c)
      then a.get (R.RIDGE_SCAN_CLK_CEIL c) else a.baseClock c)) m

/-- A change has ended in a state: the held target is taken up. -/
def Chip.changeEnd (m : Chip) (st : Nat) : Chip :=
  let h := m.ridge.held
  let m1 := ((m.withRidge { m.ridge with changing := none, held := none }).put R.RIDGE_STAT_CHANGING 0).setState st
  let m2 := (m1.showBurst).retuneClocks.stepVcore
  match h with
  | some v => m2.beginTarget v
  | none => m2

/-- TARGET_CHANGE_DONE between WATCH and WORK: WORK once PD4 is ready and VDD_CORE has risen, WATCH once cluster B and the uplinks are
disabled. -/
def Chip.changeDone (m : Chip) : Chip :=
  match m.ridge.changing with
  | some 2 =>
    if m.pdReady 4 && m.ridge.vcoreTo.isNone && decide (1 ≤ m.get R.RIDGE_STAT_VCORE) then
      (m.withClk { m.clk with fast := true }).changeEnd 3
    else m
  | some 1 =>
    if [UK.scan 1, UK.uplink 1, UK.uplink 2, UK.uplink 3].all (fun u => (m.unitRun u).disabled) then
      ((m.withClk { m.clk with fast := false }).endUpgrades).changeEnd 2
    else m.changeStep
  | _ => m

/-- An apply edge that changes RIDGE registers; while the boot runs, its target waits for the end of the boot. -/
def Chip.ridgeApplied (m old : Chip) : Chip :=
  let m1 := if m.get R.RIDGE_CTL_TARGET ≠ old.get R.RIDGE_CTL_TARGET ∧ !m.booting then m.beginTarget m.wantTarget else m
  if [0, 1].all (fun c => m1.reg (R.RIDGE_SCAN_CLK c).addr == old.reg (R.RIDGE_SCAN_CLK c).addr) then m1 else m1.retuneClocks

/-- The state after boot: the domains of WATCH, PD4 too for WORK, and the target that the boot commit applied. -/
def Chip.bootDomains (m : Chip) : Chip :=
  let l := watchDomains ++ (if m.wantTarget = 2 then [4] else []) ++ (if m.on R.SADL_CTL_EN && m.hasUnit 0x0E then [14] else [])
  (l.foldl Chip.domainOn m).beginTarget m.wantTarget

/-- C9 of the governor. -/
def Chip.ridgeC9 (n : Chip) : Option Verdict :=
  let bad := fun (f : FRef) => (some ⟨CC.checkFailed, 9, 2, BitVec.ofNat 64 f.addr⟩ : Option Verdict)
  let tag := BitVec.ofNat 40 (n.get R.RIDGE_SUPPLY_TAG_HI % 256 * 2 ^ 32 + n.get R.RIDGE_SUPPLY_TAG_LO)
  let r := n.get R.RIDGE_THERM_RIDGE
  let b := n.get R.RIDGE_THERM_BAND
  let ceil := fun (s : Nat) => n.get (R.RIDGE_PROF_LIM_CEIL s)
  let q := fun (s : Nat) => n.get (R.RIDGE_PROF_PLAN_QMAX s)
  let lo := fun (c : Nat) => n.get (R.RIDGE_SCAN_CLK_FLOOR c)
  let hi := fun (c : Nat) => n.get (R.RIDGE_SCAN_CLK_CEIL c)
  if n.get R.RIDGE_CTL_TARGET = 3 then bad R.RIDGE_CTL
  else if n.get R.RIDGE_BUCKET_CAP = 0 then bad R.RIDGE_BUCKET
  else if r < 60 ∨ 105 < r ∨ b < 2 ∨ 30 < b then bad R.RIDGE_THERM
  else if tag ≠ 0 ∧ (!n.local tag || n.outOfRange tag) then bad R.RIDGE_SUPPLY_TAG_LO
  else match [0, 1, 2].find? (fun s => !(ceil s == 1 || ceil s == 2)) with
    | some s => bad (R.RIDGE_PROF_LIM s)
    | none => match [0, 1, 2].find? (fun s => !([0, 1, 2, 4].contains (q s)) || decide (600 < n.get (R.RIDGE_PROF_PLAN_LEAD_ADD s))) with
      | some s => bad (R.RIDGE_PROF_PLAN s)
      | none => match [0, 1].find? (fun c => decide (lo c < 4 ∨ hi c < lo c ∨ 12 < hi c)) with
        | some c => bad (R.RIDGE_SCAN_CLK c)
        | none => none

/-! ### Domains (R221, R223) -/

/-- DOMAIN_READY: the domain that is switching reports ready, its units start, and the next switch-on begins. -/
def Chip.domainReady (m : Chip) (d : Nat) : Chip :=
  match m.ridge.switching with
  | [] => m
  | h :: rest =>
    if h ≠ d then m
    else
      let m1 := (m.withRidge { m.ridge with switching := rest }).setPdReady d true
      let m2 := match rest with
        | n :: _ => m1.setPdOn n true
        | [] => m1
      let m3 := if d = 3 ∨ d = 4 then m2.setClock (d - 3) (m2.baseClock (d - 3)) else m2
      if d = 10 then (m3.fldStart).canPower
      else if d = 12 then (if m3.unitOpen UK.loop then m3.loopsOn.foldl Chip.loopStart m3 else m3)
      else m3

/-- Whether a job runs in a gated domain. -/
def Chip.domainUsed (m : Chip) (d : Nat) : Bool :=
  if 5 ≤ d ∧ d ≤ 8 then m.ridge.jobs.any (fun j => j.cls == 0 && decide (d - 5 < j.q)) || m.ridge.wantQ.contains d
  else if d = 11 then !m.vault.queue.isEmpty || m.ridge.jobs.any (fun j => j.cls == 7)
  else if d = 13 then m.ridge.jobs.any (fun j => j.cls == 2 || j.cls == 6)
  else if d = 14 then m.paired
  else true

/-- DOMAIN_IDLE_GATE: a gated domain in which no job has run for IDLE_MS. -/
def Chip.idleGate (m : Chip) (d : Nat) : Chip :=
  let wait := max 1 (m.get R.RIDGE_CTL_IDLE_MS) * 1000000
  if m.on R.RIDGE_CTL_GATE_EN && m.pdOn d && !m.domainUsed d && decide (AMap.get 0 m.ridge.idleAt d + wait ≤ m.monoNs) then (m.domainOff d).stepVcore
  else m

/-! ### The evaluation (R224, R228, R229) -/

/-- The zone that a temperature (0.25 °C) lies in: 0 COOL, 1 BAND, 2 ABOVE, 3 HOT. -/
def Chip.zoneAt (m : Chip) (t : Int) : Nat :=
  let r : Int := 4 * m.get R.RIDGE_THERM_RIDGE
  if 424 ≤ t then 3 else if r ≤ t then 2 else if r - 4 * m.get R.RIDGE_THERM_BAND < t then 1 else 0

/-- A change of zone: HOT disables the quadrants, the lighting engine, the vault and the saddle link and ends a round; they are enabled again as HOT
ends. -/
def Chip.zoneChange (m : Chip) (z : Nat) (t : Int) : Chip :=
  let old := m.get R.RIDGE_STAT_ZONE
  if z = old then m
  else
    let m1 := (m.put R.RIDGE_STAT_ZONE z).post
      (ev 2 0x0402 (if 2 ≤ z ∧ old < z then 2 else 0) 0 0 (le 1 old ++ le 1 z ++ le 2 (BitVec.ofInt 16 t).toNat))
    let hot := [UK.quad 0, UK.quad 1, UK.quad 2, UK.quad 3, UK.lamp, UK.vault, UK.sadl]
    let m2 := if z = 3 then
        let a := if m1.plan.round.isSome then m1.jobCancelled 0 1 else m1
        hot.foldl Chip.unitDisable a
      else if old = 3 then
        let top := m1.get (R.RIDGE_PROF_PLAN_QMAX (m1.get R.RIDGE_STAT_PROFILE))
        (hot.filter (fun u => !(decide (2 ≤ u ∧ u < 6) && decide (top ≤ u - 2)))).foldl Chip.unitEnable m1
      else m1
    m2.retuneClocks

/-- The profile that the supply point selects, and whether the point was unusable. -/
def Chip.supplyProfile (m : Chip) : Nat × Bool × Chip :=
  let tag := BitVec.ofNat 40 (m.get R.RIDGE_SUPPLY_TAG_HI % 256 * 2 ^ 32 + m.get R.RIDGE_SUPPLY_TAG_LO)
  if tag = 0 then (0, false, m)
  else
    let (c, r, m1) := m.ptRead .units tag
    let v := r.getD unboundRec
    let d := m1.descOfRec v
    if c = CC.ok ∧ Q.state v.quality < 2 ∧ (d.typ = 2 ∨ d.typ = 3) ∧ v.value.toNat ≤ 2 then (v.value.toNat, false, m1) else (1, true, m1)

/-- Set the profile that the evaluation has found; what a change does to lasting jobs, a running round and the target. -/
def Chip.profileChange (m : Chip) (p : Nat) (unk : Bool) : Chip :=
  let old := m.get R.RIDGE_STAT_PROFILE
  let m1 := (m.put R.RIDGE_STAT_PROFILE p).put R.RIDGE_STAT_SUP_UNK (bit unk)
  if p = old then m1
  else
    let tag := m1.get R.RIDGE_SUPPLY_TAG_HI % 256 * 2 ^ 32 + m1.get R.RIDGE_SUPPLY_TAG_LO
    let lim := min (m1.get R.RIDGE_CAB_LIMIT_LIMIT) (min (m1.get (R.RIDGE_PROF_LIM_LIMIT p)) 48000)
    let m2 := (m1.planProfile).setJobs m1.ridge.jobs
    let m3 := Chip.revokeWhile (fun a => decide (lim < a.ridge.pBase + a.draws)) m2.lasting m2
    let q := m3.get (R.RIDGE_PROF_PLAN_QMAX p)
    let grant := m3.get R.RIDGE_STAT_QGRANT
    let m4 := if q < grant ∧ m3.plan.round.isSome then
        ((List.range grant).filter (fun k => decide (q ≤ k))).foldl (fun a k => a.unitDisable (UK.quad k)) (m3.jobCancelled 0 0)
      else m3
    let m5 := if m4.get R.RIDGE_STAT_ZONE = 3 then m4 else
      ((List.range 4).filter (fun k => decide (k < q))).foldl (fun a k => a.unitEnable (UK.quad k)) m4
    let m6 := if m5.wantTarget ≠ m5.nowTarget ∨ m5.ridge.changing.isSome then m5.beginTarget m5.wantTarget else m5
    m6.post (ev 2 0x0401 1 0 tag (le 1 old ++ le 1 p ++ le 1 (bit unk)))

/-- The governor submits an upgrade for a cluster that is not upgraded, at most once per second (R229). -/
def Chip.upgrade (m : Chip) (c : Nat) : Chip :=
  let up := m.get (R.RIDGE_SCAN_CLK_CEIL c)
  let due := match assoc m.ridge.upAt c with
    | some t => decide (t + 1000000000 ≤ m.monoNs)
    | none => true
  if m.get R.RIDGE_STAT_STATE < 3 ∨ up ≤ m.get (R.RIDGE_SCAN_CLK_FLOOR c) ∨ !m.pdReady (3 + c) ∨ !due ∨
      m.ridge.jobs.any (fun j => j.cls == 3 && j.owner == c) then m
  else
    let m1 := m.withRidge { m.ridge with upAt := reassoc m.ridge.upAt c m.monoNs }
    match m1.admitJob { cls := 3, cost := 0, draw := m1.get (R.RIDGE_CLS_DRAW 3), owner := c } with
    | (.ok _, m2) => m2.setClock c up
    | (_, m2) => m2

/-- The power limit and the base power of an evaluation (R224, R227): the mean of the last 100 readings less the draws declared with them. -/
def Chip.takeReading (m : Chip) (p mw : Nat) : Chip :=
  let lim := min (m.get R.RIDGE_CAB_LIMIT_LIMIT) (min (m.get (R.RIDGE_PROF_LIM_LIMIT p)) 48000)
  let samples := ((mw, m.draws) :: m.ridge.samples).take 100
  let sum : Int := (samples.map (fun e => (e.1 : Int) - e.2)).sum
  m.withRidge { m.ridge with samples := samples, pBase := (max 0 (sum / samples.length)).toNat, pLim := lim }

/-- The bucket refills at the rate that the zone leaves of the power below the limit, and loses what lasting jobs draw (R224). -/
def Chip.refill (m : Chip) (z : Nat) (t : Int) : Chip :=
  let tr : Int := 4 * m.get R.RIDGE_THERM_RIDGE
  let bnd := 4 * m.get R.RIDGE_THERM_BAND
  let free := m.ridge.pLim - m.ridge.pBase
  let rate := if 2 ≤ z then 0 else if z = 1 then free * min bnd (tr - t).toNat / bnd else free
  (m.put R.RIDGE_RATE_MW rate).setLevel (min m.cap (m.ridge.level + rate - m.lastingDraws))

/-- With the bucket below zero, or at zone 2 or above, the last lasting job is revoked (R225). -/
def Chip.shedLast (m : Chip) (z : Nat) : Chip :=
  match m.lasting with
  | j :: _ => if m.ridge.level < 0 ∨ 2 ≤ z then m.revoke j else m
  | [] => m

/-- GOVERNOR_EVALUATION: `t` is the die temperature in 0.25 °C, `mw` the measured device power. -/
def Chip.evaluatePower (m : Chip) (t : Int) (mw : Nat) : Chip :=
  let m1 := (m.put R.RIDGE_STAT_TEMP (BitVec.ofInt 10 t).toNat).put R.RIDGE_POWER_MW mw
  let q := m1.supplyProfile
  let m3 := (q.2.2.profileChange q.1 q.2.1).takeReading q.1 mw
  let z := max (m3.zoneAt t) (min (m3.get R.RIDGE_STAT_ZONE) (m3.zoneAt (t + 8)))
  (((((m3.zoneChange z t).refill z t).shedLast z).changeStep).upgrade 0).upgrade 1

/-! ### Commands -/

def execGovernorEvaluation (t : BitVec 10) (mw : BitVec 17) (s : State) : Host.Outcome State Fault Refusal :=
  s.act (·.evaluatePower t.toInt mw.toNat)
def execDomainReady (d : Fin 16) (s : State) : Host.Outcome State Fault Refusal := s.act (·.domainReady d.val)
def execDomainIdleGate (d : Fin 16) (s : State) : Host.Outcome State Fault Refusal := s.act (·.idleGate d.val)

end Sys2Proof.Machine
end

