-- ==== Sys2Proof/Machine/Rules.lean ====
section
/-! DEFINITION. The consistency rules of a commit (Table 3-2): C1 to C8, the scan engine's, transaction engine's and metering's own rules of C9 (R138,
R162, R287, R298), and the order in which all rules are judged. The rules of the other units stand with their units. -/

namespace Sys2Proof.Machine

open Sys2Proof

/-! ### The state that a set would leave -/

/-- The bits of a register that are Staged. -/
def RegRow.stagedMask (r : RegRow) : Nat :=
  (r.fields.filter (·.staged)).foldl (fun a f => a ||| ((2 ^ (f.hi + 1) - 2 ^ f.lo))) 0

/-- The bits of a register that a field row covers. -/
def RegRow.known (r : RegRow) : Nat := r.fields.foldl (fun a f => a ||| ((2 ^ (f.hi + 1) - 2 ^ f.lo))) 0

/-- A register word with its Staged fields taken from another word. -/
def merge (a : Nat) (old new : Word) : Word :=
  match rowOf a with
  | some r => (old &&& ~~~(BitVec.ofNat 32 r.stagedMask)) ||| (new &&& BitVec.ofNat 32 r.stagedMask)
  | none => old

/-- The chip with a set's registers, table bytes and bank selectors in place. -/
def Chip.withSet (m : Chip) (b : Bank) : Chip := (b.regs.foldl (fun a e => a.setReg e.1 (merge e.1 (a.reg e.1) e.2)) m).withSwap b

/-- The unit whose block an offset lies in (R459). -/
def blockUnit (a : Nat) : Nat := a / 0x40000

/-- The unit of a table window. -/
def Win.unit : Win → Nat
  | .scanTask => 4 | .scanImap => 4 | .scanOmap => 4 | .scanImg => 4 | .guardIlt => 0xF | .uplAddr => 7 | .uplNbr => 7
  | .loopCfg => 0xC | .loopBank => 0xC | .loopCap => 0xC | .vaultImp => 0x10 | .plcAdm => 8 | .lampRcp => 0xB | .lampFix => 0xB
  | .lampZone => 0xB | .lampGrp => 0xB | .lampFw => 0xB | .meterChan => 0xD | .planOut => 0xA | .planElem => 0xA | .planBind => 0xA
  | .pointDesc => 5 | .pointBind => 5 | .txnSta => 6 | .txnRoute => 6

/-- Whether a set stages a register or table byte of a unit. -/
def Bank.touches (b : Bank) (u : Nat) : Bool :=
  b.regs.any (fun e => blockUnit e.1 == u) || b.bytes.any (fun e => e.1.unit == u)

/-- Whether a set stages bytes of a table. -/
def Bank.stages (b : Bank) (w : Win) : Bool := b.bytes.any (fun e => e.1 == w)

/-- The entries of a table that a set stages bytes of, in rising order. -/
def Bank.entries (b : Bank) (w : Win) (sz : Nat) : List Nat :=
  ((b.bytes.filter (fun e => e.1 == w)).map (fun e => e.2.1 / sz)).foldl (fun l i =>
    if l.contains i then l else l.filter (· < i) ++ i :: l.filter (i < ·)) []

/-- The unit's part that an offset belongs to is present: unit, CAN channel, T1S segment, PLC interface, waveform metering (R4, R5). -/
def Chip.present (m : Chip) (a : Nat) : Bool :=
  m.hasUnit (blockUnit a) &&
    (if blockUnit a = 9 then decide ((a - 0x240000) / 0x1000 < m.canN)
     else if blockUnit a = 8 then
       (if a < 0x200400 then decide ((a - 0x200000) / 0x40 < m.t1sN)
        else if 0x201000 ≤ a ∧ a < 0x201200 then decide ((a - 0x201000) / 0x40 < m.plcN) else true)
     else if 0x340100 ≤ a ∧ a < 0x340C00 then m.hasWave
     else true)

/-- The same for a byte of a table. -/
def Chip.presentAt (m : Chip) (w : Win) (off : Nat) : Bool :=
  m.hasUnit w.unit && (w != .plcAdm || decide (off / 16384 < m.plcN))

/-! ### C1 to C7 -/

/-- A rule that a register breaks. -/
def regFail (code : Half) (rule a : Nat) : Option Verdict := some ⟨code, rule, blockUnit a, BitVec.ofNat 64 a⟩

/-- A rule that a table byte breaks. -/
def winFail (code : Half) (rule : Nat) (w : Win) (off : Nat) : Option Verdict := some ⟨code, rule, w.unit, BitVec.ofNat 64 (w.obj off)⟩

def ruleC1 (b : Bank) : Option Verdict := if b.ovf then some ⟨CC.overflow, 1, 1, 0⟩ else none

/-- Whether a byte of LOOP_BANK belongs to the inactive bank of an enabled loop, which channel 3 alone stages (Table 3-1, R268). -/
def Chip.spareBank (m : Chip) (off : Nat) : Bool := (m.loopEnt (off / 2304)).enabled && off % 2304 / 1152 != m.loopBank (off / 2304)

/-- C2 on channel 0: what channels 1 to 3 alone may stage, and windows that take no staged writes. -/
def Chip.ruleC2 (m : Chip) (b : Bank) : Option Verdict :=
  match b.loops, b.frames, b.bytes.find? (fun e => e.1 == .lampFw || e.1 == .loopCap || (e.1 == .loopBank && m.spareBank e.2.1)) with
  | n :: _, _, _ => winFail CC.checkFailed 2 .loopBank (2304 * n)
  | [], h :: _, _ => some ⟨CC.checkFailed, 2, 0xB, h.zeroExtend 64⟩
  | [], [], some e => winFail CC.checkFailed 2 e.1 e.2.1
  | [], [], none => none

def Chip.ruleC3 (m : Chip) (b : Bank) : Option Verdict :=
  match b.regs.find? (fun e => !m.present e.1) with
  | some e => regFail CC.checkFailed 3 e.1
  | none => match b.bytes.find? (fun e => !m.presentAt e.1 e.2.1) with
    | some e => winFail CC.checkFailed 3 e.1 e.2.1
    | none => none

def ruleC4 (b : Bank) : Option Verdict :=
  match b.regs.find? (fun e => match rowOf e.1 with
      | some r => (e.2.toNat ||| r.known) != r.known
      | none => false) with
  | some e => regFail CC.checkFailed 4 e.1
  | none => none

/-- The kind of a register's row. -/
def regKind (a : Nat) : RKind := match rowOf a with | some r => r.kind | none => .plain

/-- C5 on registers: both words of a pair are staged and complement each other; `n` is the state the set would leave. Then the substitute pair of every
staged critical descriptor. -/
def Chip.ruleC5 (n : Chip) (b : Bank) : Option Verdict :=
  match b.regs.find? (fun e => match regKind e.1 with
      | .pairLo => (b.reg (e.1 + 4)) != some (~~~e.2)
      | .pairHi => (b.reg (e.1 - 4)).isNone
      | _ => false) with
  | some e => regFail CC.pairFault 5 e.1
  | none => match (b.entries .pointDesc 64).find? (fun i => (n.desc i).critical && !pairOk (n.desc i).sub (n.desc i).subc) with
    | some i => winFail CC.pairFault 5 .pointDesc (64 * i)
    | none => firstFail (b.points.map n.pointC5)

def Chip.ruleC6 (n : Chip) (b : Bank) : Option Verdict := firstFail (b.points.map n.pointC6)

/-- The tables whose entries carry a CRC: window, entry size, place of the CRC, and whether an entry is in use. -/
def crcTables : List (Win × Nat × Nat × (List Byte → Bool)) :=
  let flag := fun (l : List Byte) => (fld l 0 1).testBit 0
  let kind := fun (l : List Byte) => fld l 0 1 != 0
  let any := fun (l : List Byte) => l.any (· != 0)
  [(.scanTask, 64, 60, fun _ => true), (.pointDesc, 64, 60, fun _ => true), (.txnSta, 32, 28, flag), (.txnRoute, 32, 28, kind),
   (.uplAddr, 64, 60, any), (.uplNbr, 32, 28, flag), (.plcAdm, 32, 28, flag), (.planElem, 256, 252, any), (.lampFix, 32, 28, flag),
   (.lampZone, 128, 124, flag), (.lampGrp, 8, 4, fun l => (fld l 0 4).testBit 31), (.lampRcp, 176, 172, kind), (.loopCfg, 64, 60, any),
   (.meterChan, 32, 28, kind), (.guardIlt, 512, 508, fun _ => true)]

/-- C7: every staged entry in use has a CRC that verifies; descriptor 0 is no descriptor. -/
def Chip.ruleC7 (n : Chip) (b : Bank) : Option Verdict :=
  firstFail (crcTables.map (fun x =>
    let (w, sz, c, use) := x
    match (b.entries w sz).find? (fun i =>
        let l := n.bytes (.win w) (sz * i) sz
        !(w == .pointDesc && i == 0) && use l && fld l c 4 != (crc32c (l.take c)).toNat) with
    | some i => winFail CC.checkFailed 7 w (sz * i)
    | none => none))

/-! ### C8 (R40, R51, R60) -/

/-- Whether a descriptor meets R40. -/
def Desc.fit (d : Desc) : Bool :=
  decide (1 ≤ d.typ ∧ d.typ ≤ 7) && !(d.mode == 2 && !d.isFp) && decide (d.mode ≤ 3) && !(d.critical && d.clamp) &&
    (d.fresh == 0 || decide (d.fresh < d.loss)) && d.ok

/-- C8: rates, staged descriptors and those that staged bindings name, point writes. -/
def Chip.ruleC8 (n : Chip) (b : Bank) : Option Verdict :=
  let named := (b.entries .pointBind 8).map (fun i => (n.bindOf i).1)
  if 30 < n.get R.POINT_BG_SWEEP_RATE + n.get R.POINT_BG_SCRUB_RATE then regFail CC.checkFailed 8 R.POINT_BG.addr
  else match (b.entries .pointDesc 64 ++ named).find? (fun i => i != 0 && !(decide (i < 1048576) && (n.desc i).fit)) with
    | some i => winFail CC.checkFailed 8 .pointDesc (64 * i)
    | none => firstFail (b.points.map n.pointC8)

/-! ### C9 of the scan engine: col swaps (R160, R162, R171) -/

/-- Whether a word is WLI (Table 5-5). -/
def isWli (w : Word) : Bool := w.toNat / 2 ^ 27 == 6 && bits w.toNat 20 16 == 16

/-- Two codes agree but for the immediates of WLI; `st` is 0 before an instruction, 1 before an extension word, 2 before one of WLI. -/
def sameCode : Nat → List Word → List Word → Bool
  | _, [], [] => true
  | 0, x :: xs, y :: ys =>
    if isWli x && isWli y && !xBit x && !xBit y then (x.extractLsb' 16 16 == y.extractLsb' 16 16) && sameCode 0 xs ys
    else (x == y) && sameCode (if xBit x then (if isWli x then 2 else 1) else 0) xs ys
  | st, x :: xs, y :: ys => (st == 2 || x == y) && sameCode 0 xs ys
  | _, _, _ => false

/-- Reason 7: what a forerunner swap may change. -/
def forerunnerOk (old new : Image) : Bool :=
  sameCode 0 old.code new.code && old.entry == new.entry && old.dataSize == new.dataSize && old.inSize == new.inSize &&
    old.outSize == new.outSize && old.constSize == new.constSize && old.slots == new.slots && decide (new.values.length ≤ 1024) &&
    new.values.all (fun v => [1, 2, 4, 8].contains v.width && decide (v.off + v.width ≤ new.dataSize ∧ v.off % v.width = 0))

/-- Whether the applied SCAN_SWAP_COLD marks a task. -/
def Chip.coldMark (n : Chip) (t : Nat) : Bool := (n.reg (R.SCAN_SWAP_COLD (t / 32)).addr).getLsbD (t % 32)

/-- Whether a set stages content for an image. -/
def Bank.newImage (b : Bank) (p : Nat) : Bool := b.bytes.any (fun e => e.1 == .scanImg && e.2.1 / imgPage == p)

/-- The affected tasks of a set (R160), in rising order. -/
def Chip.affected (m n : Chip) (b : Bank) : List Nat :=
  (List.range 256).filter (fun t =>
    let o := m.taskEnt t
    let e := n.taskEnt t
    o.enabled && e.enabled && (o.image != e.image || b.newImage e.image || o.core != e.core))

/-- The tasks that a set enables. -/
def Chip.enabledBy (m n : Chip) : List Nat := (List.range 256).filter (fun t => !(m.taskEnt t).enabled && (n.taskEnt t).enabled)

/-- Place new runs first fit in the order given, beside the runs that stand: each task's base, or the first task that finds no gap. -/
def placeRuns : List (Nat × Nat) → List (Nat × Nat) → Except Nat (List (Nat × Nat))
  | _, [] => .ok []
  | runs, (t, n) :: rest =>
    match firstFit runs n with
    | none => .error t
    | some b => match placeRuns (if n = 0 then runs else (b, n) :: runs) rest with
      | .ok l => .ok ((t, b) :: l)
      | .error u => .error u

/-- The runs that stand at the apply edge of a set: those of tasks that it disables are freed. -/
def Chip.standingRuns (m n : Chip) : List (Nat × Nat) :=
  ((List.range 256).filterMap (fun t =>
    let c := m.get (R.SCAN_TS_SLOTS_COUNT t)
    if c = 0 || !(n.taskEnt t).enabled then none else some (m.get (R.SCAN_TS_SLOTS_BASE t), c))) ++
  (m.scan.tasks.filterMap (fun e => match e.2.swap with
    | some s => if s.count = 0 then none else some (s.base, s.count)
    | none => none))

/-- The slots that each newly enabled or affected task needs, in rising task number. -/
def Chip.slotNeeds (m n : Chip) (b : Bank) : List (Nat × Nat) :=
  let l := m.affected n b ++ m.enabledBy n
  ((List.range 256).filter l.contains).map (fun t => (t, match n.imageAt (n.taskEnt t).image with | some g => g.slots | none => 0))

/-- Code and data bytes that the images held for a core need: those of its enabled tasks, and the old image of each affected task that leaves or stays. -/
def Chip.coreUse (m n : Chip) (b : Bank) (c : Nat) : Nat × Nat :=
  let aff := m.affected n b
  let imgs := ((List.range 256).map (fun t =>
    (if (n.taskEnt t).enabled && (n.taskEnt t).core == c then (n.imageAt (n.taskEnt t).image).toList else []) ++
    (if aff.contains t && (m.taskEnt t).core == c then [(m.task t).img] else []))).flatten
  (imgs.foldl (fun a g => a + g.codeSize) 0, imgs.foldl (fun a g => a + g.dataUse) 0)

/-- The first reason of Table 7-2 that an affected task fails, 1 to 9, with its code. -/
def Chip.swapReason (m n : Chip) (b : Bank) (runs : Except Nat (List (Nat × Nat))) (t : Nat) : Option (Nat × Half) :=
  let e := n.taskEnt t
  let k := m.task t
  let raw := if e.image = 0 ∨ 1023 < e.image then none else Config.imageOf (n.imgCells e.image)
  match raw with
  | none => some (1, CC.checkFailed)
  | some g =>
    let use := m.coreUse n b e.core
    if g.service || !({ g with insts := [] }).valid then some (1, CC.checkFailed)
    else if !g.valid then some (2, CC.checkFailed)
    else if 1048576 < use.1 ∨ 2097152 < use.2 then some (3, CC.checkFailed)
    else if (match runs with | .error u => u == t | .ok _ => false) then some (4, CC.checkFailed)
    else if k.swap.isSome then some (5, CC.busy)
    else if g.fmode ≠ k.img.fmode ∧ !n.coldMark t then some (6, CC.checkFailed)
    else if g.fmode && k.img.fmode && !n.coldMark t && !forerunnerOk k.img g then some (7, CC.checkFailed)
    else if n.coldMark t && m.tState t != TS.stopped then some (8, CC.checkFailed)
    else if !m.clusterOpen e.core then some (9, CC.cancelled)
    else none

/-! ### C9 of the scan engine: tasks and maps (R138, R143, R150, R492) -/

/-- A failed scan condition. -/
def scanFail (obj : Nat) : Option Verdict := some ⟨CC.checkFailed, 9, 4, BitVec.ofNat 64 obj⟩

/-- Size of an entry kind in bytes (Table 6-4). -/
def kindSize (k : Nat) : Nat := match k with | 1 => 8 | 2 => 16 | 3 => 16 | _ => 64

/-- The bits that a map entry takes. -/
def MapEnt.span (e : MapEnt) : Nat × Nat := if e.kind = 0 then (e.addr, 1) else (8 * e.addr, 8 * kindSize e.kind)

/-- Whether a map entry by itself meets Table 6-2. -/
def Chip.mapOk (n : Chip) (t : Nat) (out : Bool) (size : Nat) (e : MapEnt) : Bool :=
  let d := n.boundDesc e.tag
  let bound := decide (tagIdx e.tag < n.capPts) && (n.bindOf (tagIdx e.tag)).1 != 0
  let crit := bound && d.critical
  (if out then [0, 1, 3].contains e.kind else decide (e.kind ≤ 4)) &&
  (if e.kind = 0 then decide (e.addr < 8 * size) && decide (e.flags < 2) && (!out || e.flags == 0)
   else decide (e.addr % kindSize e.kind = 0 ∧ e.addr + kindSize e.kind ≤ size) && e.flags == 0) &&
  e.high == 0 && n.local e.tag && !tagRsv e.tag && (e.kind != 3 || crit) && (!(e.kind == 0 || e.kind == 1) || !crit) &&
  (!out || (bound && d.mask.testBit 3 && (d.owner == t || d.owner == 0xFFFF)))

/-- The first entry of a map that breaks a condition, as its place; `seen` holds the spans, groups and output tags so far. -/
def Chip.mapFault (n : Chip) (t : Nat) (out : Bool) (size : Nat) (taken : List Nat) :
    Nat → List (Nat × Nat) → List Nat → List Nat → List MapEnt → Option Nat
  | _, _, _, _, [] => none
  | i, spans, groups, tags, e :: rest =>
    let s := e.span
    let clash := spans.any (fun u => decide (s.1 < u.1 + u.2 ∧ u.1 < s.1 + s.2) && !(e.kind == 0 && u == s))
    let g := e.group
    if !n.mapOk t out size e || clash || (g != 0xFFFF && decide (64 ≤ groups.count g)) ||
        (out && (taken.contains e.tag.toNat || tags.contains e.tag.toNat)) then some i
    else Chip.mapFault n t out size taken (i + 1) (s :: spans) (g :: groups) (e.tag.toNat :: tags) rest

/-- Whether a task entry's own fields lie within Table 6-1. -/
def Chip.taskFit (n : Chip) (t : Nat) : Bool :=
  let e := n.taskEnt t
  let b := n.bytes (.win .scanTask) (64 * t) 64
  decide (250 ≤ e.period ∧ e.period ≤ 60000000 ∧ e.period % 250 = 0 ∧ e.phase < e.period ∧ e.budget ≠ 0 ∧ e.core < 32 ∧ e.flags < 4 ∧
    e.imapN ≤ 65536 ∧ e.omapN ≤ 65536 ∧ e.imap + e.imapN ≤ 524288 ∧ e.omap + e.omapN ≤ 524288) && (b.drop 38).take 22 == List.replicate 22 0

/-- The first fault of an enabled task. -/
def Chip.taskFault (m n : Chip) (b : Bank) (taken : List Nat) (t : Nat) : Option Verdict :=
  let e := n.taskEnt t
  if !n.taskFit t then scanFail t
  else match n.imageAt e.image with
    | none => scanFail e.image
    | some g =>
      let use := m.coreUse n b e.core
      if g.service || decide (1048576 < use.1 ∨ 2097152 < use.2) then scanFail t
      else match n.mapFault t false g.inSize [] 0 [] [] [] (n.mapEnts .scanImap e.imap e.imapN) with
        | some i => scanFail (Win.obj .scanImap (16 * (e.imap + i)))
        | none => match n.mapFault t true g.outSize taken 0 [] [] [] (n.mapEnts .scanOmap e.omap e.omapN) with
          | some i => scanFail (Win.obj .scanOmap (16 * (e.omap + i)))
          | none => none

/-- Every enabled task in rising order; `taken` holds the output points of the tasks before. -/
def Chip.tasksFault (m n : Chip) (b : Bank) : List Nat → List Nat → Option Verdict
  | _, [] => none
  | taken, t :: rest =>
    match m.taskFault n b taken t with
    | some v => some v
    | none =>
      let e := n.taskEnt t
      Chip.tasksFault m n b (taken ++ (n.mapEnts .scanOmap e.omap e.omapN).map (fun x => x.tag.toNat)) rest

/-- The images that a set stages, in rising order. -/
def Bank.images (b : Bank) : List Nat := (b.entries .scanImg imgPage).filter (fun p => decide (p ≠ 0))

/-- C9 of the scan engine: the verdict, the task and reason of a refused col swap, and whether a paired standby must still accept the set. -/
def Chip.scanC9 (m n : Chip) (b : Bank) : Option Verdict × Option (Nat × Nat × Half) × Bool :=
  if !b.touches 4 then (none, none, false) else
  let aff := m.affected n b
  let runs := placeRuns (m.standingRuns n) (m.slotNeeds n b)
  match aff.findSome? (fun t => (m.swapReason n b runs t).map (fun r => (t, r.1, r.2))) with
  | some (t, reason, code) => (some ⟨code, 9, 4, BitVec.ofNat 64 t⟩, some (t, reason, code), false)
  | none =>
    match b.images.find? (fun p => (n.imageAt p).isNone) with
    | some p => (scanFail p, none, false)
    | none => match m.tasksFault n b [] ((List.range 256).filter (fun t => (n.taskEnt t).enabled)) with
      | some v => (some v, none, false)
      | none => match runs with
        | .error t => (scanFail t, none, false)
        | .ok _ => (none, none, !aff.isEmpty && m.pairedActive && m.syncState == 3)

/-! ### C9 of the keeper, the transaction engine and metering -/

/-- C9 of the keeper: the ranges of the zone registers that a set stages. -/
def Chip.keepC9 (n : Chip) (b : Bank) : Option Verdict :=
  let staged := fun (f : FRef) => (b.reg f.addr).isSome
  let std := sfield 16 (n.get R.KEEP_TZ_STD_STD)
  let ok := fun (mo we wd mi : FRef) =>
    decide (1 ≤ n.get mo ∧ n.get mo ≤ 12 ∧ 1 ≤ n.get we ∧ n.get we ≤ 5 ∧ n.get wd ≤ 6 ∧ n.get mi ≤ 1439)
  if staged R.KEEP_TZ_STD && decide (std < -720 ∨ 840 < std ∨ 120 < n.get R.KEEP_TZ_STD_DST) then regFail CC.checkFailed 9 R.KEEP_TZ_STD.addr
  else if staged R.KEEP_TZ_START && !ok R.KEEP_TZ_START_MONTH R.KEEP_TZ_START_WEEK R.KEEP_TZ_START_WDAY R.KEEP_TZ_START_MINUTE then
    regFail CC.checkFailed 9 R.KEEP_TZ_START.addr
  else if staged R.KEEP_TZ_END && !ok R.KEEP_TZ_END_MONTH R.KEEP_TZ_END_WEEK R.KEEP_TZ_END_WDAY R.KEEP_TZ_END_MINUTE then
    regFail CC.checkFailed 9 R.KEEP_TZ_END.addr
  else none

/-- Ports of a medium in the variant (Table 14-1). -/
def Chip.mediumPorts (m : Chip) (medium : Nat) : Nat :=
  match medium with
  | 0 => m.t1sN | 1 => 8 | 2 => m.plcN | 3 => m.canN | 4 => 4 | _ => 0

/-- Whether the bytes of an entry verify under a CRC at `c`. -/
def crcAt (l : List Byte) (c : Nat) : Bool := fld l c 4 == (crc32c (l.take c)).toNat

/-- Whether an enabled station entry meets R298. -/
def Chip.staFit (n : Chip) (i : Nat) : Bool :=
  let l := n.bytes (.win .txnSta) (32 * i) 32
  let e := staOf l
  crcAt l 28 && decide (e.flags < 8 ∧ e.medium ≤ 4 ∧ e.port < n.mediumPorts e.medium ∧ e.window ≤ 64 ∧ 1 ≤ e.timeout ∧ e.timeout ≤ 60000 ∧
    e.retries ≤ 7 ∧ fld l 11 1 = 0 ∧ fld l 20 8 = 0) && (if e.league then decide (e.dev < 16384) else e.dev == 0) &&
    (e.loss == 0 || decide (e.timeout * (e.retries + 1) ≤ e.loss))

/-- Whether a route entry in use meets R298 beside the others. -/
def Chip.routeFit (n : Chip) (l : List Nat) (i : Nat) : Bool :=
  let x := n.bytes (.win .txnRoute) (32 * i) 32
  let r := routeOf x
  let s := n.staEnt r.station
  crcAt x 28 && decide (r.kind ≤ 3 ∧ r.flags < 2 ∧ fld x 10 2 = 0 ∧ fld x 24 4 = 0 ∧ fld x 21 3 = 0) && n.staOn r.station &&
    (if r.mirror then decide (100 ≤ r.refresh ∧ r.refresh ≤ 3600000) && s.league && s.dev == tagDev r.remote
     else l.all (fun j => j == i || (let q := n.route j
       !(q.kind == r.kind && q.station == r.station && q.module == r.module && q.chan == r.chan))))

/-- C9 of the transaction engine. -/
def Chip.txnC9 (n : Chip) : Option Verdict :=
  let routes := (n.rows (.win .txnRoute) 32).filter (fun i => decide (i < routeN) && (n.route i).kind != 0)
  match n.stations.find? (fun i => !n.staFit i) with
  | some i => winFail CC.checkFailed 9 .txnSta (32 * i)
  | none => match routes.find? (fun i => !n.routeFit routes i) with
    | some i => winFail CC.checkFailed 9 .txnRoute (32 * i)
    | none =>
      if 14848 < ((List.range 6).map (fun k => n.get (R.TXN_CLS_MIN_KIB k))).sum then regFail CC.checkFailed 9 (R.TXN_CLS_MIN 0).addr
      else match (List.range 6).find? (fun k => decide (n.get (R.TXN_CLS_PFC_XOFF k) ≤ n.get (R.TXN_CLS_PFC_XON k) ∨
          1024 < n.get (R.TXN_CLS_PFC_XOFF k))) with
        | some k => regFail CC.checkFailed 9 (R.TXN_CLS_PFC k).addr
        | none => none

/-- Whether a metering channel's total point is fit, and named once. -/
def Chip.totalFit (n : Chip) (l : List Nat) (i : Nat) : Bool :=
  let c := n.mchan i
  let d := n.boundDesc c.tag
  c.tag == 0 || (n.local c.tag && !n.outOfRange c.tag && (n.bindOf (tagIdx c.tag)).1 != 0 && d.typ == 5 && !d.critical && d.secondary &&
    d.mask.testBit 1 && l.all (fun j => j == i || (n.mchan j).tag != c.tag))

/-- Whether a GAIN is a positive finite number. -/
def Chip.gainOk (n : Chip) (c : Nat) : Bool :=
  let g := n.get64 (R.METER_SDM_GAIN_LO c)
  Fp.finite g && Fp.gt g 0

/-- 10 to a power, as FP64. -/
def pow10 (e : Int) : DWord := if 0 ≤ e then Fp.fofNat (10 ^ e.toNat) else Fp.fdiv Fp.one (Fp.fofNat (10 ^ e.natAbs))

/-- Whether a WAVE channel names an element that its point has, with enabled channels, and cannot overrun its residue. -/
def Chip.waveFit (n : Chip) (c : MChan) : Bool :=
  let p := c.source
  let el := c.qty / 64
  let used := usedPlaces (n.get (R.METER_MP_CFG_WIRING p))
  let chans := (used.map (fun i => [6 * p + i, 6 * p + 3 + i])).flatten
  let v := n.get64 (R.METER_SDM_GAIN_LO (6 * p))
  let i := n.get64 (R.METER_SDM_GAIN_LO (6 * p + 3))
  let wh := Fp.fdiv (Fp.fmul (Fp.fmul v i) (Fp.fofNat 3)) (Fp.fofNat 14400)
  n.hasWave && decide (p ≤ 9 ∧ bits c.qty 5 3 = 0 ∧ c.qty % 8 ≤ 6) && n.on (R.METER_MP_CFG_EN p) && (el == 3 || used.contains el) &&
    chans.all (fun k => n.on (R.METER_SDM_CFG_EN k) && n.gainOk k) && Fp.gt (Fp.fofNat (2 ^ 32)) (Fp.fdiv wh (pow10 c.exp))

/-- Whether a channel entry in use meets Table 13-4; `m` is the chip before the set. -/
def Chip.mchanFit (m n : Chip) (on : List Nat) (i : Nat) : Bool :=
  let l := n.bytes (.win .meterChan) (32 * i) 32
  let c := n.mchan i
  let o := m.mchan i
  let t := (AMap.get (zeroTot, zeroTot) m.totals.recs i).1
  let changed := decide (c.kind ≠ o.kind ∨ c.source ≠ o.source ∨ c.qty ≠ o.qty ∨ c.exp ≠ o.exp ∨ (c.kind = 3 ∧ c.param ≠ o.param))
  let zero := fld l 5 3 == 0 && fld l 12 4 == 0 && fld l 21 3 == 0 && fld l 24 4 == 0
  crcAt l 28 && zero && decide (c.kind ≤ 3 ∧ c.flags < 4 ∧ -6 ≤ c.exp ∧ c.exp ≤ 3) &&
  (match c.kind with
    | 1 => c.param == 0 && (!c.enabled || n.waveFit c)
    | 2 => decide (c.source ≤ 31 ∧ c.qty = 0 ∧ 1 ≤ c.param ∧ c.param ≤ 65535)
    | _ => decide (c.source = 0 ∧ c.qty = 0 ∧ c.param ≤ 8191) && (!c.enabled || ((n.zoneEnt c.param).on && decide (c.exp ≤ 0) &&
        on.all (fun j => j == i || (n.mchan j).kind != 3 || (n.mchan j).param != c.param)))) &&
  (!c.enabled || n.totalFit on i) && (!changed || (t.total == 0 && t.wrap == 0) || c.flags.testBit 1)

/-- Whether a block or auxiliary tag names fit points. -/
def Chip.blockFit (n : Chip) (tag : BitVec 40) (k : Nat) : Bool :=
  tag == 0 || (List.range k).all (fun i =>
    let t := tag + BitVec.ofNat 40 i
    let d := n.boundDesc t
    n.local t && !n.outOfRange t && (n.bindOf (tagIdx t)).1 != 0 && d.isFp && d.mask.testBit 1)

/-- C9 of metering. A WAVE channel on a variant without waveform metering fails C3 (R5). -/
def Chip.meterC9 (m n : Chip) : Option Verdict :=
  let used := (n.rows (.win .meterChan) 32).filter (fun i => (n.mchan i).kind != 0)
  let on := n.mchans
  let reg := fun (f : FRef) => regFail CC.checkFailed 9 f.addr
  match used.find? (fun i => (n.mchan i).kind == 1 && !n.hasWave) with
  | some i => winFail CC.checkFailed 3 .meterChan (32 * i)
  | none => match used.find? (fun i => !m.mchanFit n on i) with
    | some i => winFail CC.checkFailed 9 .meterChan (32 * i)
    | none =>
      if 512 < n.slotChans.length then winFail CC.checkFailed 9 .meterChan 0
      else match (List.range 10).find? (fun p => n.get (R.METER_MP_CFG_WIRING p) == 3) with
        | some p => reg (R.METER_MP_CFG p)
        | none => match (List.range 10).find? (fun p =>
            !decide (n.get (R.METER_MP_THR_INTR p) < n.get (R.METER_MP_THR_DIP p) ∧ n.get (R.METER_MP_THR_DIP p) < 100 ∧
              100 < n.get (R.METER_MP_THR_SWELL p) ∧ n.get (R.METER_MP_THR_HYST p) ≤ 100)) with
          | some p => reg (R.METER_MP_THR p)
          | none => match (List.range 10).find? (fun p => !n.blockFit (n.tagReg (R.METER_MP_TAG_LO p) (R.METER_MP_TAG_HI p)) 20) with
            | some p => reg (R.METER_MP_TAG_LO p)
            | none => match (List.range 4).find? (fun a => !n.blockFit (n.tagReg (R.METER_AUX_TAG_LO a) (R.METER_AUX_TAG_HI a)) 1) with
              | some a => reg (R.METER_AUX_TAG_LO a)
              | none => match (List.range 64).find? (fun c => decide (2048 < n.get (R.METER_SDM_CFG_DELAY c))) with
                | some c => reg (R.METER_SDM_CFG c)
                | none => match (List.range 32).find? (fun p => decide (50000 < n.get (R.METER_PI_CFG_DEB p))) with
                  | some p => reg (R.METER_PI_CFG p)
                  | none => none

/-! ### All rules of a channel 0 set -/

/-- How a set fares: the first failure of C1 to C10, the task and reason of a refused col swap, whether the twin's verdict is awaited. -/
structure Judged where
  verdict : Option Verdict
  swap : Option (Nat × Nat × Half) := none
  twin : Bool := false
deriving DecidableEq, Repr

/-- C1 to C8. -/
def Chip.rules1to8 (m n : Chip) (b : Bank) : Option Verdict :=
  firstFail [ruleC1 b, m.ruleC2 b, m.ruleC3 b, ruleC4 b, n.ruleC5 b, n.ruleC6 b, n.ruleC7 b, if b.touches 5 || !b.points.isEmpty then n.ruleC8 b else none]

/-- C9 of the units before the scan engine. -/
def Chip.c9Before (n : Chip) (b : Bank) : Option Verdict :=
  firstFail [if b.touches 2 then n.ridgeC9 else none, n.keepC9 b]

/-- C9 of the units after it. `boot` is whether the boot commits the set (R395). -/
def Chip.c9After (m n : Chip) (b : Bank) (boot : Bool) : Option Verdict :=
  firstFail [if b.touches 6 then n.txnC9 else none, if b.touches 7 then n.uplC9 else none, if b.touches 8 then n.fldC9 else none,
    if b.touches 9 then n.canC9 else none, if b.touches 0xA then n.planC9 else none, if b.touches 0xB then n.lampC9 else none,
    n.loopC9, if b.touches 0xD then m.meterC9 n else none, if b.touches 0xE then n.sadlC9 else none,
    if b.stages .guardIlt then n.guardC9 boot else none,
    if b.touches 0x10 then n.vaultC9 (b.regs.any (fun e => blockUnit e.1 == 0x10)) (b.stages .vaultImp) else none,
    if b.touches 0x11 then n.panelC9 else none]

/-- C1 to C10 on channel 0. -/
def Chip.judgeSet (m : Chip) (b : Bank) (mode task : Nat) (instant : DWord) (boot : Bool) : Judged :=
  let n := m.withSet b
  match firstFail [m.rules1to8 n b, n.c9Before b] with
  | some v => { verdict := some v }
  | none => match m.scanC9 n b with
    | (some v, sw, _) => { verdict := some v, swap := sw }
    | (none, _, twin) => { verdict := firstFail [m.c9After n b boot, m.ruleC10 0 mode task instant], twin := twin }

end Sys2Proof.Machine
end

