-- ==== Sys2Proof/Machine/Apply.lean ====
section
/-! DEFINITION. The apply edge of a commit (R64 to R66) and what each unit does on it, the commands of the commit engine (R58 to R67), and the end of a
twin's verdict on a col swap (R170). -/

namespace Sys2Proof.Machine

open Sys2Proof

/-! ### What a commit leaves when it ends unapplied -/

/-- The units behind channels 1 and 2 see that their commit has ended. -/
def Chip.commitWatch (m : Chip) : Chip := m.planWatch.lampCancelled

/-- Cancel the pending commit of a channel, and tell the twin where it had the set. -/
def Chip.dropCommit (m : Chip) (k : Nat) (aborted : Bool) : Chip :=
  match m.pend k with
  | none => m
  | some p =>
    let m1 := if p.forwarded ∨ 3 ≤ m.phase k then m.stream "COMMIT" [k, 5] else m
    (m1.cancelCommit k aborted).commitWatch

/-! ### GO and the verdict (R58 to R61, R170) -/

/-- COMMIT_GO. While the boot runs, channel 0 refuses other requesters with BUSY (R72); `boot` is the boot ROM's own GO. -/
def Chip.commitGo (m : Chip) (k : Nat) (boot : Bool) : Chip :=
  if k ≠ 0 then m.goWith k (fun b => if k = 1 then m.pointRules (m.get (R.COMMIT_MODE_MODE 1)) (m.get (R.COMMIT_MODE_TASK 1)) (m.get64 (R.COMMIT_AT_LO 1)) b
    else none)
  else if m.booting && !boot then m.result 0 ⟨CC.busy, 0, 0, 0⟩ false false false
  else if (m.pend 0).isSome ∨ m.bank 0 = {} then m.goWith 0 (fun _ => none)
  else
    let b := m.bank 0
    let j := m.judgeSet b (m.get (R.COMMIT_MODE_MODE 0)) (m.get (R.COMMIT_MODE_TASK 0)) (m.get64 (R.COMMIT_AT_LO 0)) boot
    let m1 := m.goWith 0 (fun _ => j.verdict)
    match m1.pend 0 with
    | some p =>
      let p1 := { p with swap := j.swap, awaitTwin := j.twin, forwarded := j.twin, waitFrom := m.monoNs }
      (if j.twin then m1.sendSet 0 p1 true else m1).setPend 0 p1
    | none => m1

/-- COMMIT_CTL: DISCARD acts first, and GO with ABORT acts as ABORT alone. -/
def Chip.commitCtl (m : Chip) (k : Nat) (w : Word) : Chip :=
  let m1 := if fieldOf (R.COMMIT_CTL_DISCARD k) w = 1 then m.discard k else m
  if fieldOf (R.COMMIT_CTL_ABORT k) w = 1 then m1.dropCommit k true
  else if fieldOf (R.COMMIT_CTL_GO k) w = 1 then m1.commitGo k false
  else m1

/-- Show the reason of a refused col swap. -/
def Chip.swapRefused (m : Chip) (x : Option (Nat × Nat × Half)) : Chip :=
  match x with
  | some (t, reason, code) => (m.put (R.SCAN_SW_STAT_REASON t) reason).put (R.SCAN_SW_STAT_CODE t) code.toNat
  | none => m

/-- COMMIT_RULES_DONE. -/
def Chip.commitRules (m : Chip) (k : Nat) : Chip :=
  match m.pend k with
  | some p => if m.phase k ≠ 1 ∨ p.awaitTwin then m else ((m.swapRefused p.swap).rulesDone k).commitWatch
  | none => m

/-- The twin refuses the set of a col swap, or does not answer: reason 10. -/
def Chip.twinRefused (m : Chip) : Chip :=
  match m.pend 0 with
  | some p =>
    let n := m.withSet p.set
    let t := (m.affected n p.set).headD 0
    m.setPend 0 { p with awaitTwin := false, verdict := some ⟨CC.checkFailed, 9, 0x0E, BitVec.ofNat 64 t⟩, swap := some (t, 10, CC.checkFailed) }
  | none => m

/-- STANDBY_SWAP_VERDICT on the active device. -/
def Chip.swapVerdict (m : Chip) (pass : Bool) : Chip :=
  match m.pend 0 with
  | some p => if p.awaitTwin then (if pass then m.setPend 0 { p with awaitTwin := false } else m.twinRefused) else m
  | none => m

/-- SWAP_VERDICT_TIMEOUT: 100 ms without a verdict while the link lives; a link that has fallen silent lets reason 10 pass. -/
def Chip.swapTimeout (m : Chip) : Chip :=
  match m.pend 0 with
  | some p =>
    if !p.awaitTwin then m
    else if !(m.pairedActive && m.syncState == 3) then m.setPend 0 { p with awaitTwin := false, forwarded := false }
    else if p.waitFrom + 100000000 ≤ m.monoNs then m.twinRefused
    else m
  | none => m

/-! ### The scan engine on the apply edge (R139, R140, R150, R155, R160 to R164, R169) -/

/-- A task that the set disables: its run is freed, and it stops, at its boundary where a cycle is in progress. -/
def Chip.taskOff (m : Chip) (t : Nat) : Chip :=
  let m1 := (m.clearSlots (m.get (R.SCAN_TS_SLOTS_BASE t)) (m.get (R.SCAN_TS_SLOTS_COUNT t))).setRun t 0 0
  if m1.inCycle t then m1.setTask t { m1.task t with stopReq := true } else m1.setTState t TS.stopped

/-- A task that the set enables: numbered from 0, STOPPED, with its image loaded cold. -/
def Chip.taskOn (m : Chip) (t base : Nat) : Chip :=
  match m.imageAt (m.taskEnt t).image with
  | some g => (((m.setTask t {}).setTState t TS.stopped).coldLoad t g base).anchor t
  | none => m

/-- An affected task: the new image waits beside the old one, and the switch is made at once where no cycle is in progress; a paired standby switches
with its twin's deltas (R170). -/
def Chip.taskSwap (m : Chip) (t base : Nat) (cold : Bool) : Chip :=
  match m.imageAt (m.taskEnt t).image with
  | some g =>
    let s : Swap := { img := g, cold := cold, base := base, count := g.slots }
    let m1 := (((m.setTask t { m.task t with swap := some s }).put (R.SCAN_SW_STAT_PENDING t) 1).put (R.SCAN_SW_STAT_REASON t) 0).put
      (R.SCAN_SW_STAT_CODE t) 0
    if m.standby && m.paired then m1 else m1.colSwitch t
  | none => m

/-- The engine's part of an apply edge; `old` is the chip before it. -/
def Chip.scanApplied (m old : Chip) (b : Bank) : Chip :=
  if !b.touches 4 then m else
  let aff := old.affected m b
  let on := old.enabledBy m
  let off := (List.range 256).filter (fun t => (old.taskEnt t).enabled && !(m.taskEnt t).enabled)
  let bases := match placeRuns (old.standingRuns m) (old.slotNeeds m b) with
    | .ok l => l
    | .error _ => []
  let base := fun (t : Nat) => (assoc bases t).getD 0
  let m1 := off.foldl Chip.taskOff m
  let m2 := on.foldl (fun a t => a.taskOn t (base t)) m1
  let m3 := aff.foldl (fun a t => a.taskSwap t (base t) (a.coldMark t)) m2
  let moved := (List.range 256).filter (fun t =>
    (old.taskEnt t).enabled && (m.taskEnt t).enabled &&
      ((old.taskEnt t).period != (m.taskEnt t).period || (old.taskEnt t).phase != (m.taskEnt t).phase))
  let m4 := moved.foldl Chip.anchor m3
  (List.range 8).foldl (fun a w => a.setReg (R.SCAN_SWAP_COLD w).addr 0) m4

/-- Tasks with ENABLE and AUTOSTART start at the apply of the boot commit. -/
def Chip.autostart (m : Chip) : Chip :=
  ((List.range 256).filter (fun t => (m.taskEnt t).enabled && (m.taskEnt t).autostart && m.tState t == TS.stopped)).foldl Chip.startTask m

/-! ### The other units on the apply edge -/

/-- Points whose binding or descriptor the set stages (R42). -/
def Chip.pointsApplied (m old : Chip) (b : Bank) : Chip :=
  let descs := b.entries .pointDesc 64
  let mine := b.entries .pointBind 8
  let others := if descs.isEmpty then [] else
    (m.pts.recs.filter (fun e => descs.contains e.2.desc.toNat && !mine.contains e.1)).map (·.1)
  (mine ++ others).foldl (fun a i => if i < a.capPts then a.bindPoint i (old.desc (a.pt i).desc.toNat).typ else a) m

/-- Stations that the set enables are UP, with their loss time counted from the apply (R302). -/
def Chip.stationsApplied (m old : Chip) (b : Bank) : Chip :=
  ((b.entries .txnSta 32).filter (fun n => m.staOn n && !old.staOn n)).foldl (fun a n => a.setSta n { heardAt := a.monoNs }) m

/-- Ports, channels and the panel whose EN the set clears are disabled, and those whose EN it sets are enabled (R19, R20). -/
def Chip.portsApplied (m old : Chip) : Chip :=
  let ens : List (Nat × FRef) :=
    (List.range 4).map (fun u => (UK.uplink u, R.UPL_P_CFG_EN u)) ++ (List.range 8).map (fun s => (UK.sgmii s, R.UPL_SG_CFG_EN s)) ++
    (List.range 16).map (fun s => (UK.t1s s, R.FLD_T1S_CFG_EN s)) ++ (List.range 8).map (fun i => (UK.plc i, R.FLD_PLC_CFG_EN i)) ++
    (List.range 32).map (fun n => (UK.can n, R.CAN_CFG_EN n)) ++ [(UK.panel, R.PANEL_CTL_EN)]
  ens.foldl (fun a e =>
    if old.on e.2 && !m.on e.2 then a.unitDisable e.1
    else if !old.on e.2 && m.on e.2 then a.unitEnable e.1
    else a) m

/-- Uplinks and league time: PTP, neighbours, the software's own UTC offset. -/
def Chip.uplApplied (m old : Chip) (b : Bank) : Chip :=
  let m1 := if (b.reg R.UPL_UTC.addr).isNone then m
    else
      let n := m.setUpl { m.upl with utcOwn := some (m.get R.UPL_UTC_OFS) }
      if n.upl.selected.isSome then n.put R.UPL_UTC_OFS (old.get R.UPL_UTC_OFS) else n.ownUtc
  (m1.ptpApplied old).peersApplied old

/-- Metering: REBASE of staged channels, then the map (R289, R291). -/
def Chip.meterApplied (m : Chip) (b : Bank) : Chip :=
  let l := (b.entries .meterChan 32).filter (fun n => (m.mchan n).flags.testBit 1)
  if b.stages .meterChan then (l.foldl Chip.rebase m).remap else m

/-- Keeper: local time follows the zone registers; the vault forms its pair key under the new league and device number (R430). -/
def Chip.keepApplied (m old : Chip) (b : Bank) : Chip :=
  let m1 := if b.touches 3 then m.setLocal else m
  if m1.reg R.UPL_LEAGUE_ID.addr = old.reg R.UPL_LEAGUE_ID.addr ∧ m1.get R.POINT_CFG_DEVNUM = old.get R.POINT_CFG_DEVNUM then m1 else m1.formPair

/-- Every unit's part of a channel 0 apply edge; `m` has the set in place, `old` is the chip before. -/
def Chip.unitsApplied (m old : Chip) (b : Bank) : Chip :=
  let m1 := (m.pointsApplied old b).stationsApplied old b
  let m2 := (m1.portsApplied old).keepApplied old b
  let m3 := if b.stages .guardIlt then m2.guardLoad else m2
  let m4 := if b.touches 2 then m3.ridgeApplied old else m3
  let m5 := if b.touches 7 then m4.uplApplied old b else m4
  let m6 := if b.touches 8 then m5.fldApplied old else m5
  let m7 := if b.touches 9 then m6.canApplied old else m6
  let m8 := if b.touches 0xB then m7.lampApplied old else m7
  let m9 := if b.touches 0xC then m8.loopApplied old else m8
  let m10 := (m9.planTouched old (b.touches 0xA)).meterApplied b
  let m11 := if b.touches 0xE then m10.sadlApplied old else m10
  let m12 := if b.stages .vaultImp then m11.vaultInstall (b.entries .vaultImp 160) else m11
  m12.scanApplied old b

/-- The point writes of a set in order; true where one was refused (COMMIT_RES.PT_REJ). -/
def Chip.applyPoints (m : Chip) : List PtWrite → Bool × Chip
  | [] => (false, m)
  | w :: rest =>
    let (r, m1) := m.planWrite w
    let (q, m2) := Chip.applyPoints m1 rest
    (r || q, m2)

/-- A set of channel k takes effect (R64): true where a point write was refused. A channel 0 set that writes PLAN, LAMP or LOOP registers first cancels the
commit of channel 1, 2 or 3 (R65). -/
def Chip.applySet (m : Chip) (k : Nat) (b : Bank) : Bool × Chip :=
  if k = 0 then
    let hits := fun (u : Nat) => b.regs.any (fun e => blockUnit e.1 == u)
    let m0 := [(0xA, 1), (0xB, 2), (0xC, 3)].foldl (fun a e => if hits e.1 then a.dropCommit e.2 false else a) m
    ((m0.withSet b).unitsApplied m0 b).applyPoints b.points
  else if k = 1 then
    let (r, m1) := m.applyPoints b.points
    (r, m1.planApplied)
  else if k = 2 then (false, m.lampApply b.frames)
  else (false, (m.withSwap { bytes := b.bytes }).swapApply b.loops)

/-- Report an apply: instant, generation, result; the twin is told. -/
def Chip.applied (m : Chip) (k : Nat) (rej : Bool) (instant : DWord) : Chip :=
  let m1 := (m.put64 (R.COMMIT_APPLIED_LO k) instant).put (R.COMMIT_GEN k) (m.get (R.COMMIT_GEN k) + 1)
  (m1.finish k verdictOk false false rej).stream "COMMIT" [k, 4, instant.toNat]

/-! ### Replicated commits of a standby (R170, R374, R376) -/

/-- A replicated set waits for its apply notice under a key of its own. -/
def Chip.replica (m : Chip) (k : Nat) : Option PendCommit := assoc m.com.pend (16 + k)
def Chip.dropReplica (m : Chip) (k : Nat) : Chip := m.withCom { m.com with pend := unassoc m.com.pend (16 + k) }

/-- C1 to C10 on the standby, with the checks of Table 7-2. -/
def Chip.judgeReplica (m : Chip) (k : Nat) (b : Bank) (mode task : Nat) (instant : DWord) : Option Verdict :=
  if k = 0 then (m.judgeSet b mode task instant false).verdict
  else if k = 1 then m.pointRules mode task instant b
  else none

/-- The plan of record that a replicated channel 1 commit names: the values of its output points from its instant on. -/
def Chip.planReplica (m : Chip) (b : Bank) (instant : DWord) : Chip :=
  let lens := m.stepLens
  let vals := m.pouts.foldl (fun (a : AMap DWord) o =>
    (List.range (if o.mode = 0 then lens.length else 1)).foldl (fun (a1 : AMap DWord) k =>
      match b.points.find? (fun w => w.tag.toNat == o.tag.toNat + k) with
      | some w => AMap.put 0 (o.elem * 4096 + o.code * 512 + k) w.value a1
      | none => a1) a) []
  m.setPlan { m.plan with plan := some { anchor := instant.toNat, lens := lens, vals := vals } }

/-- A replicated set takes effect; its point writes come in the POINT stream. -/
def Chip.replicaApply (m : Chip) (k : Nat) (instant : DWord) : Chip :=
  match m.replica k with
  | none => m
  | some p =>
    let m0 := m.dropReplica k
    let m1 := if k = 1 then m0.planReplica p.set instant else (m0.applySet k { p.set with points := [] }).2
    (m1.put64 (R.COMMIT_APPLIED_LO k) instant).put (R.COMMIT_GEN k) (m1.get (R.COMMIT_GEN k) + 1)

/-- COMMIT_FRAME: a set is judged and waits, or is refused, which makes the standby SUSPECT unless the active awaits its verdict; an apply notice; an
ABORT. -/
def Chip.commitFrame (m : Chip) (k : Nat) (x : SadCommit) : Chip :=
  if !m.standby || !m.paired then m
  else match x with
    | .set b frames mode task instant swap =>
      let v := m.judgeReplica k b mode task instant
      let p : PendCommit := { set := b, mode := mode, task := task, instant := instant, entry := 0, limit := 0, verdict := v }
      let m1 := if swap then m.emit (.frame 0x0E 0 "VERDICT" [k, bit v.isNone]) else if v.isSome then m.suspect else m
      if v.isSome then m1
      else
        let m2 := m1.withCom { m1.com with pend := reassoc m1.com.pend (16 + k) p }
        if k = 2 then m2.setLamp { m2.lamp with staged := frames } else m2
    | .apply t => m.replicaApply k t
    | .abort => m.dropReplica k

/-- COMMIT_APPLY up to the boot's next step: the commit of channel k applies where its instant has come; a replicated one of mode AT applies at its instant
too. -/
def Chip.commitApply (m : Chip) (k : Nat) : Chip :=
  match m.pend k with
  | some p =>
    if m.applyDue k then
      let m0 := m.setPhase k 5
      let (rej, m1) := m0.applySet k p.set
      if (m1.pend k).isSome then m1.applied k rej m.stamp else m1
    else m
  | none => match m.replica k with
    | some p => if p.mode = 2 ∧ m.reached p.instant.toNat then m.replicaApply k m.stamp else m
    | none => m

/-! ### Commands -/

def execStandbySwapVerdict (pass : Bool) (s : State) : Host.Outcome State Fault Refusal := s.act (·.swapVerdict pass)
def execCommitFrame (k : Fin 4) (m : SadCommit) (s : State) : Host.Outcome State Fault Refusal := s.act (·.commitFrame k.val m)
def execSwapVerdictTimeout (s : State) : Host.Outcome State Fault Refusal := s.act Chip.swapTimeout

end Sys2Proof.Machine
end

