-- ==== Sys2Proof/Machine/Power.lean ====
section
/-! DEFINITION. Stops and starts of PD2 (R220, R228, R409 to R415, R472 to R475): HOLD, the thermal trip, power failure, the regulator sequence, the
start of PD2 with its sentinels, its seed of league time and the cause it reports. -/

namespace Sys2Proof.Machine

open Sys2Proof

/-! ### What a stop of PD2 leaves -/

/-- Why PD2 stopped, as the shutdown record holds it (`Keep.stop`): 0 nothing yet, 1 thermal trip, 2 power failure, 3 HOLD, 4 boot fallback. -/
def stopThermal : Nat := 1
def stopPf : Nat := 2
def stopHold : Nat := 3
def stopFallback : Nat := 4

/-- Whether a register outlives a stop of PD2: the keeper's block, and CAIRN_FLOOR, which FRAM holds (R412). -/
def outlives (a : Nat) : Bool := a / 2 ^ 18 == 3 || a == R.CAIRN_FLOOR.addr

/-- PD2 to PD15 are off: what is left is what the keeper die, FRAM, fuses, flash and the guard die hold (R415). -/
def Chip.dark (m : Chip) : Chip :=
  { variant := m.variant
    pd2 := false
    clk := { free := m.clk.free }
    regs := m.regs.filter (fun e => outlives e.1)
    mem := m.mem.filter (fun e => e.1 / 2 ^ 40 == Space.flash.idx || e.1 / 2 ^ 40 == Space.retention.idx)
    keep := { m.keep with started := false, vbatPosted := false, enables := 0, osc := false, pd15 := false }
    totals := { m.totals with virt := if m.totals.closingDue then m.meter.foldV.map (·.1) else [] }
    vault := { ident := m.vault.ident, otp := m.vault.otp, burnt := m.vault.burnt, debug := m.vault.debug, debugKept := m.vault.debugKept }
    guard := m.guard
    panel := { started := m.panel.started, gen := m.panel.gen, row := m.panel.row }
    out := m.out }

/-- Write the shutdown record (R412, R415): the cause, and the PF time that was latched, 0 for none (notes/assumptions/104.md). -/
def Chip.shutRecord (m : Chip) (cause pf : Nat) : Chip :=
  (m.setKeep { m.keep with stop := cause }).put64 R.KEEP_PF_TIME_LO (BitVec.ofNat 64 pf)

/-! ### HOLD and the thermal trip (R220, R228) -/

/-- The change to HOLD is complete: every unit of PD3 to PD15 is disabled and the last interval is folded, so PD2 switches off. -/
def Chip.enterHold (m : Chip) : Chip :=
  if m.ridge.changing = some 0 ∧ (List.range 81).all (fun u => !m.keyPresent u || (m.unitRun u).disabled) ∧ !m.on R.METER_STAT_FOLDING then
    let n := (m.shutRecord stopHold 0).dark
    n.setKeep { n.keep with waits := 1 }
  else m.changeDone

/-- AUTO_WAKE arms alarm 31 as an absolute WAKE alarm 300 s after the trip (R423). -/
def Chip.armWake (m : Chip) : Chip :=
  if m.on R.KEEP_CTL_AUTO_WAKE then
    let m1 := (m.setReg (R.KEEP_ALM_CTL 31).addr 0).setReg (R.KEEP_ALM_TIME 31).addr (BitVec.ofNat 32 (m.keep.sec + 300))
    ((m1.put (R.KEEP_ALM_CTL_EN 31) 1).put (R.KEEP_ALM_CTL_WAKE 31) 1).setAlarm 31 { from_ := m.keep.sec, base := m.keep.sec }
  else m

/-- THERMAL_TRIP: a loss of power that leaves the device in HOLD; nothing is flushed. -/
def Chip.thermalTrip (m : Chip) : Chip :=
  let n := ((m.otpCut.shutRecord stopThermal 0).dark).armWake
  n.setKeep { n.keep with waits := 1 }

/-- WAKE_PIN: a falling edge on WAKE_N in HOLD. -/
def Chip.wakePin (m : Chip) : Chip :=
  if !m.pd2 && m.keep.waits == 1 && m.keep.enables == 0 && m.on R.KEEP_CTL_WAKE_EN then
    m.setKeep { m.keep with enables := 1, wake := 3, wakeAlarm := 0 }
  else m

/-! ### Power failure (R413, R414, R452, R474) -/

/-- The line in progress completes and no further line starts (R452). -/
def Chip.panelCut (m : Chip) : Chip :=
  match m.panel.run with
  | some (r, y :: rest, _) =>
    if m.panelRuns then (m.emit (.frame 0x11 0 "LINE" (y :: m.lineBits r y))).panelRecord (!rest.isEmpty) r.gen y else m
  | _ => m

/-- The warning while PD2 is on: flush, shutdown record, isolation of PD2 to PD14 with their enables; REG_EN0 and PD15 stay until the
panel's line boundary. -/
def Chip.pfOn (m : Chip) : Chip :=
  let m1 := ((m.meterFlush.count R.KEEP_PF_CNT (some R.KEEP_STAT_PF_SAT)).otpCut.shutRecord stopPf m.now).panelCut
  let n := m1.dark
  n.setKeep { n.keep with waits := 2, enables := 1, pd15 := true }

/-- The warning while PD2 is off: only the record is written, and a regulator sequence under way ends. -/
def Chip.pfOff (m : Chip) : Chip :=
  let n := (m.count R.KEEP_PF_CNT (some R.KEEP_STAT_PF_SAT)).shutRecord stopPf 0
  n.setKeep { n.keep with waits := 2, enables := if m.keep.pd15 then m.keep.enables else 0, osc := false }

/-- POWER_FAIL_WARNING. -/
def Chip.powerFail (m : Chip) : Chip := if m.pd2 then m.pfOn else m.pfOff

/-- PANEL_LINE_BOUNDARY: PD15 is isolated and REG_EN0 goes low (t4 of Table 20-3). -/
def Chip.lineBoundary (m : Chip) : Chip :=
  if !m.pd2 && m.keep.pd15 then m.setKeep { m.keep with pd15 := false, enables := 0 } else m

/-- A REG_PG that falls while PD2 is on is a power-fail warning (R474). -/
def Chip.pgFail (m : Chip) : Chip := if m.pd2 then m.powerFail else m

/-! ### The regulator sequence (R413, R473) -/

/-- MAIN_SUPPLY_VALID: after OFF, or after an aborted sequence, the first enable is raised. -/
def Chip.supplyValid (m : Chip) : Chip :=
  if !m.pd2 && m.keep.waits == 2 && m.keep.enables == 0 then m.setKeep { m.keep with waits := 0, enables := 1, wake := 1, wakeAlarm := 0 }
  else m

/-- Whether the regulator sequence is under way. -/
def Chip.raising (m : Chip) : Bool := !m.pd2 && decide (1 ≤ m.keep.enables) && !m.keep.osc && !m.keep.pd15

/-- REG_SEQUENCE_STEP: the last raised enable's REG_PG has been high for 0.6 ms; the next enable rises, and after the last OSC_EN. -/
def Chip.seqStep (m : Chip) : Chip :=
  if !m.raising then m
  else if m.keep.enables < 6 then m.setKeep { m.keep with enables := m.keep.enables + 1 }
  else m.setKeep { m.keep with osc := true }

/-- A REG_PG that is not high in time, or falls before the sequence ends: the enables go low, and qualification begins again after 1 s. No
record is left. -/
def Chip.seqAbort (m : Chip) : Chip :=
  if m.raising then m.setKeep { m.keep with enables := 0, waits := 2 } else m

/-! ### The start of PD2 (R315, R393, R411, R415, R419) -/

/-- The keeper's fields that a start of PD2 returns to their reset values. -/
def Chip.keepReset (m : Chip) : Chip :=
  let m1 := [R.KEEP_CTL, R.KEEP_RTC_SET_TIME, R.KEEP_RTC_SET_DATE, R.KEEP_TSCAP_CMD, R.KEEP_TSCAP_SUB, R.KEEP_TSCAP_SEC, R.KEEP_TSCAP_LT_LO,
    R.KEEP_TSCAP_LT_HI].foldl (fun a f => a.setReg f.addr (regReset f.addr)) m
  [R.KEEP_STAT_COLD, R.KEEP_STAT_SENT_BAD, R.KEEP_STAT_SET_INV, R.KEEP_STAT_PF_SAT, R.KEEP_STAT_BK_SAT, R.KEEP_STAT_VBAT_LOW,
    R.KEEP_COMP_TEMP, R.KEEP_COMP_CORR].foldl (fun a f => a.put f 0) m1

/-- Sentinel word k. -/
def sentinel (k : Nat) : Nat := 0x51554B00 + k

/-- The first broken sentinel pair. -/
def Chip.brokenSentinel (m : Chip) : Option Nat :=
  (List.range 8).find? (fun k => m.rd .retention (8 * k) 4 != sentinel k || m.rd .retention (8 * k + 4) 4 != 0xFFFFFFFF - sentinel k)

/-- A cold start: retention SRAM is zeroed and its sentinels are written again; alarms, residue slots and the debug enable that it held
are gone. -/
def Chip.coldStart (m : Chip) (k : Nat) : Chip :=
  let m1 := (List.range 8).foldl (fun a k => (a.wr .retention (8 * k) 4 (sentinel k)).wr .retention (8 * k + 4) 4 (0xFFFFFFFF - sentinel k))
    (m.clearSpace .retention)
  let m2 := (List.range 32).foldl (fun a i =>
    [R.KEEP_ALM_CTL i, R.KEEP_ALM_TIME i, R.KEEP_ALM_STAT i, R.KEEP_ALM_LAST i].foldl (fun b f => b.setReg f.addr 0) a) m1
  let m3 := m2.setKeep { m2.keep with alarms := [] }
  let n := ((m3.withTotals { m3.totals with opened := [], closing := [], slotsLost := true }).withVault { m3.vault with debugKept := false }).withRings
    { m3.rings with held := m3.rings.held.filter (fun e => e.code != 0x0E00) }
  ((n.put R.KEEP_STAT_COLD 1).put R.KEEP_STAT_SENT_BAD 1).post (ev 3 0x0E02 3 0 0 (le 1 k))

/-- KEEP_CAUSE of the start: the shutdown record and the wake source. -/
def Chip.causeWord (m : Chip) : Nat :=
  let s := m.keep.stop
  bit (s == stopThermal) * 2 ^ 31 + bit (s == stopPf) * 2 ^ 30 + bit (s == stopHold) * 2 ^ 29 + bit (s == stopFallback) * 2 ^ 28 +
    m.keep.wake * 2 ^ 20 + (if m.keep.wake = 2 then m.keep.wakeAlarm else 0)

/-- The league time that the RTC gives (R419). -/
def Chip.seedNs (m : Chip) : Nat := m.keep.sec * 1000000000 + m.keep.sub * 1000000000 / 32768

/-- A start of PD2 reports a backup loss that the latch holds; that start consumes the latch (notes/assumptions/105.md). -/
def Chip.reportLoss (m : Chip) : Chip :=
  if m.keep.bkLatch then
    (m.count R.KEEP_BKLOSS_CNT (some R.KEEP_STAT_BK_SAT)).post (ev 3 0x0E03 3 0 0 (le 2 (m.get R.KEEP_STAT_VBAT)))
  else m

/-- A system FRAM record whose copies are both broken takes its reset value (R412, Table 20-2). -/
def Chip.sysReset (m : Chip) (o : Nat) : Chip :=
  match o with
  | 0x40 => m.setReg R.CAIRN_FLOOR.addr 0
  | 0x80 =>
    let n := ([R.KEEP_TZ_STD, R.KEEP_TZ_START, R.KEEP_TZ_END] ++ (List.range 13).map R.KEEP_CURVE).foldl (fun a f => a.setReg f.addr (regReset f.addr)) m
    (n.put R.KEEP_COMP_AGE 0).setKeep { n.keep with ofs := 37 }
  | 0x200 => m.shutRecord 0 0
  | 0x400 => m.setTotals { m.totals with map := [], mapGen := 0 }
  | 0x2200 => m.withPanel { m.panel with started := false, gen := 0, row := 0 }
  | _ => m

/-- The check of the system FRAM at a start of PD2 posts SYSREC_BAD for each such record. -/
def Chip.sysReport (m : Chip) (l : List Nat) : Chip := l.foldl (fun a o => a.post (ev 3 0x0E06 3 0 o [] CC.pairFault)) m

/-- PD2_START: the regulators are up and the oscillator runs. Events of this edge come in rising unit number, behind the alarms that fired while
PD2 was off. -/
def Chip.pd2Start (m : Chip) : Chip :=
  if m.keep.started || m.keep.enables != 6 || !m.keep.osc then m else
  let k := { m.keep with started := true, pd15 := true, waits := 0, vbatPosted := false, sysBad := [] }
  let m1 := m.keep.sysBad.foldl Chip.sysReset ((((m.withPd2 true).withClk { m.clk with mono := 0, league := m.seedNs * 2 ^ 32 })).setKeep k).keepReset.guardStart
  let lost := m.keep.bkLatch
  let m2 := if lost then (m1.put R.KEEP_STAT_BKLOSS 1).put R.KEEP_STAT_OSF 1 else m1
  let trust := !m2.on R.KEEP_STAT_OSF && !m2.on R.KEEP_STAT_BKLOSS
  let m3 := (m2.put R.UPL_TIME_STAT_TRUSTED (bit trust)).setReg R.KEEP_CAUSE.addr (BitVec.ofNat 32 m2.causeWord)
  let m4 : Chip := m3.withRings { m3.rings with held := m3.rings.held.map (fun e => { e with time := m3.stamp, untrusted := !trust }) }
  let m4a := m4.sysReport m.keep.sysBad
  let m5 := match m4a.brokenSentinel with
    | some i => m4a.coldStart i
    | none => m4a
  let m6 := m5.reportLoss
  let m7 := (m6.setKeep { m6.keep with bkLatch := false }).setLocal.post
    (ev 3 0x0E01 (if m6.keep.stop = stopThermal ∨ m6.keep.stop = stopPf then 2 else 0) 0 (m6.get64 R.KEEP_PF_TIME_LO).toNat (le 4 m6.causeWord))
  let m8 := if trust then m7.post (ev 7 0x0902 0 0 0 (le 1 1 ++ le 1 0)) else m7
  let m9 := m8.guard.owed.foldl (fun a e => a.guardTell e.1 e.2) (m8.setGuard { m8.guard with owed := [] })
  m9.vaultStart.panelStart

/-! ### Commands -/

def execTargetChangeDone (s : State) : Host.Outcome State Fault Refusal := s.act Chip.enterHold
def execThermalTrip (s : State) : Host.Outcome State Fault Refusal := s.act Chip.thermalTrip
def execWakePin (s : State) : Host.Outcome State Fault Refusal := s.actAll Chip.wakePin
def execMainSupplyValid (s : State) : Host.Outcome State Fault Refusal := s.actAll Chip.supplyValid
def execRegSequenceStep (s : State) : Host.Outcome State Fault Refusal := s.actAll Chip.seqStep
/-- REG_PG_TIMEOUT: no REG_PG within 10 ms of its enable. -/
def execRegPgTimeout (s : State) : Host.Outcome State Fault Refusal := s.actAll Chip.seqAbort
/-- REG_PG_DROP: a REG_PG falls before the sequence ends. -/
def execRegPgDrop (s : State) : Host.Outcome State Fault Refusal := s.actAll Chip.seqAbort
def execPd2Start (s : State) : Host.Outcome State Fault Refusal := s.actAll Chip.pd2Start
def execPowerFailWarning (s : State) : Host.Outcome State Fault Refusal := s.actAll Chip.powerFail
def execRegPgFail (s : State) : Host.Outcome State Fault Refusal := s.actAll Chip.pgFail
def execPanelLineBoundary (s : State) : Host.Outcome State Fault Refusal := s.actAll Chip.lineBoundary

end Sys2Proof.Machine
end

