-- ==== Sys2Proof/Machine/Boot.lean ====
section
/-! DEFINITION. The boot's commits on channel 0 and its ends (R72 to R75), and the commands that can move it on: those of the commit engine, and
the point store's READY. Reading and verifying the cairns is in Machine/Cairn.lean. -/

namespace Sys2Proof.Machine

open Sys2Proof

def Chip.setBoot (m : Chip) (b : Boot) : Chip := m.withBoot b

/-! ### The ends of a boot (R73 to R75) -/

/-- The last group has applied: the set is booted, tasks start, the domains of the target come on. -/
def Chip.bootDone (m : Chip) : Chip :=
  let b := m.boot
  let m1 := (((m.setBoot { b with running := false, going := false, groups := [], tried := [] }).put R.CAIRN_BOOT_STAT_STATE (1 + b.slot)).setReg
    R.CAIRN_GEN.addr b.gen).autostart
  let fb := m1.get R.CAIRN_BOOT_STAT_FALLBACK
  (m1.post (ev 0x12 0x1100 (if fb = 1 then 2 else 0) 0 b.gen.toNat
    (le 1 b.slot ++ le 1 (m1.get R.CAIRN_BOOT_STAT_DIR_COPY) ++ le 1 fb ++ le 1 0 ++ le 2 (m1.get R.CAIRN_BOOT_STAT_FAIL_CODE) ++
      le 1 (m1.get R.CAIRN_BOOT_STAT_FAIL_SET)))).bootDomains

/-- No set boots: reason 0 no valid directory copy, 1 no valid set, 2 every valid set failed. -/
def Chip.unconfigured (m : Chip) (reason : Nat) (code : Half) : Chip :=
  (((m.setBoot { m.boot with running := false, going := false, groups := [], tried := [] }).put R.CAIRN_BOOT_STAT_STATE 3).put
    R.CAIRN_BOOT_STAT_FAIL_CODE code.toNat).post (ev 0x12 0x1101 3 0 0 (le 1 reason) code) |>.bootDomains

/-- A group has failed: the keeper restarts PD2, and the set is not tried again (R73). -/
def Chip.bootFail (m : Chip) (code : Half) : Chip :=
  let n := ((m.otpCut.shutRecord stopFallback 0).dark)
  (n.setKeep { n.keep with enables := 6, osc := true, waits := 0, wake := 4, wakeAlarm := 0 }).withBoot
    { tried := m.boot.tried ++ [(m.boot.slot, code)] }

/-! ### The groups (R72) -/

/-- GO for a commit group with its check program, in mode NEXT; the host's bank, mode and check program stand as they were. -/
def Chip.bootGo (m : Chip) (g : Bank) (chk : Nat) : Chip :=
  let host := m.bank 0
  let m1 := (((m.setBank 0 g).put (R.COMMIT_MODE_MODE 0) 0).put (R.COMMIT_CHK_ENTRY 0) chk).commitGo 0 true
  ((m1.setReg (R.COMMIT_MODE 0).addr (m.reg (R.COMMIT_MODE 0).addr)).setReg (R.COMMIT_CHK 0).addr (m.reg (R.COMMIT_CHK 0).addr)).setBank 0 host

/-- The code of channel 0's last result. -/
def Chip.resCode (m : Chip) : Half := BitVec.ofNat 16 (m.get (R.COMMIT_RES_CODE 0))

/-- Commit the groups that are left, up to the first whose commit takes time; none goes before POINT_STAT.READY. -/
def Chip.bootNext (m : Chip) : List (Bank × Nat) → Chip
  | [] => m.bootDone
  | (g, chk) :: rest =>
    if !m.on R.POINT_STAT_READY then m.setBoot { m.boot with going := false, groups := (g, chk) :: rest }
    else
      let m1 := m.bootGo g chk
      if (m1.pend 0).isSome then m1.setBoot { m1.boot with going := true, groups := rest }
      else if m1.resCode = CC.ok then m1.bootNext rest
      else m1.bootFail m1.resCode

/-- The boot's next step, after anything that may have ended its commit or set READY. -/
def Chip.bootStep (m : Chip) : Chip :=
  if !m.boot.running ∨ (m.boot.going ∧ (m.pend 0).isSome) then m
  else if m.boot.going ∧ m.resCode ≠ CC.ok then m.bootFail m.resCode
  else m.bootNext m.boot.groups

/-! ### Commands -/

def execCommitGo (k : Fin 4) (s : State) : Host.Outcome State Fault Refusal := s.act (·.commitGo k.val false)
def execCommitAbort (k : Fin 4) (s : State) : Host.Outcome State Fault Refusal := s.act (fun m => (m.dropCommit k.val true).bootStep)
def execCommitRulesDone (k : Fin 4) (s : State) : Host.Outcome State Fault Refusal := s.act (fun m => (m.commitRules k.val).bootStep)
def execCheckLimitExpiry (k : Fin 4) (s : State) : Host.Outcome State Fault Refusal :=
  s.act (fun m => (m.checkLimit k.val).commitWatch.bootStep)
def execCommitPrepDone (k : Fin 4) (s : State) : Host.Outcome State Fault Refusal :=
  s.act (fun m => (m.prepDone k.val).commitWatch.bootStep)
def execCommitTaskTimeout (k : Fin 4) (s : State) : Host.Outcome State Fault Refusal := s.act (fun m => (m.taskTimeout k.val).commitWatch.bootStep)
def execCommitApply (k : Fin 4) (s : State) : Host.Outcome State Fault Refusal := s.act (fun m => (m.commitApply k.val).bootStep)
/-- DRAM_READY: the store starts to clear its records. -/
def execDramReady (s : State) : Host.Outcome State Fault Refusal :=
  s.act (fun m => if m.on R.POINT_STAT_READY then m else m.put R.POINT_STAT_INIT_BUSY 1)
/-- POINT_CLEAR_DONE (R52). -/
def execPointClearDone (s : State) : Host.Outcome State Fault Refusal := s.act (fun m => m.clearDone.bootStep)
/-- PLL_LOCK of one of the six PLLs, in the order of Table 1-3 (R13); PLL_PLAN is absent with the planner. -/
def execPllLock (p : Fin 6) (s : State) : Host.Outcome State Fault Refusal :=
  s.act (fun m => if (p.val = 3 ∧ !m.hasUnit 0x0A) ∨ m.clk.locked.contains p.val then m
    else (m.withClk { m.clk with locked := (m.clk.locked.filter (· < p.val)) ++ p.val :: (m.clk.locked.filter (p.val < ·)) }))

end Sys2Proof.Machine
end

