-- ==== Sys2Proof/Machine/Control.lean ====
section
/-! DEFINITION. The control space as its requesters see it (R4, R8, R9, R18, R24 to R26, R32, R459 to R467): reads, writes, staging, the windows,
the registers whose write starts work, and the UART's requests (R330). -/

namespace Sys2Proof.Machine

open Sys2Proof

/-! ### Bits of a register by access -/

/-- The bits of the fields that satisfy a condition. -/
def RegRow.mask (r : RegRow) (p : FldRow → Bool) : Word :=
  BitVec.ofNat 32 ((r.fields.filter p).foldl (fun a f => a ||| (2 ^ (f.hi + 1) - 2 ^ f.lo)) 0)

/-- The bits that a read returns: WO, W1S and reserved bits read zero. -/
def RegRow.readable (r : RegRow) : Word := r.mask (fun f => f.acc != .wo && f.acc != .w1s)

/-- Whether a register has a field that a write changes. -/
def writable (a : Nat) : Bool :=
  match rowOf a with
  | some row => row.fields.any (fun f => f.acc == .rw)
  | none => false

/-- The place of an address among `n` repeats of a stride. -/
def place (base stride n a : Nat) : Option Nat :=
  if base ≤ a ∧ (a - base) / stride < n ∧ (a - base) % stride = 0 then some ((a - base) / stride) else none

/-! ### Windows (R463 to R467) -/

/-- The windows in the order of Table 23-3. -/
def allWins : List Win :=
  [.scanTask, .guardIlt, .uplAddr, .loopCfg, .vaultImp, .uplNbr, .plcAdm, .lampRcp, .meterChan, .planOut, .lampFix, .lampZone, .lampGrp,
   .loopBank, .scanImap, .scanOmap, .scanImg, .pointDesc, .pointBind, .txnSta, .txnRoute, .planElem, .planBind, .lampFw, .loopCap]

def winAt (a : Nat) : Option Win := allWins.find? (fun w => decide (w.base ≤ a ∧ a < w.base + w.span))

/-- The GEN_WPAGE selector of a window: its number and its last page. -/
def Chip.winSel (m : Chip) : Win → Option (Nat × Nat)
  | .scanImap => some (0, 1) | .scanOmap => some (1, 1) | .scanImg => some (2, 1023) | .pointDesc => some (3, 15)
  | .pointBind => some (4, match m.variant with | .qv6440 => 15 | _ => 63)
  | .txnSta => some (5, 1) | .txnRoute => some (6, 31) | .planElem => some (7, 3) | .planBind => some (8, 1) | .lampFw => some (9, 1)
  | .loopCap => some (10, 1) | _ => none

/-- The page that a requester sees in a window. -/
def Chip.winPage (m : Chip) (r : Req) (w : Win) : Nat :=
  match m.winSel w with
  | some (i, _) => AMap.get 0 (m.req r).pages i
  | none => if w == .lampFix then m.get R.LAMP_CTL_FIX_PAGE else 0

/-- The window and absolute table offset that a requester reaches at a control-space offset; none where no table byte stands there. -/
def Chip.winHit (m : Chip) (r : Req) (a : Nat) : Option (Win × Nat) :=
  match winAt a with
  | none => none
  | some w =>
    let off := m.winPage r w * w.span + (a - w.base)
    if m.winSize w < off + 4 ∨ (w = .scanImg ∧ off < w.span) then none else some (w, off)

/-- The applied word of a table. -/
def Chip.winWord (m : Chip) (w : Win) (off : Nat) : Word :=
  if !m.presentAt w off then 0
  else if w == .loopCap then m.capWord off
  else BitVec.ofNat 32 (m.rd (.win w) off 4)

/-- The first window offset of DRAM_WIN. -/
def dramWin : Nat := 0x3C00000

/-- The DRAM address that a requester reaches through DRAM_WIN. -/
def Chip.dramAt (m : Chip) (r : Req) (a : Nat) : Nat := m.sharedBase + AMap.get 0 (m.req r).pages 11 * 4194304 + (a - dramWin)

/-- Change a requester's pages. -/
def Chip.setPage (m : Chip) (r : Req) (i v : Nat) : Chip := m.setReq r { m.req r with pages := AMap.put 0 i v (m.req r).pages }

/-! ### Live registers -/

/-- The word of a set with a register's staged fields over the applied word. -/
def Chip.stagedWord (m : Chip) (b : Bank) (a : Nat) (applied : Word) : Word :=
  match b.reg a with
  | some w => if m.present a then merge a applied w else w
  | none => applied

/-- The staging view of a table word. -/
def Chip.stagedWin (m : Chip) (b : Bank) (w : Win) (off : Nat) : Word :=
  let old := m.winWord w off
  BitVec.ofNat 32 (ofLe ((List.range 4).map (fun i => match b.bytes.find? (fun e => e.1 == w && e.2.1 == off + i) with
    | some e => e.2.2
    | none => BitVec.ofNat 8 (old.toNat / 256 ^ i))))

/-- TXN_STA_STAT of the selected station. -/
def Chip.staWord (m : Chip) : Word :=
  let n := m.get R.TXN_STA_SEL_STATION
  let s := m.sta n
  let mine := m.txn.txs.filter (fun t => decide (t.station = n))
  BitVec.ofNat 32 (bit (m.staOn n && s.up) * 2 ^ 31 +
    bit (decide (m.now < s.quenchUntil) || decide (m.now < AMap.get 0 m.txn.portQuench (m.portOf n))) * 2 ^ 30 + bit (s.babbleUntil != 0) * 2 ^ 29 +
    mine.countP Tx.inFlight * 2 ^ 22 + min (mine.countP (fun t => !t.inFlight)) 0xFFFF)

/-- SCAN_STAT. -/
def Chip.scanStat (m : Chip) : Word :=
  let active := (List.range 256).countP (fun t => (m.taskEnt t).enabled && m.tState t != TS.stopped && m.tState t != TS.faulted)
  BitVec.ofNat 32 (bit (m.get R.POINT_FORCE_USED_USED != 0) * 2 ^ 31 + (m.slotRuns.foldl (fun a r => a + r.2) 0) * 2 ^ 9 + active)

/-- VAULT_SLOT_INFO of the selected slot. -/
def Chip.slotInfo (m : Chip) : Word :=
  let n := m.get R.VAULT_SLOT_SEL_SLOT
  let x := m.vslot n
  BitVec.ofNat 32 (x.kind * 2 ^ 28 + x.rights * 2 ^ 21 + bit x.expire * 2 ^ 20 + bit (m.vheld n) * 2 ^ 19 + x.origin * 2 ^ 16)

/-- The word of a register as it stands now: identity and capability words, clocks, and the registers that show state held elsewhere; else the
register's own word. A core's load is a free value (notes/assumptions/97.md). -/
def Chip.ownWord (m : Chip) (a : Nat) : Word × Chip :=
  let w := fun (x : Nat) => (BitVec.ofNat 32 x, m)
  if a = R.GEN_UNITS.addr then w m.variant.units
  else if a = R.GEN_CAP_PTS.addr then w m.capPts
  else if a = R.GEN_CAP_IO.addr then w m.capIo
  else if a = R.GEN_CAP_MEM.addr then w m.capMem
  else if a = R.SCAN_STAT.addr then (m.scanStat, m)
  else if (place (R.SCAN_CORE_LOAD 0).addr 4 36 a).isSome then let (v, m1) := m.fresh; (v.extractLsb' 0 32, m1)
  else if a = R.TXN_STA_STAT.addr then (m.staWord, m)
  else if a = R.TXN_STA_HEARD_LO.addr then w (m.sta (m.get R.TXN_STA_SEL_STATION)).heard
  else if a = R.TXN_STA_HEARD_HI.addr then w ((m.sta (m.get R.TXN_STA_SEL_STATION)).heard / 2 ^ 32)
  else if a = R.UPL_TIME_NOW_LO.addr then w m.now
  else if a = R.UPL_TIME_NOW_HI.addr then w (m.now / 2 ^ 32)
  else if a = R.KEEP_RTC_SUB.addr then w m.keep.sub
  else if a = R.KEEP_RTC_TIME.addr then (rtcTimeWord m.keep.sec, m)
  else if a = R.KEEP_RTC_DATE.addr then (rtcDateWord m.keep.sec, m)
  else if a = R.KEEP_RTC_SEC.addr then w m.keep.sec
  else if a = R.LAMP_STAT.addr then (m.put R.LAMP_STAT_PENDING m.lampPending).reg a |> fun x => (x, m)
  else if a = R.VAULT_STATE.addr then w m.stateWord
  else if a = R.VAULT_ID_LO.addr then w m.vault.ident.toNat
  else if a = R.VAULT_ID_HI.addr then w (m.vault.ident.toNat / 2 ^ 32)
  else if a = R.VAULT_SLOT_INFO.addr then (m.slotInfo, m)
  else if a = R.CAIRN_FL_STAT.addr then ((if m.booting then m.put R.CAIRN_FL_STAT_CODE CC.busy.toNat else m).reg a, m)
  else if a = R.VAULT_SLOT_CNT.addr then w (m.vslot (m.get R.VAULT_SLOT_SEL_SLOT)).count
  else match place (R.VAULT_OWNER 0).addr 4 12 a with
    | some i => w (fld ((m.otp 2).getD []) (4 * i) 4)
    | none => (m.reg a, m)

/-- COMMIT_PEEK_DATA of channel k for a requester: the frozen set during the check program, else the collecting bank, over the applied word. -/
def Chip.peek (m : Chip) (r : Req) (k : Nat) : Word :=
  let a := (m.reg (R.COMMIT_PEEK_ADDR k).addr).toNat / 4 * 4
  let b := match m.pend k with
    | some p => if m.phase k = 2 then p.set else m.bank k
    | none => m.bank k
  match winAt a with
  | some _ => (match m.winHit r a with
    | some (w, off) => m.stagedWin b w off
    | none => 0)
  | none => m.stagedWord b a (if m.present a then (m.ownWord a).1 else 0)

/-- The applied word of a register for a requester, with bits that do not read masked off. -/
def Chip.regWord (m : Chip) (r : Req) (a : Nat) : Word × Chip :=
  if !m.present a then (0, m)
  else match place (R.GEN_WPAGE 0).addr 4 11 a with
    | some i => (BitVec.ofNat 32 (AMap.get 0 (m.req r).pages i), m)
    | none =>
      if a = R.GEN_DWIN.addr then (BitVec.ofNat 32 (AMap.get 0 (m.req r).pages 11), m)
      else match place (R.COMMIT_PEEK_DATA 0).addr 0x100 4 a with
        | some k => (m.peek r k, m)
        | none => match rowOf a with
          | some row => let (w, m1) := m.ownWord a; (w &&& row.readable, m1)
          | none => (0, m)

/-! ### Reads (R25, R461, R463) -/

/-- The retention scratch that KEEP_RET shows (Table 20-1). -/
def keepRet (a : Nat) : Option Nat := if 0xE0000 ≤ a ∧ a < 0xE8000 then some (0x8000 + (a - 0xE0000)) else none

/-- Clear the RC fields of a register. -/
def Chip.readClear (m : Chip) (a : Nat) : Chip :=
  match rowOf a with
  | some row => if row.fields.any (fun f => f.acc == .rc) then m.setReg a (m.reg a &&& ~~~(row.mask (fun f => f.acc == .rc))) else m
  | none => m

/-- The further words of a value of n words, as a read of its low word latches them. -/
def Chip.latchWords (m : Chip) (r : Req) (a n : Nat) : List (Nat × Word) :=
  (List.range (n - 1)).map (fun i => (a + 4 * (i + 1), (m.regWord r (a + 4 * (i + 1))).1))

/-- A word read by a requester. A latched word is returned and released; the read of a low word latches the rest of its value. -/
def Chip.ctlRead (m : Chip) (r : Req) (off : Nat) : Word × Chip :=
  let a := off / 4 * 4
  let x := m.req r
  if 0x4000000 ≤ off ∨ (r = .debug ∧ !m.vault.debug) then (0, m)
  else match assoc x.latch a with
    | some w => (w, m.setReq r { x with latch := unassoc x.latch a })
    | none =>
      if dramWin ≤ a then (BitVec.ofNat 32 (m.rd .dram (m.dramAt r a) 4), m)
      else if 0x500000 ≤ a then (match m.winHit r a with
        | some (w, o) => (m.winWord w o, m)
        | none => (0, m))
      else match keepRet a with
        | some o => (BitVec.ofNat 32 (m.rd .retention o 4), m)
        | none =>
          let (w, m1) := m.regWord r a
          let m2 := match regKind a with
            | .mwLo n => if m.present a then m1.setReq r { m1.req r with latch := m1.latchWords r a n } else m1
            | _ => m1
          (w, if m.present a then m2.readClear a else m2)

/-! ### Event rings (R31, R32, R491) -/

/-- The first enable of any ring: the held events are judged in the order in which they arose. -/
def Chip.openRings (m : Chip) : Chip :=
  if m.rings.opened then m
  else m.rings.held.foldl Chip.judge (m.withRings { m.rings with opened := true, held := [] })

/-- A write of GEN_EVR_CFG. -/
def Chip.evrCfg (m : Chip) (n : Nat) (w : Word) : Chip :=
  let en := m.on (R.GEN_EVR_CFG_EN n)
  let size := fieldOf (R.GEN_EVR_CFG_SIZE n) w
  let m1 := m.put (R.GEN_EVR_CFG_MIN_SEV n) (fieldOf (R.GEN_EVR_CFG_MIN_SEV n) w)
  if fieldOf (R.GEN_EVR_CFG_EN n) w = 0 then (if en then m1.put (R.GEN_EVR_CFG_EN n) 0 else m1.put (R.GEN_EVR_CFG_SIZE n) size)
  else if en then m1
  else
    let m2 := m1.put (R.GEN_EVR_CFG_SIZE n) size
    if !m2.inShared (m2.ringBase n) (64 * 2 ^ ringSize size) then m2
    else
      let m3 := ((m2.put (R.GEN_EVR_CFG_EN n) 1).put (R.GEN_EVR_HEAD n) 0).put (R.GEN_EVR_TAIL n) 0
      (m3.withRings { m3.rings with size := AMap.put 8 n (ringSize size) m3.rings.size }).openRings

/-- A write of GEN_EVR_TAIL. -/
def Chip.evrTail (m : Chip) (n : Nat) (w : Word) : Chip :=
  if 2 ^ AMap.get 8 m.rings.size n < (m.get (R.GEN_EVR_HEAD n) + 2 ^ 32 - w.toNat) % 2 ^ 32 then m else m.put (R.GEN_EVR_TAIL n) w.toNat

/-! ### The cairn flash registers (R70, R77) -/

/-- CAIRN_FLOOR_WRITE. -/
def Chip.floorWrite (m : Chip) (w : Word) : Chip := if newer w (m.reg R.CAIRN_FLOOR.addr) then m.setReg R.CAIRN_FLOOR.addr w else m

/-- Whether a flash range meets the slot of the set that is booted. -/
def Chip.inBooted (m : Chip) (a n : Nat) : Bool :=
  let s := m.get R.CAIRN_BOOT_STAT_STATE
  (s == 1 || s == 2) && (match m.boot.ranges[s - 1]? with
    | some (o, l) => decide (o < a + n ∧ a < o + l)
    | none => false)

/-- A write of CAIRN_FL_CMD: ignored while an operation runs or the boot holds the lock; a refused one completes at once. -/
def Chip.flashCmd (m : Chip) (op len : Nat) : Chip :=
  let code := fun (c : Half) => m.put R.CAIRN_FL_STAT_CODE c.toNat
  let at_ := m.get R.CAIRN_FL_ADDR_ADDR
  let sz := if op = 3 then 4096 else 65536
  let (a, n) := if op ≤ 2 then (at_, len) else (at_ / sz * sz, sz)
  if m.on R.CAIRN_FL_STAT_BUSY || m.booting then m
  else if op = 0 ∨ 4 < op ∨ (op ≤ 2 ∧ (len = 0 ∨ 256 < len ∨ 256 < a % 256 + len)) then code CC.checkFailed
  else if op ≠ 1 ∧ m.inBooted a n then code CC.checkFailed
  else
    let data := ((m.wordBytes R.CAIRN_FL_DATA 64).take n)
    (m.withBoot { m.boot with flash := some { op := op, addr := a, len := n, data := data } }).put R.CAIRN_FL_STAT_BUSY 1

/-- FLASH_OP_DONE. Programming clears bits of the NOR array and sets none (notes/assumptions/98.md). -/
def Chip.flashDone (m : Chip) : Chip :=
  match m.boot.flash with
  | none => m
  | some f =>
    let m1 := match f.op with
      | 1 => m.putWords R.CAIRN_FL_DATA ((f.len + 3) / 4) (m.bytes .flash f.addr f.len ++ List.replicate 3 0)
      | 2 => m.setBytes .flash f.addr (f.data.zipIdx.map (fun (e : Byte × Nat) => e.1 &&& m.byte .flash (f.addr + e.2)))
      | _ => m.setBytes .flash f.addr (List.replicate f.len 0xFF)
    ((m1.withBoot { m1.boot with flash := none }).put R.CAIRN_FL_STAT_BUSY 0).put R.CAIRN_FL_STAT_CODE 0

/-! ### Writes (R4, R9, R18, R24, R26, R461) -/

/-- Write the fields of a register that take a write directly: RW and WO bits, and W1C bits that the word clears. -/
def Chip.putFields (m : Chip) (a : Nat) (w : Word) : Chip :=
  match rowOf a with
  | some row =>
    let take := row.mask (fun f => !f.staged && (f.acc == .rw || f.acc == .wo))
    let clr := row.mask (fun f => f.acc == .w1c) &&& w
    if take = 0 ∧ clr = 0 then m else m.setReg a (((m.reg a &&& ~~~take) ||| (w &&& take)) &&& ~~~clr)
  | none => m

/-- GEN: pages, ring registers, the event map. -/
def Chip.genWrite (m : Chip) (r : Req) (a : Nat) (w : Word) : Chip :=
  match allWins.find? (fun x => match m.winSel x with | some (i, _) => a == (R.GEN_WPAGE i).addr | none => false) with
  | some x => (match m.winSel x with
    | some (i, last) => if m.hasUnit x.unit && decide (w.toNat % 1024 ≤ last) then m.setPage r i (w.toNat % 1024) else m
    | none => m)
  | none =>
    if a = R.GEN_DWIN.addr then m.setPage r 11 (w.toNat % 256)
    else match place 0x1008 0x20 16 a with
      | some n => m.evrCfg n w
      | none => match place 0x1010 0x20 16 a with
        | some n => m.evrTail n w
        | none =>
          if 0x1000 ≤ a ∧ a < 0x1200 ∧ m.on (R.GEN_EVR_CFG_EN ((a - 0x1000) / 0x20)) then m
          else match place 0x1400 4 20 a with
            | some u => if m.hasUnit u then m.putFields a w else m
            | none => m.putFields a w

/-- KEEP. -/
def Chip.keepWrite (m : Chip) (r : Req) (a : Nat) (w : Word) : Chip :=
  if a = R.KEEP_RTC_SET_TIME.addr then m.setReq r { m.req r with held := reassoc (m.req r).held a w }
  else if a = R.KEEP_RTC_SET_DATE.addr then m.rtcSet r w
  else if a = R.KEEP_TSCAP_CMD.addr then (if w.getLsbD 31 then m.tscap else m)
  else match place (R.KEEP_ALM_CTL 0).addr 0x10 32 a, place (R.KEEP_ALM_TIME 0).addr 0x10 32 a with
    | some i, _ => m.alarmWrite i false w
    | _, some i => m.alarmWrite i true w
    | _, _ => m.putFields a w

/-- LOOP: swaps, generators, capture, loop control. -/
def Chip.loopRegs (m : Chip) (a : Nat) (w : Word) : Chip :=
  let m1 := m.putFields a w
  if a = R.LOOP_SWAP_CMD.addr then (if w.getLsbD 31 then m1.swapGo (m1.on R.LOOP_SWAP_CMD_MODE) else m1)
  else if a = R.LOOP_CAP_CTL.addr then
    let m2 := if w.getLsbD 31 then m1.capArm else m1
    if w.getLsbD 30 then m2.capEnd 1 else m2
  else match place (R.LOOP_TG_CTL 0).addr 0x40 4 a with
    | some g => if w.getLsbD 30 then m1.testEnd g CC.superseded true else if w.getLsbD 31 then m1.testGo g else m1
    | none => match place (R.LOOP_L_CTL 0).addr 0x10 512 a with
      | some n => m.loopCtl n (some (w.toNat % 2)) (w.getLsbD 31)
      | none => m1

/-- CAN: recovery and the software buffers; a pending transmit buffer discards writes to it (R359). -/
def Chip.canWrite (m : Chip) (a : Nat) (w : Word) : Chip :=
  let n := (a - 0x240000) / 0x1000
  let o := (a - 0x240000) % 0x1000
  let b := (o - 0x100) / 0x80
  if o = 0x14 then (if w.getLsbD 31 then m.canRecover n else m)
  else if 0x100 ≤ o ∧ o < 0x280 then
    (if (o - 0x100) % 0x80 = 8 then (if w.getLsbD 30 then m.txbAbort n b else if w.getLsbD 31 then m.txbReq n b else m)
     else if m.bufPending n b then m else m.putFields a w)
  else m.putFields a w

/-- SADL_CMD: one command at a time (R386, R387). -/
def Chip.sadlWrite (m : Chip) (a : Nat) (w : Word) : Chip :=
  if a ≠ R.SADL_CMD.addr then m.putFields a w
  else match w.toNat / 2 ^ 28 with
    | 0 => m
    | 8 => m.sadlSwitch
    | 4 => m.sadlTake (m.on R.SADL_STAT_HB_IN)
    | 2 => m.sadlLeave
    | 1 => m.sadlResync
    | _ => m.sadlRes CC.checkFailed

/-- VAULT. -/
def Chip.vaultWrite (m : Chip) (r : Req) (a : Nat) (w : Word) : Chip :=
  if a = R.VAULT_CTL.addr then (if w.getLsbD 31 then m.vreset else m)
  else if a = R.VAULT_SUB_HI.addr then m.vaultReg r w
  else if a = R.VAULT_OTP_CMD.addr then (if w.getLsbD 31 then m.otpGo r (w.toNat % 8) else m)
  else if a = R.VAULT_DBG_CMD.addr then
    let m1 := if w.getLsbD 31 then m.debugChal r else m
    let m2 := if w.getLsbD 30 then m1.debugOpen r else m1
    if w.getLsbD 29 then m2.debugClose else m2
  else m.putFields a w

/-- PANEL. Whether the crack loop shows edges is not on any register: a CRK_CLR written here meets a free answer (notes/assumptions/99.md). -/
def Chip.panelWrite (m : Chip) (a : Nat) (w : Word) : Chip :=
  if a = R.PANEL_CTL.addr then
    let m1 := if w.getLsbD 29 then m.markClear else m
    if w.getLsbD 28 then (let (v, m2) := m1.fresh; m2.crackClear (v.getLsbD 0)) else m1
  else if a = R.PANEL_CMD.addr then (if w.getLsbD 31 then m.panelUpdate w else m)
  else m.putFields a w

/-- What a write of a present register does beside staging: each unit's registers that start work, else the fields that take a write. -/
def Chip.regWrite (m : Chip) (r : Req) (a : Nat) (w : Word) : Chip :=
  match blockUnit a with
  | 0 => m.genWrite r a w
  | 1 => match place 0x40000 0x100 4 a with
    | some k => (m.commitCtl k w).bootStep
    | none => m.putFields a w
  | 3 => m.keepWrite r a w
  | 4 =>
    if a = R.SCAN_TCMD.addr then m.tcmd w
    else match place (R.SCAN_TS_MAX 0).addr 0x20 256 a with
      | some _ => if w = 0 then m.setReg a 0 else m
      | none => m.putFields a w
  | 5 => match place (R.POINT_ACC_CMD 0).addr 0x100 3 a with
    | some p => m.accCmd p w
    | none => m.putFields a w
  | 6 =>
    let m1 := m.putFields a w
    if a = R.TXN_Q_CMD.addr && w.getLsbD 31 then m1.quenchGo (m1.on R.TXN_Q_CMD_ACK_REQ) else m1
  | 7 => if a = R.UPL_TIME_SET_HI.addr then m.timeSet r w else m.putFields a w
  | 8 => match place 0x200000 0x40 16 a with
    | some s => if w.getLsbD 30 then m.qclr s else m
    | none => m.putFields a w
  | 9 => m.canWrite a w
  | 0xA =>
    if a = R.PLAN_CMD.addr then (match w.toNat % 4 with | 1 => m.planCmd false | 2 => m.planCmd true | _ => m)
    else m.putFields a w
  | 0xB =>
    if a = R.LAMP_SUB_CMD.addr then
      (if w.getLsbD 31 then m.lampReg (fieldOf R.LAMP_SUB_CMD_MASK w) (fieldOf R.LAMP_SUB_CMD_CURVE w) else m)
    else if a = R.LAMP_FW_CTL.addr then
      (if w.getLsbD 30 then (m.putFields a w).fwAbort
       else if w.getLsbD 31 then m.fwGo (fieldOf R.LAMP_FW_CTL_KEY w) (fieldOf R.LAMP_FW_CTL_GROUP w) else m.putFields a w)
    else m.putFields a w
  | 0xC => m.loopRegs a w
  | 0xD => if a = R.METER_LOST_CNT.addr then m.lostClear w else m.putFields a w
  | 0xE => m.sadlWrite a w
  | 0x10 => m.vaultWrite r a w
  | 0x11 => m.panelWrite a w
  | 0x12 =>
    if a = R.CAIRN_FLOOR.addr then m.floorWrite w
    else if a = R.CAIRN_FL_CMD.addr then m.flashCmd (fieldOf R.CAIRN_FL_CMD_OP w) (fieldOf R.CAIRN_FL_CMD_LEN w)
    else if m.booting then m else m.putFields a w
  | 0x13 => m
  | _ => m.putFields a w

/-- Write one register word: Staged fields go to the channel 0 bank, of an absent unit too; the rest is written where the unit is present. -/
def Chip.putReg (m : Chip) (r : Req) (a : Nat) (w : Word) : Chip :=
  match rowOf a with
  | none => m
  | some row =>
    let m1 := if row.stagedMask = 0 then m else m.stageReg 0 a w
    if m.present a then m1.regWrite r a w else m1

/-- A broken complement pair written to registers: both words are discarded and the fault is posted. The spec gives this event neither a code nor a
severity: both are free (notes/assumptions/100.md). -/
def Chip.pairBroken (m : Chip) (a : Nat) : Chip :=
  let (v, m1) := m.fresh
  m1.post (ev (blockUnit a) (v.extractLsb' 0 16) (v.toNat / 2 ^ 16 % 5) 0 a [] CC.pairFault)

/-- The write of NAME_C: with the pending NAME of the same requester it completes the pair (R18). -/
def Chip.pairWrite (m : Chip) (r : Req) (a : Nat) (w : Word) : Chip :=
  let x := m.req r
  let m1 := m.setReq r { x with pair := none }
  match x.pair with
  | some (n, v) => if n + 4 = a ∧ w = ~~~v then (m1.putReg r n v).putReg r a w else m1.pairBroken a
  | none => m1.pairBroken a

/-- The highest word of a value of several words, with the low word that the requester holds (R26). The two that units take together with their
own hold are passed on as they are. -/
def Chip.wideWrite (m : Chip) (r : Req) (a : Nat) (w : Word) : Chip :=
  if a = R.UPL_TIME_SET_HI.addr ∨ a = R.VAULT_SUB_HI.addr then m.putReg r a w
  else
    let x := m.req r
    match assoc x.held (a - 4) with
    | some lo => ((m.setReq r { x with held := unassoc x.held (a - 4) }).putReg r (a - 4) lo).putReg r a w
    | none => m.putReg r a w

/-- Clear a diagnostic counter and its SAT flag, where the word is 0 (R24). -/
def Chip.counterWrite (m : Chip) (a : Nat) (sat : Option (Nat × Nat)) (w : Word) : Chip :=
  if w ≠ 0 then m
  else
    let m1 := m.setReg a 0
    match sat, rowOf a with
    | some (s, b), some row => m1.put ⟨s + (a - row.base), b, b⟩ 0
    | _, _ => m1

/-- A write of one word through a window (R268, R269, R463 to R465). Writes to LOOP_BANK of an enabled loop go to its edit copy or, as single
writes, to its active bank; those of another loop are staged (notes/assumptions/101.md). -/
def Chip.winWrite (m : Chip) (r : Req) (a : Nat) (v : Word) : Chip :=
  match m.winHit r a with
  | none => m
  | some (w, off) =>
    match w with
    | .loopCap => m
    | .lampFw =>
      let st := m.get R.LAMP_FW_STAT_STATE
      if m.presentAt w off && (st == 0 || st == 5) then m.wr (.win .lampFw) off 4 v.toNat else m
    | .loopBank =>
      let n := off / 2304
      if !m.presentAt w off || !(m.loopEnt n).enabled then m.stageBytes 0 w off (le 4 v.toNat)
      else if off % 2304 / 1152 = m.loopBank n then m.singleWrite r n (off % 1152) v
      else m.editWrite n (off % 1152) v
    | _ => m.stageBytes 0 w off (le 4 v.toNat)

/-- A word written by a requester. -/
def Chip.ctlWrite (m : Chip) (r : Req) (off : Nat) (w : Word) : Chip :=
  let a := off / 4 * 4
  if 0x4000000 ≤ off ∨ (r = .debug ∧ !m.vault.debug) then m
  else if dramWin ≤ a then m.wr .dram (m.dramAt r a) 4 w.toNat
  else if 0x500000 ≤ a then m.winWrite r a w
  else match keepRet a with
    | some o => m.wr .retention o 4 w.toNat
    | none =>
      match regKind a with
      | .counter sat => if m.present a then m.counterWrite a sat w else m
      | .mwLo _ => if writable a then m.setReq r { m.req r with held := reassoc (m.req r).held a w } else m
      | .mwHi => m.wideWrite r a w
      | .pairLo => if m.present a then m.setReq r { m.req r with pair := some (a, w) } else m.putReg r a w
      | .pairHi => if m.present a then m.pairWrite r a w else m.putReg r a w
      | .plain => m.putReg r a w

/-! ### The UART (R330) -/

/-- Whether the UART works: PD2 and PD15 are on. -/
def Chip.uartOn (m : Chip) : Bool := m.pdReady 15

/-- An offset that a UART request may name. -/
def uartOffset (a : Word) : Bool := a.toNat % 4 == 0 && decide (a.toNat < 0x4000000)

/-- The response: opcode, completion code, data, CRC-32C. -/
def Chip.uartAnswer (m : Chip) (op : Nat) (code : Half) (data : Word) : Chip :=
  let b := le 1 op ++ le 2 code.toNat ++ le 4 data.toNat
  m.emit (.frame 7 9 "UART" ((b ++ le 4 (crc32c b).toNat).map BitVec.toNat))

/-- The receiver stands at byte 0 after a whole request. -/
def Chip.uartAt (m : Chip) (n : Nat) : Chip := m.setUpl { m.upl with uartByte := n }

/-- A READ request. -/
def Chip.uartRead (m : Chip) (a : Word) : Chip :=
  if !m.uartOn then m
  else if !uartOffset a then (m.uartAt 0).uartAnswer 1 CC.checkFailed 0
  else let (w, m1) := (m.uartAt 0).ctlRead .uart a.toNat; m1.uartAnswer 1 CC.ok w

/-- A WRITE request. The response carries the data written (notes/assumptions/102.md). -/
def Chip.uartWrite (m : Chip) (a v : Word) : Chip :=
  if !m.uartOn then m
  else if !uartOffset a then (m.uartAt 0).uartAnswer 2 CC.checkFailed 0
  else ((m.uartAt 0).ctlWrite .uart a.toNat v).uartAnswer 2 CC.ok v

/-- A request with a bad CRC or opcode is counted; the count sticks at 0xFFFF. -/
def Chip.uartBad (m : Chip) : Chip :=
  if m.uartOn then (m.uartAt 0).put R.UPL_UART_CFG_ERR (min 0xFFFF (m.get R.UPL_UART_CFG_ERR + 1)) else m

/-! ### Commands -/

/-- REGISTER_WRITE; `full` is whether all byte enables of a PCIe write are set: one whose are not is discarded and counted (R329). -/
def execRegisterWrite (r : Req) (a : Nat) (v : Word) (full : Bool) (s : State) : Host.Outcome State Fault Refusal :=
  s.act (fun m => if r = .pcie ∧ !full then m.put R.UPL_PCIE_STAT_PARTIAL (min 0xFFFF (m.get R.UPL_PCIE_STAT_PARTIAL + 1)) else m.ctlWrite r a v)
def execPairedRegisterWrite (r : Req) (a : Nat) (v : Word) (s : State) : Host.Outcome State Fault Refusal := s.act (·.ctlWrite r a v)
def execMultiwordWrite (r : Req) (a : Nat) (v : Word) (s : State) : Host.Outcome State Fault Refusal := s.act (·.ctlWrite r a v)
def execLowWordRead (r : Req) (a : Nat) (s : State) : Host.Outcome State Fault Refusal :=
  s.act (fun m => let (w, m1) := m.ctlRead r a; m1.emit (.word r a w))
def execRcFieldRead (r : Req) (a : Nat) (s : State) : Host.Outcome State Fault Refusal :=
  s.act (fun m => let (w, m1) := m.ctlRead r a; m1.emit (.word r a w))
/-- DIAG_COUNTER_CLEAR: a write of `v` to the counter at an offset. -/
def execDiagCounterClear (r : Req) (a : Nat) (v : Word) (s : State) : Host.Outcome State Fault Refusal := s.act (·.ctlWrite r a v)
def execEvrCfgWrite (n : Fin 16) (w : Word) (s : State) : Host.Outcome State Fault Refusal := s.act (·.evrCfg n.val w)
def execEvrTailWrite (n : Fin 16) (w : Word) (s : State) : Host.Outcome State Fault Refusal := s.act (·.evrTail n.val w)
/-- DRAM_WINDOW_ACCESS: a write of `v`, or a read, at an offset of DRAM_WIN. -/
def execDramWindowAccess (r : Req) (off : BitVec 22) (v : Option Word) (s : State) : Host.Outcome State Fault Refusal :=
  s.act (fun m => match v with
    | some w => m.ctlWrite r (dramWin + off.toNat) w
    | none => let (w, m1) := m.ctlRead r (dramWin + off.toNat); m1.emit (.word r (dramWin + off.toNat) w))
def execUartRead (a : Word) (s : State) : Host.Outcome State Fault Refusal := s.act (·.uartRead a)
def execUartWrite (a v : Word) (s : State) : Host.Outcome State Fault Refusal := s.act (·.uartWrite a v)
def execUartIdleReset (s : State) : Host.Outcome State Fault Refusal := s.act (·.uartAt 0)
def execUartBadRequest (s : State) : Host.Outcome State Fault Refusal := s.act Chip.uartBad
def execCairnFloorWrite (w : Word) (s : State) : Host.Outcome State Fault Refusal := s.act (·.floorWrite w)
def execFlashRead (len : BitVec 9) (s : State) : Host.Outcome State Fault Refusal := s.act (·.flashCmd 1 len.toNat)
def execFlashProgram (len : BitVec 9) (s : State) : Host.Outcome State Fault Refusal := s.act (·.flashCmd 2 len.toNat)
def execErase4k (s : State) : Host.Outcome State Fault Refusal := s.act (·.flashCmd 3 0)
def execErase64k (s : State) : Host.Outcome State Fault Refusal := s.act (·.flashCmd 4 0)
def execFlashOpDone (s : State) : Host.Outcome State Fault Refusal := s.act Chip.flashDone

end Sys2Proof.Machine
end

