-- ==== Sys2Proof/Machine/Cairn.lean ====
section
/-! DEFINITION. What the boot ROM reads (R68 to R73): the flash's read mode, the directory, record sets and their checks, the records of a set as it
loads and judges them. -/

namespace Sys2Proof.Machine

open Sys2Proof

/-! ### SFDP (R68) -/

/-- The clock limit of the device for a width code and transfer rate, in MHz; 0 where the device does not have the mode. -/
def modeLimit (w : Nat) (dtr : Bool) : Nat := if w < 4 ∧ !dtr then 133 else if w = 4 then (if dtr then 200 else 166) else 0

/-- Bits moved in a microsecond by a mode at its clock. -/
def modeRate (e : Nat × Bool × Nat) : Nat :=
  [1, 4, 4, 4, 8].getD e.1 0 * (if e.2.1 then 2 else 1) * min e.2.2 (modeLimit e.1 e.2.1)

/-- The fastest of the modes offered; 1-1-1 stands beside them, and of equal rates the wider command width wins. -/
def fastest (l : List (Nat × Bool × Nat)) : Nat × Bool × Nat :=
  (l.filter (fun e => decide (0 < modeRate e))).foldl
    (fun b e => if modeRate b < modeRate e ∨ (modeRate b = modeRate e ∧ b.1 < e.1) then e else b) (0, false, 25)

/-- SFDP_DISCOVERY: `sfdp` is what the flash presents: the modes it offers (width code, DTR, clock) and whether it declares 4-byte
addresses; none where it presents no valid signature. -/
def Chip.discover (m : Chip) (sfdp : Option (List (Nat × Bool × Nat) × Bool)) : Chip :=
  match sfdp with
  | none => ((m.put R.CAIRN_FL_MODE_WIDTH 15).put R.CAIRN_FL_MODE_CLK 25)
  | some (l, a4) =>
    let e := fastest l
    (((m.put R.CAIRN_FL_MODE_WIDTH e.1).put R.CAIRN_FL_MODE_DTR (bit e.2.1)).put R.CAIRN_FL_MODE_CLK
      (min e.2.2 (modeLimit e.1 e.2.1))).put R.CAIRN_FL_MODE_ADDR4 (bit a4)

/-- Bytes of flash that the boot ROM reaches: 3-byte addresses without 4-byte addressing. -/
def Chip.flashReach (m : Chip) : Nat := if m.on R.CAIRN_FL_MODE_ADDR4 then 2 ^ 29 else 2 ^ 24

/-! ### The directory (R69) -/

/-- The 64 bytes of directory copy i, where it is valid. -/
def Chip.dirCopy (m : Chip) (i : Nat) : Option (List Byte) :=
  let b := m.bytes .flash (0x10000 * i) 64
  if fld b 0 4 = 0x44435651 ∧ fld b 4 2 = 1 ∧ fld b 60 4 = (crc32c (b.take 60)).toNat then some b else none

/-- The copy in use, with its number: the newer directory sequence, copy 0 at equal ones. -/
def Chip.directory (m : Chip) : Option (Nat × List Byte) :=
  match m.dirCopy 0, m.dirCopy 1 with
  | some a, some b => if newer (BitVec.ofNat 32 (fld b 8 4)) (BitVec.ofNat 32 (fld a 8 4)) then some (1, b) else some (0, a)
  | some a, none => some (0, a)
  | none, some b => some (1, b)
  | none, none => none

/-- Offset, length and generation of slot A (0) or B (1). -/
def dirSlot (b : List Byte) (s : Nat) : Nat × Nat × Word :=
  (fld b (16 + 12 * s) 4, fld b (20 + 12 * s) 4, BitVec.ofNat 32 (fld b (24 + 12 * s) 4))

/-! ### A record set (R70, R71) -/

/-- A record: type, target, payload in the clear. -/
structure CRec where
  typ : Nat
  target : Nat
  payload : List Byte
deriving DecidableEq, Repr

/-- A byte list as an optional payload under the cairn key. -/
def Chip.clearText (m : Chip) (p : List Byte) : Option (List Byte) :=
  if m.vault.debug then none else Config.gcmOpen (m.vslot 2).key (p.take 12) [] (p.drop 12)

/-- The records of a set; CHECK_FAILED for a record that is cut short, has an unknown type or a bad CRC, AUTH_FAIL for one whose tag fails. The
first argument bounds their number. -/
def Chip.cairnRecs (m : Chip) : Nat → List Byte → Except Half (List CRec)
  | 0, b => if b.isEmpty then .ok [] else .error CC.checkFailed
  | n + 1, b =>
    if b.isEmpty then .ok [] else
    let len := fld b 4 4
    let typ := fld b 0 2
    let size := 16 + (len + 7) / 8 * 8
    let p := (b.drop 16).take len
    if b.length < size ∨ typ < 1 ∨ 7 < typ ∨ fld b 12 4 ≠ (crc32c (b.take 12 ++ p)).toNat then .error CC.checkFailed
    else
      match (if (fld b 2 2).testBit 0 then m.clearText p else some p), m.cairnRecs n (b.drop size) with
      | none, _ => .error CC.authFail
      | _, .error c => .error c
      | some q, .ok l => .ok ({ typ := typ, target := fld b 8 4, payload := q } :: l)

/-- SET_VERIFY: the records of the set in slot s that the directory names, or the code with which it is refused; none for an empty slot. -/
def Chip.verifySet (m : Chip) (dir : List Byte) (s : Nat) : Option (Except Half (List CRec)) :=
  let (off, len, gen) := dirSlot dir s
  if len = 0 then none
  else if len < 512 ∨ m.flashReach < off + len then some (.error CC.checkFailed)
  else
    let b := m.bytes .flash off len
    let key := (b.drop 80).take 96
    let bound := !(fld b 20 4).testBit 0 || decide (fld b 24 8 = m.vault.ident.toNat)
    if fld b 0 4 = 0x4D435651 ∧ fld b 4 4 = gen.toNat ∧ fld b 8 4 = len ∧ (b.drop 32).take 48 = Config.sha384 (b.drop 512) ∧
        m.otp 2 = some (Config.sha384 key) ∧ Config.ecdsaP384 key (Config.sha384 (b.take 176)) ((b.drop 176).take 96) ∧ bound ∧
        !newer (m.reg R.CAIRN_FLOOR.addr) gen then
      some (m.cairnRecs len (b.drop 512))
    else some (.error CC.checkFailed)

/-! ### Loading (R72) -/

/-- Lists of n bytes each. -/
def chunks (n : Nat) (b : List Byte) : List (List Byte) := (List.range (b.length / n)).map (fun i => (b.drop (n * i)).take n)

/-- A register word as the boot ROM writes it: service core 0. -/
def Chip.romWrite (m : Chip) (a v : Nat) : Chip := m.ctlWrite (.core 32) a (BitVec.ofNat 32 v)

/-- Bytes for a table window, from a control-space offset on; those beyond the table's end are discarded. -/
def Chip.romTable (m : Chip) (target : Nat) (b : List Byte) : Chip :=
  match winAt target with
  | none => m
  | some w =>
    let off := m.winPage (.core 32) w * w.span + (target - w.base)
    let l := b.take (m.winSize w - off)
    if l.isEmpty || w == .loopCap || (w == .scanImg && decide (off < w.span)) then m
    else if w == .lampFw then (if m.presentAt w off then m.setBytes (.win .lampFw) off l else m)
    else m.stageBytes 0 w off l

/-- One record that is not an APPLY. -/
def Chip.romRec (m : Chip) (r : CRec) : Chip :=
  match r.typ with
  | 1 => (chunks 8 r.payload).foldl (fun a e => a.romWrite (fld e 0 4) (fld e 4 4)) m
  | 2 => (chunks 12 r.payload).foldl (fun a e => (a.romWrite (fld e 0 4) (fld e 4 4)).romWrite (fld e 0 4 + 4) (fld e 8 4)) m
  | 3 => m.romTable r.target r.payload
  | 4 => (chunks 24 r.payload).foldl (fun a e => a.stagePoint 0
      { tag := BitVec.ofNat 40 (fld e 0 8), src := .plan, value := BitVec.ofNat 64 (fld e 8 8), second := BitVec.ofNat 64 (fld e 16 8) }) m
  | _ => if r.target = 0 ∨ 1023 < r.target then m else m.stageBytes 0 .scanImg (imgPage * r.target) (r.payload.take imgPage)

/-- Load the records into staging, group by group, with the check program that each APPLY names. -/
def Chip.romLoad (m : Chip) : List CRec → Chip × List (Bank × Nat)
  | [] => (m, [])
  | r :: rest =>
    if r.typ = 7 then
      let (n, l) := (m.setBank 0 {}).romLoad rest
      (n, (m.bank 0, fld r.payload 0 4) :: l)
    else (m.romRec r).romLoad rest

/-- The first failure of C1 to C10 over the groups, each judged on what the groups before it would leave. -/
def Chip.judgeGroups (m : Chip) : List (Bank × Nat) → Option Half
  | [] => none
  | (g, _) :: rest =>
    if g = {} then m.judgeGroups rest
    else match (m.judgeSet g 0 0 0 true).verdict with
      | some v => some v.code
      | none => (m.withSet g).judgeGroups rest

/-- Take the set of slot s: load, judge, commit. -/
def Chip.bootSet (m : Chip) (s : Nat) (gen : Word) (l : List CRec) : Chip :=
  let host := m.bank 0
  let (m1, groups) := (m.setBank 0 {}).romLoad l
  let m2 := (m1.setBank 0 host).setBoot { m1.boot with running := true, slot := s, gen := gen, groups := groups }
  match m2.judgeGroups groups with
  | some c => m2.bootFail c
  | none => m2.bootStep

/-- The first set that failed at commit since the device last ended a boot, shown in FAIL_CODE, FAIL_SET and FALLBACK. -/
def Chip.showFallback (m : Chip) : Chip :=
  match m.boot.tried with
  | (s, c) :: _ => ((m.put R.CAIRN_BOOT_STAT_FALLBACK 1).put R.CAIRN_BOOT_STAT_FAIL_SET s).put R.CAIRN_BOOT_STAT_FAIL_CODE c.toNat
  | [] => m

/-- BOOT_START: the boot ROM runs, once after each start of PD2. -/
def Chip.bootStart (m : Chip) (sfdp : Option (List (Nat × Bool × Nat) × Bool)) : Chip :=
  if !m.booting || m.boot.running then m else
  let m1 := (m.discover sfdp).showFallback
  match m1.directory with
  | none => m1.unconfigured 0 CC.checkFailed
  | some (copy, dir) =>
    let m2 := m1.put R.CAIRN_BOOT_STAT_DIR_COPY copy
    let m3 := m2.setBoot { m2.boot with ranges := [0, 1].map (fun s => ((dirSlot dir s).1, (dirSlot dir s).2.1)) }
    let gen := fun (s : Nat) => (dirSlot dir s).2.2
    let good := [0, 1].filterMap (fun s => match m3.verifySet dir s with
      | some (.ok l) => if (assoc m3.boot.tried s).isSome then none else some (s, l)
      | _ => none)
    let bad := [0, 1].filterMap (fun s => match m3.verifySet dir s with
      | some (.error c) => some (s, c)
      | _ => none)
    let pick := match good with
      | [a, b] => some (if newer (gen b.1) (gen a.1) then b else a)
      | l => l.head?
    match pick, m3.boot.tried, bad with
    | some (s, l), _, _ => m3.bootSet s (gen s) l
    | none, (_, c) :: _, _ => m3.unconfigured 2 c
    | none, [], (s, c) :: _ => (m3.put R.CAIRN_BOOT_STAT_FAIL_SET s).unconfigured 1 c
    | none, [], [] => m3.unconfigured 1 CC.checkFailed

/-! ### Commands -/

def execBootStart (sfdp : Option (List (Nat × Bool × Nat) × Bool)) (s : State) : Host.Outcome State Fault Refusal := s.act (·.bootStart sfdp)

end Sys2Proof.Machine
end

