-- ==== Sys2Proof/Machine/Flags.lean ====
section
/-! DEFINITION. What integer arithmetic and comparisons of a Wasa core yield and how they set MSTAT (R100, R116, R117). -/

namespace Sys2Proof.Machine

open Sys2Proof

/-! ### Flag codes of R116 -/

/-- ZN: C and V unchanged. -/
def Core.zn (k : Core) (r : DWord) : Core := { k with z := r == 0, n := r.msb }
/-- ZN with C and V given. -/
def Core.zncv (k : Core) (r : DWord) (c v : Bool) : Core := { k with z := r == 0, n := r.msb, c := c, v := v }
/-- ZN00. -/
def Core.zn00 (k : Core) (r : DWord) : Core := k.zncv r false false

/-- The result and the flags of one integer operation: Z, N, C, V as R116 gives them for the code, and whether a divisor was 0. -/
structure IntRes where
  r : DWord
  c : Option Bool := some false
  v : Bool := false
  idz : Bool := false
deriving DecidableEq, Repr

/-- Take the flags of a result; IDZ is sticky. -/
def Core.flagged (k : Core) (x : IntRes) : Core :=
  { k with z := x.r == 0, n := x.r.msb, c := x.c.getD k.c, v := x.v, idz := k.idz || x.idz }

/-! ### Integer operations (R100) -/

/-- Whether an exact signed result lies outside 64 bits. -/
def overflows (v : Int) : Bool := decide (v < -(2 ^ 63) ∨ 2 ^ 63 ≤ v)

def intAdd (a b : DWord) : IntRes :=
  { r := a + b, c := some (decide (2 ^ 64 ≤ a.toNat + b.toNat)), v := overflows (a.toInt + b.toInt) }
def intSub (a b : DWord) : IntRes :=
  { r := a - b, c := some (decide (a.toNat < b.toNat)), v := overflows (a.toInt - b.toInt) }
def intMul (a b : DWord) : IntRes := { r := a * b, v := overflows (a.toInt * b.toInt) }
/-- Signed division: quotient 0 by 0, −2^63 for −2^63 by −1; C unchanged. -/
def intDiv (a b : DWord) : IntRes :=
  { r := if b = 0 then 0 else a.sdiv b, c := none, v := a == BitVec.intMin 64 && b == BitVec.allOnes 64, idz := b == 0 }
def intDivu (a b : DWord) : IntRes := { r := if b = 0 then 0 else a / b, c := none, idz := b == 0 }
/-- The remainder has the sign of the dividend; by 0 it is the dividend. -/
def intRem (a b : DWord) : IntRes := { r := if b = 0 then a else a.srem b, idz := b == 0 }
def intRemu (a b : DWord) : IntRes := { r := if b = 0 then a else a % b, idz := b == 0 }
def intLogic (r : DWord) : IntRes := { r := r }
/-- The shift count: bits 5:0 of the second operand (R123). -/
def shCount (b : DWord) : Nat := b.toNat % 64
def intMulhs (a b : DWord) : IntRes := { r := BitVec.ofInt 64 (a.toInt * b.toInt / 2 ^ 64) }
def intMulhu (a b : DWord) : IntRes := { r := BitVec.ofNat 64 (a.toNat * b.toNat / 2 ^ 64) }
def intMin (a b : DWord) : IntRes := { r := if a.toInt ≤ b.toInt then a else b }
def intMax (a b : DWord) : IntRes := { r := if a.toInt ≤ b.toInt then b else a }
def intMinu (a b : DWord) : IntRes := { r := if a.toNat ≤ b.toNat then a else b }
def intMaxu (a b : DWord) : IntRes := { r := if a.toNat ≤ b.toNat then b else a }

/-! ### Comparisons -/

/-- CMP(x, y). -/
def Core.cmp (k : Core) (x y : DWord) : Core :=
  { k with z := x == y, n := decide (x.toInt < y.toInt), c := decide (x.toNat < y.toNat), v := overflows (x.toInt - y.toInt) }

/-- FCMP(x, y). -/
def Core.fcmp (k : Core) (x y : DWord) : Core :=
  let u := Fp.isNan x || Fp.isNan y
  { k with z := Fp.eq x y, n := !u && Fp.lt x y, v := u, c := false }

/-- Condition code `n` of Table 5-1; 15 is none. -/
def Core.cond (k : Core) (n : Nat) : Bool :=
  match n with
  | 0 => k.ba
  | 1 => !k.ba
  | 2 => k.z
  | 3 => !k.z
  | 4 => k.n
  | 5 => !k.n
  | 6 => k.n || k.z
  | 7 => !k.n && !k.z
  | 8 => k.c
  | 9 => !k.c
  | 10 => k.v
  | 11 => !k.v
  | 12 => !k.n && !k.z && !k.v
  | 13 => !k.n && !k.v
  | 14 => true
  | _ => false

/-! ### Special registers (R82, R135) -/

/-- MSTAT: BSD, PREJ, IDZ and the condition flags. -/
def Core.mstat (k : Core) : DWord :=
  BitVec.ofNat 64 (k.bs.length * 2 ^ 16 + (if k.prej then 2048 else 0) + (if k.idz then 1024 else 0) + (if k.v then 8 else 0) +
    (if k.c then 4 else 0) + (if k.n then 2 else 0) + (if k.z then 1 else 0))

/-- FCSR: rounding mode and sticky flags. -/
def Core.fcsr (k : Core) : DWord := BitVec.ofNat 64 (k.rm.toNat * 256 + k.fflags.toNat)

/-- Special register `i` of Table 4-3, for i up to 8. -/
def Core.special (k : Core) (i : Nat) : DWord :=
  match i with
  | 0 => k.mstat
  | 1 => k.fcsr
  | 2 => k.tcfg.zeroExtend 64
  | 3 => k.pq.zeroExtend 64
  | 4 => k.trec
  | 5 => k.tinsn
  | 6 => k.taddr
  | 7 => k.cycle
  | _ => k.ltime

/-- A write of MSTAT: the condition flags take bits 0 to 3, PREJ and IDZ clear on a 1. -/
def Core.setMstat (k : Core) (v : DWord) : Core :=
  { k with z := v.getLsbD 0, n := v.getLsbD 1, c := v.getLsbD 2, v := v.getLsbD 3, idz := k.idz && !v.getLsbD 10,
           prej := k.prej && !v.getLsbD 11 }

/-- A write of FCSR. -/
def Core.setFcsr (k : Core) (v : DWord) : Core := { k with rm := v.extractLsb' 8 2, fflags := v.extractLsb' 0 5 }

end Sys2Proof.Machine
end

