-- ==== Sys2Proof/Machine/Operands.lean ====
section
/-! DEFINITION. The operand forms of the Wasa instructions: the fields of a word (R109), data regions and memory (R86 to R88, R118,
R121, R124), points and complement pairs (R89 to R93), and what an instruction can answer. -/

namespace Sys2Proof.Machine

open Sys2Proof

/-! ### Traps (Tables 4-6 and 4-7) -/

/-- What a trap records: code, cause, completion code, and the address or number involved. -/
structure Trap where
  code : Nat
  cause : Nat := 0
  cc : Half := 0
  addr : DWord := 0
deriving DecidableEq, Repr

namespace Trap

def illegal (cause : Nat) (addr : DWord := 0) : Trap := { code := 7, cause := cause, addr := addr }
def undefined : Trap := illegal 0x01
def reserved : Trap := illegal 0x02
def privilege (a : DWord) : Trap := illegal 0x03 a
def unmapped (a : DWord) : Trap := illegal 0x04 a
def readOnly (a : DWord) : Trap := illegal 0x05 a
def extTarget : Trap := illegal 0x06
def oddPair : Trap := illegal 0x07
def notCritical (a : DWord) : Trap := illegal 0x08 a
def timerIndex : Trap := illegal 0x09
def specialReg : Trap := illegal 0x0A
def ecc (a : DWord) : Trap := illegal 0x0B a
def forerunner : Trap := illegal 0x0C
def badEnding : Trap := illegal 0x0D
def pcRange : Trap := illegal 0x0E
def pairMismatch (cc : Half) (a : DWord) : Trap := { code := 1, cc := cc, addr := a }
def unitAbsent (a : DWord) : Trap := { code := 2, addr := a }
def stackOverflow : Trap := { code := 3 }
def stackUnderflow : Trap := { code := 4 }
def cycleOverrun : Trap := { code := 5 }
def pointRange (cc : Half) (a : DWord) : Trap := { code := 6, cc := cc, addr := a }
def align (a : DWord) : Trap := { code := 8, addr := a }
def quality (a : DWord) : Trap := { code := 9, addr := a }
def fpInvalid : Trap := { code := 0x0A }
def budgetDenied (u : DWord) : Trap := { code := 0x0B, cc := CC.noBudget, addr := u }

end Trap

/-- What an instruction comes to: it completes; it traps (the core as the trap finds it: destination unchanged, PQ as read); or the cycle
or program ends, true for END and false for an abandonment. -/
inductive Done where
  | go (m : Chip) (k : Core)
  | trap (t : Trap) (m : Chip) (k : Core)
  | stop (m : Chip) (k : Core) (good : Bool)
deriving DecidableEq, Repr

/-! ### The instruction and its fields (Table 4-9) -/

/-- An instruction as a core issues it: core, its address, its word, the extension word of a long form, and whether a RETRY suppresses its
QUALITY or FP_INVALID check. -/
structure Op where
  c : Nat
  pc : Word
  w : Word
  x : Option Word
  quiet : Bool := false
deriving DecidableEq, Repr

def Op.d (o : Op) : Nat := bits o.w.toNat 25 21
def Op.a (o : Op) : Nat := bits o.w.toNat 20 16
def Op.b (o : Op) : Nat := bits o.w.toNat 15 11
def Op.imm16 (o : Op) : Nat := bits o.w.toNat 15 0
def Op.long (o : Op) : Bool := o.x.isSome
def Op.ext (o : Op) : Word := o.x.getD 0
/-- The length in bytes. -/
def Op.len (o : Op) : Nat := if o.long then 8 else 4
/-- The immediate, zero-extended. -/
def Op.immZ (o : Op) : Nat := match o.x with | some e => e.toNat | none => o.imm16
/-- The immediate, sign-extended to 64 bits. -/
def Op.immS (o : Op) : DWord := match o.x with | some e => e.signExtend 64 | none => (o.w.extractLsb' 0 16).signExtend 64

/-! ### Registers -/

def Core.gr (k : Core) (i : Nat) : DWord := AMap.get 0 k.g i
def Core.fr (k : Core) (i : Nat) : DWord := AMap.get 0 k.f i
def Core.setG (k : Core) (i : Nat) (v : DWord) : Core := { k with g := AMap.put 0 i v k.g }
def Core.setF (k : Core) (i : Nat) (v : DWord) : Core := { k with f := AMap.put 0 i v k.f }
/-- The register pair from an even register. -/
def Core.setG2 (k : Core) (i : Nat) (v c : DWord) : Core := (k.setG i v).setG (i + 1) c
def Core.setF2 (k : Core) (i : Nat) (v c : DWord) : Core := (k.setF i v).setF (i + 1) c
/-- WA or WB. -/
def Core.wr (k : Core) (b : Bool) : DWord := if b then k.wb else k.wa
def Core.setW (k : Core) (b : Bool) (v : DWord) : Core := if b then { k with wb := v } else { k with wa := v }

/-- The second operand of an integer instruction: gb, or the long form's immediate. -/
def Op.second (o : Op) (k : Core) : DWord := match o.x with | some e => e.signExtend 64 | none => k.gr o.b

/-- Whether a program runs at TASK level, and at CHECK level. -/
def Core.isTask (k : Core) : Bool := k.level == some .task
def Core.isCheck (k : Core) : Bool := k.level == some .check

/-! ### Data memory (Table 4-4) -/

/-- The base address of a region code. -/
def regionBase (r : Nat) : Nat := match r with | 1 => 0x10000000 | 2 => 0x11000000 | 3 => 0x20000000 | _ => 0

/-- Whether programs may write a region. -/
def regionWrites (r : Nat) : Bool := r == 0 || r == 2

/-- An access of n bytes at an offset of a region: the trap it meets, else its data address. -/
def Core.inRegion (k : Core) (r off n : Nat) (write : Bool) : Except Trap Nat :=
  let a := regionBase r + off
  match k.img.region k.isTask r with
  | none => .error (.unmapped (BitVec.ofNat 64 a))
  | some (_, size) =>
    if size < off + n then .error (.unmapped (BitVec.ofNat 64 a))
    else if write && !regionWrites r then .error (.readOnly (BitVec.ofNat 64 a))
    else if a % n ≠ 0 then .error (.align (BitVec.ofNat 64 a))
    else .ok a

/-- An access of n bytes at a data address of 64 bits (R124). -/
def Core.inMemory (k : Core) (a : DWord) (n : Nat) (write : Bool) : Except Trap Nat :=
  if 2 ^ 32 ≤ a.toNat then .error (.unmapped a)
  else k.inRegion (regionOf a.toNat) (a.toNat - regionBase (regionOf a.toNat)) n write

/-- The address of a load or store in format R: ga + gb, or ga + the long form's immediate. -/
def Op.address (o : Op) (k : Core) : DWord := k.gr o.a + o.second k

/-- A bit of a region by its bit address: the trap it meets, else the region's base (R118). -/
def Core.inBits (k : Core) (r n : Nat) (write : Bool) : Except Trap Nat :=
  match k.img.region k.isTask r with
  | none => .error (.unmapped (BitVec.ofNat 64 (regionBase r + n / 8)))
  | some (base, size) =>
    if 8 * size ≤ n then .error (.unmapped (BitVec.ofNat 64 (base + n / 8)))
    else if write && !regionWrites r then .error (.readOnly (BitVec.ofNat 64 (base + n / 8)))
    else .ok base

/-- n bytes at a data address of the program. -/
def Chip.load (m : Chip) (o : Op) (k : Core) (a n : Nat) : Nat := m.rd (.data (k.dataKey o.c)) a n
def Chip.save (m : Chip) (o : Op) (k : Core) (a n v : Nat) : Chip := m.wr (.data (k.dataKey o.c)) a n v

/-- A value of n bytes extended to 64 bits. -/
def extend (signed : Bool) (n v : Nat) : DWord :=
  if signed && decide (2 ^ (8 * n - 1) ≤ v) then BitVec.ofInt 64 ((v : Int) - 2 ^ (8 * n)) else BitVec.ofNat 64 v

/-! ### SRAM errors (R88) -/

/-- Whether an access of n bytes at an address touches the word of an upset. -/
def Upset.meets (u : Upset) (l : List (Nat × Nat)) : Bool := l.any (fun p => p.1 / 8 ≤ u.word && u.word * 8 < p.1 + p.2)

/-- Single-bit errors corrected in the SRAM, each with ECC_CORRECTED. -/
def Chip.corrected (m : Chip) (c : Nat) (k : Core) (l : List Upset) : Chip :=
  l.foldl (fun a _ => a.post (ev 4 0x0121 1 (if k.isTask then k.prog else 0x100 + (c - 32)) 0 []))
    (m.withScan { m.scan with upsets := m.scan.upsets.filter (fun u => !l.contains u) })

/-- A core's access to the words that `l` touches in its program's code or data: false where one has a double-bit error, else the single-bit errors are
corrected. -/
def Chip.ecc (m : Chip) (c : Nat) (k : Core) (code : Bool) (l : List (Nat × Nat)) : Bool × Chip :=
  let hits := m.scan.upsets.filter (fun u => u.key == k.dataKey c && u.code == code && u.meets l)
  if hits.isEmpty then (true, m)
  else if hits.any Upset.double then (false, m)
  else (true, if k.echo.isSome then m.withScan { m.scan with upsets := m.scan.upsets.filter (fun u => !hits.contains u) } else m.corrected c k hits)

/-- The n bytes of an access that meets no trap. -/
def touched (n : Nat) : Except Trap Nat → List (Nat × Nat)
  | .ok a => [(a, n)]
  | .error _ => []

/-! ### Points (R89 to R93) -/

/-- The requester port of a core (Table 2-8). -/
def corePort (c : Nat) : Port := if c < 32 then .scan else .access

/-- The tag in a register: bits 63:40 are ignored. -/
def tagBits (v : DWord) : BitVec 40 := v.extractLsb' 0 40

/-- PQ of a record (R90). -/
def PointRec.pqWord (r : PointRec) : Word := r.quality ++ r.flags

/-- Whether a quality state meets QLEVEL (TCFG). -/
def qualityMet (level state : Nat) : Bool :=
  match level with
  | 1 => decide (1 ≤ state)
  | 2 => state == 3
  | _ => decide (2 ≤ state)

/-- The stores of a core act before it reads a tag that one of them names (R91). -/
def Chip.ownFirst (m : Chip) (c : Nat) (k : Core) (tag : BitVec 40) : Chip × Core :=
  if k.posted.any (fun p => p.tag == tag) then m.drainStores c k k.posted else (m, k)

/-- The next entry of the read log that an echo replays; one that is not what the echo reads marks it bad (R377). -/
def Core.replay (k : Core) (kind key : Nat) : Option (Option ReadEnt × Core) :=
  match k.echo with
  | none => none
  | some e =>
    match e.reads with
    | r :: rest => if r.kind = kind ∧ r.key = key then some (some r, { k with echo := some { e with reads := rest } })
                   else some (none, { k with echo := some { e with bad := true } })
    | [] => some (none, { k with echo := some { e with bad := true } })

/-- A point read from the store, or from the read log in an echo: completion code, record, chip and core after it. -/
def Chip.fetchPoint (m : Chip) (c : Nat) (k : Core) (tag : BitVec 40) : Half × PointRec × Chip × Core :=
  match k.replay 0 tag.toNat with
  | some (some r, k1) => (r.code, r.point.getD unboundRec, m, k1)
  | some (none, k1) => (CC.ok, unboundRec, m, k1)
  | none =>
    let (m1, k1) := m.ownFirst c k tag
    let (code, r, m2) := m1.ptRead (corePort c) tag
    (code, r.getD unboundRec, m2, k1)

/-- A point read (R89, R90, R93): `pair` for a pair load, `qual` where the QUALITY rule applies; `f` writes the destination. -/
def Chip.pointLoad (m : Chip) (o : Op) (k : Core) (t : DWord) (pair qual : Bool) (f : PointRec → Core → Core) : Done :=
  let tag := tagBits t
  let at_ := tag.zeroExtend 64
  if !m.local tag then .trap (.pointRange 0 at_) m k else
  let (code, r, m1, k1) := m.fetchPoint o.c k tag
  if code = CC.busy ∨ code = CC.absent then .trap (.pointRange code at_) m1 k1
  else
    let k2 := { k1 with pq := r.pqWord }
    if pair && !r.flag 0 then .trap (.notCritical at_) m1 k2
    else if code = CC.pairFault ∨ (pair ∧ !pairOk r.value r.second) then .trap (.pairMismatch CC.pairFault at_) m1 k2
    else if qual && k.tcfg.getLsbD 7 && !o.quiet && qualityMet (bits k.tcfg.toNat 9 8) (Q.state r.quality) then .trap (.quality at_) m1 k2
    else .go m1 (f r k2)

/-- The checks of a point store before anything is issued: level, device, READY, range (R89, R104). -/
def Chip.storeCheck (m : Chip) (o : Op) (k : Core) (tag : BitVec 40) : Option (Trap × Chip) :=
  let at_ := tag.zeroExtend 64
  if k.isCheck then some (.privilege at_, m)
  else if !m.local tag then some (.pointRange 0 at_, m)
  else if !m.ptReady then some (.pointRange CC.busy at_, m)
  else if m.outOfRange tag then some (.pointRange CC.absent at_, m.rangeFault (corePort o.c) tag)
  else none

/-- A plain store is posted (R91): a 17th waits until the oldest is acknowledged. In an echo it goes to the echo's own log (R378). -/
def Chip.pointStore (m : Chip) (o : Op) (k : Core) (t v : DWord) : Done :=
  let tag := tagBits t
  match m.storeCheck o k tag with
  | some (tr, m1) => .trap tr m1 k
  | none =>
    match k.echo with
    | some e => .go m { k with echo := some { e with stores := e.stores ++ [(tag, v, v)] } }
    | none =>
      let (m1, k1) := if 16 ≤ k.posted.length then
          (let (a, b) := m.drainStores o.c k (k.posted.take 1); (a, { b with posted := k.posted.drop 1 }))
        else (m, k)
      .go m1 { k1 with posted := k1.posted ++ [{ tag := tag, value := v }] }

/-- A pair store waits for its acknowledgement (R93); a refusal sets PREJ. -/
def Chip.pairStore (m : Chip) (o : Op) (k : Core) (t v c : DWord) : Done :=
  let tag := tagBits t
  let at_ := tag.zeroExtend 64
  match m.storeCheck o k tag with
  | some (tr, m1) => .trap tr m1 k
  | none =>
    if !(m.pt (tagIdx tag)).flag 0 then .trap (.notCritical at_) m k
    else if !pairOk v c then .trap (.pairMismatch 0 at_) m k
    else match k.echo with
      | some e => .go m { k with echo := some { e with stores := e.stores ++ [(tag, v, c)] } }
      | none =>
        let (m1, k1) := m.drainStores o.c k k.posted
        let w : PtWrite := { tag := tag, src := .program, task := (if o.c < 32 then k.prog else 0xFFFF), value := v, second := c }
        let (code, m2) := m1.ptWrite (corePort o.c) w
        .go m2 (if code = CC.ok then k1 else { k1 with prej := true })

/-- PCLRCHG (R128): CHG of the point into BA, and CHG cleared, in one operation of the store. -/
def Chip.pointClear (m : Chip) (o : Op) (k : Core) (t : DWord) : Done :=
  let tag := tagBits t
  let at_ := tag.zeroExtend 64
  let i := tagIdx tag
  match m.storeCheck o k tag with
  | some (tr, m1) => .trap tr m1 k
  | none =>
    match k.replay 0 tag.toNat with
    | some (r, k1) =>
      let old := (r.bind ReadEnt.point).getD unboundRec
      if (r.map ReadEnt.code) = some CC.pairFault then .trap (.pairMismatch CC.pairFault at_) m k1 else .go m { k1 with ba := old.flag 1 }
    | none =>
      let (m1, k1) := m.ownFirst o.c k tag
      let m2 := ((m1.crcCheck i).fold i).touch i
      let r := m2.pt i
      if (m2.descOfRec r).critical && r.desc != 0 && !pairOk r.value r.second then .trap (.pairMismatch CC.pairFault at_) m2 k1
      else .go (m2.clearChg i) { k1 with ba := r.flag 1 }

end Sys2Proof.Machine
end

