-- ==== Sys2Proof/Machine/Wasa.lean ====
section
/-! DEFINITION. How a Wasa core issues an instruction (chapter 4): reserved fields and forms, timing, traps, the trap handler and its endings,
the end of a cycle or program. What each instruction computes is in Machine/Wasa*.lean; this file has no instruction of its own but the undefined one. -/

namespace Sys2Proof.Machine

open Sys2Proof

/-! ### The end of a cycle or program (R84, R105 to R107) -/

/-- The TRAP event of a core's trap record (R108, Table 4-8); an echo posts none. -/
def Chip.trapEvent (m : Chip) (c : Nat) (k : Core) (cycle : DWord) (ending : Nat) : Chip :=
  if k.echo.isSome then m
  else
    let code := k.trec.toNat % 256
    m.post (ev 4 (BitVec.ofNat 16 (0x100 + code)) (if ending = 1 ∨ ending = 2 then 2 else 3)
      (if k.isTask then k.prog else 0x100 + (c - 32)) k.taddr.toNat
      (le 8 k.trec.toNat ++ le 8 k.tinsn.toNat ++ le 8 cycle.toNat ++ le 2 c ++ le 2 ending))

/-- A core's cycle or program ends: its stores are acknowledged; a task's cycle hands off or is abandoned; a check program gives its result in
G0; a service program just ends. -/
def Chip.finishCore (m : Chip) (c : Nat) (k : Core) (good : Bool) : Chip :=
  let (m1, k1) := m.drainStores c k k.posted
  match k.level with
  | some .task =>
    if good then
      (if k1.bs = [] then m1 else m1.post (ev 4 0x0120 2 k.prog 0 (le 1 k1.bs.length))).endCycle c k.prog
    else
      let m2 := m1.stream "DELTA" [k.prog, m1.get (R.SCAN_TS_CYCLES k.prog), (m1.task k.prog).release.toNat,
        bit (m1.task k.prog).swap.isSome, k1.trec.toNat % 256, k1.trec.toNat / 2 ^ 32]
      (m2.setCore c {}).abandonTask k.prog
  | some .check =>
    if good then ((m1.setCore c k1).checkEnded (c - 32) (k1.gr 0)).commitWatch.bootStep
    else ((m1.setCore c k1).checkTrapped (c - 32)).commitWatch.bootStep
  | _ => m1.setCore c {}

/-! ### Traps (R102 to R106) -/

/-- Take a trap: the trap record, then the handler's entry where the program has one that may be entered, else the cycle or program is
abandoned; inside the handler it is a double trap. No handler is entered for CYCLE_OVERRUN and for ILLEGAL, cause ECC (Table 4-6). -/
def Chip.takeTrap (m : Chip) (o : Op) (k : Core) (t : Trap) : Chip × Core × Option Bool :=
  let k1 := { k with pc := o.pc, suppress := false, taddr := t.addr,
                     trec := o.pc ++ t.cc ++ BitVec.ofNat 16 (t.cause * 256 + t.code), tinsn := o.ext ++ o.w }
  match k.trap, k.img.handler with
  | some _, _ => (m.trapEvent o.c k1 k1.cycle 5, { k1 with trap := none }, some false)
  | none, some h =>
    if k.isTask && t.code != 5 && !(t.code == 7 && t.cause == 0x0B) then
      (m, { k1 with pc := h, cycle := k1.cycle + 12, budget := k1.budget - 12,
                    trap := some { pc := o.pc, len := o.len, code := t.code, cycle := k1.cycle } }, none)
    else (m.trapEvent o.c k1 k1.cycle 0, k1, some false)
  | none, none => (m.trapEvent o.c k1 k1.cycle 0, k1, some false)

/-! ### Instructions -/

/-- An instruction of chapter 5: whether forerunner programs may use it (R85), whether it has a long form, the bits that must be zero in the word of
its short and of its long form and in the extension word, a further reserved value, its issue clocks (Table 4-11), the data addresses and lengths that it accesses, and what it does. -/
structure Insn where
  fmode : Bool := false
  long : Bool := false
  zs : Nat := 0
  zl : Nat := 0
  zx : Nat := 0
  bad : Op → Bool := fun _ => false
  clocks : Nat := 1
  touch : Op → Core → List (Nat × Nat) := fun _ _ => []
  run : Op → Chip → Core → Done

/-- The ILLEGAL traps that an instruction meets before it runs, in order: no word there, no long form, not allowed in forerunner format, a reserved field. -/
def Insn.refuse (i : Insn) (o : Op) (k : Core) : Option Trap :=
  if k.img.codeSize ≤ o.pc.toNat then some .pcRange
  else if o.long && !i.long then some .undefined
  else if k.img.fmode && !i.fmode then some .forerunner
  else if o.w.toNat &&& (if o.long then i.zl else i.zs) ≠ 0 ∨ o.ext.toNat &&& i.zx ≠ 0 ∨ i.bad o then some .reserved
  else none

/-- The code bytes of an instruction: none beyond the declared code. -/
def Op.fetched (o : Op) (k : Core) : List (Nat × Nat) := if o.pc.toNat < k.img.codeSize then [(o.pc.toNat, o.len)] else []

/-- One instruction of a core: clocks, then its traps or its effect. Its words and the data it accesses pass the ECC of the SRAM first. -/
def Chip.turn (m : Chip) (o : Op) (k : Core) (i : Insn) : Chip × Core × Option Bool :=
  let n := i.clocks + bit o.long + Config.stall m.clk.free
  let m0 := m.withClk { m.clk with free := m.clk.free + 1 }
  let k0 := { k with cycle := k.cycle + BitVec.ofNat 64 n, budget := k.budget - n, suppress := false,
                     pc := o.pc + BitVec.ofNat 32 o.len }
  let e := m0.ecc o.c k true (o.fetched k)
  if !e.1 then e.2.takeTrap o k0 (.ecc 0)
  else match i.refuse o k with
  | some t => e.2.takeTrap (if t = .pcRange then { o with w := 0, x := none } else o) k0 t
  | none =>
    let d := e.2.ecc o.c k false (i.touch o k0)
    if !d.1 then d.2.takeTrap o k0 (.ecc (BitVec.ofNat 64 ((i.touch o k0).headD (0, 0)).1))
    else match i.run o d.2 k0 with
    | .go m1 k1 => (m1, k1, none)
    | .trap t m1 k1 => m1.takeTrap o k1 t
    | .stop m1 k1 good => (m1, k1, some good)

/-- Whether a core's clock runs. -/
def Chip.coreRuns (m : Chip) (c : Nat) : Bool := if c < 16 then m.clusterRuns 0 else if c < 32 then m.clusterRuns 1 else true

/-- Put a core back after an instruction. -/
def Chip.settleCore (c : Nat) (r : Chip × Core × Option Bool) : Chip :=
  match r.2.2 with
  | none => r.1.setCore c r.2.1
  | some good => r.1.finishCore c r.2.1 good

/-- The instruction at a core's PC, with the words it is issued with. -/
def Core.op (k : Core) (c : Nat) (w : Word) (x : Option Word) : Op :=
  { c := c, pc := k.pc, w := w, x := if xBit w then some (x.getD 0) else none, quiet := k.suppress }

/-- Core c issues an instruction with the words `w` and `x`. Nothing happens on a core that runs no program or has no clock; a cycle whose budget is
spent takes CYCLE_OVERRUN before it issues (R102). -/
def Chip.issue (m : Chip) (c : Nat) (w : Word) (x : Option Word) (i : Insn) : Chip :=
  let k := m.core c
  if k.level.isNone || !m.coreRuns c then m
  else if k.isTask && k.budget == 0 then Chip.settleCore c (m.takeTrap (k.op c w x) k .cycleOverrun)
  else Chip.settleCore c (m.turn (k.op c w x) k i)

/-- A core's execution budget is spent (R102): its cycle takes CYCLE_OVERRUN at this boundary. The words at the PC are those of its image. -/
def Chip.overrun (m : Chip) (c : Nat) : Chip :=
  let k := m.core c
  if !k.isTask || k.budget != 0 then m
  else
    let at_ := fun (i : Nat) => k.img.code.getD i 0
    Chip.settleCore c (m.takeTrap (k.op c (at_ (k.pc.toNat / 4)) (some (at_ (k.pc.toNat / 4 + 1)))) k .cycleOverrun)

namespace Insn

/-- An instruction that only changes the core. -/
def alu (f : Op → Core → Core) (o : Op) (m : Chip) (k : Core) : Done := .go m (f o k)

/-- An opcode or function that the tables do not list (R110, R115). -/
def none_ : Insn := { fmode := true, long := true, run := fun _ m k => .trap .undefined m k }

end Insn

/-! ### Commands -/

/-- UNDEFINED_OPCODE. -/
def execUndefinedOpcode (c : Fin 36) (w : Word) (x : Option Word) (s : State) : Host.Outcome State Fault Refusal :=
  s.act (·.issue c.val w x Insn.none_)
/-- CYCLE_OVERRUN: the budget of core c's cycle is spent. -/
def execCycleOverrun (c : Fin 32) (s : State) : Host.Outcome State Fault Refusal := s.act (·.overrun c.val)
/-- POSTED_STORE_ACK: the store acknowledges core c's oldest plain store (R91). -/
def execPostedStoreAck (c : Fin 36) (s : State) : Host.Outcome State Fault Refusal :=
  s.act (fun m =>
    let k := m.core c.val
    let (m1, k1) := m.drainStores c.val k (k.posted.take 1)
    if k.posted = [] then m else m1.setCore c.val { k1 with posted := k.posted.drop 1 })

end Sys2Proof.Machine
end

