-- ==== Sys2Proof/Machine/UCalls.lean ====
section
/-! DEFINITION. Unit calls (R98, R134): the planner, the ridge governor, the lighting engine, the transaction engine and the vault. -/

namespace Sys2Proof.Machine

open Sys2Proof

/-- The unit and function numbers that a chapter defines. -/
def unitFunctions : List (Nat × Nat) := [(0x0A, 1), (0x0A, 2), (0x02, 1), (0x02, 2), (0x0B, 1), (0x06, 1), (0x10, 1)]

/-- Whether a unit refuses a call because it drains or is disabled (R19). -/
def Chip.unitShut (m : Chip) (unit : Nat) : Bool :=
  match unit with
  | 0x0A => (List.range 4).all (fun q => !m.unitOpen (UK.quad q))
  | 0x0B => !m.unitOpen UK.lamp
  | 0x10 => !m.unitOpen UK.vault
  | _ => false

/-- The lighting frame that a call names; none where its block is not 16-byte aligned inside DATA (R241). -/
def Chip.lampCall (m : Chip) (o : Op) (k : Core) (a : Nat) : Option LSub :=
  let at_ := (k.gr (a + 3)).toNat % 2 ^ 32
  let w := (k.gr a).toNat
  if at_ % 16 ≠ 0 ∨ k.img.dataSize < at_ + 32 then none
  else
    let half := fun (i : Nat) => m.load o k (at_ + 2 * i) 2
    some { group := w.testBit 31, target := w % 2 ^ 22, mask := bits w 39 32, curve := bits w 41 40, latch := (k.gr (a + 1)).toNat,
           fade := (k.gr (a + 2)).toNat, levels := (List.range 8).map half, comps := (List.range 8).map (fun i => half (8 + i)) }

/-- The unit's own answer to a call with arguments from register `a` on. -/
def Chip.callUnit (m : Chip) (o : Op) (k : Core) (unit fn a : Nat) : Half × Chip :=
  match unit, fn with
  | 0x0A, 1 => m.launch true
  | 0x0A, 2 => (CC.ok, m.planCancel)
  | 0x02, 1 => m.ridgeSubmit o.c (k.gr a).toNat (k.gr (a + 1)).toNat (k.gr (a + 2)).toNat
  | 0x02, 2 => m.ridgeRelease o.c (k.gr a).toNat
  | 0x0B, 1 => (match m.lampCall o k a with
    | some s => let (code, _, m1) := m.lampSubmit s; (code, m1)
    | none => (CC.checkFailed, m))
  | 0x06, 1 =>
    let w := (k.gr a).toNat
    let p := (k.gr (a + 2)).toNat
    m.quench (w.testBit 31) (if w.testBit 31 then w % 256 else w % 2 ^ 18) (k.gr (a + 1)).toNat (p % 256) (p / 2 ^ 32) false none
  | 0x10, 1 =>
    if k.isTask then (CC.checkFailed, m)
    else m.vaultSubmit { addr := (k.gr a).toNat, inData := true, caller := some (k.dataKey o.c, k.img.dataSize) }
  | _, _ => (CC.checkFailed, m)

namespace Insn

/-- UCALL to a unit and function, in the order of R134. -/
def unitCall (sel : Op → Nat × Nat) : Insn :=
  { bad := fun o => o.a % 4 != 0, clocks := 20,
    run := fun o m k =>
      let unit := (sel o).1
      let fn := (sel o).2
      let at_ := BitVec.ofNat 64 unit
      let done := fun (code : Half) (m1 : Chip) (k1 : Core) =>
        if code = CC.noBudget ∧ o.w.getLsbD 15 = true then Done.trap (.budgetDenied at_) m1 k1
        else .go m1 (k1.setG o.d (code.zeroExtend 64))
      if k.isCheck then .trap (.privilege at_) m k
      else if unit < 20 ∧ !m.hasUnit unit then .trap (.unitAbsent at_) m k
      else match k.replay 2 (unit * 256 + fn) with
        | some (r, k1) => done ((r.map ReadEnt.code).getD 0) m k1
        | none =>
          if !unitFunctions.contains (unit, fn) then done CC.checkFailed m k
          else if m.unitShut unit then done CC.cancelled m k
          else let (code, m1) := m.callUnit o k unit fn o.a; done code m1 k }

/-- The unit and function that the immediate names. -/
def named (o : Op) : Nat × Nat := (o.imm16 % 256, bits o.imm16 14 8)

def ucall : Insn := unitCall named
def planLaunch : Insn := unitCall (fun _ => (0x0A, 1))
def planCancel : Insn := unitCall (fun _ => (0x0A, 2))
def ridgeSubmit : Insn := unitCall (fun _ => (0x02, 1))
def ridgeRelease : Insn := unitCall (fun _ => (0x02, 2))
def lampSubmit : Insn := unitCall (fun _ => (0x0B, 1))
def quench : Insn := unitCall (fun _ => (0x06, 1))
def vaultSubmit : Insn := unitCall (fun _ => (0x10, 1))

end Insn

/-! ### Commands: one UCALL of core `c`, with its word and the extension word of a long form -/

def execUcall (c : Fin 36) (w : Word) (x : Option Word) (s : State) : Host.Outcome State Fault Refusal :=
  s.act (·.issue c.val w x Insn.ucall)
def execUcallPlanLaunch (c : Fin 36) (w : Word) (x : Option Word) (s : State) : Host.Outcome State Fault Refusal :=
  s.act (·.issue c.val w x Insn.planLaunch)
def execUcallPlanCancel (c : Fin 36) (w : Word) (x : Option Word) (s : State) : Host.Outcome State Fault Refusal :=
  s.act (·.issue c.val w x Insn.planCancel)
def execUcallRidgeSubmit (c : Fin 36) (w : Word) (x : Option Word) (s : State) : Host.Outcome State Fault Refusal :=
  s.act (·.issue c.val w x Insn.ridgeSubmit)
def execUcallRidgeRelease (c : Fin 36) (w : Word) (x : Option Word) (s : State) : Host.Outcome State Fault Refusal :=
  s.act (·.issue c.val w x Insn.ridgeRelease)
def execUcallLampSubmit (c : Fin 36) (w : Word) (x : Option Word) (s : State) : Host.Outcome State Fault Refusal :=
  s.act (·.issue c.val w x Insn.lampSubmit)
def execUcallQuench (c : Fin 36) (w : Word) (x : Option Word) (s : State) : Host.Outcome State Fault Refusal :=
  s.act (·.issue c.val w x Insn.quench)
def execUcallVaultSubmit (c : Fin 36) (w : Word) (x : Option Word) (s : State) : Host.Outcome State Fault Refusal :=
  s.act (·.issue c.val w x Insn.vaultSubmit)

end Sys2Proof.Machine
end

