-- ==== Sys2Proof/Machine/WasaBit.lean ====
section
/-! DEFINITION. Bit logic, branches, the branch stack and edge detectors (R83, R117 to R120, R133). -/

namespace Sys2Proof.Machine

open Sys2Proof

namespace Insn

/-! ### Bit logic (Table 5-2) -/

/-- The region code and the bit address of an operand (R118). -/
def bitRegion (o : Op) : Nat := bits o.w.toNat 21 19

/-- The byte of an operand bit. -/
def bitTouch (o : Op) : Except Trap Nat → List (Nat × Nat)
  | .ok base => [(base + o.immZ / 8, 1)]
  | .error _ => []

/-- BA from BA and the operand bit. -/
def bitRead (f : Bool → Bool → Bool) : Insn :=
  { fmode := true, long := true, zs := 0x00070000, zl := 0x0007FFFF,
    touch := fun o k => bitTouch o (k.inBits (bitRegion o) o.immZ false),
    run := fun o m k => match k.inBits (bitRegion o) o.immZ false with
      | .error t => .trap t m k
      | .ok base => .go m { k with ba := f k.ba (m.dataBit (k.dataKey o.c) base o.immZ) } }

/-- The operand bit from BA and its old value; none where it is not touched. -/
def bitWrite (f : Bool → Bool → Option Bool) : Insn :=
  { fmode := true, long := true, zs := 0x00070000, zl := 0x0007FFFF,
    touch := fun o k => if (f k.ba false).isSome then bitTouch o (k.inBits (bitRegion o) o.immZ true) else [],
    run := fun o m k => match k.inBits (bitRegion o) o.immZ true with
      | .error t => .trap t m k
      | .ok base =>
        let key := k.dataKey o.c
        match f k.ba (m.dataBit key base o.immZ) with
        | some v => .go (m.setDataBit key base o.immZ v) k
        | none => .go m k }

/-- BA without an operand. -/
def bitAlone (f : Bool → Bool) : Insn := { fmode := true, zs := 0x003FFFFF, run := alu (fun _ k => { k with ba := f k.ba }) }

def ld : Insn := bitRead (fun _ b => b)
def ldn : Insn := bitRead (fun _ b => !b)
def and : Insn := bitRead (fun a b => a && b)
def andn : Insn := bitRead (fun a b => a && !b)
def or : Insn := bitRead (fun a b => a || b)
def orn : Insn := bitRead (fun a b => a || !b)
def xor : Insn := bitRead (fun a b => Bool.xor a b)
def xorn : Insn := bitRead (fun a b => Bool.xor a !b)
def st : Insn := bitWrite (fun a _ => some a)
def stn : Insn := bitWrite (fun a _ => some !a)
def setb : Insn := bitWrite (fun a _ => if a then some true else none)
def rstb : Insn := bitWrite (fun a _ => if a then some false else none)
def tglb : Insn := bitWrite (fun a b => if a then some !b else none)
def notba : Insn := bitAlone (fun a => !a)
def setba : Insn := bitAlone (fun _ => true)
def clrba : Insn := bitAlone (fun _ => false)
def condba : Insn :=
  { fmode := true, zs := 0x003FFFF0, bad := fun o => o.imm16 % 16 == 15,
    run := alu (fun o k => { k with ba := k.cond (o.imm16 % 16) }) }

/-! ### Branches (Table 5-3, R119, R120, R111) -/

/-- Go to a code address, where it lies in the code and names an instruction word. -/
def goTo (m : Chip) (k : Core) (target : Int) : Done :=
  if target < 0 ∨ (k.img.codeSize : Int) ≤ target then .trap .pcRange m k
  else if !k.img.isInstr target.toNat then .trap .extTarget m k
  else .go m { k with pc := BitVec.ofNat 32 target.toNat }

/-- The core after the further clocks of a taken branch. -/
def taken (k : Core) : Core := { k with cycle := k.cycle + 2, budget := k.budget - 2 }

def jmp : Insn :=
  { fmode := true, clocks := 3, run := fun o m k => goTo m k (o.pc.toNat + 4 * (o.w.extractLsb' 0 26).toInt) }
/-- B.cond: the condition is the function; no function above 14 is listed. -/
def bcond : Insn :=
  { fmode := true, long := true, zl := 0xFFFF,
    run := fun o m k =>
      let f := bits o.w.toNat 25 16
      if 14 < f then .trap .undefined m k
      else if k.cond f then goTo m (taken k) (o.pc.toNat + 4 * o.immS.toInt) else .go m k }
def call : Insn :=
  { fmode := true, long := true, zl := 0xFFFF, clocks := 3,
    run := fun o m k => match goTo m k (o.pc.toNat + 4 * o.immS.toInt) with
      | .go m1 k1 => .go m1 (k1.setG 31 (k.pc.zeroExtend 64))
      | d => d }
def ret : Insn :=
  { fmode := true, zs := 0xFFFF, clocks := 3,
    run := fun _ m k => if (k.gr 31).toNat % 4 ≠ 0 then .trap .pcRange m k else goTo m k (k.gr 31).toNat }

/-! ### The branch stack (R83) -/

def push : Insn :=
  { fmode := true, zs := 0xFFFF,
    run := fun _ m k => if k.bs.length = 32 then .trap .stackOverflow m k else .go m { k with bs := k.ba :: k.bs } }
/-- BA from the popped entry and BA. -/
def pop (f : Bool → Bool → Bool) : Insn :=
  { fmode := true, zs := 0xFFFF,
    run := fun _ m k => match k.bs with
      | [] => .trap .stackUnderflow m k
      | s :: rest => .go m { k with ba := f s k.ba, bs := rest } }
def popAnd : Insn := pop (fun s a => s && a)
def popOr : Insn := pop (fun s a => s || a)
def popXor : Insn := pop (fun s a => Bool.xor s a)
def popAndn : Insn := pop (fun s a => s && !a)
def popLd : Insn := pop (fun s _ => s)
def drop : Insn := pop (fun _ a => a)

/-! ### Edge detectors (R133) -/

def edge (f : Bool → Bool → Bool) : Insn :=
  { fmode := true, long := true, zs := 0x001F0000, zl := 0x001FFFFF,
    touch := fun o k => bitTouch o (k.inBits 0 o.immZ true),
    run := fun o m k => match k.inBits 0 o.immZ true with
      | .error t => .trap t m k
      | .ok base =>
        let key := k.dataKey o.c
        .go (m.setDataBit key base o.immZ k.ba) { k with ba := f k.ba (m.dataBit key base o.immZ) } }
def edgr : Insn := edge (fun a b => a && !b)
def edgf : Insn := edge (fun a b => !a && b)
def edgb : Insn := edge (fun a b => Bool.xor a b)

end Insn

/-! ### Commands: one instruction of core `c`, with its word and the extension word of a long form -/

def execILd (c : Fin 36) (w : Word) (x : Option Word) (s : State) : Host.Outcome State Fault Refusal :=
  s.act (·.issue c.val w x Insn.ld)
def execILdn (c : Fin 36) (w : Word) (x : Option Word) (s : State) : Host.Outcome State Fault Refusal :=
  s.act (·.issue c.val w x Insn.ldn)
def execIAnd (c : Fin 36) (w : Word) (x : Option Word) (s : State) : Host.Outcome State Fault Refusal :=
  s.act (·.issue c.val w x Insn.and)
def execIAndn (c : Fin 36) (w : Word) (x : Option Word) (s : State) : Host.Outcome State Fault Refusal :=
  s.act (·.issue c.val w x Insn.andn)
def execIOr (c : Fin 36) (w : Word) (x : Option Word) (s : State) : Host.Outcome State Fault Refusal :=
  s.act (·.issue c.val w x Insn.or)
def execIOrn (c : Fin 36) (w : Word) (x : Option Word) (s : State) : Host.Outcome State Fault Refusal :=
  s.act (·.issue c.val w x Insn.orn)
def execIXor (c : Fin 36) (w : Word) (x : Option Word) (s : State) : Host.Outcome State Fault Refusal :=
  s.act (·.issue c.val w x Insn.xor)
def execIXorn (c : Fin 36) (w : Word) (x : Option Word) (s : State) : Host.Outcome State Fault Refusal :=
  s.act (·.issue c.val w x Insn.xorn)
def execISt (c : Fin 36) (w : Word) (x : Option Word) (s : State) : Host.Outcome State Fault Refusal :=
  s.act (·.issue c.val w x Insn.st)
def execIStn (c : Fin 36) (w : Word) (x : Option Word) (s : State) : Host.Outcome State Fault Refusal :=
  s.act (·.issue c.val w x Insn.stn)
def execISetb (c : Fin 36) (w : Word) (x : Option Word) (s : State) : Host.Outcome State Fault Refusal :=
  s.act (·.issue c.val w x Insn.setb)
def execIRstb (c : Fin 36) (w : Word) (x : Option Word) (s : State) : Host.Outcome State Fault Refusal :=
  s.act (·.issue c.val w x Insn.rstb)
def execITglb (c : Fin 36) (w : Word) (x : Option Word) (s : State) : Host.Outcome State Fault Refusal :=
  s.act (·.issue c.val w x Insn.tglb)
def execINotba (c : Fin 36) (w : Word) (x : Option Word) (s : State) : Host.Outcome State Fault Refusal :=
  s.act (·.issue c.val w x Insn.notba)
def execISetba (c : Fin 36) (w : Word) (x : Option Word) (s : State) : Host.Outcome State Fault Refusal :=
  s.act (·.issue c.val w x Insn.setba)
def execIClrba (c : Fin 36) (w : Word) (x : Option Word) (s : State) : Host.Outcome State Fault Refusal :=
  s.act (·.issue c.val w x Insn.clrba)
def execICondba (c : Fin 36) (w : Word) (x : Option Word) (s : State) : Host.Outcome State Fault Refusal :=
  s.act (·.issue c.val w x Insn.condba)
def execIJmp (c : Fin 36) (w : Word) (x : Option Word) (s : State) : Host.Outcome State Fault Refusal :=
  s.act (·.issue c.val w x Insn.jmp)
def execIBCond (c : Fin 36) (w : Word) (x : Option Word) (s : State) : Host.Outcome State Fault Refusal :=
  s.act (·.issue c.val w x Insn.bcond)
def execICall (c : Fin 36) (w : Word) (x : Option Word) (s : State) : Host.Outcome State Fault Refusal :=
  s.act (·.issue c.val w x Insn.call)
def execIRet (c : Fin 36) (w : Word) (x : Option Word) (s : State) : Host.Outcome State Fault Refusal :=
  s.act (·.issue c.val w x Insn.ret)
def execIPush (c : Fin 36) (w : Word) (x : Option Word) (s : State) : Host.Outcome State Fault Refusal :=
  s.act (·.issue c.val w x Insn.push)
def execIPopAnd (c : Fin 36) (w : Word) (x : Option Word) (s : State) : Host.Outcome State Fault Refusal :=
  s.act (·.issue c.val w x Insn.popAnd)
def execIPopOr (c : Fin 36) (w : Word) (x : Option Word) (s : State) : Host.Outcome State Fault Refusal :=
  s.act (·.issue c.val w x Insn.popOr)
def execIPopXor (c : Fin 36) (w : Word) (x : Option Word) (s : State) : Host.Outcome State Fault Refusal :=
  s.act (·.issue c.val w x Insn.popXor)
def execIPopAndn (c : Fin 36) (w : Word) (x : Option Word) (s : State) : Host.Outcome State Fault Refusal :=
  s.act (·.issue c.val w x Insn.popAndn)
def execIPopLd (c : Fin 36) (w : Word) (x : Option Word) (s : State) : Host.Outcome State Fault Refusal :=
  s.act (·.issue c.val w x Insn.popLd)
def execIDrop (c : Fin 36) (w : Word) (x : Option Word) (s : State) : Host.Outcome State Fault Refusal :=
  s.act (·.issue c.val w x Insn.drop)
def execIEdgr (c : Fin 36) (w : Word) (x : Option Word) (s : State) : Host.Outcome State Fault Refusal :=
  s.act (·.issue c.val w x Insn.edgr)
def execIEdgf (c : Fin 36) (w : Word) (x : Option Word) (s : State) : Host.Outcome State Fault Refusal :=
  s.act (·.issue c.val w x Insn.edgf)
def execIEdgb (c : Fin 36) (w : Word) (x : Option Word) (s : State) : Host.Outcome State Fault Refusal :=
  s.act (·.issue c.val w x Insn.edgb)

end Sys2Proof.Machine
end

