-- ==== Sys2Proof/Machine/WasaFp.lean ====
section
/-! DEFINITION. Floating point (R101, R125, R126). -/

namespace Sys2Proof.Machine

open Sys2Proof

namespace Insn

/-- Take the flags of a floating-point operation and write its destination; with FPTRAP an invalid operation traps first (R101). -/
def fpDone (o : Op) (m : Chip) (k : Core) (flags : Nat) (f : Core → Core) : Done :=
  if flags.testBit 4 && k.tcfg.getLsbD 6 && !o.quiet then .trap .fpInvalid m k
  else .go m (f { k with fflags := k.fflags ||| BitVec.ofNat 5 flags })

/-- An operation on F registers with a result in F. -/
def fpOp (clocks zs : Nat) (f : BitVec 2 → DWord → DWord → DWord → Fp.Res) : Insn :=
  { zs := zs, clocks := clocks,
    run := fun o m k =>
      let r := f k.rm (k.fr o.a) (k.fr o.b) (k.fr o.d)
      fpDone o m k r.2 (fun k1 => k1.setF o.d r.1) }

def fadd : Insn := fpOp 1 0 (fun rm a b _ => Fp.add rm a b)
def fsub : Insn := fpOp 1 0 (fun rm a b _ => Fp.sub rm a b)
def fmul : Insn := fpOp 1 0 (fun rm a b _ => Fp.mul rm a b)
def fdiv : Insn := fpOp 22 0 (fun rm a b _ => Fp.div rm a b)
def fsqrt : Insn := fpOp 26 0xF800 (fun rm a _ _ => Fp.sqrt rm a)
def fmin : Insn := fpOp 1 0 (fun _ a b _ => Fp.minimum a b)
def fmax : Insn := fpOp 1 0 (fun _ a b _ => Fp.maximum a b)
def fabs : Insn := fpOp 1 0xF800 (fun _ a _ _ => (Fp.absolute a, 0))
def fneg : Insn := fpOp 1 0xF800 (fun _ a _ _ => (Fp.negate a, 0))
def fmov : Insn := fpOp 1 0xF800 (fun _ a _ _ => (a, 0))
def fmadd : Insn := fpOp 1 0 Fp.fma
def fmsub : Insn := fpOp 1 0 (fun rm a b c => Fp.fma rm a b (Fp.negate c))
def fnmadd : Insn := fpOp 1 0 (fun rm a b c => Fp.fma rm (Fp.negate a) b c)
def frnd : Insn := fpOp 1 0xF800 (fun rm a _ _ => Fp.rnd rm a)
def fsel : Insn := { run := alu (fun o k => k.setF o.d (if k.ba then k.fr o.a else k.fr o.b)) }
/-- FCMP signals invalid for a signalling NaN only. -/
def fcmp : Insn :=
  { zs := 0x03E00000,
    run := fun o m k => fpDone o m k (if Fp.isSnan (k.fr o.a) || Fp.isSnan (k.fr o.b) then 16 else 0)
      (fun k1 => k1.fcmp (k.fr o.a) (k.fr o.b)) }

/-- A conversion of an F register to an integer in G. -/
def fpToG (f : BitVec 2 → DWord → DWord × Nat) : Insn :=
  { zs := 0xF800, run := fun o m k => fpDone o m k (f k.rm (k.fr o.a)).2 (fun k1 => k1.setG o.d (f k.rm (k.fr o.a)).1) }
/-- A conversion of an integer in G to F. -/
def gToFp (f : BitVec 2 → DWord → Fp.Res) : Insn :=
  { zs := 0xF800, run := fun o m k => fpDone o m k (f k.rm (k.gr o.a)).2 (fun k1 => k1.setF o.d (f k.rm (k.gr o.a)).1) }

def fcvti : Insn := fpToG Fp.toSigned
def fcvtu : Insn := fpToG Fp.toUnsigned
def icvtf : Insn := gToFp (fun rm v => Fp.ofInt rm v.toInt)
def ucvtf : Insn := gToFp (fun rm v => Fp.ofInt rm v.toNat)
def fmvg : Insn := fpToG (fun _ v => (v, 0))
def gmvf : Insn := gToFp (fun _ v => (v, 0))
def fclass : Insn := fpToG (fun _ v => (Fp.fclass v, 0))

def fld : Insn :=
  { long := true, zl := 0xF800,
    touch := fun o k => touched 8 (k.inMemory (o.address k) 8 false),
    run := fun o m k => match k.inMemory (o.address k) 8 false with
      | .error t => .trap t m k
      | .ok a => .go m (k.setF o.d (BitVec.ofNat 64 (m.load o k a 8))) }
def fst : Insn :=
  { long := true, zl := 0xF800,
    touch := fun o k => touched 8 (k.inMemory (o.address k) 8 true),
    run := fun o m k => match k.inMemory (o.address k) 8 true with
      | .error t => .trap t m k
      | .ok a => .go (m.save o k a 8 (k.fr o.d).toNat) k }

end Insn

/-! ### Commands: one instruction of core `c`, with its word and the extension word of a long form -/

def execIFadd (c : Fin 36) (w : Word) (x : Option Word) (s : State) : Host.Outcome State Fault Refusal :=
  s.act (·.issue c.val w x Insn.fadd)
def execIFsub (c : Fin 36) (w : Word) (x : Option Word) (s : State) : Host.Outcome State Fault Refusal :=
  s.act (·.issue c.val w x Insn.fsub)
def execIFmul (c : Fin 36) (w : Word) (x : Option Word) (s : State) : Host.Outcome State Fault Refusal :=
  s.act (·.issue c.val w x Insn.fmul)
def execIFdiv (c : Fin 36) (w : Word) (x : Option Word) (s : State) : Host.Outcome State Fault Refusal :=
  s.act (·.issue c.val w x Insn.fdiv)
def execIFsqrt (c : Fin 36) (w : Word) (x : Option Word) (s : State) : Host.Outcome State Fault Refusal :=
  s.act (·.issue c.val w x Insn.fsqrt)
def execIFmin (c : Fin 36) (w : Word) (x : Option Word) (s : State) : Host.Outcome State Fault Refusal :=
  s.act (·.issue c.val w x Insn.fmin)
def execIFmax (c : Fin 36) (w : Word) (x : Option Word) (s : State) : Host.Outcome State Fault Refusal :=
  s.act (·.issue c.val w x Insn.fmax)
def execIFabs (c : Fin 36) (w : Word) (x : Option Word) (s : State) : Host.Outcome State Fault Refusal :=
  s.act (·.issue c.val w x Insn.fabs)
def execIFneg (c : Fin 36) (w : Word) (x : Option Word) (s : State) : Host.Outcome State Fault Refusal :=
  s.act (·.issue c.val w x Insn.fneg)
def execIFmov (c : Fin 36) (w : Word) (x : Option Word) (s : State) : Host.Outcome State Fault Refusal :=
  s.act (·.issue c.val w x Insn.fmov)
def execIFcmp (c : Fin 36) (w : Word) (x : Option Word) (s : State) : Host.Outcome State Fault Refusal :=
  s.act (·.issue c.val w x Insn.fcmp)
def execIFsel (c : Fin 36) (w : Word) (x : Option Word) (s : State) : Host.Outcome State Fault Refusal :=
  s.act (·.issue c.val w x Insn.fsel)
def execIFmadd (c : Fin 36) (w : Word) (x : Option Word) (s : State) : Host.Outcome State Fault Refusal :=
  s.act (·.issue c.val w x Insn.fmadd)
def execIFmsub (c : Fin 36) (w : Word) (x : Option Word) (s : State) : Host.Outcome State Fault Refusal :=
  s.act (·.issue c.val w x Insn.fmsub)
def execIFnmadd (c : Fin 36) (w : Word) (x : Option Word) (s : State) : Host.Outcome State Fault Refusal :=
  s.act (·.issue c.val w x Insn.fnmadd)
def execIFcvti (c : Fin 36) (w : Word) (x : Option Word) (s : State) : Host.Outcome State Fault Refusal :=
  s.act (·.issue c.val w x Insn.fcvti)
def execIFcvtu (c : Fin 36) (w : Word) (x : Option Word) (s : State) : Host.Outcome State Fault Refusal :=
  s.act (·.issue c.val w x Insn.fcvtu)
def execIIcvtf (c : Fin 36) (w : Word) (x : Option Word) (s : State) : Host.Outcome State Fault Refusal :=
  s.act (·.issue c.val w x Insn.icvtf)
def execIUcvtf (c : Fin 36) (w : Word) (x : Option Word) (s : State) : Host.Outcome State Fault Refusal :=
  s.act (·.issue c.val w x Insn.ucvtf)
def execIFmvg (c : Fin 36) (w : Word) (x : Option Word) (s : State) : Host.Outcome State Fault Refusal :=
  s.act (·.issue c.val w x Insn.fmvg)
def execIGmvf (c : Fin 36) (w : Word) (x : Option Word) (s : State) : Host.Outcome State Fault Refusal :=
  s.act (·.issue c.val w x Insn.gmvf)
def execIFclass (c : Fin 36) (w : Word) (x : Option Word) (s : State) : Host.Outcome State Fault Refusal :=
  s.act (·.issue c.val w x Insn.fclass)
def execIFrnd (c : Fin 36) (w : Word) (x : Option Word) (s : State) : Host.Outcome State Fault Refusal :=
  s.act (·.issue c.val w x Insn.frnd)
def execIFld (c : Fin 36) (w : Word) (x : Option Word) (s : State) : Host.Outcome State Fault Refusal :=
  s.act (·.issue c.val w x Insn.fld)
def execIFst (c : Fin 36) (w : Word) (x : Option Word) (s : State) : Host.Outcome State Fault Refusal :=
  s.act (·.issue c.val w x Insn.fst)

end Sys2Proof.Machine
end

