-- ==== Sys2Proof/Machine/WasaInt.lean ====
section
/-! DEFINITION. General integer instructions, loads and stores (R123, R124). -/

namespace Sys2Proof.Machine

open Sys2Proof

namespace Insn

/-- A register instruction of opcode 0x08 with its flags; the long form takes an immediate and needs b = 0. -/
def int (clocks : Nat) (f : DWord → DWord → IntRes) : Insn :=
  { long := true, zl := 0xF800, clocks := clocks,
    run := alu (fun o k => (k.flagged (f (k.gr o.a) (o.second k))).setG o.d (f (k.gr o.a) (o.second k)).r) }

def add : Insn := int 1 intAdd
def sub : Insn := int 1 intSub
def andReg : Insn := int 1 (fun a b => intLogic (a &&& b))
def orReg : Insn := int 1 (fun a b => intLogic (a ||| b))
def xorReg : Insn := int 1 (fun a b => intLogic (a ^^^ b))
def andng : Insn := int 1 (fun a b => intLogic (a &&& ~~~b))
def shl : Insn := int 1 (fun a b => intLogic (a <<< shCount b))
def shr : Insn := int 1 (fun a b => intLogic (a >>> shCount b))
def sar : Insn := int 1 (fun a b => intLogic (a.sshiftRight (shCount b)))
def rol : Insn := int 1 (fun a b => intLogic (a.rotateLeft (shCount b)))
def mul : Insn := int 1 intMul
def mulhs : Insn := int 1 intMulhs
def mulhu : Insn := int 1 intMulhu
def div : Insn := int 34 intDiv
def divu : Insn := int 34 intDivu
def rem : Insn := int 34 intRem
def remu : Insn := int 34 intRemu
def min : Insn := int 1 intMin
def max : Insn := int 1 intMax
def minu : Insn := int 1 intMinu
def maxu : Insn := int 1 intMaxu
def cmp : Insn := { long := true, zs := 0x03E00000, zl := 0x03E0F800, run := alu (fun o k => k.cmp (k.gr o.a) (o.second k)) }
def tst : Insn := { long := true, zs := 0x03E00000, zl := 0x03E0F800, run := alu (fun o k => k.zn00 (k.gr o.a &&& o.second k)) }
def sel : Insn := { run := alu (fun o k => k.setG o.d (if k.ba then k.gr o.a else k.gr o.b)) }
def mov : Insn := { zs := 0xF800, run := alu (fun o k => k.setG o.d (k.gr o.a)) }
def not : Insn := { zs := 0xF800, run := alu (fun o k => (k.zn00 (~~~k.gr o.a)).setG o.d (~~~k.gr o.a)) }
def neg : Insn :=
  { zs := 0xF800, run := alu (fun o k => (k.flagged (intSub 0 (k.gr o.a))).setG o.d (intSub 0 (k.gr o.a)).r) }
def setc : Insn :=
  { zs := 0x001F0000, bad := fun o => o.b == 15, run := alu (fun o k => k.setG o.d (if k.cond o.b then 1 else 0)) }

/-! ### ADDI and LIH -/

def addi : Insn := { long := true, zl := 0xFFFF, run := alu (fun o k => k.setG o.d (k.gr o.a + o.immS)) }
def lih : Insn :=
  { long := true, zl := 0xFFFF,
    run := alu (fun o k => k.setG o.d ((k.gr o.a &&& 0xFFFFFFFF) ||| (BitVec.ofNat 64 o.immZ <<< 32))) }

/-! ### Loads and stores of n bytes (opcode 0x0A) -/

def loadG (n : Nat) (signed : Bool) : Insn :=
  { long := true, zl := 0xF800,
    touch := fun o k => touched n (k.inMemory (o.address k) n false),
    run := fun o m k => match k.inMemory (o.address k) n false with
      | .error t => .trap t m k
      | .ok a => .go m (k.setG o.d (extend signed n (m.load o k a n))) }
def storeG (n : Nat) : Insn :=
  { long := true, zl := 0xF800,
    touch := fun o k => touched n (k.inMemory (o.address k) n true),
    run := fun o m k => match k.inMemory (o.address k) n true with
      | .error t => .trap t m k
      | .ok a => .go (m.save o k a n (k.gr o.d).toNat) k }

def lb : Insn := loadG 1 true
def lbu : Insn := loadG 1 false
def lh : Insn := loadG 2 true
def lhu : Insn := loadG 2 false
def lw : Insn := loadG 4 true
def lwu : Insn := loadG 4 false
def ldw : Insn := loadG 8 false
def sb : Insn := storeG 1
def sh : Insn := storeG 2
def sw : Insn := storeG 4
def sdw : Insn := storeG 8

end Insn

/-! ### Commands: one instruction of core `c`, with its word and the extension word of a long form -/

def execIAdd (c : Fin 36) (w : Word) (x : Option Word) (s : State) : Host.Outcome State Fault Refusal :=
  s.act (·.issue c.val w x Insn.add)
def execISub (c : Fin 36) (w : Word) (x : Option Word) (s : State) : Host.Outcome State Fault Refusal :=
  s.act (·.issue c.val w x Insn.sub)
def execIAndReg (c : Fin 36) (w : Word) (x : Option Word) (s : State) : Host.Outcome State Fault Refusal :=
  s.act (·.issue c.val w x Insn.andReg)
def execIOrReg (c : Fin 36) (w : Word) (x : Option Word) (s : State) : Host.Outcome State Fault Refusal :=
  s.act (·.issue c.val w x Insn.orReg)
def execIXorReg (c : Fin 36) (w : Word) (x : Option Word) (s : State) : Host.Outcome State Fault Refusal :=
  s.act (·.issue c.val w x Insn.xorReg)
def execIAndng (c : Fin 36) (w : Word) (x : Option Word) (s : State) : Host.Outcome State Fault Refusal :=
  s.act (·.issue c.val w x Insn.andng)
def execIShl (c : Fin 36) (w : Word) (x : Option Word) (s : State) : Host.Outcome State Fault Refusal :=
  s.act (·.issue c.val w x Insn.shl)
def execIShr (c : Fin 36) (w : Word) (x : Option Word) (s : State) : Host.Outcome State Fault Refusal :=
  s.act (·.issue c.val w x Insn.shr)
def execISar (c : Fin 36) (w : Word) (x : Option Word) (s : State) : Host.Outcome State Fault Refusal :=
  s.act (·.issue c.val w x Insn.sar)
def execIRol (c : Fin 36) (w : Word) (x : Option Word) (s : State) : Host.Outcome State Fault Refusal :=
  s.act (·.issue c.val w x Insn.rol)
def execIMul (c : Fin 36) (w : Word) (x : Option Word) (s : State) : Host.Outcome State Fault Refusal :=
  s.act (·.issue c.val w x Insn.mul)
def execIMulhs (c : Fin 36) (w : Word) (x : Option Word) (s : State) : Host.Outcome State Fault Refusal :=
  s.act (·.issue c.val w x Insn.mulhs)
def execIMulhu (c : Fin 36) (w : Word) (x : Option Word) (s : State) : Host.Outcome State Fault Refusal :=
  s.act (·.issue c.val w x Insn.mulhu)
def execIDiv (c : Fin 36) (w : Word) (x : Option Word) (s : State) : Host.Outcome State Fault Refusal :=
  s.act (·.issue c.val w x Insn.div)
def execIDivu (c : Fin 36) (w : Word) (x : Option Word) (s : State) : Host.Outcome State Fault Refusal :=
  s.act (·.issue c.val w x Insn.divu)
def execIRem (c : Fin 36) (w : Word) (x : Option Word) (s : State) : Host.Outcome State Fault Refusal :=
  s.act (·.issue c.val w x Insn.rem)
def execIRemu (c : Fin 36) (w : Word) (x : Option Word) (s : State) : Host.Outcome State Fault Refusal :=
  s.act (·.issue c.val w x Insn.remu)
def execIMin (c : Fin 36) (w : Word) (x : Option Word) (s : State) : Host.Outcome State Fault Refusal :=
  s.act (·.issue c.val w x Insn.min)
def execIMax (c : Fin 36) (w : Word) (x : Option Word) (s : State) : Host.Outcome State Fault Refusal :=
  s.act (·.issue c.val w x Insn.max)
def execIMinu (c : Fin 36) (w : Word) (x : Option Word) (s : State) : Host.Outcome State Fault Refusal :=
  s.act (·.issue c.val w x Insn.minu)
def execIMaxu (c : Fin 36) (w : Word) (x : Option Word) (s : State) : Host.Outcome State Fault Refusal :=
  s.act (·.issue c.val w x Insn.maxu)
def execICmp (c : Fin 36) (w : Word) (x : Option Word) (s : State) : Host.Outcome State Fault Refusal :=
  s.act (·.issue c.val w x Insn.cmp)
def execITst (c : Fin 36) (w : Word) (x : Option Word) (s : State) : Host.Outcome State Fault Refusal :=
  s.act (·.issue c.val w x Insn.tst)
def execISel (c : Fin 36) (w : Word) (x : Option Word) (s : State) : Host.Outcome State Fault Refusal :=
  s.act (·.issue c.val w x Insn.sel)
def execIMov (c : Fin 36) (w : Word) (x : Option Word) (s : State) : Host.Outcome State Fault Refusal :=
  s.act (·.issue c.val w x Insn.mov)
def execINot (c : Fin 36) (w : Word) (x : Option Word) (s : State) : Host.Outcome State Fault Refusal :=
  s.act (·.issue c.val w x Insn.not)
def execINeg (c : Fin 36) (w : Word) (x : Option Word) (s : State) : Host.Outcome State Fault Refusal :=
  s.act (·.issue c.val w x Insn.neg)
def execISetc (c : Fin 36) (w : Word) (x : Option Word) (s : State) : Host.Outcome State Fault Refusal :=
  s.act (·.issue c.val w x Insn.setc)
def execIAddi (c : Fin 36) (w : Word) (x : Option Word) (s : State) : Host.Outcome State Fault Refusal :=
  s.act (·.issue c.val w x Insn.addi)
def execILih (c : Fin 36) (w : Word) (x : Option Word) (s : State) : Host.Outcome State Fault Refusal :=
  s.act (·.issue c.val w x Insn.lih)
def execILb (c : Fin 36) (w : Word) (x : Option Word) (s : State) : Host.Outcome State Fault Refusal :=
  s.act (·.issue c.val w x Insn.lb)
def execILbu (c : Fin 36) (w : Word) (x : Option Word) (s : State) : Host.Outcome State Fault Refusal :=
  s.act (·.issue c.val w x Insn.lbu)
def execILh (c : Fin 36) (w : Word) (x : Option Word) (s : State) : Host.Outcome State Fault Refusal :=
  s.act (·.issue c.val w x Insn.lh)
def execILhu (c : Fin 36) (w : Word) (x : Option Word) (s : State) : Host.Outcome State Fault Refusal :=
  s.act (·.issue c.val w x Insn.lhu)
def execILw (c : Fin 36) (w : Word) (x : Option Word) (s : State) : Host.Outcome State Fault Refusal :=
  s.act (·.issue c.val w x Insn.lw)
def execILwu (c : Fin 36) (w : Word) (x : Option Word) (s : State) : Host.Outcome State Fault Refusal :=
  s.act (·.issue c.val w x Insn.lwu)
def execILdw (c : Fin 36) (w : Word) (x : Option Word) (s : State) : Host.Outcome State Fault Refusal :=
  s.act (·.issue c.val w x Insn.ldw)
def execISb (c : Fin 36) (w : Word) (x : Option Word) (s : State) : Host.Outcome State Fault Refusal :=
  s.act (·.issue c.val w x Insn.sb)
def execISh (c : Fin 36) (w : Word) (x : Option Word) (s : State) : Host.Outcome State Fault Refusal :=
  s.act (·.issue c.val w x Insn.sh)
def execISw (c : Fin 36) (w : Word) (x : Option Word) (s : State) : Host.Outcome State Fault Refusal :=
  s.act (·.issue c.val w x Insn.sw)
def execISdw (c : Fin 36) (w : Word) (x : Option Word) (s : State) : Host.Outcome State Fault Refusal :=
  s.act (·.issue c.val w x Insn.sdw)

end Sys2Proof.Machine
end

