-- ==== Sys2Proof/Machine/WasaPoint.lean ====
section
/-! DEFINITION. Point access and complement pairs (R92 to R94, R127 to R130). -/

namespace Sys2Proof.Machine

open Sys2Proof

namespace Insn

/-! ### Points by a tag in G (Table 5-7) -/

/-- A point read with the destination that `f` writes. -/
def pointRead (zs : Nat) (qual : Bool) (f : Op → PointRec → Core → Core) : Insn :=
  { zs := zs, clocks := 6, run := fun o m k => m.pointLoad o k (k.gr o.a) false qual (f o) }
/-- A plain store of the value that `f` takes. -/
def pointWrite (zs : Nat) (f : Op → Core → DWord) : Insn :=
  { zs := zs, clocks := 2, run := fun o m k => m.pointStore o k (k.gr o.a) (f o k) }

def pld : Insn := pointRead 0xF800 true (fun o r k => k.setG o.d r.value)
def pldf : Insn := pointRead 0xF800 true (fun o r k => k.setF o.d r.value)
def plds : Insn := pointRead 0xF800 true (fun o r k => k.setG o.d r.second)
def pldt : Insn := pointRead 0xF800 true (fun o r k => k.setG o.d r.stamp)
def pldq : Insn := pointRead 0xF800 false (fun o r k => k.setG o.d (r.pqWord.zeroExtend 64))
def pldb : Insn := pointRead 0x03E0F800 true (fun _ r k => { k with ba := r.value != 0 })
def pst : Insn := pointWrite 0x03E00000 (fun o k => k.gr o.b)
def pstf : Insn := pointWrite 0x03E00000 (fun o k => k.fr o.b)
def pstb : Insn := pointWrite 0x03E0F800 (fun _ k => if k.ba then 1 else 0)
def pclrchg : Insn := { zs := 0x03E0F800, clocks := 6, run := fun o m k => m.pointClear o k (k.gr o.a) }

/-! ### Points by a tag word of memory (R129) -/

/-- The word-accumulator forms: the tag stands in an 8-byte word of a region. -/
def byTag (clocks : Nat) (f : Op → Chip → Core → DWord → Done) : Insn :=
  { fmode := true, long := true, zs := 0x001C0000, zl := 0x001CFFFF, clocks := clocks,
    touch := fun o k => touched 8 (k.inRegion (o.a % 4) o.immZ 8 false),
    run := fun o m k => match k.inRegion (o.a % 4) o.immZ 8 false with
      | .error t => .trap t m k
      | .ok a => f o m k (BitVec.ofNat 64 (m.load o k a 8)) }

def plwa : Insn := byTag 6 (fun o m k t => m.pointLoad o k t false true (fun r k1 => { k1 with wa := r.value }))
def pswa : Insn := byTag 2 (fun o m k t => m.pointStore o k t k.wa)
def plba : Insn := byTag 6 (fun o m k t => m.pointLoad o k t false true (fun r k1 => { k1 with ba := r.value != 0 }))
def psba : Insn := byTag 2 (fun o m k t => m.pointStore o k t (if k.ba then 1 else 0))
def plwb : Insn := byTag 6 (fun o m k t => m.pointLoad o k t false true (fun r k1 => { k1 with wb := r.value }))
def pswb : Insn := byTag 2 (fun o m k t => m.pointStore o k t k.wb)

/-! ### Complement pairs (Table 5-8) -/

/-- A pair instruction whose named registers must be even. -/
def even (regs : Op → List Nat) (f : Op → Chip → Core → Done) (o : Op) (m : Chip) (k : Core) : Done :=
  if (regs o).any (fun r => r % 2 == 1) then .trap .oddPair m k else f o m k

def pairRead (f : Op → PointRec → Core → Core) : Insn :=
  { zs := 0xF800, clocks := 6, run := even (fun o => [o.d]) (fun o m k => m.pointLoad o k (k.gr o.a) true true (f o)) }
def pairWrite (r : Core → Nat → DWord) : Insn :=
  { zs := 0x03E00000, clocks := 6,
    run := even (fun o => [o.b]) (fun o m k => m.pairStore o k (k.gr o.a) (r k o.b) (r k (o.b + 1))) }
/-- A pair load from 16 bytes of memory. -/
def memRead (f : Core → Nat → DWord → DWord → Core) : Insn :=
  { long := true, zl := 0xF800,
    touch := fun o k => if o.d % 2 = 1 then [] else touched 16 (k.inMemory (o.address k) 16 false),
    run := even (fun o => [o.d]) (fun o m k => match k.inMemory (o.address k) 16 false with
      | .error t => .trap t m k
      | .ok a =>
        let v := BitVec.ofNat 64 (m.load o k a 8)
        let c := BitVec.ofNat 64 (m.load o k (a + 8) 8)
        if pairOk v c then .go m (f k o.d v c) else .trap (.pairMismatch 0 (BitVec.ofNat 64 a)) m k) }
def memWrite (r : Core → Nat → DWord) : Insn :=
  { long := true, zl := 0xF800,
    touch := fun o k => if o.d % 2 = 1 then [] else touched 16 (k.inMemory (o.address k) 16 true),
    run := even (fun o => [o.d]) (fun o m k => match k.inMemory (o.address k) 16 true with
      | .error t => .trap t m k
      | .ok a =>
        if pairOk (r k o.d) (r k (o.d + 1)) then .go ((m.save o k a 8 (r k o.d).toNat).save o k (a + 8) 8 (r k (o.d + 1)).toNat) k
        else .trap (.pairMismatch 0 (BitVec.ofNat 64 a)) m k) }
def pairMove (r : Core → Nat → DWord) (f : Core → Nat → DWord → DWord → Core) : Insn :=
  { zs := 0xF800,
    run := even (fun o => [o.d, o.a]) (fun o m k =>
      if pairOk (r k o.a) (r k (o.a + 1)) then .go m (f k o.d (r k o.a) (r k (o.a + 1))) else .trap (.pairMismatch 0 0) m k) }

def ppld : Insn := pairRead (fun o r k => k.setG2 o.d r.value r.second)
def ppldf : Insn := pairRead (fun o r k => k.setF2 o.d r.value r.second)
def ppst : Insn := pairWrite Core.gr
def ppstf : Insn := pairWrite Core.fr
def mpld : Insn := memRead Core.setG2
def mpldf : Insn := memRead Core.setF2
def mpst : Insn := memWrite Core.gr
def mpstf : Insn := memWrite Core.fr
def pmov : Insn := pairMove Core.gr Core.setG2
def pmovf : Insn := pairMove Core.fr Core.setF2
def pcpl : Insn :=
  { zs := 0x001FF800, run := even (fun o => [o.d]) (fun o m k => .go m (k.setG (o.d + 1) (~~~k.gr o.d))) }
def pcplf : Insn :=
  { zs := 0x001FF800, run := even (fun o => [o.d]) (fun o m k => .go m (k.setF (o.d + 1) (~~~k.fr o.d))) }
def ptst : Insn :=
  { zs := 0x03E0F800, run := even (fun o => [o.a]) (fun o m k => .go m { k with ba := pairOk (k.gr o.a) (k.gr (o.a + 1)) }) }

end Insn

/-! ### Commands: one instruction of core `c`, with its word and the extension word of a long form -/

def execIPld (c : Fin 36) (w : Word) (x : Option Word) (s : State) : Host.Outcome State Fault Refusal :=
  s.act (·.issue c.val w x Insn.pld)
def execIPldf (c : Fin 36) (w : Word) (x : Option Word) (s : State) : Host.Outcome State Fault Refusal :=
  s.act (·.issue c.val w x Insn.pldf)
def execIPlds (c : Fin 36) (w : Word) (x : Option Word) (s : State) : Host.Outcome State Fault Refusal :=
  s.act (·.issue c.val w x Insn.plds)
def execIPldt (c : Fin 36) (w : Word) (x : Option Word) (s : State) : Host.Outcome State Fault Refusal :=
  s.act (·.issue c.val w x Insn.pldt)
def execIPldq (c : Fin 36) (w : Word) (x : Option Word) (s : State) : Host.Outcome State Fault Refusal :=
  s.act (·.issue c.val w x Insn.pldq)
def execIPldb (c : Fin 36) (w : Word) (x : Option Word) (s : State) : Host.Outcome State Fault Refusal :=
  s.act (·.issue c.val w x Insn.pldb)
def execIPst (c : Fin 36) (w : Word) (x : Option Word) (s : State) : Host.Outcome State Fault Refusal :=
  s.act (·.issue c.val w x Insn.pst)
def execIPstf (c : Fin 36) (w : Word) (x : Option Word) (s : State) : Host.Outcome State Fault Refusal :=
  s.act (·.issue c.val w x Insn.pstf)
def execIPstb (c : Fin 36) (w : Word) (x : Option Word) (s : State) : Host.Outcome State Fault Refusal :=
  s.act (·.issue c.val w x Insn.pstb)
def execIPclrchg (c : Fin 36) (w : Word) (x : Option Word) (s : State) : Host.Outcome State Fault Refusal :=
  s.act (·.issue c.val w x Insn.pclrchg)
def execIPlwa (c : Fin 36) (w : Word) (x : Option Word) (s : State) : Host.Outcome State Fault Refusal :=
  s.act (·.issue c.val w x Insn.plwa)
def execIPswa (c : Fin 36) (w : Word) (x : Option Word) (s : State) : Host.Outcome State Fault Refusal :=
  s.act (·.issue c.val w x Insn.pswa)
def execIPlba (c : Fin 36) (w : Word) (x : Option Word) (s : State) : Host.Outcome State Fault Refusal :=
  s.act (·.issue c.val w x Insn.plba)
def execIPsba (c : Fin 36) (w : Word) (x : Option Word) (s : State) : Host.Outcome State Fault Refusal :=
  s.act (·.issue c.val w x Insn.psba)
def execIPlwb (c : Fin 36) (w : Word) (x : Option Word) (s : State) : Host.Outcome State Fault Refusal :=
  s.act (·.issue c.val w x Insn.plwb)
def execIPswb (c : Fin 36) (w : Word) (x : Option Word) (s : State) : Host.Outcome State Fault Refusal :=
  s.act (·.issue c.val w x Insn.pswb)
def execIPpld (c : Fin 36) (w : Word) (x : Option Word) (s : State) : Host.Outcome State Fault Refusal :=
  s.act (·.issue c.val w x Insn.ppld)
def execIPpldf (c : Fin 36) (w : Word) (x : Option Word) (s : State) : Host.Outcome State Fault Refusal :=
  s.act (·.issue c.val w x Insn.ppldf)
def execIPpst (c : Fin 36) (w : Word) (x : Option Word) (s : State) : Host.Outcome State Fault Refusal :=
  s.act (·.issue c.val w x Insn.ppst)
def execIPpstf (c : Fin 36) (w : Word) (x : Option Word) (s : State) : Host.Outcome State Fault Refusal :=
  s.act (·.issue c.val w x Insn.ppstf)
def execIMpld (c : Fin 36) (w : Word) (x : Option Word) (s : State) : Host.Outcome State Fault Refusal :=
  s.act (·.issue c.val w x Insn.mpld)
def execIMpldf (c : Fin 36) (w : Word) (x : Option Word) (s : State) : Host.Outcome State Fault Refusal :=
  s.act (·.issue c.val w x Insn.mpldf)
def execIMpst (c : Fin 36) (w : Word) (x : Option Word) (s : State) : Host.Outcome State Fault Refusal :=
  s.act (·.issue c.val w x Insn.mpst)
def execIMpstf (c : Fin 36) (w : Word) (x : Option Word) (s : State) : Host.Outcome State Fault Refusal :=
  s.act (·.issue c.val w x Insn.mpstf)
def execIPmov (c : Fin 36) (w : Word) (x : Option Word) (s : State) : Host.Outcome State Fault Refusal :=
  s.act (·.issue c.val w x Insn.pmov)
def execIPmovf (c : Fin 36) (w : Word) (x : Option Word) (s : State) : Host.Outcome State Fault Refusal :=
  s.act (·.issue c.val w x Insn.pmovf)
def execIPcpl (c : Fin 36) (w : Word) (x : Option Word) (s : State) : Host.Outcome State Fault Refusal :=
  s.act (·.issue c.val w x Insn.pcpl)
def execIPcplf (c : Fin 36) (w : Word) (x : Option Word) (s : State) : Host.Outcome State Fault Refusal :=
  s.act (·.issue c.val w x Insn.pcplf)
def execIPtst (c : Fin 36) (w : Word) (x : Option Word) (s : State) : Host.Outcome State Fault Refusal :=
  s.act (·.issue c.val w x Insn.ptst)

end Sys2Proof.Machine
end

