-- ==== Sys2Proof/Machine/WasaSys.lean ====
section
/-! DEFINITION. Control space and special registers, the system instructions and the handler endings (R82, R95 to R97, R105, R135, R136). -/

namespace Sys2Proof.Machine

open Sys2Proof

namespace Insn

/-! ### Control space (Table 4-5, R96, R97) -/

/-- The vault registers that a service program may write ("Key vault"). -/
def vaultOpen (a : Nat) : Bool :=
  a == R.VAULT_CTL.addr || a == R.VAULT_SUB_LO.addr || a == R.VAULT_SUB_HI.addr || a == R.VAULT_SLOT_SEL.addr || a == R.VAULT_AUTH_CNT.addr

/-- Whether a level may read or write a control-space offset. -/
def allowed (k : Core) (a : Nat) (write : Bool) : Bool :=
  let full := k.level == some .service || k.level == some .boot
  if k.level = some .boot then true
  else if dramWin ≤ a then full
  else if 0x500000 ≤ a then full || !write
  else match blockUnit a with
    | 1 => full || (k.isCheck && !write)
    | 0x12 => full || (k.isCheck && !write)
    | 0x10 => full && (!write || vaultOpen a)
    | 0x13 => false
    | _ => full || !write

/-- Whether the unit or channel of an offset is present. -/
def there (m : Chip) (c : Fin 36) (a : Nat) : Bool :=
  if dramWin ≤ a then true
  else if 0x500000 ≤ a then
    (match winAt a with
      | some w => (match m.winHit (.core c) a with
        | some (_, off) => m.presentAt w off
        | none => m.hasUnit w.unit)
      | none => true)
  else m.present a

/-- The core of an instruction. -/
def coreOf (o : Op) : Fin 36 := if h : o.c < 36 then ⟨o.c, h⟩ else 0

/-- The offset of an access: ga plus the offset field. -/
def csrAddr (o : Op) (k : Core) : DWord :=
  k.gr o.a + BitVec.ofNat 64 (match o.x with | some e => e.toNat % 2 ^ 26 | none => o.imm16 % 2 ^ 14)

/-- The traps of an access (R95 to R97). -/
def csrCheck (o : Op) (m : Chip) (k : Core) (write : Bool) : Option Trap :=
  let a := csrAddr o k
  if 0x4000000 ≤ a.toNat then some (.unmapped a)
  else if !allowed k (a.toNat / 4 * 4) write then some (.privilege a)
  else if a.toNat % 4 ≠ 0 then some (.align a)
  else if !there m (coreOf o) a.toNat then some (.unitAbsent a)
  else none

def csrr : Insn :=
  { long := true, zl := 0xFFFF, zx := 0x3C000000, clocks := 6,
    run := fun o m k => match csrCheck o m k false with
      | some t => .trap t m k
      | none => match k.replay 1 (csrAddr o k).toNat with
        | some (r, k1) => .go m (k1.setG o.d (((r.map ReadEnt.word).getD 0).zeroExtend 64))
        | none =>
          let (w, m1) := m.ctlRead (.core (coreOf o)) (csrAddr o k).toNat
          .go m1 (k.setG o.d (w.zeroExtend 64)) }
def csrw : Insn :=
  { long := true, zl := 0xFFFF, zx := 0x3C000000, clocks := 20,
    run := fun o m k => match csrCheck o m k true with
      | some t => .trap t m k
      | none => .go (m.ctlWrite (.core (coreOf o)) (csrAddr o k).toNat ((k.gr o.d).extractLsb' 0 32)) k }

/-! ### Special registers (R82, R135) -/

/-- The index of a special register. -/
def special (o : Op) : Nat := match o.x with | some e => e.toNat % 2 ^ 26 | none => o.imm16 % 2 ^ 14

def mfs : Insn :=
  { long := true, zs := 0x001F0000, zl := 0x001FFFFF, zx := 0x3C000000,
    run := fun o m k => if 8 < special o then .trap .specialReg m k else .go m (k.setG o.d (k.special (special o))) }
def mts : Insn :=
  { long := true, zs := 0x001F0000, zl := 0x001FFFFF, zx := 0x3C000000,
    run := fun o m k => match special o with
      | 0 => .go m (k.setMstat (k.gr o.d))
      | 1 => .go m (k.setFcsr (k.gr o.d))
      | _ => .trap .specialReg m k }

/-! ### System (Table 5-10) -/

/-- Wait until every posted store is acknowledged, then go on. -/
def fence : Insn :=
  { fmode := true, zs := 0xFFFF, clocks := 4, run := fun o m k => let (m1, k1) := m.drainStores o.c k k.posted; .go m1 k1 }
def nop : Insn := { fmode := true, zs := 0xFFFF, run := alu (fun _ k => k) }
/-- END ends the cycle or program; inside a handler it is the ending END. -/
def end_ : Insn :=
  { fmode := true, zs := 0xFFFF, clocks := 4,
    run := fun o m k =>
      let (m1, k1) := m.drainStores o.c k k.posted
      match k1.trap with
      | some x => .stop (m1.trapEvent o.c k1 x.cycle 3) { k1 with trap := none } true
      | none => .stop m1 k1 true }

/-- The trap codes that a handler may end with SKIP, and with RETRY (Table 4-6). -/
def skippable : List Nat := [1, 6, 9, 0xA, 0xB]
def retriable : List Nat := [9, 0xA, 0xB]

/-- A handler ending: undefined outside a handler, BAD_ENDING where the trap does not allow it. -/
def ending (ok : Nat → Bool) (f : Op → Chip → Core → TrapCtx → Done) : Insn :=
  { fmode := true, zs := 0xFFFF, clocks := 6,
    run := fun o m k => match k.trap with
      | none => .trap .undefined m k
      | some x => if ok x.code then f o m k x else .trap .badEnding m k }

/-- SKIP: on at the next instruction; after BUDGET_DENIED gd takes NO_BUDGET (R134). -/
def skip : Insn :=
  ending skippable.contains (fun o m k x =>
    let k1 := { k with trap := none, pc := x.pc + BitVec.ofNat 32 x.len }
    .go (m.trapEvent o.c k x.cycle 1) (if x.code = 0xB then k1.setG (bits k.tinsn.toNat 25 21) (CC.noBudget.zeroExtend 64) else k1))
/-- RETRY: the trapping instruction again, its QUALITY or FP_INVALID check suppressed once. -/
def retry : Insn :=
  ending retriable.contains (fun o m k x =>
    .go (m.trapEvent o.c k x.cycle 2) { k with trap := none, pc := x.pc, suppress := x.code != 0xB })
/-- ABANDON. -/
def abandon : Insn :=
  ending (fun _ => true) (fun o m k x => .stop (m.trapEvent o.c k x.cycle 4) { k with trap := none } false)

end Insn

/-! ### Commands: one instruction of core `c`, with its word and the extension word of a long form -/

def execICsrr (c : Fin 36) (w : Word) (x : Option Word) (s : State) : Host.Outcome State Fault Refusal :=
  s.act (·.issue c.val w x Insn.csrr)
def execICsrw (c : Fin 36) (w : Word) (x : Option Word) (s : State) : Host.Outcome State Fault Refusal :=
  s.act (·.issue c.val w x Insn.csrw)
def execIMfs (c : Fin 36) (w : Word) (x : Option Word) (s : State) : Host.Outcome State Fault Refusal :=
  s.act (·.issue c.val w x Insn.mfs)
def execIMts (c : Fin 36) (w : Word) (x : Option Word) (s : State) : Host.Outcome State Fault Refusal :=
  s.act (·.issue c.val w x Insn.mts)
def execIEnd (c : Fin 36) (w : Word) (x : Option Word) (s : State) : Host.Outcome State Fault Refusal :=
  s.act (·.issue c.val w x Insn.end_)
def execISkip (c : Fin 36) (w : Word) (x : Option Word) (s : State) : Host.Outcome State Fault Refusal :=
  s.act (·.issue c.val w x Insn.skip)
def execIRetry (c : Fin 36) (w : Word) (x : Option Word) (s : State) : Host.Outcome State Fault Refusal :=
  s.act (·.issue c.val w x Insn.retry)
def execIAbandon (c : Fin 36) (w : Word) (x : Option Word) (s : State) : Host.Outcome State Fault Refusal :=
  s.act (·.issue c.val w x Insn.abandon)
def execIFence (c : Fin 36) (w : Word) (x : Option Word) (s : State) : Host.Outcome State Fault Refusal :=
  s.act (·.issue c.val w x Insn.fence)
def execINop (c : Fin 36) (w : Word) (x : Option Word) (s : State) : Host.Outcome State Fault Refusal :=
  s.act (·.issue c.val w x Insn.nop)

end Sys2Proof.Machine
end

