-- ==== Sys2Proof/Machine/WasaTimer.lean ====
section
/-! DEFINITION. Hardware timer slots (R99, R131, R132). -/

namespace Sys2Proof.Machine

open Sys2Proof

namespace Insn

/-! ### The slot functions of R132 -/

/-- el: the microseconds since the start, never negative. -/
def elapsed (s : Slot) (now : Nat) : Nat := now - s.start

/-- A change of mode clears RUN, Q and the previous input. -/
def enter (s : Slot) (mode : Nat) : Slot := if s.mode = mode then s else { s with run := false, q := false, prev := false, mode := mode }

/-- Start the slot where it does not run. -/
def started (s : Slot) (now : Nat) : Slot := if s.run then s else { s with start := now, run := true }

def tonSlot (ba : Bool) (now : Nat) (s0 : Slot) : Slot :=
  let s := enter s0 1
  if ba then { (started s now) with q := decide (s.preset ≤ elapsed (started s now) now) } else { s with run := false, q := false }

def tofSlot (ba : Bool) (now : Nat) (s0 : Slot) : Slot :=
  let s := enter s0 2
  if ba then { s with run := false, q := true }
  else if s.q then
    (if s.preset ≤ elapsed (started s now) now then { (started s now) with run := false, q := false } else started s now)
  else s

def tpSlot (ba : Bool) (now : Nat) (s0 : Slot) : Slot :=
  let s := enter s0 3
  let s1 := if ba && !s.prev && !s.run then { s with start := now, run := true, q := true } else s
  let s2 := if s1.run && decide (s1.preset ≤ elapsed s1 now) then { s1 with run := false, q := false } else s1
  { s2 with prev := ba }

/-! ### The instructions (Table 5-9) -/

/-- The local slot index. -/
def slotIndex (o : Op) : Nat := match o.x with | some e => e.toNat % 2 ^ 13 | none => o.imm16 % 2 ^ 12

/-- An instruction on an allocated slot of a task: the slot it leaves, and the core. -/
def timer (mask : Nat) (f : Op → Core → Nat → Slot → Slot × Core) : Insn :=
  { fmode := true, long := true, zs := mask, zl := mask + 0xFFFF, zx := 0x0FFFE000, clocks := 8,
    run := fun o m k =>
      if !k.isTask || decide (m.get (R.SCAN_TS_SLOTS_COUNT k.prog) ≤ slotIndex o) then .trap .timerIndex m k
      else
        let n := m.get (R.SCAN_TS_SLOTS_BASE k.prog) + slotIndex o
        let r := f o k (k.ltime.toNat / 1000) (m.slot n)
        .go (m.setSlot n r.1) r.2 }

/-- A driving instruction: BA drives the slot and takes Q. -/
def drive (f : Bool → Nat → Slot → Slot) : Insn :=
  timer 0x03FF0000 (fun _ k now s => (f k.ba now s, { k with ba := (f k.ba now s).q }))

def ton : Insn := drive tonSlot
def tof : Insn := drive tofSlot
def tp : Insn := drive tpSlot
def tpre : Insn := timer 0x03E00000 (fun o k _ s => ({ s with preset := Nat.min (k.gr o.a).toNat (2 ^ 48 - 1) }, k))
def trd : Insn :=
  timer 0x001F0000 (fun o k now s => (s, k.setG o.d (BitVec.ofNat 64 (if s.run then Nat.min (elapsed s now) s.preset else 0))))
def trst : Insn := timer 0x03FF0000 (fun _ k _ s => ({ s with run := false, q := false, prev := false }, k))
def tstat : Insn :=
  timer 0x001F0000 (fun o k _ s => (s, k.setG o.d (BitVec.ofNat 64 (s.mode * 16 + bit s.run * 2 + bit s.q))))

end Insn

/-! ### Commands: one instruction of core `c`, with its word and the extension word of a long form -/

def execITon (c : Fin 36) (w : Word) (x : Option Word) (s : State) : Host.Outcome State Fault Refusal :=
  s.act (·.issue c.val w x Insn.ton)
def execITof (c : Fin 36) (w : Word) (x : Option Word) (s : State) : Host.Outcome State Fault Refusal :=
  s.act (·.issue c.val w x Insn.tof)
def execITp (c : Fin 36) (w : Word) (x : Option Word) (s : State) : Host.Outcome State Fault Refusal :=
  s.act (·.issue c.val w x Insn.tp)
def execITpre (c : Fin 36) (w : Word) (x : Option Word) (s : State) : Host.Outcome State Fault Refusal :=
  s.act (·.issue c.val w x Insn.tpre)
def execITrd (c : Fin 36) (w : Word) (x : Option Word) (s : State) : Host.Outcome State Fault Refusal :=
  s.act (·.issue c.val w x Insn.trd)
def execITrst (c : Fin 36) (w : Word) (x : Option Word) (s : State) : Host.Outcome State Fault Refusal :=
  s.act (·.issue c.val w x Insn.trst)
def execITstat (c : Fin 36) (w : Word) (x : Option Word) (s : State) : Host.Outcome State Fault Refusal :=
  s.act (·.issue c.val w x Insn.tstat)

end Sys2Proof.Machine
end

