-- ==== Sys2Proof/Machine/WasaWord.lean ====
section
/-! DEFINITION. Word logic (R85, R121, R122). -/

namespace Sys2Proof.Machine

open Sys2Proof

namespace Insn

/-- The region code, the word register (true WB), signedness and width of a word load or store (R121). -/
def wRegion (o : Op) : Nat := bits o.w.toNat 17 16
def wReg (o : Op) : Bool := o.w.getLsbD 20
def wSigned (o : Op) : Bool := o.w.getLsbD 23
def wWidth (o : Op) : Nat := 2 ^ bits o.w.toNat 22 21

def wld : Insn :=
  { fmode := true, long := true, zs := 0x000C0000, zl := 0x000CFFFF,
    touch := fun o k => touched (wWidth o) (k.inRegion (wRegion o) o.immZ (wWidth o) false),
    run := fun o m k => match k.inRegion (wRegion o) o.immZ (wWidth o) false with
      | .error t => .trap t m k
      | .ok a => .go m (k.setW (wReg o) (extend (wSigned o) (wWidth o) (m.load o k a (wWidth o)))) }
def wst : Insn :=
  { fmode := true, long := true, zs := 0x008C0000, zl := 0x008CFFFF,
    touch := fun o k => touched (wWidth o) (k.inRegion (wRegion o) o.immZ (wWidth o) true),
    run := fun o m k => match k.inRegion (wRegion o) o.immZ (wWidth o) true with
      | .error t => .trap t m k
      | .ok a => .go (m.save o k a (wWidth o) (k.wr (wReg o)).toNat) k }
def wli : Insn :=
  { fmode := true, long := true, zs := 0x00EF0000, zl := 0x00EFFFFF, run := alu (fun o k => k.setW (wReg o) o.immS) }

/-- A word function with its flags (opcode 0x07). -/
def wop (clocks : Nat) (f : DWord → DWord → IntRes) : Insn :=
  { fmode := true, zs := 0x001FFFFF, clocks := clocks,
    run := alu (fun _ k => { (k.flagged (f k.wa k.wb)) with wa := (f k.wa k.wb).r }) }

def wadd : Insn := wop 1 intAdd
def wsub : Insn := wop 1 intSub
def wmul : Insn := wop 1 intMul
def wdiv : Insn := wop 34 intDiv
def wrem : Insn := wop 34 intRem
def wand : Insn := wop 1 (fun a b => intLogic (a &&& b))
def wor : Insn := wop 1 (fun a b => intLogic (a ||| b))
def wxor : Insn := wop 1 (fun a b => intLogic (a ^^^ b))
def wnot : Insn := wop 1 (fun a _ => intLogic (~~~a))
def wneg : Insn := wop 1 (fun a _ => intSub 0 a)
def wshl : Insn := wop 1 (fun a b => intLogic (a <<< shCount b))
def wshr : Insn := wop 1 (fun a b => intLogic (a >>> shCount b))
def wsar : Insn := wop 1 (fun a b => intLogic (a.sshiftRight (shCount b)))
/-- WCMP: its condition codes are 2 to 11. -/
def wcmp : Insn :=
  { fmode := true, zs := 0x001FFFF0, bad := fun o => decide (o.imm16 % 16 < 2 ∨ 11 < o.imm16 % 16),
    run := alu (fun o k => { (k.cmp k.wa k.wb) with ba := (k.cmp k.wa k.wb).cond (o.imm16 % 16) }) }
def wswap : Insn := { fmode := true, zs := 0x001FFFFF, run := alu (fun _ k => { k with wa := k.wb, wb := k.wa }) }
def wcopy : Insn := { fmode := true, zs := 0x001FFFFF, run := alu (fun _ k => { k with wb := k.wa }) }
def wmovg : Insn :=
  { fmode := true, zs := 0x001FFFC0, run := alu (fun o k => k.setG (o.imm16 % 32) (k.wr (o.w.getLsbD 5))) }
def gmovw : Insn :=
  { fmode := true, zs := 0x001FFFC0, run := alu (fun o k => k.setW (o.w.getLsbD 5) (k.gr (o.imm16 % 32))) }

end Insn

/-! ### Commands: one instruction of core `c`, with its word and the extension word of a long form -/

def execIWld (c : Fin 36) (w : Word) (x : Option Word) (s : State) : Host.Outcome State Fault Refusal :=
  s.act (·.issue c.val w x Insn.wld)
def execIWst (c : Fin 36) (w : Word) (x : Option Word) (s : State) : Host.Outcome State Fault Refusal :=
  s.act (·.issue c.val w x Insn.wst)
def execIWli (c : Fin 36) (w : Word) (x : Option Word) (s : State) : Host.Outcome State Fault Refusal :=
  s.act (·.issue c.val w x Insn.wli)
def execIWadd (c : Fin 36) (w : Word) (x : Option Word) (s : State) : Host.Outcome State Fault Refusal :=
  s.act (·.issue c.val w x Insn.wadd)
def execIWsub (c : Fin 36) (w : Word) (x : Option Word) (s : State) : Host.Outcome State Fault Refusal :=
  s.act (·.issue c.val w x Insn.wsub)
def execIWmul (c : Fin 36) (w : Word) (x : Option Word) (s : State) : Host.Outcome State Fault Refusal :=
  s.act (·.issue c.val w x Insn.wmul)
def execIWdiv (c : Fin 36) (w : Word) (x : Option Word) (s : State) : Host.Outcome State Fault Refusal :=
  s.act (·.issue c.val w x Insn.wdiv)
def execIWrem (c : Fin 36) (w : Word) (x : Option Word) (s : State) : Host.Outcome State Fault Refusal :=
  s.act (·.issue c.val w x Insn.wrem)
def execIWand (c : Fin 36) (w : Word) (x : Option Word) (s : State) : Host.Outcome State Fault Refusal :=
  s.act (·.issue c.val w x Insn.wand)
def execIWor (c : Fin 36) (w : Word) (x : Option Word) (s : State) : Host.Outcome State Fault Refusal :=
  s.act (·.issue c.val w x Insn.wor)
def execIWxor (c : Fin 36) (w : Word) (x : Option Word) (s : State) : Host.Outcome State Fault Refusal :=
  s.act (·.issue c.val w x Insn.wxor)
def execIWnot (c : Fin 36) (w : Word) (x : Option Word) (s : State) : Host.Outcome State Fault Refusal :=
  s.act (·.issue c.val w x Insn.wnot)
def execIWneg (c : Fin 36) (w : Word) (x : Option Word) (s : State) : Host.Outcome State Fault Refusal :=
  s.act (·.issue c.val w x Insn.wneg)
def execIWshl (c : Fin 36) (w : Word) (x : Option Word) (s : State) : Host.Outcome State Fault Refusal :=
  s.act (·.issue c.val w x Insn.wshl)
def execIWshr (c : Fin 36) (w : Word) (x : Option Word) (s : State) : Host.Outcome State Fault Refusal :=
  s.act (·.issue c.val w x Insn.wshr)
def execIWsar (c : Fin 36) (w : Word) (x : Option Word) (s : State) : Host.Outcome State Fault Refusal :=
  s.act (·.issue c.val w x Insn.wsar)
def execIWcmp (c : Fin 36) (w : Word) (x : Option Word) (s : State) : Host.Outcome State Fault Refusal :=
  s.act (·.issue c.val w x Insn.wcmp)
def execIWswap (c : Fin 36) (w : Word) (x : Option Word) (s : State) : Host.Outcome State Fault Refusal :=
  s.act (·.issue c.val w x Insn.wswap)
def execIWmovg (c : Fin 36) (w : Word) (x : Option Word) (s : State) : Host.Outcome State Fault Refusal :=
  s.act (·.issue c.val w x Insn.wmovg)
def execIGmovw (c : Fin 36) (w : Word) (x : Option Word) (s : State) : Host.Outcome State Fault Refusal :=
  s.act (·.issue c.val w x Insn.gmovw)
def execIWcopy (c : Fin 36) (w : Word) (x : Option Word) (s : State) : Host.Outcome State Fault Refusal :=
  s.act (·.issue c.val w x Insn.wcopy)

end Sys2Proof.Machine
end

