-- ==== Sys2Proof/Machine/Echo.lean ====
section
/-! DEFINITION. Echo execution on a standby (R377, R378, R381, R382): the opcode map by which a cycle's instructions are read from its image, the replay of a
cycle on its read log, and the comparison with the active's delta. -/

namespace Sys2Proof.Machine

open Sys2Proof

/-! ### The opcode map (Table 4-10 and the function columns of chapter 5) -/

/-- The instruction at place `i` of a table's functions. -/
def pick (l : List Insn) (i : Nat) : Insn := l.getD i Insn.none_

/-- The instruction of a word and of the extension word after it. -/
def insnOf (w x : Word) : Insn :=
  let n := w.toNat
  let b := bits n 25 22
  let d := bits n 25 21
  let r := n % 2048
  let s := bits n 25 16
  match n / 2 ^ 27 with
  | 0x00 => pick [.ld, .ldn, .and, .andn, .or, .orn, .xor, .xorn] b
  | 0x01 => pick [.st, .stn, .setb, .rstb, .tglb] b
  | 0x02 => pick [.notba, .setba, .clrba, .condba] b
  | 0x04 => .jmp
  | 0x05 =>
    if s ≤ 14 then .bcond
    else if s = 15 then .none_
    else if s < 0x20 then pick [.call, .ret] (s - 0x10)
    else pick [.push, .popAnd, .popOr, .popXor, .popAndn, .popLd, .drop] (s - 0x20)
  | 0x06 => pick [.wld, .wst, .wli] (d / 8)
  | 0x07 =>
    pick [.wadd, .wsub, .wmul, .wdiv, .wrem, .wand, .wor, .wxor, .wnot, .wneg, .wshl, .wshr, .wsar, .wcmp, .wswap, .wmovg, .gmovw, .wcopy] d
  | 0x08 =>
    if r < 0x20 then
      pick [.add, .sub, .andReg, .orReg, .xorReg, .andng, .shl, .shr, .sar, .rol, .mul, .mulhs, .mulhu, .div, .divu, .rem, .remu,
        .min, .max, .minu, .maxu] r
    else pick [.cmp, .tst, .sel, .mov, .not, .neg, .setc] (r - 0x20)
  | 0x09 => .addi
  | 0x0A => if r < 0x10 then pick [.lb, .lbu, .lh, .lhu, .lw, .lwu, .ldw] r else pick [.sb, .sh, .sw, .sdw] (r - 0x10)
  | 0x0B => .lih
  | 0x0C => pick [.fadd, .fsub, .fmul, .fdiv, .fsqrt, .fmin, .fmax, .fabs, .fneg, .fmov, .fcmp, .fsel] r
  | 0x0D => pick [.fmadd, .fmsub, .fnmadd] r
  | 0x0E => pick [.fcvti, .fcvtu, .icvtf, .ucvtf, .fmvg, .gmvf, .fclass, .frnd] r
  | 0x0F => pick [.fld, .fst] r
  | 0x10 =>
    if r < 0x10 then pick [.pld, .pldf, .plds, .pldt, .pldq, .pldb] r
    else if r < 0x20 then pick [.pst, .pstf, .pstb] (r - 0x10)
    else pick [.pclrchg] (r - 0x20)
  | 0x11 => pick [.plwa, .pswa, .plba, .psba, .plwb, .pswb] d
  | 0x12 =>
    if r < 0x10 then pick [.ppld, .ppldf, .ppst, .ppstf] r
    else if r < 0x20 then pick [.mpld, .mpldf, .mpst, .mpstf] (r - 0x10)
    else pick [.pmov, .pmovf, .pcpl, .pcplf, .ptst] (r - 0x20)
  | 0x14 => pick [.ton, .tof, .tp, .tpre, .trd, .trst, .tstat] (if xBit w then x.toNat / 2 ^ 28 else bits n 15 12)
  | 0x15 => pick [.edgr, .edgf, .edgb] d
  | 0x16 => .ucall
  | 0x17 => pick [.csrr, .csrw, .mfs, .mts] (if xBit w then x.toNat / 2 ^ 30 else bits n 15 14)
  | 0x18 => if s < 0x10 then pick [.end_, .skip, .retry, .abandon] s else pick [.fence, .nop] (s - 0x10)
  | _ => .none_

/-! ### The replay -/

/-- Run a cycle on its read log until it ends, at most `n` instructions; `stop` is the PC and the number of stores at which the active took
CYCLE_OVERRUN. The echo's own clocks are not compared (R378). -/
def echoRun (c : Nat) (stop : Option (Word × Nat)) : Nat → Chip → Core → Chip × Core × Option Bool
  | 0, m, k => (m, k, none)
  | n + 1, m, k =>
    let e := k.echo.getD {}
    let w := k.img.code.getD (k.pc.toNat / 4) 0
    let x := k.img.code.getD (k.pc.toNat / 4 + 1) 0
    if e.bad then (m, k, none)
    else if stop = some (k.pc, e.stores.length) ∧ e.reads = [] then m.takeTrap (k.op c w (some x)) k .cycleOverrun
    else match m.turn (k.op c w (some x)) k (insnOf w x) with
      | (m1, k1, none) => echoRun c stop n m1 k1
      | r => r

/-- The first place at which two store logs differ. -/
def firstDiff : Nat → List (BitVec 40 × DWord × DWord) → List (BitVec 40 × DWord × DWord) → Option Nat
  | _, [], [] => none
  | i, a :: s, b :: t => if a = b then firstDiff (i + 1) s t else some i
  | i, _, _ => some i

/-- The first output entry whose value differs between the echo's OUT region and the delta's image: its OUT offset. -/
def Chip.outDiff (m n : Chip) (t : Nat) (l : List MapEnt) : Option Nat :=
  (l.find? (fun e => (m.outEntry t e).2 != (n.outEntry t e).2)).map (fun e => if e.kind = 0 then e.addr / 8 else e.addr)

/-- Compare an echo with the delta (R378): none where they agree, else the offset or index that OUTPUT_MISMATCH names. -/
def Chip.echoDiff (m : Chip) (t : Nat) (omap : List MapEnt) (r : Chip × Core × Option Bool) (x : SadDelta) : Option Nat :=
  let e := r.2.1.echo.getD {}
  let n := m.setBytes (.data t) 0x11000000 x.image
  let outcome := match r.2.2, x.abandon with
    | some true, none => true
    | some false, some (code, pc) => code == r.2.1.trec.toNat % 256 && pc.toNat == r.2.1.trec.toNat / 2 ^ 32
    | _, _ => false
  if !x.pairsOk || e.bad then some 0
  else match firstDiff 0 e.stores x.stores with
    | some i => some i
    | none =>
      if !outcome then some 0
      else if x.abandon.isSome then none
      else if (r.2.1.bs != []) != x.bsLeft then some 0
      else r.1.outDiff n t omap

/-- The state after a delta: DATA blocks, OUT image, timer slots, cycle number, sequence numbers of the sets it names (R377, R381). -/
def Chip.applyDelta (m : Chip) (x : SadDelta) : Chip :=
  let t := x.task
  let m1 := x.blocks.foldl (fun a b => a.setBytes (.data t) b.1 b.2) m
  let m2 := m1.setBytes (.data t) 0x11000000 x.image
  let base := m2.get (R.SCAN_TS_SLOTS_BASE t)
  let m3 := x.slots.foldl (fun a s => a.setSlot (base + s.1) s.2) m2
  let m4 := (m3.setTask t { m3.task t with next := x.cycle + 1 }).put (R.SCAN_TS_CYCLES t) x.cycle.toNat
  x.sets.foldl (fun a s => a.setSta s.1 { a.sta s.1 with outSeq := AMap.put 0 0x31 s.2.1 (a.sta s.1).outSeq }) m4

/-- The standby's copies of the sets that a delta names. -/
def Chip.secondCopies (m : Chip) (x : SadDelta) : Chip :=
  x.sets.foldl (fun a s => a.sendCopy { port := a.portOf s.1, station := some s.1, type := 0x31, seq := s.2.1, target := 0, cls := 5,
                                        payload := s.2.2 }) m

/-- Echo one cycle of a task (R377). -/
def Chip.echo1 (m0 : Chip) (i : SadImage) (x : SadDelta) : Chip :=
  let t := x.task
  let late := (m0.get64 (R.COMMIT_APPLIED_LO 0)).toNat < i.release.toNat
  let m := if late && (m0.task t).swap.isSome then m0.colSwitch t else m0
  let e := m.taskEnt t
  let omap := m.mapEnts .scanOmap e.omap e.omapN
  let start := m.setBytes (.data t) 0x10000000 i.bytes
  let k : Core := { (entryCore .task 0 t (m.task t).img x.cycle i.release e.budget) with echo := some { reads := x.reads } }
  let stop := match x.abandon with
    | some (5, pc) => some (pc, x.stores.length)
    | _ => none
  let r := echoRun e.core stop e.budget start k
  let mc := m.corrected e.core k (m.scan.upsets.filter (fun u => !r.1.scan.upsets.contains u))
  let m1 := match m.echoDiff t omap r x with
    | none => (mc.secondCopies x).setSadl { mc.sadl with lastBad := unassoc mc.sadl.lastBad t }
    | some d =>
      let again := assoc m.sadl.lastBad t == some (x.cycle - 1)
      let n := mc.mismatch false t x.cycle.toNat d again
      n.setSadl { n.sadl with lastBad := reassoc n.sadl.lastBad t x.cycle }
  let m2 := m1.applyDelta x
  let m3 := m2.setSadl { m2.sadl with images := m2.sadl.images.filter (fun y => !(y.task == t && y.cycle == x.cycle)),
                                      deltas := m2.sadl.deltas.filter (fun y => !(y.task == t && y.cycle == x.cycle)) }
  if x.swap then m3.colSwitch t else m3

/-- ECHO_EXECUTION: the oldest delta of a task whose image has arrived. -/
def Chip.echo (m : Chip) (t : Nat) : Chip :=
  if !m.standby || m.syncState != 3 then m
  else match m.sadl.deltas.find? (fun d => d.task == t) with
    | none => m
    | some x => match m.sadl.images.find? (fun i => i.task == t && i.cycle == x.cycle) with
      | some i => m.echo1 i x
      | none => m

/-! ### Commands -/

def execEchoExecution (t : Fin 256) (s : State) : Host.Outcome State Fault Refusal := s.act (·.echo t.val)

end Sys2Proof.Machine
end

