-- ==== Sys2Proof/Machine/Dispatch.lean ====
section
/-! DEFINITION. The dispatch: one arm for each command, one direct call of its meaning or a rejection by name. -/

namespace Sys2Proof.Machine

open Sys2Proof

def exec (i : Instr) (s : State) : Host.Outcome State Fault Refusal :=
  match i with
  | .registerWrite r a v full => Sys2Proof.Machine.execRegisterWrite r a v full s
  | .pairedRegisterWrite r a v => Sys2Proof.Machine.execPairedRegisterWrite r a v s
  | .multiwordWrite r a v => Sys2Proof.Machine.execMultiwordWrite r a v s
  | .lowWordRead r a => Sys2Proof.Machine.execLowWordRead r a s
  | .rcFieldRead r a => Sys2Proof.Machine.execRcFieldRead r a s
  | .diagCounterClear r a v => Sys2Proof.Machine.execDiagCounterClear r a v s
  | .unitDisableRequest u => Sys2Proof.Machine.execUnitDisableRequest u s
  | .drainLimitExpiry u => Sys2Proof.Machine.execDrainLimitExpiry u s
  | .drainComplete u l => Sys2Proof.Machine.execDrainComplete u l s
  | .unitEnableRequest u => Sys2Proof.Machine.execUnitEnableRequest u s
  | .evrCfgWrite n w => Sys2Proof.Machine.execEvrCfgWrite n w s
  | .evrTailWrite n w => Sys2Proof.Machine.execEvrTailWrite n w s
  | .pllLock p => Sys2Proof.Machine.execPllLock p s
  | .pointRead port tag => Sys2Proof.Machine.execPointRead port tag s
  | .pointWrite port w => Sys2Proof.Machine.execPointWrite port w s
  | .accRead p => Sys2Proof.Machine.execAccRead p s
  | .accWrite p => Sys2Proof.Machine.execAccWrite p s
  | .force p good => Sys2Proof.Machine.execForce p good s
  | .unforce p => Sys2Proof.Machine.execUnforce p s
  | .subst p => Sys2Proof.Machine.execSubst p s
  | .unsubst p => Sys2Proof.Machine.execUnsubst p s
  | .clrchg p => Sys2Proof.Machine.execClrchg p s
  | .sweepVisit => Sys2Proof.Machine.execSweepVisit s
  | .scrubVisit => Sys2Proof.Machine.execScrubVisit s
  | .pointClearDone => Sys2Proof.Machine.execPointClearDone s
  | .commitGo k => Sys2Proof.Machine.execCommitGo k s
  | .commitAbort k => Sys2Proof.Machine.execCommitAbort k s
  | .discard k => Sys2Proof.Machine.execDiscard k s
  | .commitRulesDone k => Sys2Proof.Machine.execCommitRulesDone k s
  | .checkLimitExpiry k => Sys2Proof.Machine.execCheckLimitExpiry k s
  | .commitPrepDone k => Sys2Proof.Machine.execCommitPrepDone k s
  | .commitApply k => Sys2Proof.Machine.execCommitApply k s
  | .commitTaskTimeout k => Sys2Proof.Machine.execCommitTaskTimeout k s
  | .overlayFold => Sys2Proof.Machine.execOverlayFold s
  | .bootStart sfdp => Sys2Proof.Machine.execBootStart sfdp s
  | .flashRead len => Sys2Proof.Machine.execFlashRead len s
  | .flashProgram len => Sys2Proof.Machine.execFlashProgram len s
  | .erase4k => Sys2Proof.Machine.execErase4k s
  | .erase64k => Sys2Proof.Machine.execErase64k s
  | .flashOpDone => Sys2Proof.Machine.execFlashOpDone s
  | .cairnFloorWrite w => Sys2Proof.Machine.execCairnFloorWrite w s
  | .undefinedOpcode c w x => Sys2Proof.Machine.execUndefinedOpcode c w x s
  | .cycleOverrun c => Sys2Proof.Machine.execCycleOverrun c s
  | .postedStoreAck c => Sys2Proof.Machine.execPostedStoreAck c s
  | .iLd c w x => Sys2Proof.Machine.execILd c w x s
  | .iLdn c w x => Sys2Proof.Machine.execILdn c w x s
  | .iAnd c w x => Sys2Proof.Machine.execIAnd c w x s
  | .iAndn c w x => Sys2Proof.Machine.execIAndn c w x s
  | .iOr c w x => Sys2Proof.Machine.execIOr c w x s
  | .iOrn c w x => Sys2Proof.Machine.execIOrn c w x s
  | .iXor c w x => Sys2Proof.Machine.execIXor c w x s
  | .iXorn c w x => Sys2Proof.Machine.execIXorn c w x s
  | .iSt c w x => Sys2Proof.Machine.execISt c w x s
  | .iStn c w x => Sys2Proof.Machine.execIStn c w x s
  | .iSetb c w x => Sys2Proof.Machine.execISetb c w x s
  | .iRstb c w x => Sys2Proof.Machine.execIRstb c w x s
  | .iTglb c w x => Sys2Proof.Machine.execITglb c w x s
  | .iNotba c w x => Sys2Proof.Machine.execINotba c w x s
  | .iSetba c w x => Sys2Proof.Machine.execISetba c w x s
  | .iClrba c w x => Sys2Proof.Machine.execIClrba c w x s
  | .iCondba c w x => Sys2Proof.Machine.execICondba c w x s
  | .iJmp c w x => Sys2Proof.Machine.execIJmp c w x s
  | .iBCond c w x => Sys2Proof.Machine.execIBCond c w x s
  | .iCall c w x => Sys2Proof.Machine.execICall c w x s
  | .iRet c w x => Sys2Proof.Machine.execIRet c w x s
  | .iPush c w x => Sys2Proof.Machine.execIPush c w x s
  | .iPopAnd c w x => Sys2Proof.Machine.execIPopAnd c w x s
  | .iPopOr c w x => Sys2Proof.Machine.execIPopOr c w x s
  | .iPopXor c w x => Sys2Proof.Machine.execIPopXor c w x s
  | .iPopAndn c w x => Sys2Proof.Machine.execIPopAndn c w x s
  | .iPopLd c w x => Sys2Proof.Machine.execIPopLd c w x s
  | .iDrop c w x => Sys2Proof.Machine.execIDrop c w x s
  | .iWld c w x => Sys2Proof.Machine.execIWld c w x s
  | .iWst c w x => Sys2Proof.Machine.execIWst c w x s
  | .iWli c w x => Sys2Proof.Machine.execIWli c w x s
  | .iWadd c w x => Sys2Proof.Machine.execIWadd c w x s
  | .iWsub c w x => Sys2Proof.Machine.execIWsub c w x s
  | .iWmul c w x => Sys2Proof.Machine.execIWmul c w x s
  | .iWdiv c w x => Sys2Proof.Machine.execIWdiv c w x s
  | .iWrem c w x => Sys2Proof.Machine.execIWrem c w x s
  | .iWand c w x => Sys2Proof.Machine.execIWand c w x s
  | .iWor c w x => Sys2Proof.Machine.execIWor c w x s
  | .iWxor c w x => Sys2Proof.Machine.execIWxor c w x s
  | .iWnot c w x => Sys2Proof.Machine.execIWnot c w x s
  | .iWneg c w x => Sys2Proof.Machine.execIWneg c w x s
  | .iWshl c w x => Sys2Proof.Machine.execIWshl c w x s
  | .iWshr c w x => Sys2Proof.Machine.execIWshr c w x s
  | .iWsar c w x => Sys2Proof.Machine.execIWsar c w x s
  | .iWcmp c w x => Sys2Proof.Machine.execIWcmp c w x s
  | .iWswap c w x => Sys2Proof.Machine.execIWswap c w x s
  | .iWmovg c w x => Sys2Proof.Machine.execIWmovg c w x s
  | .iGmovw c w x => Sys2Proof.Machine.execIGmovw c w x s
  | .iWcopy c w x => Sys2Proof.Machine.execIWcopy c w x s
  | .iAdd c w x => Sys2Proof.Machine.execIAdd c w x s
  | .iSub c w x => Sys2Proof.Machine.execISub c w x s
  | .iAndReg c w x => Sys2Proof.Machine.execIAndReg c w x s
  | .iOrReg c w x => Sys2Proof.Machine.execIOrReg c w x s
  | .iXorReg c w x => Sys2Proof.Machine.execIXorReg c w x s
  | .iAndng c w x => Sys2Proof.Machine.execIAndng c w x s
  | .iShl c w x => Sys2Proof.Machine.execIShl c w x s
  | .iShr c w x => Sys2Proof.Machine.execIShr c w x s
  | .iSar c w x => Sys2Proof.Machine.execISar c w x s
  | .iRol c w x => Sys2Proof.Machine.execIRol c w x s
  | .iMul c w x => Sys2Proof.Machine.execIMul c w x s
  | .iMulhs c w x => Sys2Proof.Machine.execIMulhs c w x s
  | .iMulhu c w x => Sys2Proof.Machine.execIMulhu c w x s
  | .iDiv c w x => Sys2Proof.Machine.execIDiv c w x s
  | .iDivu c w x => Sys2Proof.Machine.execIDivu c w x s
  | .iRem c w x => Sys2Proof.Machine.execIRem c w x s
  | .iRemu c w x => Sys2Proof.Machine.execIRemu c w x s
  | .iMin c w x => Sys2Proof.Machine.execIMin c w x s
  | .iMax c w x => Sys2Proof.Machine.execIMax c w x s
  | .iMinu c w x => Sys2Proof.Machine.execIMinu c w x s
  | .iMaxu c w x => Sys2Proof.Machine.execIMaxu c w x s
  | .iCmp c w x => Sys2Proof.Machine.execICmp c w x s
  | .iTst c w x => Sys2Proof.Machine.execITst c w x s
  | .iSel c w x => Sys2Proof.Machine.execISel c w x s
  | .iMov c w x => Sys2Proof.Machine.execIMov c w x s
  | .iNot c w x => Sys2Proof.Machine.execINot c w x s
  | .iNeg c w x => Sys2Proof.Machine.execINeg c w x s
  | .iSetc c w x => Sys2Proof.Machine.execISetc c w x s
  | .iAddi c w x => Sys2Proof.Machine.execIAddi c w x s
  | .iLih c w x => Sys2Proof.Machine.execILih c w x s
  | .iLb c w x => Sys2Proof.Machine.execILb c w x s
  | .iLbu c w x => Sys2Proof.Machine.execILbu c w x s
  | .iLh c w x => Sys2Proof.Machine.execILh c w x s
  | .iLhu c w x => Sys2Proof.Machine.execILhu c w x s
  | .iLw c w x => Sys2Proof.Machine.execILw c w x s
  | .iLwu c w x => Sys2Proof.Machine.execILwu c w x s
  | .iLdw c w x => Sys2Proof.Machine.execILdw c w x s
  | .iSb c w x => Sys2Proof.Machine.execISb c w x s
  | .iSh c w x => Sys2Proof.Machine.execISh c w x s
  | .iSw c w x => Sys2Proof.Machine.execISw c w x s
  | .iSdw c w x => Sys2Proof.Machine.execISdw c w x s
  | .iFadd c w x => Sys2Proof.Machine.execIFadd c w x s
  | .iFsub c w x => Sys2Proof.Machine.execIFsub c w x s
  | .iFmul c w x => Sys2Proof.Machine.execIFmul c w x s
  | .iFdiv c w x => Sys2Proof.Machine.execIFdiv c w x s
  | .iFsqrt c w x => Sys2Proof.Machine.execIFsqrt c w x s
  | .iFmin c w x => Sys2Proof.Machine.execIFmin c w x s
  | .iFmax c w x => Sys2Proof.Machine.execIFmax c w x s
  | .iFabs c w x => Sys2Proof.Machine.execIFabs c w x s
  | .iFneg c w x => Sys2Proof.Machine.execIFneg c w x s
  | .iFmov c w x => Sys2Proof.Machine.execIFmov c w x s
  | .iFcmp c w x => Sys2Proof.Machine.execIFcmp c w x s
  | .iFsel c w x => Sys2Proof.Machine.execIFsel c w x s
  | .iFmadd c w x => Sys2Proof.Machine.execIFmadd c w x s
  | .iFmsub c w x => Sys2Proof.Machine.execIFmsub c w x s
  | .iFnmadd c w x => Sys2Proof.Machine.execIFnmadd c w x s
  | .iFcvti c w x => Sys2Proof.Machine.execIFcvti c w x s
  | .iFcvtu c w x => Sys2Proof.Machine.execIFcvtu c w x s
  | .iIcvtf c w x => Sys2Proof.Machine.execIIcvtf c w x s
  | .iUcvtf c w x => Sys2Proof.Machine.execIUcvtf c w x s
  | .iFmvg c w x => Sys2Proof.Machine.execIFmvg c w x s
  | .iGmvf c w x => Sys2Proof.Machine.execIGmvf c w x s
  | .iFclass c w x => Sys2Proof.Machine.execIFclass c w x s
  | .iFrnd c w x => Sys2Proof.Machine.execIFrnd c w x s
  | .iFld c w x => Sys2Proof.Machine.execIFld c w x s
  | .iFst c w x => Sys2Proof.Machine.execIFst c w x s
  | .iPld c w x => Sys2Proof.Machine.execIPld c w x s
  | .iPldf c w x => Sys2Proof.Machine.execIPldf c w x s
  | .iPlds c w x => Sys2Proof.Machine.execIPlds c w x s
  | .iPldt c w x => Sys2Proof.Machine.execIPldt c w x s
  | .iPldq c w x => Sys2Proof.Machine.execIPldq c w x s
  | .iPldb c w x => Sys2Proof.Machine.execIPldb c w x s
  | .iPst c w x => Sys2Proof.Machine.execIPst c w x s
  | .iPstf c w x => Sys2Proof.Machine.execIPstf c w x s
  | .iPstb c w x => Sys2Proof.Machine.execIPstb c w x s
  | .iPclrchg c w x => Sys2Proof.Machine.execIPclrchg c w x s
  | .iPlwa c w x => Sys2Proof.Machine.execIPlwa c w x s
  | .iPswa c w x => Sys2Proof.Machine.execIPswa c w x s
  | .iPlba c w x => Sys2Proof.Machine.execIPlba c w x s
  | .iPsba c w x => Sys2Proof.Machine.execIPsba c w x s
  | .iPlwb c w x => Sys2Proof.Machine.execIPlwb c w x s
  | .iPswb c w x => Sys2Proof.Machine.execIPswb c w x s
  | .iPpld c w x => Sys2Proof.Machine.execIPpld c w x s
  | .iPpldf c w x => Sys2Proof.Machine.execIPpldf c w x s
  | .iPpst c w x => Sys2Proof.Machine.execIPpst c w x s
  | .iPpstf c w x => Sys2Proof.Machine.execIPpstf c w x s
  | .iMpld c w x => Sys2Proof.Machine.execIMpld c w x s
  | .iMpldf c w x => Sys2Proof.Machine.execIMpldf c w x s
  | .iMpst c w x => Sys2Proof.Machine.execIMpst c w x s
  | .iMpstf c w x => Sys2Proof.Machine.execIMpstf c w x s
  | .iPmov c w x => Sys2Proof.Machine.execIPmov c w x s
  | .iPmovf c w x => Sys2Proof.Machine.execIPmovf c w x s
  | .iPcpl c w x => Sys2Proof.Machine.execIPcpl c w x s
  | .iPcplf c w x => Sys2Proof.Machine.execIPcplf c w x s
  | .iPtst c w x => Sys2Proof.Machine.execIPtst c w x s
  | .iTon c w x => Sys2Proof.Machine.execITon c w x s
  | .iTof c w x => Sys2Proof.Machine.execITof c w x s
  | .iTp c w x => Sys2Proof.Machine.execITp c w x s
  | .iTpre c w x => Sys2Proof.Machine.execITpre c w x s
  | .iTrd c w x => Sys2Proof.Machine.execITrd c w x s
  | .iTrst c w x => Sys2Proof.Machine.execITrst c w x s
  | .iTstat c w x => Sys2Proof.Machine.execITstat c w x s
  | .iEdgr c w x => Sys2Proof.Machine.execIEdgr c w x s
  | .iEdgf c w x => Sys2Proof.Machine.execIEdgf c w x s
  | .iEdgb c w x => Sys2Proof.Machine.execIEdgb c w x s
  | .iCsrr c w x => Sys2Proof.Machine.execICsrr c w x s
  | .iCsrw c w x => Sys2Proof.Machine.execICsrw c w x s
  | .iMfs c w x => Sys2Proof.Machine.execIMfs c w x s
  | .iMts c w x => Sys2Proof.Machine.execIMts c w x s
  | .iEnd c w x => Sys2Proof.Machine.execIEnd c w x s
  | .iSkip c w x => Sys2Proof.Machine.execISkip c w x s
  | .iRetry c w x => Sys2Proof.Machine.execIRetry c w x s
  | .iAbandon c w x => Sys2Proof.Machine.execIAbandon c w x s
  | .iFence c w x => Sys2Proof.Machine.execIFence c w x s
  | .iNop c w x => Sys2Proof.Machine.execINop c w x s
  | .taskRelease t => Sys2Proof.Machine.execTaskRelease t s
  | .snapshotDone t => Sys2Proof.Machine.execSnapshotDone t s
  | .taskDispatch c => Sys2Proof.Machine.execTaskDispatch c s
  | .handoffDone t => Sys2Proof.Machine.execHandoffDone t s
  | .scanStart t => Sys2Proof.Machine.execScanStart t s
  | .scanStop t => Sys2Proof.Machine.execScanStop t s
  | .resetFault t => Sys2Proof.Machine.execResetFault t s
  | .scanTsMaxClear t v => Sys2Proof.Machine.execScanTsMaxClear t v s
  | .outputLifetimeExpiry n group => Sys2Proof.Machine.execOutputLifetimeExpiry n group s
  | .colSwapSwitch t => Sys2Proof.Machine.execColSwapSwitch t s
  | .standbySwapVerdict pass => Sys2Proof.Machine.execStandbySwapVerdict pass s
  | .swapVerdictTimeout => Sys2Proof.Machine.execSwapVerdictTimeout s
  | .cadenceTick => Sys2Proof.Machine.execCadenceTick s
  | .launch => Sys2Proof.Machine.execLaunch s
  | .cancel => Sys2Proof.Machine.execCancel s
  | .ucallPlanLaunch c w x => Sys2Proof.Machine.execUcallPlanLaunch c w x s
  | .ucallPlanCancel c w x => Sys2Proof.Machine.execUcallPlanCancel c w x s
  | .assemblyDone => Sys2Proof.Machine.execAssemblyDone s
  | .symbolicAnalysisDone => Sys2Proof.Machine.execSymbolicAnalysisDone s
  | .solverIteration => Sys2Proof.Machine.execSolverIteration s
  | .roundDeadline factoring => Sys2Proof.Machine.execRoundDeadline factoring s
  | .planExpired => Sys2Proof.Machine.execPlanExpired s
  | .scratchEccError => Sys2Proof.Machine.execScratchEccError s
  | .tieMessage f => Sys2Proof.Machine.execTieMessage f s
  | .coordWaitExpiry => Sys2Proof.Machine.execCoordWaitExpiry s
  | .governorEvaluation t mw => Sys2Proof.Machine.execGovernorEvaluation t mw s
  | .thermalTrip => Sys2Proof.Machine.execThermalTrip s
  | .targetChangeDone => Sys2Proof.Machine.execTargetChangeDone s
  | .domainReady d => Sys2Proof.Machine.execDomainReady d s
  | .domainIdleGate d => Sys2Proof.Machine.execDomainIdleGate d s
  | .scanClockRelock k => Sys2Proof.Machine.execScanClockRelock k s
  | .vcoreSettle => Sys2Proof.Machine.execVcoreSettle s
  | .ucallRidgeSubmit c w x => Sys2Proof.Machine.execUcallRidgeSubmit c w x s
  | .ucallRidgeRelease c w x => Sys2Proof.Machine.execUcallRidgeRelease c w x s
  | .jobReleaseTimeout c cls => Sys2Proof.Machine.execJobReleaseTimeout c cls s
  | .wakePin => Sys2Proof.Machine.execWakePin s
  | .dayStart z => Sys2Proof.Machine.execDayStart z s
  | .zoneEvaluation z => Sys2Proof.Machine.execZoneEvaluation z s
  | .lampSubmit mask curve => Sys2Proof.Machine.execLampSubmit mask curve s
  | .ucallLampSubmit c w x => Sys2Proof.Machine.execUcallLampSubmit c w x s
  | .frameCommit => Sys2Proof.Machine.execFrameCommit s
  | .frameRetry h => Sys2Proof.Machine.execFrameRetry h s
  | .lateWindowExpiry h => Sys2Proof.Machine.execLateWindowExpiry h s
  | .ack f => Sys2Proof.Machine.execAck f s
  | .report f => Sys2Proof.Machine.execReport f s
  | .reportProcess => Sys2Proof.Machine.execReportProcess s
  | .fixtureSilent a => Sys2Proof.Machine.execFixtureSilent a s
  | .fwGo key group => Sys2Proof.Machine.execFwGo key group s
  | .fwAbort => Sys2Proof.Machine.execFwAbort s
  | .fwBurstRetry => Sys2Proof.Machine.execFwBurstRetry s
  | .fwMissing f => Sys2Proof.Machine.execFwMissing f s
  | .fwCampaignStep => Sys2Proof.Machine.execFwCampaignStep s
  | .loopSample n => Sys2Proof.Machine.execLoopSample n s
  | .loopSwapGo at_ => Sys2Proof.Machine.execLoopSwapGo at_ s
  | .bankSingleWrite r n w v => Sys2Proof.Machine.execBankSingleWrite r n w v s
  | .loopModeWrite n manual => Sys2Proof.Machine.execLoopModeWrite n manual s
  | .loopReset n => Sys2Proof.Machine.execLoopReset n s
  | .testGo g => Sys2Proof.Machine.execTestGo g s
  | .testAbort g => Sys2Proof.Machine.execTestAbort g s
  | .captureArm => Sys2Proof.Machine.execCaptureArm s
  | .captureStop => Sys2Proof.Machine.execCaptureStop s
  | .modFault c => Sys2Proof.Machine.execModFault c s
  | .rmsWindowEnd p rms pqs freq => Sys2Proof.Machine.execRmsWindowEnd p rms pqs freq s
  | .halfCycleRefresh p v => Sys2Proof.Machine.execHalfCycleRefresh p v s
  | .pulseEdge p level t => Sys2Proof.Machine.execPulseEdge p level t s
  | .residueUpdate l ovr => Sys2Proof.Machine.execResidueUpdate l ovr s
  | .intervalClose l peaks => Sys2Proof.Machine.execIntervalClose l peaks s
  | .totalFold => Sys2Proof.Machine.execTotalFold s
  | .flushRecovery => Sys2Proof.Machine.execFlushRecovery s
  | .lostMarkerClear v => Sys2Proof.Machine.execLostMarkerClear v s
  | .ioReport f => Sys2Proof.Machine.execIoReport f s
  | .ioAck f => Sys2Proof.Machine.execIoAck f s
  | .hello f => Sys2Proof.Machine.execHello f s
  | .quenchAck f => Sys2Proof.Machine.execQuenchAck f s
  | .lgRead f => Sys2Proof.Machine.execLgRead f s
  | .lgWrite f => Sys2Proof.Machine.execLgWrite f s
  | .lgResp f => Sys2Proof.Machine.execLgResp f s
  | .lgSubscribe f => Sys2Proof.Machine.execLgSubscribe f s
  | .lgUpdate f => Sys2Proof.Machine.execLgUpdate f s
  | .lgAnnounce f => Sys2Proof.Machine.execLgAnnounce f s
  | .timeBeacon f => Sys2Proof.Machine.execTimeBeacon f s
  | .unknownFrameType type => Sys2Proof.Machine.execUnknownFrameType type s
  | .txnSend => Sys2Proof.Machine.execTxnSend s
  | .txnTimeout n seq => Sys2Proof.Machine.execTxnTimeout n seq s
  | .txnDeadline n => Sys2Proof.Machine.execTxnDeadline n s
  | .stationDown n => Sys2Proof.Machine.execStationDown n s
  | .subscribeRefresh route => Sys2Proof.Machine.execSubscribeRefresh route s
  | .subscriptionExpiry => Sys2Proof.Machine.execSubscriptionExpiry s
  | .quenchGo ack => Sys2Proof.Machine.execQuenchGo ack s
  | .ucallQuench c w x => Sys2Proof.Machine.execUcallQuench c w x s
  | .quenchEnd n => Sys2Proof.Machine.execQuenchEnd n s
  | .pfcRepeat k deep => Sys2Proof.Machine.execPfcRepeat k deep s
  | .pfcFrame u vec quanta => Sys2Proof.Machine.execPfcFrame u vec quanta s
  | .pauseFrame u => Sys2Proof.Machine.execPauseFrame u s
  | .announce a => Sys2Proof.Machine.execAnnounce a s
  | .sync u ident sec ns rx => Sys2Proof.Machine.execSync u ident sec ns rx s
  | .announceTimeout => Sys2Proof.Machine.execAnnounceTimeout s
  | .holdoverExpiry => Sys2Proof.Machine.execHoldoverExpiry s
  | .timeSet r v => Sys2Proof.Machine.execTimeSet r v s
  | .leagueAnnounceSend => Sys2Proof.Machine.execLeagueAnnounceSend s
  | .peerLost p => Sys2Proof.Machine.execPeerLost p s
  | .arpRequest u tags addr => Sys2Proof.Machine.execArpRequest u tags addr s
  | .neighborSolicitation u tags addr => Sys2Proof.Machine.execNeighborSolicitation u tags addr s
  | .echoRequest u tags v6 addr src body => Sys2Proof.Machine.execEchoRequest u tags v6 addr src body s
  | .neighborResolveRetry answered => Sys2Proof.Machine.execNeighborResolveRetry answered s
  | .linkState port up speed width => Sys2Proof.Machine.execLinkState port up speed width s
  | .pcieLinkDown => Sys2Proof.Machine.execPcieLinkDown s
  | .pcieReset low => Sys2Proof.Machine.execPcieReset low s
  | .uartRead a => Sys2Proof.Machine.execUartRead a s
  | .uartWrite a v => Sys2Proof.Machine.execUartWrite a v s
  | .uartIdleReset => Sys2Proof.Machine.execUartIdleReset s
  | .plcaCycle g rx => Sys2Proof.Machine.execPlcaCycle g rx s
  | .timeBeaconSend code => Sys2Proof.Machine.execTimeBeaconSend code s
  | .plcBeaconSend i1 => Sys2Proof.Machine.execPlcBeaconSend i1 s
  | .plcJoin i1 eui pass hop => Sys2Proof.Machine.execPlcJoin i1 eui pass hop s
  | .coordConflict g => Sys2Proof.Machine.execCoordConflict g s
  | .rxJabber g => Sys2Proof.Machine.execRxJabber g s
  | .localCollision g k => Sys2Proof.Machine.execLocalCollision g k s
  | .segmentSilent g => Sys2Proof.Machine.execSegmentSilent g s
  | .afeFault i1 => Sys2Proof.Machine.execAfeFault i1 s
  | .panConflict i1 => Sys2Proof.Machine.execPanConflict i1 s
  | .qclr g => Sys2Proof.Machine.execQclr g s
  | .portListenEnd code => Sys2Proof.Machine.execPortListenEnd code s
  | .canFrameReceive n f => Sys2Proof.Machine.execCanFrameReceive n f s
  | .canSegmentReceive n f occ deep => Sys2Proof.Machine.execCanSegmentReceive n f occ deep s
  | .reassemblyTimeout n => Sys2Proof.Machine.execReassemblyTimeout n s
  | .txbReq n b => Sys2Proof.Machine.execTxbReq n b s
  | .txbAbort n b => Sys2Proof.Machine.execTxbAbort n b s
  | .canTxComplete n how => Sys2Proof.Machine.execCanTxComplete n how s
  | .canBusError n code data how => Sys2Proof.Machine.execCanBusError n code data how s
  | .recover n => Sys2Proof.Machine.execRecover n s
  | .busRecovered n => Sys2Proof.Machine.execBusRecovered n s
  | .ctrlFrame m => Sys2Proof.Machine.execCtrlFrame m s
  | .pairingRetry => Sys2Proof.Machine.execPairingRetry s
  | .pairingTimeout hb => Sys2Proof.Machine.execPairingTimeout hb s
  | .timeFrame t trusted locked utc rtt => Sys2Proof.Machine.execTimeFrame t trusted locked utc rtt s
  | .commitFrame k m => Sys2Proof.Machine.execCommitFrame k m s
  | .frameFrame f => Sys2Proof.Machine.execFrameFrame f s
  | .imageFrame m => Sys2Proof.Machine.execImageFrame m s
  | .deltaFrame m => Sys2Proof.Machine.execDeltaFrame m s
  | .loopFrame m => Sys2Proof.Machine.execLoopFrame m s
  | .pointFrame i1 r => Sys2Proof.Machine.execPointFrame i1 r s
  | .panFrame i1 joined routes seq gmk => Sys2Proof.Machine.execPanFrame i1 joined routes seq gmk s
  | .bulkFrame m => Sys2Proof.Machine.execBulkFrame m s
  | .echoExecution t => Sys2Proof.Machine.execEchoExecution t s
  | .laneDown lane => Sys2Proof.Machine.execLaneDown lane s
  | .backlog kib late => Sys2Proof.Machine.execBacklog kib late s
  | .heartbeatLoss => Sys2Proof.Machine.execHeartbeatLoss s
  | .takeover hb => Sys2Proof.Machine.execTakeover hb s
  | .switch => Sys2Proof.Machine.execSwitch s
  | .switchInstant => Sys2Proof.Machine.execSwitchInstant s
  | .take hb => Sys2Proof.Machine.execTake hb s
  | .leave => Sys2Proof.Machine.execLeave s
  | .resync => Sys2Proof.Machine.execResync s
  | .resyncDone => Sys2Proof.Machine.execResyncDone s
  | .healthReport ecc => Sys2Proof.Machine.execHealthReport ecc s
  | .selfTest pass => Sys2Proof.Machine.execSelfTest pass s
  | .guardEvaluation samples rb => Sys2Proof.Machine.execGuardEvaluation samples rb s
  | .discrepancyTimeout i1 => Sys2Proof.Machine.execDiscrepancyTimeout i1 s
  | .coreLinkFrame => Sys2Proof.Machine.execCoreLinkFrame s
  | .linkFrameReceive permits requests seq ok => Sys2Proof.Machine.execLinkFrameReceive permits requests seq ok s
  | .guardLinkTimeout => Sys2Proof.Machine.execGuardLinkTimeout s
  | .lockstepMismatch => Sys2Proof.Machine.execLockstepMismatch s
  | .disagreeTimeout o => Sys2Proof.Machine.execDisagreeTimeout o s
  | .offPulse o ok => Sys2Proof.Machine.execOffPulse o ok s
  | .readbackFault o => Sys2Proof.Machine.execReadbackFault o s
  | .tableState agree => Sys2Proof.Machine.execTableState agree s
  | .guardSupplyReturn => Sys2Proof.Machine.execGuardSupplyReturn s
  | .keeperSupplySwitch mv held => Sys2Proof.Machine.execKeeperSupplySwitch mv held s
  | .vbatMeasure v => Sys2Proof.Machine.execVbatMeasure v s
  | .backupLossLatch => Sys2Proof.Machine.execBackupLossLatch s
  | .mainSupplyValid => Sys2Proof.Machine.execMainSupplyValid s
  | .regSequenceStep => Sys2Proof.Machine.execRegSequenceStep s
  | .regPgTimeout => Sys2Proof.Machine.execRegPgTimeout s
  | .pd2Start => Sys2Proof.Machine.execPd2Start s
  | .powerFailWarning => Sys2Proof.Machine.execPowerFailWarning s
  | .regPgFail => Sys2Proof.Machine.execRegPgFail s
  | .panelLineBoundary => Sys2Proof.Machine.execPanelLineBoundary s
  | .rtcSet r v => Sys2Proof.Machine.execRtcSet r v s
  | .oscStop => Sys2Proof.Machine.execOscStop s
  | .rtcCompensate t => Sys2Proof.Machine.execRtcCompensate t s
  | .rtcFollow => Sys2Proof.Machine.execRtcFollow s
  | .tscapGo => Sys2Proof.Machine.execTscapGo s
  | .dstChange => Sys2Proof.Machine.execDstChange s
  | .alarm a => Sys2Proof.Machine.execAlarm a s
  | .alarmWrite a time v => Sys2Proof.Machine.execAlarmWrite a time v s
  | .vaultSubmit r v => Sys2Proof.Machine.execVaultSubmit r v s
  | .ucallVaultSubmit c w x => Sys2Proof.Machine.execUcallVaultSubmit c w x s
  | .vaultGcmEnc => Sys2Proof.Machine.execVaultGcmEnc s
  | .vaultGcmDec => Sys2Proof.Machine.execVaultGcmDec s
  | .vaultCtr => Sys2Proof.Machine.execVaultCtr s
  | .vaultMac => Sys2Proof.Machine.execVaultMac s
  | .vaultMacCheck => Sys2Proof.Machine.execVaultMacCheck s
  | .vaultHash => Sys2Proof.Machine.execVaultHash s
  | .vaultSign => Sys2Proof.Machine.execVaultSign s
  | .vaultVerify => Sys2Proof.Machine.execVaultVerify s
  | .vaultHkdf => Sys2Proof.Machine.execVaultHkdf s
  | .vaultKdf108 => Sys2Proof.Machine.execVaultKdf108 s
  | .vaultWrap => Sys2Proof.Machine.execVaultWrap s
  | .vaultUnwrap => Sys2Proof.Machine.execVaultUnwrap s
  | .vaultGenerate healthy => Sys2Proof.Machine.execVaultGenerate healthy s
  | .vaultClear => Sys2Proof.Machine.execVaultClear s
  | .vaultRandom healthy => Sys2Proof.Machine.execVaultRandom healthy s
  | .vaultPubkey => Sys2Proof.Machine.execVaultPubkey s
  | .vaultAttest => Sys2Proof.Machine.execVaultAttest s
  | .vreset => Sys2Proof.Machine.execVreset s
  | .remask => Sys2Proof.Machine.execRemask s
  | .otpProgram r f => Sys2Proof.Machine.execOtpProgram r f s
  | .otpProgrammed => Sys2Proof.Machine.execOtpProgrammed s
  | .debugChal r => Sys2Proof.Machine.execDebugChal r s
  | .debugOpen r => Sys2Proof.Machine.execDebugOpen r s
  | .debugClose => Sys2Proof.Machine.execDebugClose s
  | .panelUpdate w => Sys2Proof.Machine.execPanelUpdate w s
  | .panelLine => Sys2Proof.Machine.execPanelLine s
  | .panelCrack => Sys2Proof.Machine.execPanelCrack s
  | .markClr => Sys2Proof.Machine.execMarkClr s
  | .crkClr edges => Sys2Proof.Machine.execCrkClr edges s
  | .dramWindowAccess r off v => Sys2Proof.Machine.execDramWindowAccess r off v s
  | .ucall c w x => Sys2Proof.Machine.execUcall c w x s
  | .dramReady => Sys2Proof.Machine.execDramReady s
  | .modFaultCleared c => Sys2Proof.Machine.execModFaultCleared c s
  | .busIntegration n exception => Sys2Proof.Machine.execBusIntegration n exception s
  | .afeFaultRelease i1 => Sys2Proof.Machine.execAfeFaultRelease i1 s
  | .laneUp lane => Sys2Proof.Machine.execLaneUp lane s
  | .healthReportMissing => Sys2Proof.Machine.execHealthReportMissing s
  | .saddleCrcError => Sys2Proof.Machine.execSaddleCrcError s
  | .guardSupplyLoss => Sys2Proof.Machine.execGuardSupplyLoss s
  | .timeFrameTimeout => Sys2Proof.Machine.execTimeFrameTimeout s
  | .leapSecond => Sys2Proof.Machine.execLeapSecond s
  | .regPgDrop => Sys2Proof.Machine.execRegPgDrop s
  | .uartBadRequest => Sys2Proof.Machine.execUartBadRequest s
  | .syncSend u => Sys2Proof.Machine.execSyncSend u s
  | .announceSend u => Sys2Proof.Machine.execAnnounceSend u s
  | .delayResp u d => Sys2Proof.Machine.execDelayResp u d s
  | .delayReq u seq rx => Sys2Proof.Machine.execDelayReq u seq rx s
  | .arqGiveUp i1 => Sys2Proof.Machine.execArqGiveUp i1 s

end Sys2Proof.Machine
end

