-- ==== Sys2Proof/Machine/Step.lean ====
section
/-! DEFINITION. One step of the block: the command at the front of the queue, or a clock edge where none waits. -/

namespace Sys2Proof.Machine

open Sys2Proof

/-- One step: the front command acts on the chip, the rest of the queue stays; with no command waiting the block takes a clock edge. -/
def step (s : State) : Host.Outcome State Fault Refusal :=
  match s.pending with
  | c :: rest => exec c { s with pending := rest }
  | [] => .next { s with chip := s.chip.tick }

/-- The state with the command that a table word spells at the front of its queue; the table gives no row bits, so none does. -/
def State.withFetchWord (s : State) (nbits w : Nat) : State :=
  match decodeTableWord nbits w with
  | some c => { s with pending := c :: s.pending }
  | none => s

end Sys2Proof.Machine
end

