-- ==== Sys2Proof/Safety.lean ====
section
/-! DEFINITION. What a safe run is, and the words in which claims are stated: that a command completes, that a core issues an instruction, what an
instruction leaves, what a command leaves alone. -/

namespace Sys2Proof

/-! ### Kinds of commands -/

/-- The commands that act while PD2 is off: those of the keeper die and of the guard die, and what starts or stops PD2. Every other command acts on PD2 to PD15
alone (R415). -/
def Instr.offline : Instr → Bool
  | .alarm _ => true
  | .backupLossLatch => true
  | .disagreeTimeout _ => true
  | .discrepancyTimeout _ => true
  | .dstChange => true
  | .guardEvaluation _ _ => true
  | .guardLinkTimeout => true
  | .guardSupplyLoss => true
  | .guardSupplyReturn => true
  | .keeperSupplySwitch _ _ => true
  | .leapSecond => true
  | .linkFrameReceive _ _ _ _ => true
  | .mainSupplyValid => true
  | .offPulse _ _ => true
  | .oscStop => true
  | .panelLineBoundary => true
  | .pd2Start => true
  | .powerFailWarning => true
  | .readbackFault _ => true
  | .regPgDrop => true
  | .regPgFail => true
  | .regPgTimeout => true
  | .regSequenceStep => true
  | .rtcCompensate _ => true
  | .vbatMeasure _ => true
  | .wakePin => true
  | _ => false

/-- The commands that put the guard die into guard reset or take its supply (R393, R475). -/
def Instr.resetsGuard : Instr → Bool
  | .pd2Start => true
  | .guardSupplyLoss => true
  | .guardSupplyReturn => true
  | _ => false

/-- The commands that reach the guard die: its own (chapter 19), the edge on which a commit or its replica applies (R396), and the start of PD2 (R393). -/
def Instr.reachesGuard : Instr → Bool
  | .commitApply _ => true
  | .commitFrame _ _ => true
  | .coreLinkFrame => true
  | .disagreeTimeout _ => true
  | .discrepancyTimeout _ => true
  | .guardEvaluation _ _ => true
  | .guardLinkTimeout => true
  | .guardSupplyLoss => true
  | .guardSupplyReturn => true
  | .linkFrameReceive _ _ _ _ => true
  | .lockstepMismatch => true
  | .offPulse _ _ => true
  | .pd2Start => true
  | .readbackFault _ => true
  | .tableState _ => true
  | _ => false

end Sys2Proof

namespace Sys2Proof.Machine

open Sys2Proof

/-- A state from which n steps meet no fault and no refusal. -/
def SafeFor : Nat → State → Prop
  | 0, _ => True
  | n + 1, s => ∃ t, step s = .next t ∧ SafeFor n t

/-- Command c completes in state s: it answers a next state in which the queue stands as it stood and the chip satisfies p. -/
def Does (c : Instr) (s : State) (p : Chip → Prop) : Prop := ∃ m, exec c s = .next ⟨s.pending, m⟩ ∧ p m

/-- Command c completes in state s and leaves the chip n. -/
def Gives (c : Instr) (s : State) (n : Chip) : Prop := exec c s = .next ⟨s.pending, n⟩

/-! ### Frames -/

/-- Chip n differs from chip m in the registers at the addresses of l only. -/
def OnlyRegs (l : List Nat) (m n : Chip) : Prop := n = { m with regs := n.regs } ∧ ∀ a, a ∉ l → n.reg a = m.reg a

/-- Every byte of every memory reads as before. -/
def SameBytes (m n : Chip) : Prop := ∀ sp i, n.byte sp i = m.byte sp i

/-- Every register outside l, and outside the event rings, reads as before. -/
def SameRegs (l : List Nat) (m n : Chip) : Prop := ∀ a, a ∉ l → ¬ (0x1000 ≤ a ∧ a < 0x1200) → n.reg a = m.reg a

/-! ### Instructions of a Wasa core -/

/-- Core c is ready to issue an instruction: PD2 is on, a program runs on the core, its clock runs, its cycle has budget left, and its PC lies in the code. -/
structure Ready (s : State) (c : Fin 36) : Prop where
  on : s.chip.pd2 = true
  runs : (s.chip.core c.val).level.isSome = true
  clock : s.chip.coreRuns c.val = true
  budget : (s.chip.core c.val).isTask = true → (s.chip.core c.val).budget ≠ 0
  code : (s.chip.core c.val).pc.toNat < (s.chip.core c.val).img.codeSize

/-- Core c issues an instruction: it is ready, and no word of its program's memory has a bit error (R88). -/
structure Issues (s : State) (c : Fin 36) : Prop extends Ready s c where
  sound : ∀ u ∈ s.chip.scan.upsets, u.key ≠ (s.chip.core c.val).dataKey c.val

/-- A form of instruction (R85, R109, R115, Table 4-11): whether forerunner programs may use it, whether it has a long form, the bits that must be zero in the
word of the short form, in the word of the long form and in its extension word, and the issue clocks. -/
structure Form where
  fmode : Bool := false
  long : Bool := false
  zs : Nat := 0
  zl : Nat := 0
  zx : Nat := 0
  clocks : Nat := 1

/-- The words are of the form, and the core's program may use it. -/
structure Allowed (f : Form) (k : Core) (w : Word) (x : Option Word) : Prop where
  format : k.img.fmode = true → f.fmode = true
  form : xBit w = true → f.long = true
  word : w.toNat &&& (if xBit w then f.zl else f.zs) = 0
  ext : xBit w = true → (x.getD 0).toNat &&& f.zx = 0

/-- The core once the instruction has issued and n clocks have passed: the PC stands behind the instruction. -/
def Core.issued (k : Core) (w : Word) (n : Nat) : Core :=
  { k with pc := k.pc + (if xBit w then 8 else 4), cycle := k.cycle + BitVec.ofNat 64 n, budget := k.budget - n, suppress := false }

/-- Where a region of a core's program starts in its data memory, in the numbering of `Image.region`. -/
def Core.regionAt (k : Core) (r : Nat) : Nat := ((k.img.region k.isTask r).getD (0, 0)).1

/-- The chip as an instruction finds it once its clocks have passed: the count of free values has advanced (notes/assumptions/1.md). -/
def Chip.clocked (m : Chip) : Chip := m.withClk { m.clk with free := m.clk.free + 1 }

/-- The instruction at the PC of core c, with its words. -/
def State.op (s : State) (c : Fin 36) (w : Word) (x : Option Word) : Op := (s.chip.core c.val).op c.val w x

/-- What an instruction leaves that changes its own core only: the core is `k`; every other core, every register of the control space and every byte of memory
are as before. -/
structure LeavesCore (s : State) (c : Fin 36) (k : Core) (m : Chip) : Prop where
  core : m.core c.val = k
  others : ∀ j, j ≠ c.val → m.core j = s.chip.core j
  regs : ∀ a, m.reg a = s.chip.reg a
  bytes : SameBytes s.chip m

/-- What an instruction leaves that stores bytes from address a of its DATA or STAT on: those bytes, in order, are `l`; every other byte, every other core and
every register are as before; the core is `k`. -/
structure LeavesStore (s : State) (c : Fin 36) (sp : Space) (a : Nat) (l : List Byte) (k : Core) (m : Chip) : Prop where
  core : m.core c.val = k
  others : ∀ j, j ≠ c.val → m.core j = s.chip.core j
  regs : ∀ b, m.reg b = s.chip.reg b
  stored : m.bytes sp a l.length = l
  bytes : ∀ sq j, (∀ i, i < l.length → sq.key j ≠ sp.key (a + i)) → m.byte sq j = s.chip.byte sq j

/-- Instructions `i` of a form complete wherever `pre` holds of the chip, the operands and the core, and change their own core alone, to `g` of the core once
issued. The PC stands behind the instruction unless `g` moves it; at least the form's clocks pass, one more for a long form. -/
def Computes (f : Form) (i : Fin 36 → Word → Option Word → Instr) (pre : Chip → Op → Core → Prop) (g : Chip → Op → Core → Core) : Prop :=
  ∀ c w x s, Issues s c → Allowed f (s.chip.core c.val) w x → pre s.chip (s.op c w x) (s.chip.core c.val) →
    ∃ n, f.clocks + bit (xBit w) ≤ n ∧
      Does (i c w x) s (LeavesCore s c (g s.chip (s.op c w x) ((s.chip.core c.val).issued w n)))

/-- Instructions `i` of a form complete wherever `pre` holds, and store the bytes `l` at offset `a` of the program's data memory. -/
def Stores (f : Form) (i : Fin 36 → Word → Option Word → Instr) (pre : Chip → Op → Core → Prop) (a : Op → Core → Nat)
    (l : Chip → Op → Core → List Byte) (g : Chip → Op → Core → Core := fun _ _ k => k) : Prop :=
  ∀ c w x s, Issues s c → Allowed f (s.chip.core c.val) w x → pre s.chip (s.op c w x) (s.chip.core c.val) →
    ∃ n, f.clocks + bit (xBit w) ≤ n ∧
      Does (i c w x) s (LeavesStore s c (.data ((s.chip.core c.val).dataKey c.val)) (a (s.op c w x) (s.chip.core c.val))
        (l s.chip (s.op c w x) (s.chip.core c.val)) (g s.chip (s.op c w x) ((s.chip.core c.val).issued w n)))

/-- Instructions `i` of a form complete wherever `pre` holds, and leave the chip `(f …).1` with their core as `(f …).2`, from the chip once their clocks have
passed and the core once issued. -/
def Acts (f : Form) (i : Fin 36 → Word → Option Word → Instr) (pre : Chip → Op → Core → Prop) (e : Chip → Op → Core → Chip × Core) : Prop :=
  ∀ c w x s, Issues s c → Allowed f (s.chip.core c.val) w x → pre s.chip (s.op c w x) (s.chip.core c.val) →
    ∃ n, f.clocks + bit (xBit w) ≤ n ∧
      let r := e s.chip.clocked (s.op c w x) ((s.chip.core c.val).issued w n)
      Gives (i c w x) s (r.1.setCore c.val r.2)

/-- Timer instructions `i` complete for a task on each slot allocated to it (R99, R131): from the snapshot's microsecond and the slot at the run's base plus the
local index, `e` gives the slot and the core. No other slot changes. -/
def Times (i : Fin 36 → Word → Option Word → Instr) (zs : Nat) (e : Op → Core → Nat → Slot → Slot × Core) : Prop :=
  let idx := fun (o : Op) => match o.x with | some w => w.toNat % 2 ^ 13 | none => o.imm16 % 2 ^ 12
  Acts { fmode := true, long := true, zs := zs, zl := zs + 0xFFFF, zx := 0x0FFFE000, clocks := 8 } i
    (fun m o k => k.level = some .task ∧ idx o < m.get (R.SCAN_TS_SLOTS_COUNT k.prog))
    (fun m o k =>
      let n := m.get (R.SCAN_TS_SLOTS_BASE k.prog) + idx o
      (m.setSlot n (e o k (k.ltime.toNat / 1000) (m.slot n)).1, (e o k (k.ltime.toNat / 1000) (m.slot n)).2))

/-- Unit calls `i` complete above CHECK level where `pre` holds, outside an echo, with a multiple of 4 as first argument register and no NO_BUDGET answer under the
TRAP bit (R134): gd takes the code that `f` answers, and the chip is the one `f` leaves. -/
def Asks (i : Fin 36 → Word → Option Word → Instr) (pre : Chip → Op → Core → Prop) (f : Chip → Op → Core → Half × Chip) : Prop :=
  Acts { clocks := 20 } i
    (fun m o k => o.a % 4 = 0 ∧ k.level ≠ some .check ∧ k.echo = none ∧ pre m o k ∧
      ((f m.clocked o k).1 = CC.noBudget → o.w.getLsbD 15 = false))
    (fun m o k => ((f m o k).2, k.setG o.d ((f m o k).1.zeroExtend 64)))

/-! ### Commands of the main die -/

/-- Command c of the main die completes wherever PD2 is on and `pre` holds of the chip, and leaves the chip `e`. -/
def Turns (c : Instr) (pre : Chip → Prop) (e : Chip → Chip) : Prop := ∀ s, s.chip.pd2 = true → pre s.chip → Gives c s (e s.chip)

/-- Command c of the main die completes wherever PD2 is on and `pre` holds of the chip, and `p` holds of the chip before and the chip after. -/
def Shows (c : Instr) (pre : Chip → Prop) (p : Chip → Chip → Prop) : Prop := ∀ s, s.chip.pd2 = true → pre s.chip → Does c s (p s.chip)

/-- The same for a command of the keeper die, which acts with PD2 on or off. -/
def KeeperTurns (c : Instr) (pre : Chip → Prop) (e : Chip → Chip) : Prop := ∀ s, pre s.chip → Gives c s (e s.chip)
def KeeperShows (c : Instr) (pre : Chip → Prop) (p : Chip → Chip → Prop) : Prop := ∀ s, pre s.chip → Does c s (p s.chip)

end Sys2Proof.Machine
end

