-- ==== Sys2Proof/Certificates/Slice0/Obligations.lean ====
section
/-! DEFINITION. What is stated of the model, for the provers. Each statement's docstring says what it states; OBLIGATIONS.json names the rules it rests
on. The words are those of Safety.lean: `Turns` and `Shows` say that a command completes where a condition holds and what it leaves. -/

open Sys2Proof Sys2Proof.Machine

/-- Each bit-logic read on an operand bit that its program's regions hold completes: BA becomes what Table 5-2 gives of the old BA and the bit, and nothing else
of the core but PC and clocks, no other core, no register and no byte of memory changes. NOTBA, SETBA, CLRBA and, with a condition code 0 to 14, CONDBA
complete and change BA alone: to its inverse, to 1, to 0, to the condition. Condition 14 is always true, and the conditions are those of Table 5-1 over BA, Z,
N, C and V. -/
def Obligations.WasaBitReads : Prop :=
  (∀ r ∈ ([(.iLd, fun _ b => b), (.iLdn, fun _ b => !b), (.iAnd, fun a b => a && b), (.iAndn, fun a b => a && !b), (.iOr, fun a b => a || b),
       (.iOrn, fun a b => a || !b), (.iXor, fun a b => Bool.xor a b), (.iXorn, fun a b => Bool.xor a !b)] :
       List ((Fin 36 → Word → Option Word → Instr) × (Bool → Bool → Bool))),
     Computes { fmode := true, long := true, zs := 0x70000, zl := 0x7FFFF } r.1
       (fun _ o k => ∃ b, k.inBits (bits o.w.toNat 21 19) o.immZ false = .ok b)
       (fun m o k => { k with ba := r.2 k.ba (m.dataBit (k.dataKey o.c) (k.regionAt (bits o.w.toNat 21 19)) o.immZ) })) ∧
  ((∀ r ∈ ([(.iNotba, fun k => !k.ba), (.iSetba, fun _ => true), (.iClrba, fun _ => false)] :
       List ((Fin 36 → Word → Option Word → Instr) × (Core → Bool))),
     Computes { fmode := true, zs := 0x3FFFFF } r.1 (fun _ _ _ => True) (fun _ _ k => { k with ba := r.2 k })) ∧
   Computes { fmode := true, zs := 0x3FFFF0 } .iCondba (fun _ o _ => o.imm16 % 16 < 15)
     (fun _ o k => { k with ba := [k.ba, !k.ba, k.z, !k.z, k.n, !k.n, k.n || k.z, !k.n && !k.z, k.c, !k.c, k.v, !k.v,
       !k.n && !k.z && !k.v, !k.n && !k.v, true].getD (o.imm16 % 16) false }))

/-- Each bit-logic store on a writable operand bit completes: the byte that holds the bit keeps its other seven bits and the bit takes what Table 5-2 gives; with
BA 0 SETB, RSTB and TGLB change no byte. BA, MSTAT, every register, every other byte and every other core stay. -/
def Obligations.WasaBitStores : Prop :=
  (∀ r ∈ ([(.iSt, fun a _ => a), (.iStn, fun a _ => !a)] : List ((Fin 36 → Word → Option Word → Instr) × (Bool → Bool → Bool))),
    Stores { fmode := true, long := true, zs := 0x70000, zl := 0x7FFFF } r.1
      (fun _ o k => ∃ b, k.inBits (bits o.w.toNat 21 19) o.immZ true = .ok b)
      (fun o k => k.regionAt (bits o.w.toNat 21 19) + o.immZ / 8)
      (fun m o k =>
        let a := k.regionAt (bits o.w.toNat 21 19)
        let b := m.byte (.data (k.dataKey o.c)) (a + o.immZ / 8)
        [BitVec.ofNat 8 (setBits b.toNat (o.immZ % 8) (o.immZ % 8) (bit (r.2 k.ba (m.dataBit (k.dataKey o.c) a o.immZ))))])) ∧
  (∀ r ∈ ([(.iSetb, fun _ => true), (.iRstb, fun _ => false), (.iTglb, fun b => !b)] :
      List ((Fin 36 → Word → Option Word → Instr) × (Bool → Bool))),
    Stores { fmode := true, long := true, zs := 0x70000, zl := 0x7FFFF } r.1
      (fun _ o k => k.ba = true ∧ ∃ b, k.inBits (bits o.w.toNat 21 19) o.immZ true = .ok b)
      (fun o k => k.regionAt (bits o.w.toNat 21 19) + o.immZ / 8)
      (fun m o k =>
        let a := k.regionAt (bits o.w.toNat 21 19)
        let b := m.byte (.data (k.dataKey o.c)) (a + o.immZ / 8)
        [BitVec.ofNat 8 (setBits b.toNat (o.immZ % 8) (o.immZ % 8) (bit (r.2 (m.dataBit (k.dataKey o.c) a o.immZ))))]) ∧
    Computes { fmode := true, long := true, zs := 0x70000, zl := 0x7FFFF } r.1
      (fun _ o k => k.ba = false ∧ ∃ b, k.inBits (bits o.w.toNat 21 19) o.immZ true = .ok b) (fun _ _ k => k))

/-- With a target that lies in the code and names an instruction word, JMP, a taken B.cond, CALL and RET complete with the PC at the target; a taken B.cond takes
two clocks more; a B.cond whose condition is false goes on behind it; CALL writes the address of the next instruction to g[31]. Nothing else of the core but
PC and clocks, no register and no byte changes. PUSH below depth 32 puts BA on top of the branch stack and keeps BA; with an entry s on top, POP.AND, POP.OR,
POP.XOR, POP.ANDN, POP.LD and DROP take s away and set BA to s and BA, s or BA, s xor BA, s and not BA, s, and BA itself. MSTAT's flags, the other registers
of the core, every register and every byte stay. -/
def Obligations.WasaBranches : Prop :=
  (let good := fun (k : Core) (t : Int) => 0 ≤ t ∧ t < k.img.codeSize ∧ k.img.isInstr t.toNat = true
   let dest := fun (k : Core) (t : Int) => { k with pc := BitVec.ofNat 32 t.toNat }
   Computes { fmode := true, clocks := 3 } .iJmp (fun _ o k => good k (o.pc.toNat + 4 * (o.w.extractLsb' 0 26).toInt))
     (fun _ o k => dest k (o.pc.toNat + 4 * (o.w.extractLsb' 0 26).toInt)) ∧
   Computes { fmode := true, long := true, zl := 0xFFFF } .iBCond
     (fun _ o k => bits o.w.toNat 25 16 ≤ 14 ∧ (k.cond (bits o.w.toNat 25 16) = true → good k (o.pc.toNat + 4 * o.immS.toInt)))
     (fun _ o k => if k.cond (bits o.w.toNat 25 16) then
       dest { k with cycle := k.cycle + 2, budget := k.budget - 2 } (o.pc.toNat + 4 * o.immS.toInt) else k) ∧
   Computes { fmode := true, long := true, zl := 0xFFFF, clocks := 3 } .iCall (fun _ o k => good k (o.pc.toNat + 4 * o.immS.toInt))
     (fun _ o k => (dest k (o.pc.toNat + 4 * o.immS.toInt)).setG 31 (k.pc.zeroExtend 64)) ∧
   Computes { fmode := true, zs := 0xFFFF, clocks := 3 } .iRet (fun _ _ k => (k.gr 31).toNat % 4 = 0 ∧ good k (k.gr 31).toNat)
     (fun _ _ k => dest k (k.gr 31).toNat)) ∧
  (Computes { fmode := true, zs := 0xFFFF } .iPush (fun _ _ k => k.bs.length < 32) (fun _ _ k => { k with bs := k.ba :: k.bs }) ∧
   ∀ r ∈ ([(.iPopAnd, fun s a => s && a), (.iPopOr, fun s a => s || a), (.iPopXor, fun s a => Bool.xor s a), (.iPopAndn, fun s a => s && !a),
       (.iPopLd, fun s _ => s), (.iDrop, fun _ a => a)] : List ((Fin 36 → Word → Option Word → Instr) × (Bool → Bool → Bool))),
     Computes { fmode := true, zs := 0xFFFF } r.1 (fun _ _ k => k.bs ≠ []) (fun _ _ k => { k with ba := r.2 (k.bs.headD false) k.ba, bs := k.bs.tail }))

/-- Every word-logic instruction completes on every operand. An operation of WA and WB puts its result in WA with the flags of R116 (an exact sum, difference or
product outside 64 bits sets V; a division by 0 gives quotient 0, remainder WA and IDZ); WCMP sets the flags of the comparison and BA to the condition; WLI,
WSWAP, WMOVG, GMOVW and WCOPY move words and leave MSTAT. Nothing else of the core, no register and no byte changes. CMP and TST set the flags alone; SEL,
MOV, SETC (condition 0 to 14), ADDI and LIH write gd and leave MSTAT; NOT and NEG write gd and the flags of their code; each completes on every operand and
changes nothing else of the core but PC and clocks, no register and no byte. -/
def Obligations.WasaWordLogicAndMoves : Prop :=
  ((∀ r ∈ ([(.iWadd, 1, intAdd), (.iWsub, 1, intSub), (.iWmul, 1, intMul), (.iWdiv, 34, intDiv), (.iWrem, 34, intRem),
       (.iWand, 1, fun a b => { r := a &&& b }), (.iWor, 1, fun a b => { r := a ||| b }), (.iWxor, 1, fun a b => { r := a ^^^ b }),
       (.iWnot, 1, fun a _ => { r := ~~~a }), (.iWneg, 1, fun a _ => intSub 0 a), (.iWshl, 1, fun a b => { r := a <<< (b.toNat % 64) }),
       (.iWshr, 1, fun a b => { r := a >>> (b.toNat % 64) }), (.iWsar, 1, fun a b => { r := a.sshiftRight (b.toNat % 64) })] :
       List ((Fin 36 → Word → Option Word → Instr) × Nat × (DWord → DWord → IntRes))),
     Computes { fmode := true, zs := 0x1FFFFF, clocks := r.2.1 } r.1 (fun _ _ _ => True)
       (fun _ _ k => { (k.flagged (r.2.2 k.wa k.wb)) with wa := (r.2.2 k.wa k.wb).r })) ∧
   Computes { fmode := true, zs := 0x1FFFF0 } .iWcmp (fun _ o _ => 2 ≤ o.imm16 % 16 ∧ o.imm16 % 16 ≤ 11)
     (fun _ o k => { (k.cmp k.wa k.wb) with ba := (k.cmp k.wa k.wb).cond (o.imm16 % 16) }) ∧
   Computes { fmode := true, long := true, zs := 0xEF0000, zl := 0xEFFFFF } .iWli (fun _ _ _ => True)
     (fun _ o k => if o.w.getLsbD 20 then { k with wb := o.immS } else { k with wa := o.immS }) ∧
   Computes { fmode := true, zs := 0x1FFFFF } .iWswap (fun _ _ _ => True) (fun _ _ k => { k with wa := k.wb, wb := k.wa }) ∧
   Computes { fmode := true, zs := 0x1FFFC0 } .iWmovg (fun _ _ _ => True)
     (fun _ o k => k.setG (o.imm16 % 32) (if o.w.getLsbD 5 then k.wb else k.wa)) ∧
   Computes { fmode := true, zs := 0x1FFFC0 } .iGmovw (fun _ _ _ => True)
     (fun _ o k => if o.w.getLsbD 5 then { k with wb := k.gr (o.imm16 % 32) } else { k with wa := k.gr (o.imm16 % 32) }) ∧
   Computes { fmode := true, zs := 0x1FFFFF } .iWcopy (fun _ _ _ => True) (fun _ _ k => { k with wb := k.wa })) ∧
  (Computes { long := true, zs := 0x3E00000, zl := 0x3E0F800 } .iCmp (fun _ _ _ => True) (fun _ o k =>
     { k with z := k.gr o.a == o.second k, n := decide ((k.gr o.a).toInt < (o.second k).toInt),
              c := decide ((k.gr o.a).toNat < (o.second k).toNat), v := overflows ((k.gr o.a).toInt - (o.second k).toInt) }) ∧
   Computes { long := true, zs := 0x3E00000, zl := 0x3E0F800 } .iTst (fun _ _ _ => True) (fun _ o k =>
     { k with z := (k.gr o.a &&& o.second k) == 0, n := (k.gr o.a &&& o.second k).msb, c := false, v := false }) ∧
   Computes {} .iSel (fun _ _ _ => True) (fun _ o k => k.setG o.d (if k.ba then k.gr o.a else k.gr o.b)) ∧
   Computes { zs := 0xF800 } .iMov (fun _ _ _ => True) (fun _ o k => k.setG o.d (k.gr o.a)) ∧
   Computes { zs := 0xF800 } .iNot (fun _ _ _ => True) (fun _ o k =>
     { (k.setG o.d (~~~k.gr o.a)) with z := ~~~k.gr o.a == 0, n := (~~~k.gr o.a).msb, c := false, v := false }) ∧
   Computes { zs := 0xF800 } .iNeg (fun _ _ _ => True)
     (fun _ o k => (k.flagged (intSub 0 (k.gr o.a))).setG o.d (0 - k.gr o.a)) ∧
   Computes { zs := 0x1F0000 } .iSetc (fun _ o _ => o.b < 15) (fun _ o k => k.setG o.d (if k.cond o.b then 1 else 0)) ∧
   Computes { long := true, zl := 0xFFFF } .iAddi (fun _ _ _ => True) (fun _ o k => k.setG o.d (k.gr o.a + o.immS)) ∧
   Computes { long := true, zl := 0xFFFF } .iLih (fun _ _ _ => True)
     (fun _ o k => k.setG o.d ((k.gr o.a &&& 0xFFFFFFFF) ||| (BitVec.ofNat 64 o.immZ <<< 32))))

/-- Every integer register instruction with a result completes on every operand, with gb or the sign-extended immediate as second operand: gd takes the result, Z
and N follow it, C and V are those of its flag code, IDZ sets for a divisor of 0, and nothing else of the core but PC and clocks, no register and no byte
changes. A division by 0 gives quotient 0 and the dividend as remainder, −2^63 by −1 gives −2^63 with remainder 0 and V. -/
def Obligations.WasaIntegerArithmetic : Prop :=
  ∀ r ∈ ([(.iAdd, 1, intAdd), (.iSub, 1, intSub), (.iAndReg, 1, fun a b => { r := a &&& b }), (.iOrReg, 1, fun a b => { r := a ||| b }),
      (.iXorReg, 1, fun a b => { r := a ^^^ b }), (.iAndng, 1, fun a b => { r := a &&& ~~~b }),
      (.iShl, 1, fun a b => { r := a <<< (b.toNat % 64) }), (.iShr, 1, fun a b => { r := a >>> (b.toNat % 64) }),
      (.iSar, 1, fun a b => { r := a.sshiftRight (b.toNat % 64) }), (.iRol, 1, fun a b => { r := a.rotateLeft (b.toNat % 64) }),
      (.iMul, 1, intMul), (.iMulhs, 1, fun a b => { r := BitVec.ofInt 64 (a.toInt * b.toInt / 2 ^ 64) }),
      (.iMulhu, 1, fun a b => { r := BitVec.ofNat 64 (a.toNat * b.toNat / 2 ^ 64) }), (.iDiv, 34, intDiv), (.iDivu, 34, intDivu),
      (.iRem, 34, intRem), (.iRemu, 34, intRemu), (.iMin, 1, fun a b => { r := if a.toInt ≤ b.toInt then a else b }),
      (.iMax, 1, fun a b => { r := if a.toInt ≤ b.toInt then b else a }), (.iMinu, 1, fun a b => { r := if a.toNat ≤ b.toNat then a else b }),
      (.iMaxu, 1, fun a b => { r := if a.toNat ≤ b.toNat then b else a })] :
      List ((Fin 36 → Word → Option Word → Instr) × Nat × (DWord → DWord → IntRes))),
    Computes { long := true, zl := 0xF800, clocks := r.2.1 } r.1 (fun _ _ _ => True)
      (fun _ o k => (k.flagged (r.2.2 (k.gr o.a) (o.second k))).setG o.d (r.2.2 (k.gr o.a) (o.second k)).r)

/-- The sum, difference and product of two 64-bit values are congruent to the exact ones modulo 2^64, and V is set exactly where the exact signed one lies outside
64 bits; division by 0 gives quotient 0 and the dividend as remainder with IDZ; −2^63 divided by −1 gives −2^63, remainder 0 and V; elsewhere a signed
quotient is the exact one rounded toward zero with V clear and no IDZ, and quotient times divisor plus remainder is the dividend. -/
def Obligations.WasaIntegerResults : Prop :=
  ∀ a b : DWord,
    let fits := fun (v : Int) => -(2 ^ 63 : Int) ≤ v ∧ v < 2 ^ 63
    ((intAdd a b).r.toNat = (a.toNat + b.toNat) % 2 ^ 64 ∧ ((intAdd a b).v = true ↔ ¬ fits (a.toInt + b.toInt))) ∧
    ((intSub a b).r.toNat = (2 ^ 64 + a.toNat - b.toNat) % 2 ^ 64 ∧ ((intSub a b).v = true ↔ ¬ fits (a.toInt - b.toInt))) ∧
    ((intMul a b).r.toNat = a.toNat * b.toNat % 2 ^ 64 ∧ ((intMul a b).v = true ↔ ¬ fits (a.toInt * b.toInt))) ∧
    (b = 0 → (intDiv a b).r = 0 ∧ (intDivu a b).r = 0 ∧ (intRem a b).r = a ∧ (intRemu a b).r = a) ∧
    (∀ d ∈ [intDiv a b, intDivu a b, intRem a b, intRemu a b], d.idz = decide (b = 0)) ∧
    (a = 0x8000000000000000 → b = 0xFFFFFFFFFFFFFFFF → (intDiv a b).r = a ∧ (intRem a b).r = 0 ∧ (intDiv a b).v = true) ∧
    (b ≠ 0 → ¬ (a = 0x8000000000000000 ∧ b = 0xFFFFFFFFFFFFFFFF) →
      (intDiv a b).r.toInt = a.toInt.tdiv b.toInt ∧ (intDiv a b).v = false ∧ (intRem a b).r.toInt = a.toInt.tmod b.toInt) ∧
    (b ≠ 0 → (intDivu a b).r.toNat = a.toNat / b.toNat ∧ (intRemu a b).r.toNat = a.toNat % b.toNat)

/-- A load of 1, 2, 4 or 8 bytes from an address that a region of the program holds, aligned to its width, completes: the little-endian number at the address,
sign- or zero-extended as the instruction says, goes to gd, fd, WA or WB, and nothing else of the core but PC and clocks, no register and no byte changes. A
store of 1, 2, 4 or 8 bytes to an address that a writable region of the program holds, aligned to its width, completes: the bytes at the address are the low
bytes of gd, fd, WA or WB, little-endian; every other byte of every memory, the core but PC and clocks, every other core and every register stay. -/
def Obligations.WasaLoadsAndStores : Prop :=
  ((∀ r ∈ ([(.iLb, 1, true), (.iLbu, 1, false), (.iLh, 2, true), (.iLhu, 2, false), (.iLw, 4, true), (.iLwu, 4, false), (.iLdw, 8, false)] :
       List ((Fin 36 → Word → Option Word → Instr) × Nat × Bool)),
     Computes { long := true, zl := 0xF800 } r.1 (fun _ o k => ∃ a, k.inMemory (o.address k) r.2.1 false = .ok a)
       (fun m o k => k.setG o.d (extend r.2.2 r.2.1 (m.rd (.data (k.dataKey o.c)) (o.address k).toNat r.2.1)))) ∧
   Computes { long := true, zl := 0xF800 } .iFld (fun _ o k => ∃ a, k.inMemory (o.address k) 8 false = .ok a)
     (fun m o k => k.setF o.d (BitVec.ofNat 64 (m.rd (.data (k.dataKey o.c)) (o.address k).toNat 8))) ∧
   Computes { fmode := true, long := true, zs := 0xC0000, zl := 0xCFFFF } .iWld
     (fun _ o k => ∃ a, k.inRegion (bits o.w.toNat 17 16) o.immZ (2 ^ bits o.w.toNat 22 21) false = .ok a)
     (fun m o k =>
       let n := 2 ^ bits o.w.toNat 22 21
       let v := extend (o.w.getLsbD 23) n (m.rd (.data (k.dataKey o.c)) (regionBase (bits o.w.toNat 17 16) + o.immZ) n)
       if o.w.getLsbD 20 then { k with wb := v } else { k with wa := v })) ∧
  ((∀ r ∈ ([(.iSb, 1), (.iSh, 2), (.iSw, 4), (.iSdw, 8)] : List ((Fin 36 → Word → Option Word → Instr) × Nat)),
     Stores { long := true, zl := 0xF800 } r.1 (fun _ o k => ∃ a, k.inMemory (o.address k) r.2 true = .ok a)
       (fun o k => (o.address k).toNat) (fun _ o k => le r.2 (k.gr o.d).toNat)) ∧
   Stores { long := true, zl := 0xF800 } .iFst (fun _ o k => ∃ a, k.inMemory (o.address k) 8 true = .ok a)
     (fun o k => (o.address k).toNat) (fun _ o k => le 8 (k.fr o.d).toNat) ∧
   Stores { fmode := true, long := true, zs := 0x8C0000, zl := 0x8CFFFF } .iWst
     (fun _ o k => ∃ a, k.inRegion (bits o.w.toNat 17 16) o.immZ (2 ^ bits o.w.toNat 22 21) true = .ok a)
     (fun o _ => regionBase (bits o.w.toNat 17 16) + o.immZ)
     (fun _ o k => le (2 ^ bits o.w.toNat 22 21) (if o.w.getLsbD 20 then k.wb else k.wa).toNat))

/-- Every floating-point operation, comparison and conversion completes unless it signals invalid with TCFG.FPTRAP set: its destination in F, G or MSTAT takes the
IEEE 754 result under FCSR.RM, its flags are added to FCSR, and nothing else of the core but PC and clocks, no register and no byte changes. FABS, FNEG, FMOV,
FSEL, FMVG, GMVF and FCLASS set no flag; FSEL chooses by BA. -/
def Obligations.WasaFloatingPoint : Prop :=
  let quietly := fun (flags : Nat) (o : Op) (k : Core) => flags.testBit 4 = true → k.tcfg.getLsbD 6 = false ∨ o.quiet = true
  let noting := fun (flags : Nat) (k : Core) => { k with fflags := k.fflags ||| BitVec.ofNat 5 flags }
  (∀ r ∈ ([(.iFadd, 1, 0, fun rm a b _ => Fp.add rm a b), (.iFsub, 1, 0, fun rm a b _ => Fp.sub rm a b),
      (.iFmul, 1, 0, fun rm a b _ => Fp.mul rm a b), (.iFdiv, 22, 0, fun rm a b _ => Fp.div rm a b),
      (.iFsqrt, 26, 0xF800, fun rm a _ _ => Fp.sqrt rm a), (.iFmin, 1, 0, fun _ a b _ => Fp.minimum a b),
      (.iFmax, 1, 0, fun _ a b _ => Fp.maximum a b), (.iFabs, 1, 0xF800, fun _ a _ _ => (Fp.absolute a, 0)),
      (.iFneg, 1, 0xF800, fun _ a _ _ => (Fp.negate a, 0)), (.iFmov, 1, 0xF800, fun _ a _ _ => (a, 0)), (.iFmadd, 1, 0, Fp.fma),
      (.iFmsub, 1, 0, fun rm a b d => Fp.fma rm a b (Fp.negate d)), (.iFnmadd, 1, 0, fun rm a b d => Fp.fma rm (Fp.negate a) b d),
      (.iFrnd, 1, 0xF800, fun rm a _ _ => Fp.rnd rm a)] :
      List ((Fin 36 → Word → Option Word → Instr) × Nat × Nat × (BitVec 2 → DWord → DWord → DWord → Fp.Res))),
    Computes { zs := r.2.2.1, clocks := r.2.1 } r.1 (fun _ o k => quietly (r.2.2.2 k.rm (k.fr o.a) (k.fr o.b) (k.fr o.d)).2 o k)
      (fun _ o k =>
        let v := r.2.2.2 k.rm (k.fr o.a) (k.fr o.b) (k.fr o.d)
        (noting v.2 k).setF o.d v.1)) ∧
  Computes {} .iFsel (fun _ _ _ => True) (fun _ o k => k.setF o.d (if k.ba then k.fr o.a else k.fr o.b)) ∧
  Computes { zs := 0x3E00000 } .iFcmp
    (fun _ o k => quietly (if Fp.isSnan (k.fr o.a) || Fp.isSnan (k.fr o.b) then 16 else 0) o k)
    (fun _ o k =>
      let u := Fp.isNan (k.fr o.a) || Fp.isNan (k.fr o.b)
      { (noting (if Fp.isSnan (k.fr o.a) || Fp.isSnan (k.fr o.b) then 16 else 0) k) with
        z := Fp.eq (k.fr o.a) (k.fr o.b), n := !u && Fp.lt (k.fr o.a) (k.fr o.b), v := u, c := false }) ∧
  (∀ r ∈ ([(.iFcvti, Fp.toSigned), (.iFcvtu, Fp.toUnsigned), (.iFmvg, fun _ v => (v, 0)), (.iFclass, fun _ v => (Fp.fclass v, 0))] :
      List ((Fin 36 → Word → Option Word → Instr) × (BitVec 2 → DWord → DWord × Nat))),
    Computes { zs := 0xF800 } r.1 (fun _ o k => quietly (r.2 k.rm (k.fr o.a)).2 o k)
      (fun _ o k => (noting (r.2 k.rm (k.fr o.a)).2 k).setG o.d (r.2 k.rm (k.fr o.a)).1)) ∧
  ∀ r ∈ ([(.iIcvtf, fun rm v => Fp.ofInt rm v.toInt), (.iUcvtf, fun rm v => Fp.ofInt rm v.toNat), (.iGmvf, fun _ v => (v, 0))] :
      List ((Fin 36 → Word → Option Word → Instr) × (BitVec 2 → DWord → Fp.Res))),
    Computes { zs := 0xF800 } r.1 (fun _ o k => quietly (r.2 k.rm (k.gr o.a)).2 o k)
      (fun _ o k => (noting (r.2 k.rm (k.gr o.a)).2 k).setF o.d (r.2 k.rm (k.gr o.a)).1)

/-- A point read of a tag of this device that none of the core's own outstanding stores names, answered OK by the store and not held up by QTRAP, completes: its
destination takes value, second word, stamp or PQ, and PQ becomes the record's quality and flags; a pair load needs a critical point and a complementary pair.
Memory, registers and the record are those that the store's read leaves. -/
def Obligations.WasaPointReads : Prop :=
  let answer := fun (m : Chip) (o : Op) (t : DWord) => m.ptRead (if o.c < 32 then .scan else .access) (t.extractLsb' 0 40)
  let ready := fun (m : Chip) (o : Op) (k : Core) (t : DWord) => m.local (t.extractLsb' 0 40) = true ∧ k.echo = none ∧
    (∀ p ∈ k.posted, p.tag ≠ t.extractLsb' 0 40) ∧ (answer m.clocked o t).1 = CC.ok
  let passes := fun (m : Chip) (o : Op) (k : Core) (t : DWord) => k.tcfg.getLsbD 7 = true → o.quiet = false →
    qualityMet (bits k.tcfg.toNat 9 8) (Q.state ((answer m.clocked o t).2.1.getD unboundRec).quality) = false
  let done := fun (m : Chip) (o : Op) (k : Core) (t : DWord) (f : PointRec → Core → Core) =>
    let r := (answer m o t).2.1.getD unboundRec
    ((answer m o t).2.2, f r { k with pq := r.quality ++ r.flags })
  (∀ r ∈ ([(.iPld, 0xF800, fun o r k => k.setG o.d r.value), (.iPldf, 0xF800, fun o r k => k.setF o.d r.value),
      (.iPlds, 0xF800, fun o r k => k.setG o.d r.second), (.iPldt, 0xF800, fun o r k => k.setG o.d r.stamp),
      (.iPldb, 0x3E0F800, fun _ r k => { k with ba := r.value != 0 })] :
      List ((Fin 36 → Word → Option Word → Instr) × Nat × (Op → PointRec → Core → Core))),
    Acts { zs := r.2.1, clocks := 6 } r.1 (fun m o k => ready m o k (k.gr o.a) ∧ passes m o k (k.gr o.a))
      (fun m o k => done m o k (k.gr o.a) (r.2.2 o))) ∧
  Acts { zs := 0xF800, clocks := 6 } .iPldq (fun m o k => ready m o k (k.gr o.a))
    (fun m o k => done m o k (k.gr o.a) (fun r k => k.setG o.d ((r.quality ++ r.flags).zeroExtend 64))) ∧
  (∀ r ∈ ([(.iPlwa, fun r k => { k with wa := r.value }), (.iPlba, fun r k => { k with ba := r.value != 0 }),
      (.iPlwb, fun r k => { k with wb := r.value })] : List ((Fin 36 → Word → Option Word → Instr) × (PointRec → Core → Core))),
    Acts { fmode := true, long := true, zs := 0x1C0000, zl := 0x1CFFFF, clocks := 6 } r.1
      (fun m o k => ∃ a, k.inRegion (o.a % 4) o.immZ 8 false = .ok a ∧
        let t := BitVec.ofNat 64 (m.rd (.data (k.dataKey o.c)) a 8)
        ready m o k t ∧ passes m o k t)
      (fun m o k => done m o k (BitVec.ofNat 64 (m.rd (.data (k.dataKey o.c)) (regionBase (o.a % 4) + o.immZ) 8)) r.2)) ∧
  ∀ r ∈ ([(.iPpld, fun o r k => (k.setG o.d r.value).setG (o.d + 1) r.second), (.iPpldf, fun o r k => (k.setF o.d r.value).setF (o.d + 1) r.second)] :
      List ((Fin 36 → Word → Option Word → Instr) × (Op → PointRec → Core → Core))),
    Acts { zs := 0xF800, clocks := 6 } r.1
      (fun m o k => o.d % 2 = 0 ∧ ready m o k (k.gr o.a) ∧ passes m o k (k.gr o.a) ∧
        let x := (answer m.clocked o (k.gr o.a)).2.1.getD unboundRec
        x.flags.getLsbD 0 = true ∧ x.second = ~~~x.value)
      (fun m o k => done m o k (k.gr o.a) (r.2 o))

/-- Above CHECK level, with a ready store and a tag of this device in range: PST, PSTF, PSTB, PSWA, PSBA and PSWB with fewer than 16 stores outstanding post the
value and change nothing else; PPST and PPSTF with a complementary pair for a critical point, nothing outstanding, write it as a PROGRAM write with the task's
number and set PREJ where it is refused; PCLRCHG puts CHG into BA and clears it, on the record folded, checked and touched. -/
def Obligations.WasaPointStores : Prop :=
  let ready := fun (m : Chip) (k : Core) (t : DWord) => k.level ≠ some .check ∧ m.local (t.extractLsb' 0 40) = true ∧
    m.on R.POINT_STAT_READY = true ∧ m.outOfRange (t.extractLsb' 0 40) = false ∧ k.echo = none
  let post := fun (t v : DWord) (k : Core) => { k with posted := k.posted ++ [{ tag := t.extractLsb' 0 40, value := v }] }
  let write := fun (m : Chip) (o : Op) (k : Core) (t v c : DWord) =>
    let r := m.ptWrite (if o.c < 32 then .scan else .access)
      { tag := t.extractLsb' 0 40, src := .program, task := (if o.c < 32 then k.prog else 0xFFFF), value := v, second := c }
    (r.2, if r.1 = CC.ok then k else { k with prej := true })
  (∀ r ∈ ([(.iPst, 0x3E00000, fun o k => k.gr o.b), (.iPstf, 0x3E00000, fun o k => k.fr o.b),
      (.iPstb, 0x3E0F800, fun _ k => if k.ba then 1 else 0)] :
      List ((Fin 36 → Word → Option Word → Instr) × Nat × (Op → Core → DWord))),
    Computes { zs := r.2.1, clocks := 2 } r.1 (fun m o k => ready m k (k.gr o.a) ∧ k.posted.length < 16)
      (fun _ o k => post (k.gr o.a) (r.2.2 o k) k)) ∧
  (∀ r ∈ ([(.iPswa, fun k => k.wa), (.iPsba, fun k => if k.ba then 1 else 0), (.iPswb, fun k => k.wb)] :
      List ((Fin 36 → Word → Option Word → Instr) × (Core → DWord))),
    Computes { fmode := true, long := true, zs := 0x1C0000, zl := 0x1CFFFF, clocks := 2 } r.1
      (fun m o k => ∃ a, k.inRegion (o.a % 4) o.immZ 8 false = .ok a ∧ ready m k (BitVec.ofNat 64 (m.rd (.data (k.dataKey o.c)) a 8)) ∧
        k.posted.length < 16)
      (fun m o k => post (BitVec.ofNat 64 (m.rd (.data (k.dataKey o.c)) (regionBase (o.a % 4) + o.immZ) 8)) (r.2 k) k)) ∧
  (∀ r ∈ ([(.iPpst, Core.gr), (.iPpstf, Core.fr)] : List ((Fin 36 → Word → Option Word → Instr) × (Core → Nat → DWord))),
    Acts { zs := 0x3E00000, clocks := 6 } r.1
      (fun m o k => o.b % 2 = 0 ∧ ready m k (k.gr o.a) ∧ (m.pt (tagIdx ((k.gr o.a).extractLsb' 0 40))).flags.getLsbD 0 = true ∧
        r.2 k (o.b + 1) = ~~~r.2 k o.b ∧ k.posted = [])
      (fun m o k => write m o k (k.gr o.a) (r.2 k o.b) (r.2 k (o.b + 1)))) ∧
  Acts { zs := 0x3E0F800, clocks := 6 } .iPclrchg
    (fun m o k =>
      let i := tagIdx ((k.gr o.a).extractLsb' 0 40)
      let n := ((m.clocked.crcCheck i).fold i).touch i
      ready m k (k.gr o.a) ∧ (∀ p ∈ k.posted, p.tag ≠ (k.gr o.a).extractLsb' 0 40) ∧
      ((n.pt i).desc ≠ 0 → (n.descOfRec (n.pt i)).critical = true → (n.pt i).second = ~~~(n.pt i).value))
    (fun m o k =>
      let i := tagIdx ((k.gr o.a).extractLsb' 0 40)
      let n := ((m.crcCheck i).fold i).touch i
      (if (n.pt i).desc = 0 then n else n.store i ((n.pt i).setFlag 1 false), { k with ba := (n.pt i).flags.getLsbD 1 }))

/-- With even registers: MPLD and MPLDF load 16 bytes whose second word is the complement of the first into the register pair; MPST and MPSTF store such a pair as
16 bytes and nothing else; PMOV and PMOVF copy such a pair; PCPL and PCPLF write the complement of the even register to the odd one; PTST sets BA to whether
the pair is complementary. MSTAT, every register of the control space and every other byte stay. -/
def Obligations.WasaMemoryPairs : Prop :=
  (∀ r ∈ ([(.iMpld, Core.setG), (.iMpldf, Core.setF)] : List ((Fin 36 → Word → Option Word → Instr) × (Core → Nat → DWord → Core))),
    Computes { long := true, zl := 0xF800 } r.1
      (fun m o k => o.d % 2 = 0 ∧ (∃ a, k.inMemory (o.address k) 16 false = .ok a) ∧
        BitVec.ofNat 64 (m.rd (.data (k.dataKey o.c)) ((o.address k).toNat + 8) 8)
          = ~~~BitVec.ofNat 64 (m.rd (.data (k.dataKey o.c)) (o.address k).toNat 8))
      (fun m o k => r.2 (r.2 k o.d (BitVec.ofNat 64 (m.rd (.data (k.dataKey o.c)) (o.address k).toNat 8))) (o.d + 1)
        (BitVec.ofNat 64 (m.rd (.data (k.dataKey o.c)) ((o.address k).toNat + 8) 8)))) ∧
  (∀ r ∈ ([(.iMpst, Core.gr), (.iMpstf, Core.fr)] : List ((Fin 36 → Word → Option Word → Instr) × (Core → Nat → DWord))),
    Stores { long := true, zl := 0xF800 } r.1
      (fun _ o k => o.d % 2 = 0 ∧ (∃ a, k.inMemory (o.address k) 16 true = .ok a) ∧ r.2 k (o.d + 1) = ~~~r.2 k o.d)
      (fun o k => (o.address k).toNat) (fun _ o k => le 8 (r.2 k o.d).toNat ++ le 8 (r.2 k (o.d + 1)).toNat)) ∧
  (∀ r ∈ ([(.iPmov, Core.gr, Core.setG), (.iPmovf, Core.fr, Core.setF)] :
      List ((Fin 36 → Word → Option Word → Instr) × (Core → Nat → DWord) × (Core → Nat → DWord → Core))),
    Computes { zs := 0xF800 } r.1 (fun _ o k => o.d % 2 = 0 ∧ o.a % 2 = 0 ∧ r.2.1 k (o.a + 1) = ~~~r.2.1 k o.a)
      (fun _ o k => r.2.2 (r.2.2 k o.d (r.2.1 k o.a)) (o.d + 1) (r.2.1 k (o.a + 1)))) ∧
  Computes { zs := 0x1FF800 } .iPcpl (fun _ o _ => o.d % 2 = 0) (fun _ o k => k.setG (o.d + 1) (~~~k.gr o.d)) ∧
  Computes { zs := 0x1FF800 } .iPcplf (fun _ o _ => o.d % 2 = 0) (fun _ o k => k.setF (o.d + 1) (~~~k.fr o.d)) ∧
  Computes { zs := 0x3E0F800 } .iPtst (fun _ o _ => o.a % 2 = 0) (fun _ o k => { k with ba := k.gr (o.a + 1) == ~~~k.gr o.a })

/-- For a task and an index below its allocation: TON, TOF and TP drive the slot at base plus index with BA at the snapshot's microsecond and take Q into BA, TPRE
sets the preset, TRD gives the elapsed time up to the preset, TRST clears RUN, Q and the previous input, TSTAT gives mode, RUN and Q; no other slot changes.
EDGR, EDGF and EDGB set BA to the edge of BA against a bit of DATA and store BA in that bit alone. -/
def Obligations.WasaTimers : Prop :=
  let drive := fun (i : Fin 36 → Word → Option Word → Instr) (f : Bool → Nat → Slot → Slot) =>
    Times i 0x3FF0000 (fun _ k now s => (f k.ba now s, { k with ba := (f k.ba now s).q }))
  let into := fun (mode : Nat) (s : Slot) => if s.mode = mode then s else { s with run := false, q := false, prev := false, mode := mode }
  let begun := fun (now : Nat) (s : Slot) => if s.run then s else { s with run := true, start := now }
  let past := fun (now : Nat) (s : Slot) => decide (s.preset ≤ now - s.start)
  drive .iTon (fun ba now s => if ba then { begun now (into 1 s) with q := past now (begun now (into 1 s)) }
    else { into 1 s with run := false, q := false }) ∧
  drive .iTof (fun ba now s => if ba then { into 2 s with run := false, q := true }
    else if (into 2 s).q then
      (if past now (begun now (into 2 s)) then { begun now (into 2 s) with run := false, q := false } else begun now (into 2 s))
    else into 2 s) ∧
  drive .iTp (fun ba now s =>
    let x := into 3 s
    let y := if ba = true ∧ x.prev = false ∧ x.run = false then { x with start := now, run := true, q := true } else x
    { (if y.run = true ∧ past now y = true then { y with run := false, q := false } else y) with prev := ba }) ∧
  Times .iTpre 0x3E00000 (fun o k _ s => ({ s with preset := min (k.gr o.a).toNat (2 ^ 48 - 1) }, k)) ∧
  Times .iTrd 0x1F0000 (fun o k now s => (s, k.setG o.d (BitVec.ofNat 64 (if s.run then min (now - s.start) s.preset else 0)))) ∧
  Times .iTrst 0x3FF0000 (fun _ k _ s => ({ s with run := false, q := false, prev := false }, k)) ∧
  Times .iTstat 0x1F0000 (fun o k _ s => (s, k.setG o.d (BitVec.ofNat 64 (s.mode * 16 + bit s.run * 2 + bit s.q)))) ∧
  ∀ r ∈ ([(.iEdgr, fun a b => a && !b), (.iEdgf, fun a b => !a && b), (.iEdgb, fun a b => Bool.xor a b)] :
      List ((Fin 36 → Word → Option Word → Instr) × (Bool → Bool → Bool))),
    Stores { fmode := true, long := true, zs := 0x1F0000, zl := 0x1FFFFF } r.1 (fun _ o k => o.immZ < 8 * k.img.dataSize)
      (fun o _ => o.immZ / 8)
      (fun m o k => [BitVec.ofNat 8 (setBits (m.byte (.data (k.dataKey o.c)) (o.immZ / 8)).toNat (o.immZ % 8) (o.immZ % 8) (bit k.ba))])
      (fun m o k => { k with ba := r.2 k.ba ((m.byte (.data (k.dataKey o.c)) (o.immZ / 8)).getLsbD (o.immZ % 8)) })

/-- Above CHECK level, with a multiple of 4 as first argument register, a UCALL of each unit and function that a chapter defines completes with the unit's answer
in gd and the chip the unit leaves, unless a NO_BUDGET answer meets the TRAP bit: LAUNCH and CANCEL of the planner, SUBMIT and RELEASE of the ridge governor,
a lighting frame, a QUENCH, a vault descriptor of a program that is not a task. A present unit's undefined function gives CHECK_FAILED, and a closed unit
CANCELLED_DISABLE, with nothing else changed. -/
def Obligations.WasaUnitCalls : Prop :=
  Asks .ucallPlanLaunch (fun m _ _ => m.hasUnit 0x0A = true ∧ ∃ q < 4, m.unitOpen (2 + q) = true) (fun m _ _ => m.launch true) ∧
  Asks .ucallPlanCancel (fun m _ _ => m.hasUnit 0x0A = true ∧ ∃ q < 4, m.unitOpen (2 + q) = true) (fun m _ _ => (CC.ok, m.planCancel)) ∧
  Asks .ucallRidgeSubmit (fun m _ _ => m.hasUnit 2 = true)
    (fun m o k => m.ridgeSubmit o.c (k.gr o.a).toNat (k.gr (o.a + 1)).toNat (k.gr (o.a + 2)).toNat) ∧
  Asks .ucallRidgeRelease (fun m _ _ => m.hasUnit 2 = true) (fun m o k => m.ridgeRelease o.c (k.gr o.a).toNat) ∧
  Asks .ucallLampSubmit (fun m _ _ => m.hasUnit 0x0B = true ∧ m.unitOpen UK.lamp = true) (fun m o k => match m.lampCall o k o.a with
    | some x => ((m.lampSubmit x).1, (m.lampSubmit x).2.2)
    | none => (CC.checkFailed, m)) ∧
  Asks .ucallQuench (fun m _ _ => m.hasUnit 6 = true) (fun m o k =>
    let w := (k.gr o.a).toNat
    let p := (k.gr (o.a + 2)).toNat
    m.quench (w.testBit 31) (if w.testBit 31 then w % 256 else w % 2 ^ 18) (k.gr (o.a + 1)).toNat (p % 256) (p / 2 ^ 32) false none) ∧
  Asks .ucallVaultSubmit (fun m _ k => m.hasUnit 0x10 = true ∧ m.unitOpen UK.vault = true ∧ k.level ≠ some .task) (fun m o k =>
    m.vaultSubmit { addr := (k.gr o.a).toNat, inData := true, caller := some (k.dataKey o.c, k.img.dataSize) }) ∧
  Asks .ucall (fun m o _ => let u := o.imm16 % 256; (u < 20 → m.hasUnit u = true) ∧
      (u, bits o.imm16 14 8) ∉ [(0x0A, 1), (0x0A, 2), (0x02, 1), (0x02, 2), (0x0B, 1), (0x06, 1), (0x10, 1)])
    (fun m _ _ => (CC.checkFailed, m)) ∧
  Asks .ucallVaultSubmit (fun m _ _ => m.hasUnit 0x10 = true ∧ m.unitOpen UK.vault = false) (fun m _ _ => (CC.cancelled, m)) ∧
  Asks .ucallLampSubmit (fun m _ _ => m.hasUnit 0x0B = true ∧ m.unitOpen UK.lamp = false) (fun m _ _ => (CC.cancelled, m))

/-- MFS with an index up to 8 puts that special register, zero-extended, into gd; MTS writes the flags of MSTAT, clears PREJ and IDZ on a 1, and writes RM and the
sticky flags of FCSR; nothing else changes. CSRR and CSRW whose offset meets none of the traps of R95 to R97 read into gd, and write the low word of gd, as
the core's own requester of the control space; an address off a word boundary, or beyond the space, is such a trap. -/
def Obligations.WasaSpecialRegisters : Prop :=
  let at_ := fun (o : Op) (k : Core) => (k.gr o.a + BitVec.ofNat 64 (match o.x with | some e => e.toNat % 2 ^ 26 | none => o.imm16 % 2 ^ 14)).toNat
  let idx := fun (o : Op) => match o.x with | some e => e.toNat % 2 ^ 26 | none => o.imm16 % 2 ^ 14
  Computes { long := true, zs := 0x1F0000, zl := 0x1FFFFF, zx := 0x3C000000 } .iMfs (fun _ o _ => idx o ≤ 8) (fun _ o k =>
    k.setG o.d ([k.mstat, k.fcsr, k.tcfg.zeroExtend 64, k.pq.zeroExtend 64, k.trec, k.tinsn, k.taddr, k.cycle, k.ltime].getD (idx o) 0)) ∧
  Computes { long := true, zs := 0x1F0000, zl := 0x1FFFFF, zx := 0x3C000000 } .iMts (fun _ o _ => idx o = 0) (fun _ o k =>
    let v := k.gr o.d
    { k with z := v.getLsbD 0, n := v.getLsbD 1, c := v.getLsbD 2, v := v.getLsbD 3, idz := k.idz && !v.getLsbD 10, prej := k.prej && !v.getLsbD 11 }) ∧
  Computes { long := true, zs := 0x1F0000, zl := 0x1FFFFF, zx := 0x3C000000 } .iMts (fun _ o _ => idx o = 1) (fun _ o k =>
    { k with rm := (k.gr o.d).extractLsb' 8 2, fflags := (k.gr o.d).extractLsb' 0 5 }) ∧
  (∀ c w x s, Issues s c → Allowed { long := true, zl := 0xFFFF, zx := 0x3C000000, clocks := 6 } (s.chip.core c.val) w x →
    Insn.csrCheck (s.op c w x) s.chip (s.chip.core c.val) false = none → (s.chip.core c.val).echo = none →
    at_ (s.op c w x) (s.chip.core c.val) < 0x4000000 ∧ at_ (s.op c w x) (s.chip.core c.val) % 4 = 0 ∧
    ∃ n ≥ 6 + bit (xBit w), let r := s.chip.clocked.ctlRead (.core c) (at_ (s.op c w x) (s.chip.core c.val))
      Gives (.iCsrr c w x) s (r.2.setCore c.val (((s.chip.core c.val).issued w n).setG (s.op c w x).d (r.1.zeroExtend 64)))) ∧
  (∀ c w x s, Issues s c → Allowed { long := true, zl := 0xFFFF, zx := 0x3C000000, clocks := 20 } (s.chip.core c.val) w x →
    Insn.csrCheck (s.op c w x) s.chip (s.chip.core c.val) true = none →
    ∃ n ≥ 20 + bit (xBit w), Gives (.iCsrw c w x) s
      ((s.chip.clocked.ctlWrite (.core c) (at_ (s.op c w x) (s.chip.core c.val))
        (((s.chip.core c.val).gr (s.op c w x).d).extractLsb' 0 32)).setCore c.val ((s.chip.core c.val).issued w n)))

/-- With no store outstanding, END frees the core of a SERVICE program, and makes a task's cycle, outside a handler with an empty branch stack, HANDOFF with its
outputs copied and its core free; a check program's END ends its check with G0. FENCE and NOP go on. In a handler that Table 4-6 lets end so, SKIP goes on
behind the trapping instruction and RETRY at it, its check suppressed after a QUALITY or FP_INVALID trap; each posts the TRAP event with its ending. ABANDON
abandons the cycle: the core is free and the abandonment is counted. -/
def Obligations.WasaEndings : Prop :=
  let quietEnd := fun (s : State) (c : Fin 36) => (s.chip.core c.val).trap = none ∧ (s.chip.core c.val).posted = []
  let sys := fun (n : Nat) => ({ fmode := true, zs := 0xFFFF, clocks := n } : Form)
  (∀ c w x s, Issues s c → Allowed (sys 4) (s.chip.core c.val) w x → quietEnd s c →
    ((s.chip.core c.val).level = some .service → Gives (.iEnd c w x) s (s.chip.clocked.setCore c.val {})) ∧
    ((s.chip.core c.val).level = some .task → (s.chip.core c.val).bs = [] →
      Does (.iEnd c w x) s (fun m => let t := (s.chip.core c.val).prog
        m.core c.val = {} ∧ m.tState t = TS.handoff ∧ (m.task t).buf = (s.chip.task t).omap.map (s.chip.outEntry t))) ∧
    ((s.chip.core c.val).level = some .check →
      ∃ n, Gives (.iEnd c w x) s (((s.chip.clocked.setCore c.val ((s.chip.core c.val).issued w n)).checkEnded (c.val - 32)
        ((s.chip.core c.val).gr 0)).commitWatch.bootStep))) ∧
  Acts (sys 4) .iFence (fun _ _ _ => True) (fun m o k => m.drainStores o.c k k.posted) ∧
  Computes (sys 1) .iNop (fun _ _ _ => True) (fun _ _ k => k) ∧
  Acts (sys 6) .iSkip (fun _ _ k => ∃ t, k.trap = some t ∧ t.code ∈ [1, 6, 9, 0xA, 0xB]) (fun m o k =>
    let t := k.trap.getD ⟨0, 0, 0, 0⟩
    let j := { k with trap := none, pc := t.pc + BitVec.ofNat 32 t.len }
    (m.trapEvent o.c k t.cycle 1, if t.code = 0xB then j.setG (bits k.tinsn.toNat 25 21) 5 else j)) ∧
  Acts (sys 6) .iRetry (fun _ _ k => ∃ t, k.trap = some t ∧ t.code ∈ [9, 0xA, 0xB]) (fun m o k =>
    let t := k.trap.getD ⟨0, 0, 0, 0⟩
    (m.trapEvent o.c k t.cycle 2, { k with trap := none, pc := t.pc, suppress := t.code != 0xB })) ∧
  (∀ c w x s t, Issues s c → Allowed (sys 6) (s.chip.core c.val) w x → (s.chip.core c.val).trap = some t →
    (s.chip.core c.val).level = some .task → (s.chip.core c.val).posted = [] → (s.chip.core c.val).prog < 256 →
    s.chip.get (R.SCAN_TS_ABAN (s.chip.core c.val).prog) < 0xFFFFFFFF →
    Does (.iAbandon c w x) s (fun m => m.core c.val = {} ∧
      m.get (R.SCAN_TS_ABAN (s.chip.core c.val).prog) = s.chip.get (R.SCAN_TS_ABAN (s.chip.core c.val).prog) + 1))

/-- An undefined opcode leaves its trap record (its address, ILLEGAL, UNDEFINED, its words) and either enters the handler that a task's image declares, 12 clocks
on, with nothing else of the core changed, or, in a SERVICE program, posts the TRAP event and frees the core. A task's spent budget abandons its cycle: its
core is free. POSTED_STORE_ACK makes the oldest outstanding store a PROGRAM write of the point, sets PREJ where it is refused, and leaves the younger ones
outstanding. Where the word that LDW loads has a single-bit error and no other word of the program's memory has one, the load completes, the error is
corrected in the SRAM and ECC_CORRECTED is posted. Where the word that SDW stores to, or the code word of a NOP, has a double-bit error, a SERVICE program
traps with ILLEGAL, cause ECC, and a task's cycle is abandoned, its handler not entered; its core is free. That the event's sub-unit is that of TRAP and that
TADDR is the data address, or 0 for code, is the model's choice (notes/assumptions/131.md). -/
def Obligations.WasaTraps : Prop :=
  let fallen := fun (o : Op) (k : Core) => { k with pc := o.pc, taddr := 0, trec := o.pc ++ (0 : Half) ++ (0x0107 : Half), tinsn := o.ext ++ o.w }
  Computes { fmode := true, long := true } .undefinedOpcode (fun _ _ k => k.level = some .task ∧ k.trap = none ∧ k.img.handler.isSome = true)
    (fun _ o k => { fallen o k with pc := k.img.handler.getD 0, cycle := k.cycle + 12, budget := k.budget - 12,
                                    trap := some ⟨o.pc, o.len, 7, k.cycle⟩ }) ∧
  (∀ c w x s, Issues s c → (s.chip.core c.val).level = some .service → (s.chip.core c.val).trap = none → (s.chip.core c.val).posted = [] →
    ∃ n, let k := fallen (s.op c w x) ((s.chip.core c.val).issued w n)
      Gives (.undefinedOpcode c w x) s ((s.chip.clocked.trapEvent c.val k k.cycle 0).setCore c.val {})) ∧
  (∀ (c : Fin 32) s, s.chip.pd2 = true → (s.chip.core c.val).level = some .task → (s.chip.core c.val).budget = 0 →
    Does (.cycleOverrun c) s (fun m => m.core c.val = {})) ∧
  (∀ (c : Fin 36) s p l, s.chip.pd2 = true → (s.chip.core c.val).posted = p :: l →
    let k := s.chip.core c.val
    let r := s.chip.pt (tagIdx p.tag)
    let crit := r.desc != 0 && (s.chip.descOfRec r).critical
    let a := s.chip.ptWrite (if c.val < 32 then .scan else .access)
      { tag := p.tag, src := .program, task := (if c.val < 32 then k.prog else 0xFFFF), value := p.value, second := (if crit then p.value else r.second) }
    Gives (.postedStoreAck c) s (a.2.setCore c.val { k with posted := l, prej := k.prej || a.1 != CC.ok })) ∧
  (∀ c w x s a l, Ready s c →
    let k := s.chip.core c.val
    let o := s.op c w x
    Allowed { long := true, zl := 0xF800 } k w x → k.inMemory (o.address k) 8 false = .ok a → k.echo = none →
    s.chip.scan.upsets = ⟨k.dataKey c.val, false, a / 8, false⟩ :: l → (∀ u ∈ l, u.key ≠ k.dataKey c.val) →
    ∃ n, Gives (.iLdw c w x) s
      (((s.chip.clocked.withScan { s.chip.scan with upsets := l }).post
          (ev 4 0x0121 1 (if k.level = some .task then k.prog else 0x100 + (c.val - 32)) 0 [])).setCore c.val
        ((k.issued w n).setG o.d (BitVec.ofNat 64 (s.chip.rd (.data (k.dataKey c.val)) a 8))))) ∧
  (∀ c w x s a l, Ready s c →
    let k := s.chip.core c.val
    let o := s.op c w x
    Allowed { long := true, zl := 0xF800 } k w x → k.inMemory (o.address k) 8 true = .ok a → k.trap = none → k.echo = none → k.posted = [] →
    s.chip.scan.upsets = ⟨k.dataKey c.val, false, a / 8, true⟩ :: l → (∀ u ∈ l, u.key ≠ k.dataKey c.val) →
    (k.level = some .service → ∃ n,
      let q := { k.issued w n with pc := k.pc, taddr := BitVec.ofNat 64 a, trec := k.pc ++ (0 : Half) ++ (0x0B07 : Half), tinsn := o.ext ++ w }
      Gives (.iSdw c w x) s ((s.chip.clocked.trapEvent c.val q q.cycle 0).setCore c.val {})) ∧
    (k.level = some .task → Does (.iSdw c w x) s (fun m => m.core c.val = {}))) ∧
  (∀ c w s l, Ready s c →
    let k := s.chip.core c.val
    Allowed { fmode := true, zs := 0xFFFF } k w none → k.trap = none → k.echo = none → k.posted = [] →
    s.chip.scan.upsets = ⟨k.dataKey c.val, true, k.pc.toNat / 8, true⟩ :: l → (∀ u ∈ l, u.key ≠ k.dataKey c.val) →
    (k.level = some .service → ∃ n,
      let q := { k.issued w n with pc := k.pc, taddr := 0, trec := k.pc ++ (0 : Half) ++ (0x0B07 : Half), tinsn := (s.op c w none).ext ++ w }
      Gives (.iNop c w none) s ((s.chip.clocked.trapEvent c.val q q.cycle 0).setCore c.val {})) ∧
    (k.level = some .task → Does (.iNop c w none) s (fun m => m.core c.val = {})))

/-- A present unit's GEN_EVR_MAP takes bits 3:0 of the word; a Staged register (METER_CTL, TXN_CTL, POINT_BG), of an absent unit too, leaves its applied word and
goes to the channel 0 bank while that bank has room; GEN_UNITS, GEN_CAP_PTS and UPL_TIME_NOW ignore a write, an offset beyond 64 MiB and a debug port without
debug reach nothing; a PCIe write without all byte enables is discarded and counted. GEN_DWIN is the requester's own. A word written through DRAM_WIN stands
little-endian at the page's address of the shared region. Zero written to a diagnostic counter clears it and its SAT flag; any other value is ignored. -/
def Obligations.RegisterWrites : Prop :=
  let open_ := fun (r : Req) (m : Chip) => r = .debug → m.vault.debug = true
  (∀ r v (u : Fin 20), Turns (.registerWrite r (0x1400 + 4 * u.val) v true) (fun m => open_ r m ∧ m.hasUnit u.val = true)
    (fun m => m.setReg (0x1400 + 4 * u.val) ((m.reg (0x1400 + 4 * u.val) &&& ~~~0xF) ||| (v &&& 0xF)))) ∧
  (∀ r v, ∀ f ∈ [R.METER_CTL, R.TXN_CTL, R.POINT_BG], Shows (.registerWrite r f.addr v true)
    (fun m => open_ r m ∧ (m.bank 0).regs.length < 65536)
    (fun m n => (n.bank 0).reg f.addr = some v ∧ SameBytes m n ∧ ∀ a, a ≠ (R.COMMIT_STAT 0).addr → a ≠ (R.COMMIT_BYTES 0).addr → n.reg a = m.reg a)) ∧
  (∀ r v, ∀ f ∈ [R.GEN_UNITS, R.GEN_CAP_PTS, R.UPL_TIME_NOW_LO], Turns (.registerWrite r f.addr v true) (fun _ => True) id) ∧
  (∀ r v a, Turns (.registerWrite r a v true) (fun m => 0x4000000 ≤ a ∨ (r = .debug ∧ m.vault.debug = false)) id) ∧
  (∀ a v, Turns (.registerWrite .pcie a v false) (fun _ => True)
    (fun m => m.put R.UPL_PCIE_STAT_PARTIAL (min 0xFFFF (m.get R.UPL_PCIE_STAT_PARTIAL + 1)))) ∧
  (∀ r v, Turns (.registerWrite r R.GEN_DWIN.addr v true) (open_ r) (fun m => m.setPage r 11 (v.toNat % 256))) ∧
  (∀ r (off : BitVec 22) v, off.toNat % 4 = 0 → Turns (.dramWindowAccess r off (some v)) (open_ r)
    (fun m => m.setBytes .dram (m.sharedBase + AMap.get 0 (m.req r).pages 11 * 4194304 + off.toNat) (le 4 v.toNat))) ∧
  (∀ r, Turns (.diagCounterClear r R.METER_WRAP_CNT.addr 0) (fun m => open_ r m ∧ m.hasUnit 0xD = true)
    (fun m => (m.setReg R.METER_WRAP_CNT.addr 0).put ⟨0x340004, 26, 26⟩ 0)) ∧
  (∀ r v, v ≠ 0 → Turns (.diagCounterClear r R.METER_WRAP_CNT.addr v) (fun _ => True) id)

/-- A first word of a complement pair, or the low word of a writable value of two words, is held for its requester and applies nothing. The second word that is
the complement of the held one applies both; any other discards both and posts PAIR_FAULT with the register as object. The high word applies the held low word
with it, and ends the hold. -/
def Obligations.MultiwordAndPairs : Prop :=
  let open_ := fun (r : Req) (m : Chip) => r = .debug → m.vault.debug = true
  (∀ r v (i : Fin 4), Turns (.pairedRegisterWrite r (0x2C0020 + 8 * i.val) v) (fun m => open_ r m ∧ m.hasUnit 0xB = true)
    (fun m => m.setReq r { m.req r with pair := some (0x2C0020 + 8 * i.val, v) })) ∧
  (∀ r v (i : Fin 4), Turns (.pairedRegisterWrite r (0x2C0024 + 8 * i.val) (~~~v))
    (fun m => open_ r m ∧ m.hasUnit 0xB = true ∧ (m.req r).pair = some (0x2C0020 + 8 * i.val, v))
    (fun m => ((m.setReq r { m.req r with pair := none }).setReg (0x2C0020 + 8 * i.val) v).setReg (0x2C0024 + 8 * i.val) (~~~v))) ∧
  (∀ r v w (i : Fin 4), w ≠ ~~~v → Shows (.pairedRegisterWrite r (0x2C0024 + 8 * i.val) w)
    (fun m => open_ r m ∧ m.hasUnit 0xB = true ∧ (m.req r).pair = some (0x2C0020 + 8 * i.val, v))
    (fun m n => (n.req r).pair = none ∧ SameRegs [] m n ∧ ∃ code sev, n =
      ({ m.setReq r { m.req r with pair := none } with clk := { m.clk with free := m.clk.free + 1 } } : Chip).post
        (ev 0xB code sev 0 (0x2C0024 + 8 * i.val) [] CC.pairFault))) ∧
  (∀ r v (k : Fin 4), Turns (.multiwordWrite r (R.COMMIT_AT_LO k).addr v) (open_ r)
    (fun m => m.setReq r { m.req r with held := reassoc (m.req r).held (R.COMMIT_AT_LO k).addr v })) ∧
  (∀ r v w (k : Fin 4), Turns (.multiwordWrite r (R.COMMIT_AT_HI k).addr v)
    (fun m => open_ r m ∧ assoc (m.req r).held (R.COMMIT_AT_LO k).addr = some w)
    (fun m => ((m.setReq r { m.req r with held := unassoc (m.req r).held (R.COMMIT_AT_LO k).addr }).setReg (R.COMMIT_AT_LO k).addr w).setReg
      (R.COMMIT_AT_HI k).addr v))

/-- The read of a low word (league time) returns the word and latches the high word as it then stands; the next read of the high word by that requester returns
the latched word, even after the value has moved on, and releases it. The read of a result register returns its word and clears its RC field DONE and nothing
else. DRAM_WIN reads the word at the page's address. -/
def Obligations.RegisterReads : Prop :=
  let open_ := fun (r : Req) (m : Chip) => r = .debug → m.vault.debug = true
  (∀ r, Turns (.lowWordRead r R.UPL_TIME_NOW_LO.addr) (fun m => open_ r m ∧ m.hasUnit 7 = true ∧ (m.req r).latch = [])
    (fun m => (m.setReq r { m.req r with latch := [(R.UPL_TIME_NOW_HI.addr, BitVec.ofNat 32 (m.now / 2 ^ 32))] }).emit
      (.word r R.UPL_TIME_NOW_LO.addr (BitVec.ofNat 32 m.now)))) ∧
  (∀ r a w, a % 4 = 0 → a < 0x4000000 → Turns (.lowWordRead r a) (fun m => open_ r m ∧ assoc (m.req r).latch a = some w)
    (fun m => (m.setReq r { m.req r with latch := (m.req r).latch.filter (fun e => e.1 ≠ a) }).emit (.word r a w))) ∧
  (∀ r, ∀ f ∈ [(R.COMMIT_RES 0, 0xFFFFFFFF), (R.PLAN_RES, 0xFFFFFFFF), (R.LOOP_SWAP_RES, 0x8000FFFF), (R.PANEL_RES, 0xC000FFFF)],
    Turns (.rcFieldRead r f.1.addr) (fun m => open_ r m ∧ m.present f.1.addr = true ∧ (m.req r).latch = [])
      (fun m => (m.setReg f.1.addr (m.reg f.1.addr &&& ~~~0x80000000)).emit (.word r f.1.addr (m.reg f.1.addr &&& f.2)))) ∧
  (∀ r (off : BitVec 22), off.toNat % 4 = 0 → Turns (.dramWindowAccess r off none) (fun m => open_ r m ∧ (m.req r).latch = [])
    (fun m => m.emit (.word r (0x3C00000 + off.toNat) (BitVec.ofNat 32
      (m.rd .dram (m.sharedBase + AMap.get 0 (m.req r).pages 11 * 4194304 + off.toNat) 4)))))

/-- A write that keeps EN at 1 changes MIN_SEV alone; EN 0 on an enabled ring changes MIN_SEV and EN alone. EN from 0 to 1 on a ring that lies wholly in the
shared region zeroes HEAD and TAIL, takes SIZE and MIN_SEV and enables the ring; one that does not lie there leaves EN at 0. The first enable of any ring
judges the held events and holds none from then on. GEN_EVR_TAIL takes a value that leaves at most the ring's size of records between it and HEAD, and no
other. -/
def Obligations.EventRings : Prop :=
  let en := fun (w : Word) => w.getLsbD 31
  let sev := fun (w : Word) => bits w.toNat 10 8
  let size := fun (w : Word) => bits w.toNat 4 0
  let whole := fun (m : Chip) (n : Nat) (w : Word) => m.inShared (m.ringBase n) (64 * 2 ^ ringSize (size w)) = true
  (∀ (n : Fin 16) w, en w = true → Turns (.evrCfgWrite n w) (fun m => m.on (R.GEN_EVR_CFG_EN n.val) = true)
    (fun m => m.put (R.GEN_EVR_CFG_MIN_SEV n.val) (sev w))) ∧
  (∀ (n : Fin 16) w, en w = false → Turns (.evrCfgWrite n w) (fun m => m.on (R.GEN_EVR_CFG_EN n.val) = true)
    (fun m => (m.put (R.GEN_EVR_CFG_MIN_SEV n.val) (sev w)).put (R.GEN_EVR_CFG_EN n.val) 0)) ∧
  (∀ (n : Fin 16) w, en w = true → Shows (.evrCfgWrite n w)
    (fun m => m.on (R.GEN_EVR_CFG_EN n.val) = false ∧ m.rings.opened = true ∧ whole m n.val w)
    (fun m t => t.get (R.GEN_EVR_CFG_EN n.val) = 1 ∧ t.get (R.GEN_EVR_CFG_MIN_SEV n.val) = sev w ∧ t.get (R.GEN_EVR_CFG_SIZE n.val) = size w ∧
      t.get (R.GEN_EVR_HEAD n.val) = 0 ∧ t.get (R.GEN_EVR_TAIL n.val) = 0 ∧ SameBytes m t ∧ SameRegs [] m t)) ∧
  (∀ (n : Fin 16) w, en w = true → Shows (.evrCfgWrite n w) (fun m => m.on (R.GEN_EVR_CFG_EN n.val) = false ∧ ¬ whole m n.val w)
    (fun m t => t.get (R.GEN_EVR_CFG_EN n.val) = 0 ∧ SameBytes m t ∧ SameRegs [] m t)) ∧
  (∀ (n : Fin 16) w, en w = true → Shows (.evrCfgWrite n w)
    (fun m => m.on (R.GEN_EVR_CFG_EN n.val) = false ∧ m.rings.opened = false ∧ whole m n.val w)
    (fun m t => t.rings.opened = true ∧ t.rings.held = [] ∧ SameRegs [] m t)) ∧
  (∀ (n : Fin 16) w, Turns (.evrTailWrite n w)
    (fun m => (m.get (R.GEN_EVR_HEAD n.val) + 2 ^ 32 - w.toNat) % 2 ^ 32 ≤ 2 ^ AMap.get 8 m.rings.size n.val)
    (fun m => m.put (R.GEN_EVR_TAIL n.val) w.toNat)) ∧
  (∀ (n : Fin 16) w, Turns (.evrTailWrite n w)
    (fun m => 2 ^ AMap.get 8 m.rings.size n.val < (m.get (R.GEN_EVR_HEAD n.val) + 2 ^ 32 - w.toNat) % 2 ^ 32) id)

/-- A disable request starts the drain of a present unit that is open, and is nothing to one that drains or is disabled already. The expiry of a drain limit
cancels the bus frame of a CAN channel that drains and every request of a vault that drains, and nothing of a unit that does not drain. A drain with nothing
in flight ends with the unit disabled and its DISABLED bit set, and one with work in flight does not end. An enable is held while the unit drains, enables a
disabled unit and clears DISABLED, and leaves an open unit alone. -/
def Obligations.UnitDrains : Prop :=
  let bitOf : Fin 6 → Nat × FRef := fun i => [(UK.lamp, R.LAMP_STAT_DISABLED), (UK.loop, R.LOOP_STAT_DISABLED), (UK.meter, R.METER_STAT_DISABLED),
    (UK.vault, R.VAULT_STAT_DISABLED), (UK.sadl, R.SADL_STAT_DISABLED), (UK.panel, R.PANEL_STAT_DISABLED)].getD i.val (0, R.PANEL_STAT_DISABLED)
  (∀ u : Fin 81, Shows (.unitDisableRequest u) (fun m => m.keyPresent u.val = true ∧ m.unitOpen u.val = true)
    (fun _ t => t.unitRun u.val = { draining := true })) ∧
  (∀ u : Fin 81, 2 ≤ u.val → u.val < 24 ∨ 48 ≤ u.val → u.val ≠ UK.panel →
    Turns (.unitDisableRequest u) (fun m => m.keyPresent u.val = true ∧ m.unitOpen u.val = true) (fun m => m.setUnitRun u.val { draining := true })) ∧
  (∀ u : Fin 81, Turns (.unitDisableRequest u) (fun m => m.unitOpen u.val = false) id) ∧
  (∀ n : Fin 32, ∀ u : Fin 81, u.val = UK.can n.val → Turns (.drainLimitExpiry u) (fun m => (m.unitRun u.val).draining = true)
    (fun m => m.setCan n.val { m.can n.val with bus := none })) ∧
  (∀ u : Fin 81, u.val = UK.vault → Shows (.drainLimitExpiry u) (fun m => (m.unitRun u.val).draining = true) (fun _ t => t.vault.queue = [])) ∧
  (∀ u : Fin 81, Turns (.drainLimitExpiry u) (fun m => (m.unitRun u.val).draining = false) id) ∧
  (∀ (i : Fin 6) (u : Fin 81) l, u.val = (bitOf i).1 → Shows (.drainComplete u l)
    (fun m => (m.unitRun u.val).draining = true ∧ m.unitBusy u.val = false)
    (fun m t => t.unitRun u.val = { disabled := true, heldEnable := (m.unitRun u.val).heldEnable } ∧ t.get (bitOf i).2 = 1)) ∧
  (∀ (u : Fin 81) l, Turns (.drainComplete u l) (fun m => (m.unitRun u.val).draining = false ∨ m.unitBusy u.val = true) id) ∧
  (∀ u : Fin 81, Turns (.unitEnableRequest u) (fun m => (m.unitRun u.val).draining = true)
    (fun m => m.setUnitRun u.val { m.unitRun u.val with heldEnable := true })) ∧
  (∀ (i : Fin 6) (u : Fin 81), u.val = (bitOf i).1 → Shows (.unitEnableRequest u)
    (fun m => (m.unitRun u.val).draining = false ∧ (m.unitRun u.val).disabled = true)
    (fun _ t => t.unitRun u.val = {} ∧ t.get (bitOf i).2 = 0)) ∧
  (∀ u : Fin 81, Turns (.unitEnableRequest u) (fun m => m.unitOpen u.val = true) id)

/-- With PD2 and PD15 on, a READ of an offset that is a multiple of 4 below 64 MiB answers opcode 1, OK and the word read as the UART's requester; a WRITE acts as
the UART's requester and answers opcode 2, OK and the word; any other offset answers CHECK_FAILED and data 0 and changes nothing else. Each answer ends in its
CRC-32C, and the receiver stands at byte 0. A bad CRC or opcode gets no answer and counts in ERR up to 0xFFFF; an idle line resets the receiver. With PD15 off
no request is answered. -/
def Obligations.UartRequests : Prop :=
  let on := fun (m : Chip) => m.pdReady 15 = true
  let good := fun (a : Word) => a.toNat % 4 = 0 ∧ a.toNat < 0x4000000
  let frame := fun (op : Byte) (code : Half) (v : Word) =>
    let b := op :: (le 2 code.toNat ++ le 4 v.toNat)
    Out.frame 7 9 "UART" ((b ++ le 4 (crc32c b).toNat).map BitVec.toNat)
  let at0 := fun (m : Chip) => m.withUpl { m.upl with uartByte := 0 }
  (∀ a, good a → Turns (.uartRead a) on (fun m =>
    ((at0 m).ctlRead .uart a.toNat).2.emit (frame 1 0 ((at0 m).ctlRead .uart a.toNat).1))) ∧
  (∀ a v, good a → Turns (.uartWrite a v) on (fun m => ((at0 m).ctlWrite .uart a.toNat v).emit (frame 2 0 v))) ∧
  (∀ a, ¬ good a → Turns (.uartRead a) on (fun m => (at0 m).emit (frame 1 8 0))) ∧
  (∀ a v, ¬ good a → Turns (.uartWrite a v) on (fun m => (at0 m).emit (frame 2 8 0))) ∧
  Turns .uartBadRequest on (fun m => (at0 m).put R.UPL_UART_CFG_ERR (min 0xFFFF (m.get R.UPL_UART_CFG_ERR + 1))) ∧
  Turns .uartIdleReset (fun _ => True) at0 ∧
  (∀ c ∈ ([.uartBadRequest, .uartRead 0, .uartWrite 0 0] : List Instr), Turns c (fun m => m.pdReady 15 = false) id)

/-- After the boot, with no operation running, READ and PROGRAM of 1 to 256 bytes within a page, and ERASE of the 4 KiB or 64 KiB that holds FL_ADDR, start and
set BUSY; PROGRAM and ERASE that meet the booted slot, and lengths outside 1 to 256 or across a page, complete with CHECK_FAILED; while BUSY or during the
boot a command is ignored. At the end READ has filled FL_DATA, ERASE leaves 0xFF, PROGRAM leaves each byte the AND of what stood and what was written (a log
entry, 98, presumes that PROGRAM sets no bit); BUSY clears and CODE is OK. CAIRN_FLOOR takes a newer generation only. -/
def Obligations.FlashOperations : Prop :=
  let idle := fun (m : Chip) => m.on R.CAIRN_FL_STAT_BUSY = false ∧ m.booting = false
  let at_ := fun (m : Chip) => m.get R.CAIRN_FL_ADDR_ADDR
  let fits := fun (m : Chip) (len : BitVec 9) => 1 ≤ len.toNat ∧ len.toNat ≤ 256 ∧ at_ m % 256 + len.toNat ≤ 256
  let starts := fun (op a n : Nat) (m : Chip) =>
    (m.withBoot { m.boot with flash := some { op := op, addr := a, len := n, data := (m.wordBytes R.CAIRN_FL_DATA 64).take n } }).put R.CAIRN_FL_STAT_BUSY 1
  let refused := fun (m : Chip) => m.put R.CAIRN_FL_STAT_CODE 8
  (∀ len, Turns (.flashRead len) (fun m => idle m ∧ fits m len) (fun m => starts 1 (at_ m) len.toNat m)) ∧
  (∀ len, Turns (.flashProgram len) (fun m => idle m ∧ fits m len ∧ m.inBooted (at_ m) len.toNat = false) (fun m => starts 2 (at_ m) len.toNat m)) ∧
  (∀ len, Turns (.flashProgram len) (fun m => idle m ∧ fits m len ∧ m.inBooted (at_ m) len.toNat = true) refused) ∧
  (∀ len, ∀ c ∈ ([.flashRead len, .flashProgram len] : List Instr), Turns c (fun m => idle m ∧ ¬ fits m len) refused) ∧
  (∀ e ∈ [(Instr.erase4k, 3, 0x1000), (Instr.erase64k, 4, 0x10000)],
    Turns e.1 (fun m => idle m ∧ m.inBooted (at_ m / e.2.2 * e.2.2) e.2.2 = false) (fun m => starts e.2.1 (at_ m / e.2.2 * e.2.2) e.2.2 m) ∧
    Turns e.1 (fun m => idle m ∧ m.inBooted (at_ m / e.2.2 * e.2.2) e.2.2 = true) refused) ∧
  (∀ len, ∀ c ∈ ([.flashRead len, .flashProgram len, .erase4k, .erase64k] : List Instr), Turns c (fun m => ¬ idle m) id) ∧
  (∀ f, Shows .flashOpDone (fun m => m.boot.flash = some f ∧ f.len ≤ 0x10000 ∧ f.addr + f.len ≤ 0x20000000 ∧ f.data.length = f.len ∧ f.op = 2)
    (fun m t => t.boot.flash = none ∧ t.get R.CAIRN_FL_STAT_BUSY = 0 ∧ t.get R.CAIRN_FL_STAT_CODE = 0 ∧
      ∀ i, i < f.len → t.byte .flash (f.addr + i) = f.data.getD i 0 &&& m.byte .flash (f.addr + i))) ∧
  (∀ f, Shows .flashOpDone (fun m => m.boot.flash = some f ∧ f.len ≤ 0x10000 ∧ f.addr + f.len ≤ 0x20000000 ∧ (f.op = 3 ∨ f.op = 4))
    (fun m t => t.get R.CAIRN_FL_STAT_BUSY = 0 ∧ (∀ i, i < f.len → t.byte .flash (f.addr + i) = 0xFF) ∧
      ∀ i, i < 0x20000000 → i < f.addr ∨ f.addr + f.len ≤ i → t.byte .flash i = m.byte .flash i)) ∧
  (∀ f, Shows .flashOpDone (fun m => m.boot.flash = some f ∧ f.op = 1 ∧ f.len ≤ 256)
    (fun m t => t.get R.CAIRN_FL_STAT_BUSY = 0 ∧ SameBytes m t ∧ (t.wordBytes R.CAIRN_FL_DATA 64).take f.len = m.bytes .flash f.addr f.len)) ∧
  (∀ w, Turns (.cairnFloorWrite w) (fun m => newer w (m.reg R.CAIRN_FLOOR.addr) = true) (fun m => m.setReg R.CAIRN_FLOOR.addr w)) ∧
  (∀ w, Turns (.cairnFloorWrite w) (fun m => newer w (m.reg R.CAIRN_FLOOR.addr) = false) id)

/-- PLL_LOCK adds a PLL that the variant has to those that are locked, once. DRAM_READY sets INIT_BUSY where the store is not READY. POINT_CLEAR_DONE outside the
boot unbinds every record and empties the overlay and the force table, clears INIT_BUSY and sets READY. BOOT_START with an unreadable SFDP reads in 1-1-1 mode
at 25 MHz, and with no valid directory copy ends the boot UNCONFIGURED with CHECK_FAILED. -/
def Obligations.BootAndClocks : Prop :=
  (∀ p : Fin 6, Shows (.pllLock p) (fun m => p.val = 3 → m.hasUnit 0x0A = true)
    (fun m t => (∀ q, q ∈ t.clk.locked ↔ q ∈ m.clk.locked ∨ q = p.val) ∧ t = m.withClk { m.clk with locked := t.clk.locked })) ∧
  (∀ p : Fin 6, Turns (.pllLock p) (fun m => p.val ∈ m.clk.locked ∨ (p.val = 3 ∧ m.hasUnit 0x0A = false)) id) ∧
  Turns .dramReady (fun m => m.on R.POINT_STAT_READY = false) (fun m => m.put R.POINT_STAT_INIT_BUSY 1) ∧
  Turns .pointClearDone (fun m => m.on R.POINT_STAT_INIT_BUSY = true ∧ m.boot.running = false) (fun m =>
    (((m.withPts { m.pts with recs := [], overlay := [], forces := [], sweepAt := none, scrubAt := none }).put R.POINT_FORCE_USED_USED 0).put
      R.POINT_STAT_INIT_BUSY 0).put R.POINT_STAT_READY 1) ∧
  Shows (.bootStart none) (fun m => m.booting = true ∧ m.boot.running = false ∧ m.boot.tried = [] ∧ m.dirCopy 0 = none ∧ m.dirCopy 1 = none)
    (fun _ t => t.get R.CAIRN_BOOT_STAT_STATE = 3 ∧ t.get R.CAIRN_BOOT_STAT_FAIL_CODE = 8 ∧ t.get R.CAIRN_FL_MODE_WIDTH = 15 ∧
      t.get R.CAIRN_FL_MODE_CLK = 25 ∧ t.booting = false)

/-- The comparison that every FIELD write, every Mirfor sequence number and every generation passes through holds exactly where the difference modulo 2^32 lies
between 1 and 2^31 - 1; a number is not newer than itself; at a difference of 2^31 or more it is older, that is, not newer and not equal. -/
def Obligations.SequenceNumbersCompare : Prop :=
  ∀ a b : Word, (newer a b = true ↔ 1 ≤ (a.toNat + 2 ^ 32 - b.toNat) % 2 ^ 32 ∧ (a.toNat + 2 ^ 32 - b.toNat) % 2 ^ 32 ≤ 2 ^ 31 - 1) ∧
    (newer a b = false ↔ a = b ∨ 2 ^ 31 ≤ (a.toNat + 2 ^ 32 - b.toNat) % 2 ^ 32)

/-- Once the store is READY, a read of a local point whose record is intact, whose pair is whole, and which neither a force, supervision nor the overlay changes,
answers OK and the record and changes nothing else; an unbound one answers OK and its ABSENT record. A tag out of range answers UNIT_ABSENT and the record of
zeros with quality 0xC000 and the CRC over bytes 0 to 59, counts and posts POINT_RANGE. Before READY the answer is BUSY. An access port's READ puts the
sixteen words of the same record into its data words with OK; while it is BUSY a command is ignored. -/
def Obligations.PointReads : Prop :=
  let plain := fun (m : Chip) (tag : BitVec 40) => let r := m.pt (tagIdx tag)
    m.on R.POINT_STAT_READY = true ∧ m.local tag = true ∧ m.outOfRange tag = false ∧ r.intact = true ∧ m.overlayOf (tagIdx tag) = none ∧
    (r.desc = 0 ∨ ((m.descOfRec r).ok = true ∧ (m.descOfRec r).fresh = 0 ∧ ((m.descOfRec r).critical = true → r.second = ~~~r.value)))
  (∀ port tag, Turns (.pointRead port tag) (fun m => plain m tag) (fun m => m.emit (.point CC.ok (some (m.pt (tagIdx tag)))))) ∧
  (∀ port tag, Shows (.pointRead port tag) (fun m => m.on R.POINT_STAT_READY = true ∧ m.outOfRange tag = true) (fun m t =>
    (∃ l, t.out = m.out ++ l ++ [.point CC.absent (some unboundRec)]) ∧ unboundRec.image = List.replicate 24 0 ++ [0x00, 0xC0] ++ List.replicate 34 0 ++
      le 4 (crc32c (List.replicate 24 0 ++ [0x00, 0xC0] ++ List.replicate 34 0)).toNat ∧
    t.get R.POINT_RANGE_CNT = min 0xFFFFFFFF (m.get R.POINT_RANGE_CNT + 1) ∧ t.pts = m.pts ∧
    SameRegs [R.POINT_RANGE_CNT.addr, R.POINT_STAT.addr] m t)) ∧
  (∀ port tag, Turns (.pointRead port tag) (fun m => m.on R.POINT_STAT_READY = false) (fun m => m.emit (.point CC.busy none))) ∧
  (∀ p : Fin 3, Turns (.accRead p) (fun m => m.on (R.POINT_ACC_STAT_BUSY p.val) = false ∧ plain m (m.accTag p.val)) (fun m =>
    let l := (m.pt (tagIdx (m.accTag p.val))).image
    (((List.range 16).foldl (fun a w => a.put (R.POINT_ACC_DATA p.val w) (fld l (4 * w) 4)) m).put (R.POINT_ACC_STAT_BUSY p.val) 0).put
      (R.POINT_ACC_STAT_CODE p.val) 0)) ∧
  (∀ (p : Fin 3) good, ∀ c ∈ ([.accRead p, .accWrite p, .force p good, .unforce p, .subst p, .unsubst p, .clrchg p] : List Instr),
    Turns c (fun m => m.on (R.POINT_ACC_STAT_BUSY p.val) = true) id ∧
    Turns c (fun m => m.on (R.POINT_ACC_STAT_BUSY p.val) = false ∧ m.on R.POINT_STAT_READY = false)
      (fun m => (m.put (R.POINT_ACC_STAT_BUSY p.val) 0).put (R.POINT_ACC_STAT_CODE p.val) 0xE))

/-- An admitted HOST or UNIT write of a BITS64 point without a range answers OK; the record takes the value, the second value (the complement of a critical point,
the secondary where the descriptor keeps one, else 0), the stamp, the quality GOOD (of a UNIT write its own), SRC, the next generation and a valid CRC. A
write to an unbound point answers CHECK_FAILED and counts; one whose source the mask leaves out answers CHECK_FAILED, counts, sets REJECT_LAST and keeps value
and quality; a broken pair answers PAIR_FAULT and keeps the stored bytes; a FIELD number that is not newer answers DUPLICATE; a forced point holds the write,
its value kept. No other record changes. -/
def Obligations.PointWrites : Prop :=
  let here := fun (m : Chip) (tag : BitVec 40) => m.on R.POINT_STAT_READY = true ∧ m.local tag = true ∧ m.outOfRange tag = false ∧
    m.overlayOf (tagIdx tag) = none
  let rec_ := fun (m : Chip) (tag : BitVec 40) => m.pt (tagIdx tag)
  let desc := fun (m : Chip) (tag : BitVec 40) => m.descOfRec (m.pt (tagIdx tag))
  let bound := fun (m : Chip) (tag : BitVec 40) => here m tag ∧ (rec_ m tag).desc ≠ 0 ∧ (desc m tag).ok = true ∧
    ((desc m tag).critical = true → (rec_ m tag).second = ~~~(rec_ m tag).value)
  let rest := fun (m t : Chip) (tag : BitVec 40) => ∀ j, j ≠ tagIdx tag → t.pt j = m.pt j
  (∀ port (w : PtWrite), w.src = .host ∨ w.src = .unit → Shows (.pointWrite port w)
    (fun m => bound m w.tag ∧ (desc m w.tag).mask.testBit w.src.code = true ∧ (desc m w.tag).typ = 7 ∧ (desc m w.tag).range = false ∧
      ((desc m w.tag).critical = true → w.second = ~~~w.value) ∧ m.force (tagIdx w.tag) = none)
    (fun m t => let r := rec_ t w.tag
      (∃ l, t.out = m.out ++ l ++ [.point CC.ok none]) ∧ rest m t w.tag ∧ r.intact = true ∧ r.value = w.value ∧
      r.second = (if (desc m w.tag).critical || (desc m w.tag).secondary then w.second else 0) ∧
      r.quality = (if w.src = .unit then w.quality else 0) ∧ r.stamp = m.stamp ∧ r.srcCode = w.src.code ∧ r.gen = (rec_ m w.tag).gen + 1 ∧
      r.flag 6 = false ∧ r.desc = (rec_ m w.tag).desc ∧ r.route = (rec_ m w.tag).route ∧ r.seq = (rec_ m w.tag).seq)) ∧
  (∀ port (w : PtWrite), Turns (.pointWrite port w) (fun m => here m w.tag ∧ (rec_ m w.tag).desc = 0)
    (fun m => (m.ptCount 3).emit (.point CC.checkFailed none))) ∧
  (∀ port (w : PtWrite), Shows (.pointWrite port w) (fun m => bound m w.tag ∧ (desc m w.tag).mask.testBit w.src.code = false)
    (fun m t => (∃ l, t.out = m.out ++ l ++ [.point CC.checkFailed none]) ∧ rest m t w.tag ∧ (rec_ t w.tag).flag 6 = true ∧
      (rec_ t w.tag).value = (rec_ m w.tag).value ∧ (rec_ t w.tag).quality = (rec_ m w.tag).quality ∧
      t.get R.POINT_REJECT_CNT = min 0xFFFFFFFF (m.get R.POINT_REJECT_CNT + 1))) ∧
  (∀ port (w : PtWrite), Shows (.pointWrite port w) (fun m => bound m w.tag ∧ (desc m w.tag).mask.testBit w.src.code = true ∧
      (desc m w.tag).critical = true ∧ 4 ≤ (desc m w.tag).typ ∧ w.second ≠ ~~~w.value ∧ (w.src = .program → (desc m w.tag).owner = 0xFFFF))
    (fun m t => (∃ l, t.out = m.out ++ l ++ [.point CC.pairFault none]) ∧ rest m t w.tag ∧ (rec_ t w.tag).value = (rec_ m w.tag).value ∧
      (rec_ t w.tag).second = (rec_ m w.tag).second ∧ (rec_ t w.tag).flag 6 = true ∧ Q.has (rec_ t w.tag).quality 3 = true ∧
      2 ≤ (rec_ t w.tag).quality.toNat / 2 ^ 14 ∧ t.get R.POINT_PAIR_CNT = min 0xFFFFFFFF (m.get R.POINT_PAIR_CNT + 1))) ∧
  (∀ port (w : PtWrite), w.src = .field → Shows (.pointWrite port w) (fun m => bound m w.tag ∧ (desc m w.tag).mask.testBit 0 = true ∧
      (desc m w.tag).critical = false ∧ (rec_ m w.tag).srcCode = 0 ∧ Q.has (rec_ m w.tag).quality 8 = false ∧ newer w.seq (rec_ m w.tag).seq = false)
    (fun m t => (∃ l, t.out = m.out ++ l ++ [.point CC.duplicate none]) ∧ rest m t w.tag ∧ (rec_ t w.tag).value = (rec_ m w.tag).value)) ∧
  (∀ port (w : PtWrite) f, w.src = .host ∨ w.src = .unit → Shows (.pointWrite port w) (fun m => bound m w.tag ∧
      (desc m w.tag).mask.testBit w.src.code = true ∧ (desc m w.tag).critical = false ∧ m.force (tagIdx w.tag) = some f ∧ f.subst = false)
    (fun m t => (∃ l, t.out = m.out ++ l ++ [.point CC.ok none]) ∧ rest m t w.tag ∧ (rec_ t w.tag).value = (rec_ m w.tag).value ∧
      (rec_ t w.tag).quality = (rec_ m w.tag).quality ∧ (rec_ t w.tag).flag 8 = true ∧
      ∃ h, (t.force (tagIdx w.tag)).bind Force.held = some h ∧ h.src = w.src ∧ h.stamp = m.stamp ∧
        h.value = ((desc m w.tag).widen w.value w.second).1)) ∧
  (∀ p : Fin 3, Shows (.accWrite p)
    (fun m => let tag := m.accTag p.val
      bound m tag ∧ m.on (R.POINT_ACC_STAT_BUSY p.val) = false ∧ (desc m tag).mask.testBit 2 = true ∧ (desc m tag).typ = 7 ∧
      (desc m tag).range = false ∧ (desc m tag).critical = false ∧ m.force (tagIdx tag) = none)
    (fun m t => let r := rec_ t (m.accTag p.val)
      r.value = m.get64 (R.POINT_ACC_DATA p.val 0) ∧ r.quality = 0 ∧ r.srcCode = 2 ∧ r.stamp = m.stamp ∧ rest m t (m.accTag p.val) ∧
      t.get (R.POINT_ACC_STAT_CODE p.val) = 0 ∧ t.get (R.POINT_ACC_STAT_BUSY p.val) = 0))

/-- On a FORCEABLE point that is free, FORCE stores the value of data words 0 and 1 with SRC FORCE and quality FORCED, UNCERTAIN or, with QGOOD, GOOD; SUBST does
so with SRC SUBSTITUTE and SUBSTITUTED; each takes one force-table entry that keeps what the point had. UNFORCE of a force that holds no write gives the
value, quality and stamp back and frees the entry; the same for UNSUBST of a substitution. Either on a point that is not held completes with OK, and on one
that the other kind holds with CHECK_FAILED, and changes nothing else. A force of a point without FORCEABLE completes with CHECK_FAILED. CLRCHG clears CHG. -/
def Obligations.ForcesAndSubstitutions : Prop :=
  let idx := fun (m : Chip) (p : Fin 3) => tagIdx (m.accTag p.val)
  let ready := fun (m : Chip) (p : Fin 3) => m.on (R.POINT_ACC_STAT_BUSY p.val) = false ∧ m.on R.POINT_STAT_READY = true ∧
    m.local (m.accTag p.val) = true ∧ m.outOfRange (m.accTag p.val) = false ∧ m.overlayOf (idx m p) = none
  let desc := fun (m : Chip) (p : Fin 3) => m.descOfRec (m.pt (idx m p))
  let bound := fun (m : Chip) (p : Fin 3) => ready m p ∧ (m.pt (idx m p)).desc ≠ 0 ∧ (desc m p).ok = true
  let done := fun (code : Nat) (p : Fin 3) (m : Chip) => (m.put (R.POINT_ACC_STAT_BUSY p.val) 0).put (R.POINT_ACC_STAT_CODE p.val) code
  let rest := fun (m t : Chip) (p : Fin 3) => (∀ j, j ≠ idx m p → t.pt j = m.pt j) ∧ t.get (R.POINT_ACC_STAT_CODE p.val) = 0
  (∀ (p : Fin 3) c subst q src, (c, subst, q, src) ∈ [(Instr.force p false, false, (0x4002 : Half), 5), (.force p true, false, 0x0002, 5),
      (.subst p, true, 0x4004, 6)] →
    Shows c (fun m => bound m p ∧ (desc m p).forceable = true ∧ (desc m p).typ = 7 ∧ (desc m p).critical = false ∧ m.force (idx m p) = none ∧
        m.pts.forces.length < 4096)
      (fun m t => let r := t.pt (idx m p); let o := m.pt (idx m p)
        rest m t p ∧ r.value = m.get64 (R.POINT_ACC_DATA p.val 0) ∧ r.quality = q ∧ r.srcCode = src ∧ r.intact = true ∧
        t.force (idx m p) = some { subst := subst, value := o.value, second := o.second, quality := o.quality, stamp := o.stamp, flags := o.flags })) ∧
  (∀ (p : Fin 3) c subst f, (c, subst) ∈ [(Instr.unforce p, false), (.unsubst p, true)] →
    Shows c (fun m => bound m p ∧ m.force (idx m p) = some f ∧ f.subst = subst ∧ f.held = none)
      (fun m t => let r := t.pt (idx m p)
        rest m t p ∧ r.value = f.value ∧ r.second = f.second ∧ r.quality = f.quality ∧ r.stamp = f.stamp ∧ r.flag 8 = false ∧
        t.force (idx m p) = none)) ∧
  (∀ (p : Fin 3), ∀ c ∈ ([.unforce p, .unsubst p] : List Instr), Turns c (fun m => ready m p ∧ m.force (idx m p) = none) (done 0 p)) ∧
  (∀ (p : Fin 3) c subst f, (c, subst) ∈ [(Instr.unforce p, true), (.unsubst p, false)] →
    Turns c (fun m => ready m p ∧ m.force (idx m p) = some f ∧ f.subst = subst) (done 8 p)) ∧
  (∀ (p : Fin 3) good, ∀ c ∈ ([.force p good, .subst p] : List Instr),
    Turns c (fun m => bound m p ∧ (desc m p).forceable = false) (done 8 p)) ∧
  (∀ p : Fin 3, Shows (.clrchg p) (fun m => bound m p)
    (fun m t => rest m t p ∧ (t.pt (idx m p)).flag 1 = false ∧ (t.pt (idx m p)).value = (m.pt (idx m p)).value ∧
      (t.pt (idx m p)).quality = (m.pt (idx m p)).quality ∧ (t.pt (idx m p)).gen = (m.pt (idx m p)).gen + 1))

/-- With BG_EN and a rate above 0, a sweep visit goes to the next point with supervision above the last one and makes a record SOURCE_LOST and BAD once its age
passes the loss time; a scrub visit goes to the next critical point and marks, counts and posts a broken pair once. A visit that finds the record's CRC broken
rebuilds the record from its binding as BAD with INIT. With a rate of 0 or BG_EN 0 there is no visit. The fold writes the oldest overlay entry's value, second
value, quality and stamp into its record, with SRC PLAN and the next generation, and removes the entry. -/
def Obligations.PointBackground : Prop :=
  let bg := fun (m : Chip) => m.on R.POINT_STAT_READY = true ∧ m.on R.POINT_CFG_BG_EN = true
  (∀ i, Shows .sweepVisit
    (fun m => bg m ∧ m.get R.POINT_BG_SWEEP_RATE ≠ 0 ∧ nextVisit (m.kindOf (fun d => d.fresh != 0)) m.pts.sweepAt = some i ∧ (m.pt i).intact = true ∧
      (m.descOfRec (m.pt i)).ok = true ∧ (m.descOfRec (m.pt i)).critical = false ∧ (m.descOfRec (m.pt i)).autoSubst = false ∧
      m.overlayOf i = none ∧ m.force i = none ∧ (m.pt i).stamp.toNat + (m.descOfRec (m.pt i)).loss * 1000000 < m.now)
    (fun m t => t.pts.sweepAt = some i ∧ Q.has (t.pt i).quality 6 = true ∧ Q.has (t.pt i).quality 0 = true ∧
      2 ≤ (t.pt i).quality.toNat / 2 ^ 14 ∧ (t.pt i).value = (m.pt i).value ∧ ∀ j, j ≠ i → t.pt j = m.pt j)) ∧
  (∀ i, Shows .scrubVisit
    (fun m => bg m ∧ m.get R.POINT_BG_SCRUB_RATE ≠ 0 ∧ nextVisit (m.kindOf Desc.critical) m.pts.scrubAt = some i ∧ (m.pt i).intact = true ∧
      (m.descOfRec (m.pt i)).ok = true ∧ (m.descOfRec (m.pt i)).critical = true ∧ (m.pt i).desc ≠ 0 ∧ (m.pt i).second ≠ ~~~(m.pt i).value ∧
      Q.has (m.pt i).quality 3 = false)
    (fun m t => t.pts.scrubAt = some i ∧ Q.has (t.pt i).quality 3 = true ∧ (t.pt i).value = (m.pt i).value ∧ (t.pt i).second = (m.pt i).second ∧
      t.get R.POINT_PAIR_CNT = min 0xFFFFFFFF (m.get R.POINT_PAIR_CNT + 1) ∧ ∀ j, j ≠ i → t.pt j = m.pt j)) ∧
  (∀ i, Shows .scrubVisit
    (fun m => bg m ∧ m.get R.POINT_BG_SCRUB_RATE ≠ 0 ∧ nextVisit (m.kindOf Desc.critical) m.pts.scrubAt = some i ∧ (m.pt i).intact = false ∧
      (m.bindOf i).1 ≠ 0 ∧ (m.desc (m.bindOf i).1).ok = true)
    (fun m t => (t.pt i).value = 0 ∧ (t.pt i).quality = 0x8100 ∧ (t.pt i).gen = (m.pt i).gen + 1 ∧ (t.pt i).intact = true ∧
      t.get R.POINT_CRC_CNT = min 0xFFFFFFFF (m.get R.POINT_CRC_CNT + 1))) ∧
  (∀ e ∈ [(Instr.sweepVisit, R.POINT_BG_SWEEP_RATE), (.scrubVisit, R.POINT_BG_SCRUB_RATE)],
    Turns e.1 (fun m => m.on R.POINT_CFG_BG_EN = false ∨ m.get e.2 = 0) id) ∧
  (∀ o l, Shows .overlayFold (fun m => m.pts.overlay = o :: l ∧ (∀ x ∈ l, x.idx ≠ o.idx) ∧ (m.pt o.idx).desc ≠ 0)
    (fun m t => t.pts.overlay = l ∧ (t.pt o.idx).value = o.value ∧ (t.pt o.idx).second = o.second ∧ (t.pt o.idx).quality = o.quality ∧
      (t.pt o.idx).stamp = o.stamp ∧ (t.pt o.idx).srcCode = 4 ∧ (t.pt o.idx).gen = (m.pt o.idx).gen + 1 ∧
      ∀ j, j ≠ o.idx → t.pt j = m.pt j)) ∧
  Turns .overlayFold (fun m => m.pts.overlay = []) id

/-- On channels 1 to 3, GO on a bank that holds anything, with no commit pending, makes it the pending set with the mode, task, instant, check program and limit
of that moment (0 ms acts as 10, above 1,000 as 1,000), leaves the bank empty and shows PENDING and phase 1. GO on an empty bank answers OK at once; GO with a
commit pending answers BUSY and keeps bank and commit. DISCARD empties the bank and leaves the pending commit. ABORT of a pending commit answers SUPERSEDED
with ABORTED and none is pending; with none pending it changes nothing. While the boot runs, GO on channel 0 answers BUSY. -/
def Obligations.CommitSets : Prop :=
  let res := fun (k : Nat) (code : Nat) (m : Chip) =>
    (m.setReg (R.COMMIT_RES k).addr (BitVec.ofNat 32 (2 ^ 31 + code))).put64 (R.COMMIT_RES_OBJ_LO k) 0
  (∀ k : Fin 4, k.val ≠ 0 → Shows (.commitGo k) (fun m => m.pend k.val = none ∧ m.bank k.val ≠ {}) (fun m t =>
    t.bank k.val = {} ∧ t.get (R.COMMIT_STAT_PENDING k.val) = 1 ∧ t.get (R.COMMIT_STAT_PHASE k.val) = 1 ∧ SameBytes m t ∧
    ∃ p, t.pend k.val = some p ∧ p.set = m.bank k.val ∧ p.mode = m.get (R.COMMIT_MODE_MODE k.val) ∧ p.task = m.get (R.COMMIT_MODE_TASK k.val) ∧
      p.instant = m.get64 (R.COMMIT_AT_LO k.val) ∧ p.entry = m.get (R.COMMIT_CHK_ENTRY k.val) ∧
      p.limit = (if m.get (R.COMMIT_CHK_LIMIT k.val) = 0 then 10 else min (m.get (R.COMMIT_CHK_LIMIT k.val)) 1000))) ∧
  (∀ k : Fin 4, Turns (.commitGo k) (fun m => m.pend k.val = none ∧ m.bank k.val = {} ∧ (k.val = 0 → m.booting = false)) (res k.val 0)) ∧
  (∀ k : Fin 4, Turns (.commitGo k) (fun m => (m.pend k.val).isSome = true ∧ (k.val = 0 → m.booting = false)) (res k.val 0xE)) ∧
  Turns (.commitGo 0) (fun m => m.booting = true) (res 0 0xE) ∧
  (∀ k : Fin 4, Shows (.discard k) (fun _ => True) (fun m t => t.bank k.val = {} ∧ t.pend k.val = m.pend k.val ∧ SameBytes m t)) ∧
  (∀ k : Fin 4, Shows (.commitAbort k) (fun m => (m.pend k.val).isSome = true ∧ m.boot.running = false ∧ m.phase k.val ≠ 2) (fun _ t =>
    t.pend k.val = none ∧ t.get (R.COMMIT_RES_CODE k.val) = 6 ∧ t.get (R.COMMIT_RES_ABORTED k.val) = 1 ∧ t.get (R.COMMIT_STAT_PENDING k.val) = 0)) ∧
  (∀ k : Fin 4, Turns (.commitAbort k) (fun m => m.pend k.val = none ∧ m.boot.running = false) id)

/-- For a commit outside the boot: a set that fails a rule of C1 to C10 ends, and reports the code, rule, unit and object of that verdict; one that passes and
names no check program goes to preparation; one whose ENTRY names no loaded check program ends with CHECK_FAILED, rule 11 and ENTRY as object. A check program
that outlives its limit ends the commit with CHECK_FAILED and CHK_TRAP. Preparation that ends after an AT instant ends it with DEADLINE and rule 12; else it
waits. A wait for a task boundary ends with TIMEOUT after twice the period and 1 s. A channel 1 set without points applies at its instant: APPLIED takes it,
GEN goes up by one modulo 2^32, and the result is OK. A due channel 0 commit whose set holds one word for a Staged register of the transaction engine
(TXN_CTL) or of the store (POINT_BG) and nothing else gives that register the set's word, in its Staged fields, and reports OK; APPLIED takes the league time
and GEN goes up by one modulo 2^32. -/
def Obligations.CommitPhases : Prop :=
  (let calm := fun (m : Chip) => m.boot.running = false
   let ended := fun (k : Nat) (t : Chip) (code rule : Nat) => t.pend k = none ∧ t.get (R.COMMIT_RES_DONE k) = 1 ∧ t.get (R.COMMIT_RES_CODE k) = code ∧
     t.get (R.COMMIT_RES_RULE k) = rule ∧ t.get (R.COMMIT_STAT_PENDING k) = 0 ∧ t.get (R.COMMIT_STAT_PHASE k) = 0
   (∀ (k : Fin 4) p v, v.rule < 16 → v.unit < 256 → Shows (.commitRulesDone k)
     (fun m => calm m ∧ m.pend k.val = some p ∧ m.phase k.val = 1 ∧ p.awaitTwin = false ∧ p.verdict = some v)
     (fun _ t => ended k.val t v.code.toNat v.rule ∧ t.get (R.COMMIT_RES_UNIT k.val) = v.unit ∧ t.get64 (R.COMMIT_RES_OBJ_LO k.val) = v.object)) ∧
   (∀ (k : Fin 4) p, Shows (.commitRulesDone k)
     (fun m => calm m ∧ m.pend k.val = some p ∧ m.phase k.val = 1 ∧ p.awaitTwin = false ∧ p.verdict = none ∧ p.entry = 0)
     (fun _ t => t.pend k.val = some p ∧ t.get (R.COMMIT_STAT_PHASE k.val) = 3)) ∧
   (∀ (k : Fin 4) p, Shows (.commitRulesDone k)
     (fun m => calm m ∧ m.pend k.val = some p ∧ m.phase k.val = 1 ∧ p.awaitTwin = false ∧ p.verdict = none ∧ p.entry ≠ 0 ∧ m.imageAt p.entry = none)
     (fun _ t => ended k.val t 8 11 ∧ t.get (R.COMMIT_RES_CHK_TRAP k.val) = 0 ∧ t.get64 (R.COMMIT_RES_OBJ_LO k.val) = BitVec.ofNat 64 p.entry)) ∧
   (∀ (k : Fin 4) p, Shows (.checkLimitExpiry k)
     (fun m => calm m ∧ m.pend k.val = some p ∧ m.phase k.val = 2 ∧ p.checkAt + p.limit * 1000000 ≤ m.now)
     (fun _ t => ended k.val t 8 11 ∧ t.get (R.COMMIT_RES_CHK_TRAP k.val) = 1)) ∧
   (∀ (k : Fin 4) p, Shows (.commitPrepDone k)
     (fun m => calm m ∧ m.pend k.val = some p ∧ m.phase k.val = 3 ∧ p.set.points = [] ∧ m.pts.overlay.length ≤ 2097152 ∧ p.mode = 2 ∧
       p.instant.toNat * 2 ^ 32 < m.clk.league)
     (fun _ t => ended k.val t 3 12)) ∧
   (∀ (k : Fin 4) p, Shows (.commitPrepDone k)
     (fun m => calm m ∧ m.pend k.val = some p ∧ m.phase k.val = 3 ∧ p.set.points = [] ∧ m.pts.overlay.length ≤ 2097152 ∧ p.mode ≠ 2)
     (fun m t => t.get (R.COMMIT_STAT_PHASE k.val) = 4 ∧ t.pend k.val = some { p with waitFrom := m.monoNs, taskEnded := false })) ∧
   (∀ (k : Fin 4) p, Shows (.commitTaskTimeout k)
     (fun m => calm m ∧ m.pend k.val = some p ∧ m.phase k.val = 4 ∧ p.mode = 1 ∧ p.waitFrom + 2 * (m.taskEnt p.task).period * 1000 + 1000000000 ≤ m.monoNs)
     (fun _ t => ended k.val t 2 0)) ∧
   (∀ p, Shows (.commitApply 1)
     (fun m => calm m ∧ m.pend 1 = some p ∧ m.phase 1 = 4 ∧ p.set.points = [] ∧
       (p.mode = 0 ∨ (p.mode = 1 ∧ p.taskEnded = true) ∨ (p.mode = 2 ∧ p.instant.toNat * 2 ^ 32 ≤ m.clk.league)))
     (fun m t => ended 1 t 0 0 ∧ t.get64 (R.COMMIT_APPLIED_LO 1) = m.stamp ∧
       t.get (R.COMMIT_GEN 1) = (m.get (R.COMMIT_GEN 1) + 1) % 2 ^ 32 ∧ t.get (R.COMMIT_RES_PT_REJ 1) = 0)) ∧
   (∀ k : Fin 4, Turns (.commitApply k) (fun m => calm m ∧ m.pend k.val = none ∧ assoc m.com.pend (16 + k.val) = none) id)) ∧
  (∀ p w, ∀ f ∈ [R.TXN_CTL, R.POINT_BG], Shows (.commitApply 0)
     (fun m => m.boot.running = false ∧ m.pend 0 = some p ∧ m.phase 0 = 4 ∧ p.mode = 0 ∧ p.set = { regs := [(f.addr, w)] })
     (fun m t => t.reg f.addr = merge f.addr (m.reg f.addr) w ∧ t.pend 0 = none ∧ t.get (R.COMMIT_RES_CODE 0) = 0 ∧
       t.get64 (R.COMMIT_APPLIED_LO 0) = m.stamp ∧ t.get (R.COMMIT_GEN 0) = (m.get (R.COMMIT_GEN 0) + 1) % 2 ^ 32))

/-- A grid instant releases an enabled IDLE task: state SNAPSHOT, the release instant, its cycle number shown and the next one ready, MISS_RUN 0; one that finds
the cycle in progress is counted as missed, releases nothing and takes no number. An ended snapshot makes the task READY; a VALUE entry puts the 8 bytes of
its point's good value into IN. An idle core takes the ready task that goes first, with the entry state of Table 4-2; a core keeps a task of equal or higher
priority. The end of a hand-off writes a VALUE output to its point as a PROGRAM write, shows the time since the release in LAST and the largest in MAX, clears
ABN_RUN and leaves the task IDLE. -/
def Obligations.TaskCycle : Prop :=
  let due := fun (m : Chip) (t inst : Nat) => (m.taskEnt t).gridAt m.now = some inst ∧ (m.taskEnt t).enabled = true ∧ m.leads = true ∧
    m.clusterOpen (m.taskEnt t).core = true ∧ (∀ g, (m.task t).gridDone = some g → g < inst)
  let point := fun (m : Chip) (tag : BitVec 40) => let r := m.pt (tagIdx tag)
    m.on R.POINT_STAT_READY = true ∧ m.local tag = true ∧ m.outOfRange tag = false ∧ r.intact = true ∧ m.overlayOf (tagIdx tag) = none ∧
    r.desc ≠ 0 ∧ (m.descOfRec r).ok = true ∧ (m.descOfRec r).fresh = 0 ∧ (m.descOfRec r).critical = false
  (∀ (t : Fin 256) inst, Shows (.taskRelease t)
    (fun m => due m t.val inst ∧ m.tState t.val = TS.idle ∧ (m.task t.val).swap = none ∧
      (∀ p, (m.task t.val).prevMono = some p → 500 * (m.taskEnt t.val).period ≤ m.monoNs - p))
    (fun m n => n.tState t.val = TS.snapshot ∧ (n.task t.val).release = BitVec.ofNat 64 inst ∧ (n.task t.val).gridDone = some inst ∧
      n.get (R.SCAN_TS_CYCLES t.val) = (m.task t.val).next.toNat ∧ (n.task t.val).next = (m.task t.val).next + 1 ∧
      n.get (R.SCAN_TS_STATE_MISS_RUN t.val) = 0 ∧ (n.task t.val).ent = m.taskEnt t.val)) ∧
  (∀ (t : Fin 256) inst, Shows (.taskRelease t) (fun m => due m t.val inst ∧ m.inCycle t.val = true)
    (fun m n => n.tState t.val = m.tState t.val ∧ (n.task t.val).next = (m.task t.val).next ∧ (n.task t.val).release = (m.task t.val).release ∧
      n.get (R.SCAN_TS_MISS t.val) = min 0xFFFFFFFF (m.get (R.SCAN_TS_MISS t.val) + 1) ∧
      n.get (R.SCAN_TS_STATE_MISS_RUN t.val) = min 255 (m.get (R.SCAN_TS_STATE_MISS_RUN t.val) + 1))) ∧
  (∀ t : Fin 256, Turns (.taskRelease t) (fun m => (m.taskEnt t.val).gridAt m.now = none ∨ (m.taskEnt t.val).enabled = false) id) ∧
  (∀ t : Fin 256, Shows (.snapshotDone t) (fun m => m.tState t.val = TS.snapshot ∧ (m.task t.val).imap = [])
    (fun _ n => n.tState t.val = TS.ready ∧ n.get (R.SCAN_TS_FORCED_FORCED_IN t.val) = 0)) ∧
  (∀ (t : Fin 256) e, Shows (.snapshotDone t) (fun m => m.tState t.val = TS.snapshot ∧ (m.task t.val).imap = [e] ∧ e.kind = 1 ∧ point m e.tag)
    (fun m n => n.tState t.val = TS.ready ∧ n.rd (.data t.val) (0x10000000 + e.addr) 8 = (m.pt (tagIdx e.tag)).value.toNat)) ∧
  (∀ (c : Fin 32) t, Shows (.taskDispatch c) (fun m => m.nextReady c.val = some t ∧ (m.core c.val).level = none ∧ (m.task t).ctx = none)
    (fun m n => let k := n.core c.val
      n.tState t = TS.running ∧ n.get (R.SCAN_TS_STATE_CORE t) = c.val ∧ k.level = some .task ∧ k.prog = t ∧ k.img = (m.task t).img ∧
      k.pc = (m.task t).img.entry ∧ k.ltime = (m.task t).release ∧ k.budget = (m.task t).ent.budget ∧ k.gr 1 = BitVec.ofNat 64 t ∧
      k.gr 2 = BitVec.ofNat 64 (m.get (R.SCAN_TS_CYCLES t)) ∧ k.gr 3 = (m.task t).release ∧ (∀ i, 3 < i → k.gr i = 0) ∧
      (∀ i, k.fr i = 0) ∧ k.ba = false ∧ k.bs = [] ∧ k.wa = 0 ∧ k.wb = 0)) ∧
  (∀ (c : Fin 32) t, Turns (.taskDispatch c) (fun m => m.nextReady c.val = none ∨ (m.nextReady c.val = some t ∧ (m.core c.val).level.isSome = true ∧
    (m.task (m.core c.val).prog).ent.prio ≤ (m.task t).ent.prio)) id) ∧
  (∀ t : Fin 256, Shows (.handoffDone t)
    (fun m => let k := m.task t.val
      m.tState t.val = TS.handoff ∧ k.buf = [] ∧ k.swap = none ∧ k.faultReq = false ∧ k.stopReq = false ∧ m.clusterOpen k.ent.core = true ∧
      (m.monoNs - k.releasedAt) / 1000 < 2 ^ 32)
    (fun m n => n.tState t.val = TS.idle ∧ n.get (R.SCAN_TS_LAST t.val) = (m.monoNs - (m.task t.val).releasedAt) / 1000 ∧
      n.get (R.SCAN_TS_MAX t.val) = max ((m.monoNs - (m.task t.val).releasedAt) / 1000) (m.get (R.SCAN_TS_MAX t.val)) ∧
      n.get (R.SCAN_TS_STATE_ABN_RUN t.val) = 0)) ∧
  (∀ (t : Fin 256) e v, Shows (.handoffDone t)
    (fun m => m.tState t.val = TS.handoff ∧ (m.task t.val).buf = [(e, v, 0)] ∧ e.kind = 1 ∧ m.leads = true ∧ point m e.tag ∧
      (m.descOfRec (m.pt (tagIdx e.tag))).mask.testBit 3 = true ∧ (m.descOfRec (m.pt (tagIdx e.tag))).owner ∈ [t.val, 0xFFFF] ∧
      (m.descOfRec (m.pt (tagIdx e.tag))).typ = 7 ∧ (m.descOfRec (m.pt (tagIdx e.tag))).range = false ∧ m.force (tagIdx e.tag) = none)
    (fun m n => let r := n.pt (tagIdx e.tag)
      r.value = v ∧ r.srcCode = 3 ∧ r.quality = 0 ∧ r.stamp = m.stamp ∧ ∀ j, j ≠ tagIdx e.tag → n.pt j = m.pt j))

/-- START of a STOPPED enabled task makes it IDLE; STOP of a task in a cycle waits for its boundary, and of an IDLE or HELD one stops it at once; RESET_FAULT
makes a FAULTED task STOPPED and clears MISS_RUN and ABN_RUN; each answers OK. A command that does not fit answers CHECK_FAILED, and one while a STOP waits
answers BUSY; both change nothing else. SCAN_TS_MAX is cleared by 0 and by nothing else. A held set whose lifetime has passed expires. A pending switch of a
task outside a cycle gives it the new image and ends the switch. The twin's verdict, or 100 ms without it, ends the wait for it: refused, the commit fails
rule 9. -/
def Obligations.TaskControl : Prop :=
  let res := fun (t pending code : Nat) (m : Chip) =>
    ((m.put R.SCAN_TCMD_TASK t).put R.SCAN_TCMD_RES_PENDING pending).put R.SCAN_TCMD_RES_CODE code
  let ok := fun (t pending : Nat) (n : Chip) =>
    n.get R.SCAN_TCMD_TASK = t ∧ n.get R.SCAN_TCMD_RES_PENDING = pending ∧ n.get R.SCAN_TCMD_RES_CODE = 0
  (∀ t : Fin 256, Shows (.scanStart t)
    (fun m => (m.task t.val).stopReq = false ∧ (m.taskEnt t.val).enabled = true ∧ m.tState t.val = TS.stopped)
    (fun _ n => n.tState t.val = TS.idle ∧ ok t.val 0 n)) ∧
  (∀ t : Fin 256, Turns (.scanStop t)
    (fun m => (m.task t.val).stopReq = false ∧ (m.taskEnt t.val).enabled = true ∧ m.inCycle t.val = true)
    (fun m => res t.val 1 0 (m.setTask t.val { m.task t.val with stopReq := true }))) ∧
  (∀ t : Fin 256, Shows (.scanStop t)
    (fun m => (m.task t.val).stopReq = false ∧ (m.task t.val).swap = none ∧ (m.taskEnt t.val).enabled = true ∧ m.tState t.val ∈ [TS.idle, TS.held])
    (fun _ n => n.tState t.val = TS.stopped ∧ ok t.val 0 n)) ∧
  (∀ t : Fin 256, Shows (.resetFault t)
    (fun m => (m.task t.val).stopReq = false ∧ (m.taskEnt t.val).enabled = true ∧ m.tState t.val = TS.faulted)
    (fun _ n => n.tState t.val = TS.stopped ∧ n.get (R.SCAN_TS_STATE_MISS_RUN t.val) = 0 ∧ n.get (R.SCAN_TS_STATE_ABN_RUN t.val) = 0 ∧ ok t.val 0 n)) ∧
  (∀ t : Fin 256, ∀ e ∈ [(Instr.scanStart t, fun st => st ≠ TS.stopped), (.resetFault t, fun st => st ≠ TS.faulted),
      (.scanStop t, fun st => st = TS.stopped ∨ st = TS.faulted)],
    Turns e.1 (fun m => (m.task t.val).stopReq = true) (res t.val 1 0xE) ∧
    Turns e.1 (fun m => (m.task t.val).stopReq = false ∧ ((m.taskEnt t.val).enabled = false ∨ e.2 (m.tState t.val))) (res t.val 0 8)) ∧
  (∀ t : Fin 256, Turns (.scanTsMaxClear t 0) (fun _ => True) (fun m => m.put (R.SCAN_TS_MAX t.val) 0)) ∧
  (∀ (t : Fin 256) v, v ≠ 0 → Turns (.scanTsMaxClear t v) (fun _ => True) id) ∧
  (∀ n g (h : HeldOut), Shows (.outputLifetimeExpiry n g) (fun m => m.txn.held = [h] ∧ h.station = n.toNat ∧ h.group = g ∧ h.expired = false ∧
    h.since + h.life ≤ m.monoNs) (fun _ t => t.txn.held = [{ h with expired := true, payload := [] }])) ∧
  (∀ n g, Turns (.outputLifetimeExpiry n g) (fun m => ∀ h ∈ m.txn.held, h.station = n.toNat → h.group = g → m.monoNs < h.since + h.life) id) ∧
  (∀ (t : Fin 256) s, Shows (.colSwapSwitch t)
    (fun m => (m.task t.val).swap = some s ∧ m.inCycle t.val = false ∧ (m.standby && m.paired) = false)
    (fun _ n => (n.task t.val).img = s.img ∧ (n.task t.val).swap = none ∧ (n.task t.val).firstNew = true ∧
      n.get (R.SCAN_SW_STAT_PENDING t.val) = 0)) ∧
  (∀ t : Fin 256, Turns (.colSwapSwitch t) (fun m => (m.task t.val).swap = none ∨ m.inCycle t.val = true) id) ∧
  (∀ p, Turns (.standbySwapVerdict true) (fun m => m.pend 0 = some p ∧ p.awaitTwin = true) (fun m => m.setPend 0 { p with awaitTwin := false })) ∧
  (∀ c ∈ ([.standbySwapVerdict false, .swapVerdictTimeout] : List Instr), ∀ p, Shows c
    (fun m => m.pend 0 = some p ∧ p.awaitTwin = true ∧ m.pairedActive = true ∧ m.syncState = 3 ∧ p.waitFrom + 100000000 ≤ m.monoNs)
    (fun _ t => ∃ q v, t.pend 0 = some q ∧ q.awaitTwin = false ∧ q.verdict = some v ∧ v.code = CC.checkFailed ∧ v.rule = 9)) ∧
  (∀ c ∈ ([.standbySwapVerdict true, .standbySwapVerdict false, .swapVerdictTimeout] : List Instr), Turns c (fun m => m.pend 0 = none) id)

/-- In WATCH with no supply point, no job and zone COOL, an evaluation shows temperature and power, computes the base power as the mean of the last readings (here
the first), the limit as the least of CAB_LIMIT, the profile's limit and 48,000 mW, and the rate as their difference, and the bucket gains one millisecond of
it, up to CAP. At 106 °C and above, zone becomes HOT, the rate is 0 and the lighting engine, the vault, the saddle link and the planner quadrants that are
open begin to drain. -/
def Obligations.GovernorEvaluates : Prop :=
  let quiet := fun (m : Chip) => m.get R.RIDGE_SUPPLY_TAG_LO = 0 ∧ m.get R.RIDGE_SUPPLY_TAG_HI = 0 ∧ m.get R.RIDGE_STAT_PROFILE = 0 ∧ m.ridge.jobs = [] ∧
    m.get R.RIDGE_STAT_STATE = 2 ∧ m.ridge.changing = none ∧ m.get R.RIDGE_STAT_ZONE = 0 ∧ m.ridge.samples = []
  let limit := fun (m : Chip) => min (m.get R.RIDGE_CAB_LIMIT_LIMIT) (min (m.get (R.RIDGE_PROF_LIM_LIMIT 0)) 48000)
  (∀ t mw, Shows (.governorEvaluation t mw)
    (fun m => quiet m ∧ t.toInt ≤ 4 * (m.get R.RIDGE_THERM_RIDGE : Int) - 4 * m.get R.RIDGE_THERM_BAND ∧ t.toInt < 4 * (m.get R.RIDGE_THERM_RIDGE : Int) ∧
      t.toInt < 424)
    (fun m n => n.get R.RIDGE_STAT_TEMP = t.toNat ∧ n.get R.RIDGE_POWER_MW = mw.toNat ∧ n.ridge.pBase = mw.toNat ∧ n.ridge.pLim = limit m ∧
      n.get R.RIDGE_RATE_MW = limit m - mw.toNat ∧ n.get R.RIDGE_STAT_ZONE = 0 ∧
      n.ridge.level = min m.cap (m.ridge.level + (limit m - mw.toNat : Nat)))) ∧
  (∀ t mw, Shows (.governorEvaluation t mw) (fun m => quiet m ∧ 424 ≤ t.toInt)
    (fun m n => n.get R.RIDGE_STAT_ZONE = 3 ∧ n.get R.RIDGE_RATE_MW = 0 ∧ n.ridge.level = min m.cap m.ridge.level ∧
      ∀ u ∈ [UK.quad 0, UK.quad 1, UK.quad 2, UK.quad 3, UK.lamp, UK.vault, UK.sadl], m.keyPresent u = true → m.unitOpen u = true →
        (n.unitRun u).draining = true))

/-- The domain that is switching becomes ready, leaves the list and the next one is switched on; another's ready changes nothing. With GATE_EN, a domain in use is
not gated, and one that has been idle for IDLE_MS is off. VDD_CORE takes the level that settles; a relocked cluster takes its clock. The change to WORK ends
once PD4 is ready and the voltage stands: 800 MHz, WORK or BURST; the change to HOLD ends with PD2 off once every present unit is disabled. With no change
under way nothing ends. A job of class 4 or 8 held for 60 s ends. -/
def Obligations.DomainsAndClocks : Prop :=
  (∀ (d : Fin 16) l, Shows (.domainReady d) (fun m => m.ridge.switching = d.val :: l)
    (fun _ n => n.pdReady d.val = true ∧ n.ridge.switching = l ∧ ∀ e l', l = e :: l' → e < 16 → n.pdOn e = true)) ∧
  (∀ d : Fin 16, Turns (.domainReady d) (fun m => ∀ l, m.ridge.switching ≠ d.val :: l) id) ∧
  (∀ d : Fin 16, Shows (.domainIdleGate d)
    (fun m => m.on R.RIDGE_CTL_GATE_EN = true ∧ m.pdOn d.val = true ∧ m.domainUsed d.val = false ∧
      AMap.get 0 m.ridge.idleAt d.val + max 1 (m.get R.RIDGE_CTL_IDLE_MS) * 1000000 ≤ m.monoNs ∧ ∀ e ∈ m.ridge.switching, e < 16)
    (fun _ n => n.pdOn d.val = false ∧ n.pdReady d.val = false)) ∧
  (∀ d : Fin 16, Turns (.domainIdleGate d) (fun m => m.domainUsed d.val = true ∨ m.on R.RIDGE_CTL_GATE_EN = false) id) ∧
  (∀ v, v < 4 → Shows .vcoreSettle (fun m => m.ridge.vcoreTo = some v) (fun _ n => n.get R.RIDGE_STAT_VCORE = v ∧ (v = 3 → n.ridge.wantQ = []))) ∧
  (∀ (k : Fin 2) f, f < 16 → Shows (.scanClockRelock k) (fun m => assoc m.ridge.relock k.val = some f)
    (fun _ n => n.get (R.RIDGE_SCAN_CLK_CUR k.val) = f ∧ assoc n.ridge.relock k.val = none)) ∧
  Shows .targetChangeDone (fun m => m.ridge.changing = some 2 ∧ m.ridge.held = none ∧ m.pdReady 4 = true ∧ m.ridge.vcoreTo = none ∧
      1 ≤ m.get R.RIDGE_STAT_VCORE)
    (fun _ n => n.clk.fast = true ∧ n.get R.RIDGE_STAT_STATE ∈ [3, 4] ∧ n.get R.RIDGE_STAT_CHANGING = 0 ∧ n.ridge.changing = none) ∧
  Shows .targetChangeDone (fun m => m.ridge.changing = some 0 ∧ (∀ u, u < 81 → m.keyPresent u = true → (m.unitRun u).disabled = true) ∧
      m.on R.METER_STAT_FOLDING = false)
    (fun _ n => n.pd2 = false ∧ n.keep.waits = 1 ∧ n.keep.stop = 3 ∧ n.keep.enables = 0) ∧
  Turns .targetChangeDone (fun m => m.ridge.changing = none) id ∧
  (∀ (c : Fin 36) (cls : Fin 16) j, Shows (.jobReleaseTimeout c cls)
    (fun m => m.ridge.jobs = [j] ∧ j.cls = cls.val ∧ j.owner = c.val ∧ j.since + 60000000000 ≤ m.monoNs ∧ (cls.val = 4 ∨ cls.val = 8))
    (fun _ n => n.ridge.jobs = [])) ∧
  (∀ (c : Fin 36) (cls : Fin 16), Turns (.jobReleaseTimeout c cls)
    (fun m => ∀ j ∈ m.ridge.jobs, j.cls = cls.val → j.owner = c.val → m.monoNs < j.since + 60000000000) id)

/-- A thermal trip switches PD2 off, leaves the device waiting in HOLD and records the trip with PF time 0. A power-fail warning, or a lost REG_PG with PD2 on,
counts, records a power failure with its league time, switches PD2 off and leaves REG_EN0 and PD15 to the panel's line boundary, which lowers them. Either way
DRAM reads as unwritten, flash and CAIRN_FLOOR keep what they hold. A warning with PD2 off counts, records PF time 0 and ends a regulator sequence; a lost
REG_PG then changes nothing. -/
def Obligations.PowerStops : Prop :=
  let dark := fun (m n : Chip) => n.pd2 = false ∧ (∀ i, n.byte .dram i = 0) ∧ (∀ i, n.byte .flash i = m.byte .flash i) ∧
    n.reg R.CAIRN_FLOOR.addr = m.reg R.CAIRN_FLOOR.addr ∧ n.keep.started = false
  Shows .thermalTrip (fun _ => True) (fun m n => dark m n ∧ n.keep.waits = 1 ∧ n.keep.stop = 1 ∧ n.keep.enables = 0 ∧ n.get64 R.KEEP_PF_TIME_LO = 0) ∧
  (∀ c ∈ ([.powerFailWarning, .regPgFail] : List Instr), Shows c (fun _ => True) (fun m n => dark m n ∧ n.keep.waits = 2 ∧ n.keep.stop = 2 ∧
    n.keep.enables = 1 ∧ n.keep.pd15 = true ∧ n.get64 R.KEEP_PF_TIME_LO = m.stamp ∧
    n.get R.KEEP_PF_CNT = min 0xFFFFFFFF (m.get R.KEEP_PF_CNT + 1))) ∧
  KeeperShows .powerFailWarning (fun m => m.pd2 = false) (fun m n => n.pd2 = false ∧ n.keep.waits = 2 ∧ n.keep.stop = 2 ∧ n.keep.osc = false ∧
    n.get64 R.KEEP_PF_TIME_LO = 0 ∧ n.get R.KEEP_PF_CNT = min 0xFFFFFFFF (m.get R.KEEP_PF_CNT + 1) ∧ SameBytes m n) ∧
  KeeperTurns .regPgFail (fun m => m.pd2 = false) id ∧
  KeeperTurns .panelLineBoundary (fun m => m.pd2 = false ∧ m.keep.pd15 = true) (fun m => m.setKeep { m.keep with pd15 := false, enables := 0 }) ∧
  KeeperTurns .panelLineBoundary (fun m => m.pd2 = true ∨ m.keep.pd15 = false) id

/-- A valid supply after OFF raises the first enable, each step the next of six and then OSC_EN; a REG_PG that is late or falls lowers them and the device waits
again. WAKE_N in HOLD with WAKE_EN starts the sequence. PD2 then starts once: league time is the RTC's, trusted where neither OSF nor BKLOSS stands, and the
cause word names the stop and the wake. A latched backup loss sets OSF and BKLOSS, is counted, and league time is untrusted; a broken sentinel pair makes the
start cold. A system record both of whose copies are broken takes its reset value (that of the time record, the slot map and the panel record is the model's
choice, notes/assumptions/132.md). The keeper's supply switches below 2.80 V and back at 2.90 V held; VBAT below 2.30 V sets VBAT_LOW and at 2.40 V clears it. -/
def Obligations.PowerStart : Prop :=
  let raising := fun (m : Chip) => m.pd2 = false ∧ 1 ≤ m.keep.enables ∧ m.keep.osc = false ∧ m.keep.pd15 = false
  let keep := fun (f : Keep → Keep) (m : Chip) => m.withKeep (f m.keep)
  let starts := fun (m : Chip) => m.keep.started = false ∧ m.keep.enables = 6 ∧ m.keep.osc = true
  KeeperTurns .mainSupplyValid (fun m => m.pd2 = false ∧ m.keep.waits = 2 ∧ m.keep.enables = 0)
    (keep (fun k => { k with waits := 0, enables := 1, wake := 1, wakeAlarm := 0 })) ∧
  KeeperTurns .wakePin (fun m => m.pd2 = false ∧ m.keep.waits = 1 ∧ m.keep.enables = 0 ∧ m.on R.KEEP_CTL_WAKE_EN = true)
    (keep (fun k => { k with enables := 1, wake := 3, wakeAlarm := 0 })) ∧
  (∀ c ∈ ([.mainSupplyValid, .wakePin] : List Instr), KeeperTurns c (fun m => m.pd2 = true) id) ∧
  KeeperTurns .regSequenceStep (fun m => raising m ∧ m.keep.enables < 6) (keep (fun k => { k with enables := k.enables + 1 })) ∧
  KeeperTurns .regSequenceStep (fun m => raising m ∧ 6 ≤ m.keep.enables) (keep (fun k => { k with osc := true })) ∧
  (∀ c ∈ ([.regPgTimeout, .regPgDrop] : List Instr), KeeperTurns c raising (keep (fun k => { k with enables := 0, waits := 2 }))) ∧
  (∀ c ∈ ([.regSequenceStep, .regPgTimeout, .regPgDrop] : List Instr), KeeperTurns c (fun m => ¬ raising m) id) ∧
  KeeperShows .pd2Start (fun m => starts m ∧ m.keep.sysBad = [] ∧ m.keep.bkLatch = false ∧ m.on R.KEEP_STAT_OSF = false ∧ m.on R.KEEP_STAT_BKLOSS = false ∧
      m.brokenSentinel = none ∧ m.keep.wake < 8 ∧ m.keep.wakeAlarm < 32)
    (fun m n => n.pd2 = true ∧ n.keep.started = true ∧ n.on R.UPL_TIME_STAT_TRUSTED = true ∧ n.clk.mono = 0 ∧
      n.now = m.keep.sec * 1000000000 + m.keep.sub * 1000000000 / 32768 ∧
      n.get R.KEEP_CAUSE = (if m.keep.stop = 1 then 2 ^ 31 else 0) + (if m.keep.stop = 2 then 2 ^ 30 else 0) + (if m.keep.stop = 3 then 2 ^ 29 else 0) +
        (if m.keep.stop = 4 then 2 ^ 28 else 0) + m.keep.wake * 2 ^ 20 + (if m.keep.wake = 2 then m.keep.wakeAlarm else 0)) ∧
  KeeperShows .pd2Start (fun m => starts m ∧ m.keep.bkLatch = true)
    (fun m n => n.pd2 = true ∧ n.on R.KEEP_STAT_OSF = true ∧ n.on R.KEEP_STAT_BKLOSS = true ∧ n.on R.UPL_TIME_STAT_TRUSTED = false ∧
      n.keep.bkLatch = false ∧ n.get R.KEEP_BKLOSS_CNT = min 0xFFFFFFFF (m.get R.KEEP_BKLOSS_CNT + 1)) ∧
  KeeperShows .pd2Start (fun m => starts m ∧ m.brokenSentinel.isSome = true)
    (fun _ n => n.on R.KEEP_STAT_COLD = true ∧ n.on R.KEEP_STAT_SENT_BAD = true ∧ (∀ i, 64 ≤ i → i < 2 ^ 40 → n.byte .retention i = 0) ∧
      n.brokenSentinel = none) ∧
  (∀ o ∈ [0x40, 0x80, 0x200, 0x400, 0x2200], KeeperShows .pd2Start
    (fun m => starts m ∧ m.keep.sysBad = [o] ∧ m.brokenSentinel = none ∧ m.keep.wake < 8 ∧ m.keep.wakeAlarm < 32)
    (fun _ n => n.pd2 = true ∧ n.keep.sysBad = [] ∧ (o = 0x40 → n.get R.CAIRN_FLOOR = 0) ∧
      (o = 0x80 → n.keep.ofs = 37 ∧ n.get R.KEEP_TZ_STD = 0 ∧ n.get R.KEEP_TZ_START = 0 ∧ n.get R.KEEP_TZ_END = 0 ∧ n.get R.KEEP_COMP_AGE = 0 ∧
        ∀ k < 13, n.reg (R.KEEP_CURVE k).addr = regReset (R.KEEP_CURVE k).addr) ∧
      (o = 0x200 → n.keep.stop = 0 ∧ n.get64 R.KEEP_PF_TIME_LO = 0 ∧ n.get R.KEEP_CAUSE < 2 ^ 28) ∧ (o = 0x400 → n.totals.map = [] ∧ n.totals.mapGen = 0) ∧
      (o = 0x2200 → n.panel.started = false ∧ n.panel.gen = 0 ∧ n.panel.row = 0))) ∧
  KeeperTurns .pd2Start (fun m => ¬ starts m) id ∧
  (∀ mv held, KeeperTurns (.keeperSupplySwitch mv held) (fun _ => mv < 2800) (keep (fun k => { k with onMain := false }))) ∧
  (∀ mv, KeeperTurns (.keeperSupplySwitch mv true) (fun _ => 2900 ≤ mv) (keep (fun k => { k with onMain := true }))) ∧
  (∀ mv held, KeeperTurns (.keeperSupplySwitch mv held) (fun _ => 2800 ≤ mv ∧ (mv < 2900 ∨ held = false)) id) ∧
  (∀ v, KeeperShows (.vbatMeasure v) (fun _ => True) (fun m n => n.get R.KEEP_STAT_VBAT = v.toNat ∧
    n.on R.KEEP_STAT_VBAT_LOW = (if v.toNat < 230 then true else if 240 ≤ v.toNat then false else m.on R.KEEP_STAT_VBAT_LOW))) ∧
  KeeperShows .backupLossLatch (fun _ => True) (fun m n => n.keep = { m.keep with bkLatch := true } ∧ (∀ a, n.reg a = m.reg a) ∧
    ∀ sp i, (sp ≠ .retention ∨ 64 ≤ i) → i < 2 ^ 40 → n.byte sp i = m.byte sp i)

/-- A valid time and date set the RTC's second with its fraction 0 and clear OSF; an invalid pair sets SET_INV and leaves the clock. With FOLLOW_EN and trusted
time the RTC takes league time and OSF clears; without either it goes on. At a point of the curve the correction is that point plus AGE, and COMP_TEMP shows
the temperature. TSCAP shows RTC and league time of one edge. A stopped oscillator sets OSF. A change of saving is posted and shown once; a leap second moves
the keeper's UTC offset by one as announced. An armed absolute alarm whose second the RTC has reached since it was written fires: FIRED, LAST shows its
second, EN clears; with WAKE in HOLD it starts the regulators and is named as the wake source. An alarm without EN and without an owed firing does not fire. A
write to an alarm's CTL or TIME stores the word (CTL in its fields) and counts from the present second; a local time above 86,399 and writes to alarm 31 under
AUTO_WAKE are ignored. -/
def Obligations.RealTimeClockAndAlarms : Prop :=
  ((∀ r v t sec, Shows (.rtcSet r v) (fun m => assoc (m.req r).held R.KEEP_RTC_SET_TIME.addr = some t ∧ rtcOfWords t v = some sec)
     (fun _ n => n.keep.sec = sec ∧ n.keep.sub = 0 ∧ n.on R.KEEP_STAT_OSF = false)) ∧
   (∀ r v t, Shows (.rtcSet r v) (fun m => assoc (m.req r).held R.KEEP_RTC_SET_TIME.addr = some t ∧ rtcOfWords t v = none)
     (fun m n => n.keep = m.keep ∧ n.on R.KEEP_STAT_SET_INV = true ∧ n.on R.KEEP_STAT_OSF = m.on R.KEEP_STAT_OSF)) ∧
   Shows .rtcFollow (fun m => m.on R.KEEP_CTL_FOLLOW_EN = true ∧ m.on R.UPL_TIME_STAT_TRUSTED = true)
     (fun m n => n.keep.sec = m.now / 1000000000 ∧ n.keep.sub = m.now % 1000000000 * 32768 / 1000000000 ∧ n.on R.KEEP_STAT_OSF = false) ∧
   Turns .rtcFollow (fun m => m.on R.KEEP_CTL_FOLLOW_EN = false ∨ m.on R.UPL_TIME_STAT_TRUSTED = false) id ∧
   (∀ (t : BitVec 8) (k : Fin 26), t.toInt = 5 * (k.val : Int) - 40 → KeeperShows (.rtcCompensate t) (fun _ => True) (fun m n =>
     n.get R.KEEP_COMP_TEMP = t.toNat ∧ n.keep.comp = sfield 16 (m.get (if k.val % 2 = 0 then R.KEEP_CURVE_EVEN (k.val / 2) else R.KEEP_CURVE_ODD (k.val / 2))) +
       sfield 16 (m.get R.KEEP_COMP_AGE))) ∧
   Shows .tscapGo (fun m => m.keep.sec < 2 ^ 32 ∧ m.keep.sub < 2 ^ 15) (fun m n => n.get R.KEEP_TSCAP_SEC = m.keep.sec ∧ n.get R.KEEP_TSCAP_SUB = m.keep.sub ∧
     n.get64 R.KEEP_TSCAP_LT_LO = m.stamp ∧ n.on R.KEEP_TSCAP_CMD_DONE = true ∧ n.keep = m.keep) ∧
   KeeperTurns .oscStop (fun _ => True) (fun m => m.put R.KEEP_STAT_OSF 1) ∧
   KeeperTurns .dstChange (fun m => m.inSaving (m.stdOf m.keep.sec) = m.on R.KEEP_LOCAL_DST) id ∧
   KeeperShows .dstChange (fun m => m.inSaving (m.stdOf m.keep.sec) ≠ m.on R.KEEP_LOCAL_DST)
     (fun m n => n.on R.KEEP_LOCAL_DST = m.inSaving (m.stdOf m.keep.sec) ∧ n.keep = m.keep) ∧
   KeeperShows .leapSecond (fun m => m.on R.UPL_UTC_LI61 = true) (fun m n => n.keep = { m.keep with ofs := m.keep.ofs + 1 }) ∧
   KeeperShows .leapSecond (fun m => m.on R.UPL_UTC_LI61 = false ∧ m.on R.UPL_UTC_LI59 = true) (fun m n => n.keep = { m.keep with ofs := m.keep.ofs - 1 })) ∧
  (let due := fun (m : Chip) (a : Nat) => m.on (R.KEEP_ALM_CTL_EN a) = true ∧ m.on (R.KEEP_ALM_CTL_LOCAL a) = false ∧ (m.alarm a).owed = [] ∧
     (m.alarm a).from_ < m.get (R.KEEP_ALM_TIME a) ∧ m.get (R.KEEP_ALM_TIME a) ≤ m.keep.sec
   (∀ a : Fin 32, KeeperShows (.alarm a) (fun m => due m a.val)
     (fun m n => n.on (R.KEEP_ALM_STAT_FIRED a.val) = true ∧ n.get (R.KEEP_ALM_LAST a.val) = m.get (R.KEEP_ALM_TIME a.val) ∧
       n.on (R.KEEP_ALM_CTL_EN a.val) = false ∧ n.keep.sec = m.keep.sec)) ∧
   (∀ a : Fin 32, KeeperShows (.alarm a) (fun m => due m a.val ∧ m.on (R.KEEP_ALM_CTL_WAKE a.val) = true ∧ m.pd2 = false ∧ m.keep.waits = 1 ∧
       m.keep.enables = 0)
     (fun _ n => n.keep.enables = 1 ∧ n.keep.wake = 2 ∧ n.keep.wakeAlarm = a.val)) ∧
   (∀ a : Fin 32, KeeperTurns (.alarm a) (fun m => m.on (R.KEEP_ALM_CTL_EN a.val) = false ∧ (m.alarm a.val).owed = []) id) ∧
   (∀ (a : Fin 32) v, Turns (.alarmWrite a false v) (fun m => a.val ≠ 31 ∨ m.on R.KEEP_CTL_AUTO_WAKE = false)
     (fun m => (m.setReg (R.KEEP_ALM_CTL a.val).addr (v &&& 0xFC00007F)).setAlarm a.val { from_ := m.keep.sec, base := m.keep.sec })) ∧
   (∀ (a : Fin 32) v, Turns (.alarmWrite a true v)
     (fun m => (a.val ≠ 31 ∨ m.on R.KEEP_CTL_AUTO_WAKE = false) ∧ (m.on (R.KEEP_ALM_CTL_LOCAL a.val) = false ∨ v.toNat ≤ 86399))
     (fun m => (m.setReg (R.KEEP_ALM_TIME a.val).addr v).setAlarm a.val { from_ := m.keep.sec, base := m.keep.sec })) ∧
   (∀ (a : Fin 32) v, Turns (.alarmWrite a true v) (fun m => m.on (R.KEEP_ALM_CTL_LOCAL a.val) = true ∧ 86399 < v.toNat) id) ∧
   (∀ time v, Turns (.alarmWrite 31 time v) (fun m => m.on R.KEEP_CTL_AUTO_WAKE = true) id))

/-- LAUNCH answers CHECK_FAILED with EN or COUNT at 0 or league time untrusted, BUSY beside a round; where the governor grants q quadrants the round is in
assembly, its anchor the first multiple of GRID at least LEAD ahead. CANCEL ends a round with CANCELLED_DISABLE unless adoption is pending. A refused cadence
tick counts in PLAN_SKIP_CNT. A damaged element ends the assembly with END 6, an assembled problem goes to analysis or iteration or ends OVERFLOW, and an
iteration shows j, or ends the round as NAN_RESULT at a mark, or at ITER_MAX. The deadline ends assembly, analysis and phase F. A scratch error is END 7. The
plan of record expires at its horizon's end. Coordination ends its wait when a tie has failed to answer. -/
def Obligations.PlannerRounds : Prop :=
  let ended := fun (code : Half) (e : Nat) (n : Chip) => n.plan.round = none ∧ n.get R.PLAN_RES_DONE = 1 ∧ n.get R.PLAN_RES_CODE = code.toNat ∧
    n.get R.PLAN_RES_END = e ∧ n.get R.PLAN_STAT = 0
  let answer := fun (code : Nat) (m : Chip) => m.put R.PLAN_CMD_RES_CODE code
  let phase := fun (m : Chip) => m.get R.PLAN_STAT_PHASE
  let ready := fun (m : Chip) => m.hasUnit 0x0A = true ∧ m.on R.PLAN_CTL_EN = true ∧ m.get R.PLAN_ELEM_CNT_COUNT ≠ 0 ∧ m.trusted = true
  Turns .launch (fun m => m.hasUnit 0x0A = true ∧ (m.on R.PLAN_CTL_EN = false ∨ m.get R.PLAN_ELEM_CNT_COUNT = 0 ∨ m.trusted = false)) (answer 0x8) ∧
  Turns .launch (fun m => ready m ∧ m.plan.round.isSome = true) (answer 0xE) ∧
  (∀ q, Shows .launch
    (fun m => ready m ∧ m.plan.round = none ∧ m.plan.plan = none ∧ m.on (R.RIDGE_CLS_CFG_EN 0) = true ∧ m.changeBars 0 = false ∧
      m.get R.RIDGE_STAT_ZONE = 0 ∧ m.qFit (m.get (R.RIDGE_PROF_PLAN_QMAX (m.get R.RIDGE_STAT_PROFILE))) m.planDraw = some q ∧
      (m.planCost : Int) * 1000 ≤ m.ridge.level + m.floor ∧ m.get R.PLAN_TIMING_GRID ≠ 0)
    (fun m n => phase n = 2 ∧ n.get R.PLAN_STAT_QUADS = q ∧ n.get R.PLAN_CMD_RES_CODE = 0 ∧ ∃ r, n.plan.round = some r ∧
      r.anchor % (m.get R.PLAN_TIMING_GRID * 1000000000) = 0 ∧ m.now + m.planLead * 1000000000 ≤ r.anchor ∧
      r.anchor < m.now + m.planLead * 1000000000 + m.get R.PLAN_TIMING_GRID * 1000000000 ∧ r.launched = m.monoNs ∧
      r.deadline = r.anchor - m.get R.PLAN_TIMING_MARGIN * 100000000)) ∧
  Shows .cancel (fun m => m.hasUnit 0x0A = true ∧ m.plan.round.isSome = true ∧ phase m ≠ 8)
    (fun _ n => ended 0x1 5 n ∧ n.get R.PLAN_CMD_RES_CODE = 0) ∧
  Turns .cancel (fun m => m.hasUnit 0x0A = true ∧ (m.plan.round = none ∨ phase m = 8)) (answer 0) ∧
  Turns .cadenceTick (fun m => m.on R.PLAN_CTL_CAD_EN = false ∨ m.now < m.get R.PLAN_CADENCE_PHASE * 1000000000 ∨ m.leads = false) id ∧
  Shows .cadenceTick
    (fun m => m.hasUnit 0x0A = true ∧ m.on R.PLAN_CTL_CAD_EN = true ∧ m.get R.PLAN_CADENCE_PHASE * 1000000000 ≤ m.now ∧ m.leads = true ∧
      m.plan.lastTick = none ∧ (m.plan.round.isSome = true ∨ m.on R.PLAN_CTL_EN = false ∨ m.trusted = false))
    (fun m n => n.get R.PLAN_SKIP_CNT = min 0xFFFFFFFF (m.get R.PLAN_SKIP_CNT + 1) ∧ n.plan.round = m.plan.round ∧
      n.plan.lastTick.isSome = true) ∧
  (∀ r, Shows .assemblyDone (fun m => m.plan.round = some r ∧ phase m = 2 ∧ m.pdReady 5 = true ∧ ∃ e ∈ m.elems, (m.elem e).ok = false)
    (fun _ n => ended 0x8 6 n)) ∧
  (∀ r, Shows .assemblyDone
    (fun m => m.plan.round = some r ∧ phase m = 2 ∧ m.pdReady 5 = true ∧ (∀ e ∈ m.elems, (m.elem e).ok = true) ∧ m.pbinds = [])
    (fun m n => ended 0xF 6 n ∨ (phase n = 3 ∧ m.plan.struct ≠ some r.struct) ∨ (phase n = 5 ∧ m.plan.struct = some r.struct))) ∧
  (∀ r, Shows .symbolicAnalysisDone (fun m => m.plan.round = some r ∧ phase m = 3)
    (fun _ n => n.plan.struct = some r.struct ∧ if Config.fill r.struct ≤ 67108864 then phase n = 5 ∧ n.get R.PLAN_STAT_ITER = 0 else ended 0xF 6 n)) ∧
  (∀ r, Shows .solverIteration (fun m => m.plan.round = some r ∧ phase m = 5)
    (fun m n => let i := Config.iterate r.problem (m.reg R.PLAN_NUM.addr) (m.reg R.PLAN_TOL.addr) r.warm (r.j + 1)
      (i.mark.isSome = true → ended 0x9 3 n ∧ n.get R.PLAN_RES_ITERS = min r.j 255) ∧
      (i.mark = none → m.converged i = false → m.infeasible i (r.j + 1) (r.it.rP :: r.hist) = false →
        if m.get R.PLAN_NUM_ITER_MAX ≤ r.j + 1 then ended 0x8 4 n
        else phase n = 5 ∧ n.get R.PLAN_STAT_ITER = min 255 (r.j + 1) ∧ (n.plan.round.map Round.j) = some (r.j + 1)))) ∧
  (∀ r b, Shows (.roundDeadline b) (fun m => m.plan.round = some r ∧ m.reached r.deadline = true ∧ (phase m = 2 ∨ phase m = 3))
    (fun _ n => ended 0x3 6 n)) ∧
  (∀ r, Shows (.roundDeadline true)
    (fun m => m.plan.round = some r ∧ m.reached r.deadline = true ∧ phase m = 5 ∧ m.on R.PLAN_LEAGUE_EN = false)
    (fun _ n => ended 0x3 2 n ∧ n.get R.PLAN_RES_CAUSE = 3)) ∧
  (∀ r b, Turns (.roundDeadline b) (fun m => m.plan.round = some r ∧ m.reached r.deadline = false) id) ∧
  (∀ p, Shows .planExpired (fun m => m.plan.plan = some p ∧ p.expired = false ∧ m.reached p.ends = true)
    (fun m n => n.plan.plan = some { p with expired := true } ∧ n.plan.round = m.plan.round)) ∧
  (∀ p, Turns .planExpired (fun m => m.plan.plan = some p ∧ m.reached p.ends = false) id) ∧
  Shows .scratchEccError (fun m => m.plan.round.isSome = true ∧ 2 ≤ phase m ∧ phase m ≤ 7) (fun _ n => ended 0x8 7 n) ∧
  Turns .scratchEccError (fun m => m.plan.round = none) id ∧
  (∀ f, Turns (.tieMessage f) (fun m => m.plan.round = none ∨ phase m ≠ 6) (fun m => (m.rx 0x45 f false).2)) ∧
  (∀ r, Turns .coordWaitExpiry (fun m => m.plan.round = some r ∧ r.answered = false ∧
    m.monoNs < r.waitFrom + m.get R.PLAN_LEAGUE_WAIT * 1000000) id) ∧
  (∀ r t, Shows .coordWaitExpiry (fun m => m.plan.round = some r ∧ phase m = 6 ∧ r.ties = [t] ∧ t.frozen = false ∧ t.answer = none ∧
      r.waitFrom + m.get R.PLAN_LEAGUE_WAIT * 1000000 ≤ m.monoNs)
    (fun _ n => phase n = 8 ∨ n.plan.round = none))

/-- A day start takes up the photoperiods of three days and restarts light received and the day's flags. An evaluation that the governor refuses counts; an
admitted one of a lit zone without DLI issues a frame to each of its groups with the recipe's levels, and keeps light received. A submission to a closed
engine answers CANCELLED_DISABLE, one to a disabled group or with mask 0 CHECK_FAILED; an accepted one takes the next number as its handle. Accepted frames
are staged on channel 2 and GO is written, at most once per millisecond. A retry is sent after a tenth of the remaining lead. At the end of the late window
each fixture that lacks the frame is MISSED and UNCONFIRMED. -/
def Obligations.LampZonesAndFrames : Prop :=
  let ready := fun (m : Chip) (z : Nat) => (m.zoneEnt z).on = true ∧ m.lampOn = true
  (∀ z : Fin 8192, Shows (.dayStart z) (fun m => ready m z.val ∧ (m.zone z.val).day = none)
    (fun m n => let d := m.zoneDay (m.zoneEnt z.val)
      n.zone z.val = { m.zone z.val with photo := (0, 0) :: [d, d + 1, d + 2].map (m.photoOf (m.zoneEnt z.val)), day := some d,
                                         parLost := false, allocZero := false })) ∧
  (∀ (z : Fin 8192) d a b l, Shows (.dayStart z)
    (fun m => ready m z.val ∧ m.zoneDay (m.zoneEnt z.val) = d + 1 ∧ (m.zone z.val).day = some d ∧ (m.zone z.val).photo = a :: b :: l)
    (fun m n => (n.zone z.val).photo = b :: [d + 1, d + 2, d + 3].map (m.photoOf (m.zoneEnt z.val)) ∧ (n.zone z.val).day = some (d + 1) ∧
      (n.zone z.val).received = some 0)) ∧
  (∀ z : Fin 8192, Turns (.dayStart z) (fun m => (m.zoneEnt z.val).on = false ∨ (m.zone z.val).day = some (m.zoneDay (m.zoneEnt z.val))) id) ∧
  (∀ z : Fin 8192, Turns (.zoneEvaluation z) (fun m => (m.zoneEnt z.val).auto = false ∨ m.on R.LAMP_CTL_AUTO_EN = false ∨
    m.evalDue (m.zoneEnt z.val) (m.zone z.val) = false) id) ∧
  (let due := fun (m : Chip) (z : Nat) => ready m z ∧ (m.zoneEnt z).auto = true ∧ m.on R.LAMP_CTL_AUTO_EN = true ∧ m.leads = true ∧
      m.evalDue (m.zoneEnt z) (m.zone z) = true;
    (∀ z : Fin 8192, Shows (.zoneEvaluation z) (fun m => due m z.val ∧ m.on (R.RIDGE_CLS_CFG_EN 6) = false)
      (fun m n => n.get R.LAMP_EVAL_SKIP_CNT = min 0xFFFFFFFF (m.get R.LAMP_EVAL_SKIP_CNT + 1) ∧ n.lamp = m.lamp)) ∧
    (∀ (z : Fin 8192) h p, Shows (.zoneEvaluation z)
      (fun m => let e := m.zoneEnt z.val
        let full := (m.zoneFix z.val).foldl (fun s a => Fp.fadd s
          (Fp.fmul (Fp.fofNat (m.fixEnt a).rated.sum) (Fp.fdiv (Fp.fofNat ((m.fixNow a).k.at m.now)) (Fp.fofNat 32768)))) 0
        due m z.val ∧ (m.lampJob 0 false).1 = true ∧ (m.zone z.val).tPrev = none ∧ (m.zone z.val).last = none ∧
        (m.zone z.val).received = some h ∧
        (m.zone z.val).lit (m.now + e.lead * 1000000) = some p ∧ e.par = 0 ∧ e.received = 0 ∧ e.power = 0 ∧ e.dli = false ∧ e.planned = false ∧
        Fp.isZero e.static = false ∧ Fp.fmin Fp.one (Fp.fdiv (Fp.fmul e.static (Fp.fofNat 1000)) full) = Fp.one ∧
        Fp.isNan (Fp.fadd h (Fp.fdiv (Fp.fmul (Fp.fmul (m.zone z.val).i e.ppfd) 0) million)) = false)
      (fun m n => let l := m.now + (m.zoneEnt z.val).lead * 1000000
        (n.zone z.val).tPrev = some m.now ∧ (n.zone z.val).i = Fp.one ∧
        (n.zone z.val).last = some ((m.weights (m.zoneEnt z.val) (m.zone z.val) l).map (fun w => roundAway (Fp.fmul Fp.one (Fp.fofNat w)))) ∧
        n.lamp.accepted.length = m.lamp.accepted.length + (m.zoneGroups z.val).length))) ∧
  (∀ mask curve, Turns (.lampSubmit mask curve) (fun m => m.lampOn = false) (fun m => m.put R.LAMP_SUB_RES_CODE 0x1)) ∧
  (∀ mask curve, Turns (.lampSubmit mask curve)
    (fun m => m.lampOn = true ∧ m.on R.LAMP_SUB_TGT_GROUP = true ∧ (mask = 0 ∨ m.grpOn (m.get R.LAMP_SUB_TGT_TARGET) = false))
    (fun m => m.put R.LAMP_SUB_RES_CODE 0x8)) ∧
  (∀ mask curve, Shows (.lampSubmit mask curve)
    (fun m => let t := m.get R.LAMP_SUB_TGT_TARGET
      let z := m.zoneEnt (m.grpZone (m.fixEnt t).group)
      m.lampOn = true ∧ m.on R.LAMP_SUB_TGT_GROUP = false ∧ (m.fixEnt t).on = true ∧ mask ≠ 0 ∧ (z.on = false ∨ z.auto = false) ∧
      10 ≤ m.get R.LAMP_SUB_FADE ∧ m.get R.LAMP_SUB_FADE ≤ 86400000 ∧
      (∀ c, c < 4 → m.get (R.LAMP_SUB_LVL_LVL_EVEN c) + m.get (R.LAMP_SUB_LVL_C_LVL_EVEN c) = 65535 ∧
        m.get (R.LAMP_SUB_LVL_LVL_ODD c) + m.get (R.LAMP_SUB_LVL_C_LVL_ODD c) = 65535) ∧ m.trusted = true ∧
      m.now + minLead (m.fixEnt t).medium * 1000000 ≤ (m.get64 R.LAMP_SUB_LATCH_LO).toNat ∧
      (m.get64 R.LAMP_SUB_LATCH_LO).toNat ≤ m.now + 86400000000000 ∧
      m.lampPending + m.lamp.accepted.length + m.lamp.staged.length < 65536)
    (fun m n => n.get R.LAMP_SUB_RES_CODE = 0 ∧ n.reg R.LAMP_SUB_HANDLE.addr = m.lamp.seq + 1 ∧ n.lamp.seq = m.lamp.seq + 1 ∧
      ∃ x, n.lamp.accepted = m.lamp.accepted ++ [x] ∧ x.handle = m.lamp.seq + 1 ∧ x.group = false ∧ x.target = m.get R.LAMP_SUB_TGT_TARGET ∧
        x.latch = (m.get64 R.LAMP_SUB_LATCH_LO).toNat ∧ x.fade = m.get R.LAMP_SUB_FADE ∧ x.mask = mask.toNat ∧ x.curve = curve.toNat ∧
        x.levels.length = 8)) ∧
  (let due := fun (m : Chip) => ∀ t, m.lamp.committed = some t → t + 1000000 ≤ m.monoNs;
    Shows .frameCommit (fun m => m.lamp.accepted ≠ [] ∧ m.pend 2 = none ∧ due m)
      (fun m n => n.lamp.accepted = [] ∧ n.lamp.staged = m.lamp.accepted ∧ n.lamp.committed = some m.monoNs ∧ n.get (R.COMMIT_STAT_PENDING 2) = 1 ∧
        (n.pend 2).map PendCommit.set = some { frames := m.lamp.accepted.map LFrame.handle }) ∧
    Turns .frameCommit (fun m => m.lamp.accepted = [] ∨ (m.pend 2).isSome = true ∨ ¬ due m) id) ∧
  (∀ h x, Shows (.frameRetry h)
    (fun m => m.frame h = some x ∧ m.lampOn = true ∧ x.waiting ≠ [] ∧ x.sentAt + (x.latch - x.sentAt) / 10 ≤ m.now ∧ m.now < x.lateEnd ∧
      (m.lampJob 2 true).1 = true)
    (fun m n => ∃ y, n.frame h = some y ∧ y.begun = true ∧ y.sentAt = m.now ∧ y.waiting = x.waiting)) ∧
  (∀ h x, Turns (.frameRetry h) (fun m => m.frame h = none ∨ (m.frame h = some x ∧
    (x.waiting = [] ∨ m.now < x.sentAt + (x.latch - x.sentAt) / 10 ∨ x.lateEnd ≤ m.now))) id) ∧
  (∀ h x, Shows (.lateWindowExpiry h) (fun m => m.frame h = some x ∧ x.lateEnd ≤ m.now)
    (fun m n => n.frame h = none ∧ (∀ a ∈ x.waiting, (n.fix a).state = 1) ∧
      n.get R.LAMP_MISS_CNT = min 0xFFFFFFFF (m.get R.LAMP_MISS_CNT + x.waiting.length))) ∧
  (∀ h x, Turns (.lateWindowExpiry h) (fun m => m.frame h = none ∨ (m.frame h = some x ∧ m.now < x.lateEnd)) id)

/-- An accepted ACK strikes the fixtures of its station off the frame's list, and one with code 1 counts them late. A REPORT goes to the ring, or counts as
dropped where 2^20 wait; processing empties the ring where the governor admits it, and a fixture's report gives it its state and its derate. A fixture unheard
for three report periods is SILENT. FW GO answers CANCELLED_DISABLE, BUSY or CHECK_FAILED, or starts a campaign; ABORT ends it CANCELLED_DISABLE. A burst is
tried again after 10 s; a bitmap names missing blocks; a step verifies the image, sends, asks, resends or activates. -/
def Obligations.LampFixturesAndFirmware : Prop :=
  let cfg := fun (m : Chip) => m.get R.LAMP_FW_STAT_STATE
  (∀ f m1 x, Shows (.ack f)
    (fun m => m.rx 0x04 f false = (true, m1) ∧ m1.frame (BitVec.ofNat 32 (fld f.payload 0 4)) = some x ∧ fld f.payload 4 2 = 0 ∧ fld f.payload 8 2 = 0)
    (fun _ n => ∃ y, n.frame x.handle = some y ∧ y.waiting = x.waiting.filter (fun a => !(m1.hosted f.station.toNat).contains a))) ∧
  (∀ f m1 x, Shows (.ack f)
    (fun m => m.rx 0x04 f false = (true, m1) ∧ m1.frame (BitVec.ofNat 32 (fld f.payload 0 4)) = some x ∧ fld f.payload 4 2 = 1 ∧ fld f.payload 8 2 = 0)
    (fun _ n => n.get R.LAMP_LATE_CNT = min 0xFFFFFFFF (m1.get R.LAMP_LATE_CNT + (x.waiting.filter (m1.hosted f.station.toNat).contains).length))) ∧
  (∀ f m1, Turns (.ack f) (fun m => m.rx 0x04 f false = (false, m1)) (fun _ => m1)) ∧
  (∀ f m1, Turns (.report f) (fun m => m.rx 0x10 f false = (false, m1)) (fun _ => m1)) ∧
  (∀ f m1, Shows (.report f) (fun m => m.rx 0x10 f false = (true, m1) ∧ m1.lamp.ring.length < 1048576)
    (fun _ n => ∃ r, n.lamp.ring = m1.lamp.ring ++ [(f.target.toNat % 2 ^ 22, r)] ∧ r.stamp = fld f.payload 0 8 ∧ r.energy = fld f.payload 24 3 ∧
      r.flags = fld f.payload 27 1 ∧ r.temp = fld f.payload 28 2 ∧ r.power = fld f.payload 30 2 ∧ r.handle.toNat = fld f.payload 32 4)) ∧
  (∀ f m1, Shows (.report f) (fun m => m.rx 0x10 f false = (true, m1) ∧ 1048576 ≤ m1.lamp.ring.length)
    (fun _ n => n.lamp = m1.lamp ∧ n.get R.LAMP_RPT_DROP_CNT = min 0xFFFFFFFF (m1.get R.LAMP_RPT_DROP_CNT + 1))) ∧
  Shows .reportProcess (fun m => m.lampOn = true ∧ m.lamp.ring ≠ [] ∧ m.on (R.RIDGE_CLS_CFG_EN 6) = false) (fun m n => n.lamp = m.lamp) ∧
  (∀ a r, Shows .reportProcess
    (fun m => m.lampOn = true ∧ m.lamp.ring = [(a, r)] ∧ (m.lampJob 1 false).1 = true ∧ (m.fixEnt a).on = true ∧
      r.flags.testBit 1 = false ∧ r.temp ≠ 0x8000)
    (fun m n => n.lamp.ring = [] ∧ (n.fix a).state = ((m.fix a).upTo r.stamp).judge r ∧ (n.fix a).report = some r ∧ (n.fix a).heard = m.monoNs ∧
      ∃ k, m.derateOf r.temp = some k ∧ ((n.fix a).kSent = k ∨ (n.fix a).kSent = (m.fix a).kSent))) ∧
  Turns .reportProcess (fun m => m.lampOn = false ∨ m.lamp.ring = []) id ∧
  (∀ a : BitVec 22, Shows (.fixtureSilent a)
    (fun m => (m.fixEnt a.toNat).on = true ∧ (m.fixNow a.toNat).heard + 3 * (m.fixEnt a.toNat).period * 1000000000 ≤ m.monoNs)
    (fun _ n => (n.fix a.toNat).state = 2)) ∧
  (∀ a : BitVec 22, Turns (.fixtureSilent a) (fun m => (m.fixEnt a.toNat).on = false) id) ∧
  (∀ key group, Turns (.fwGo key group) (fun m => m.lampOn = false) (fun m => m.put R.LAMP_FW_STAT_CODE 0x1)) ∧
  (∀ key group, Turns (.fwGo key group) (fun m => m.lampOn = true ∧ m.lamp.fw.isSome = true) (fun m => m.put R.LAMP_FW_STAT_CODE 0xE)) ∧
  (∀ key group, Shows (.fwGo key group) (fun m => m.lampOn = true ∧ m.lamp.fw = none)
    (fun m n => if m.fwLead group.toNat then n.lamp.fw = some { group := group.toNat, key := key.toNat } ∧ cfg n = 1 ∧ n.get R.LAMP_FW_STAT_ROUND = 0
      else n.lamp.fw = none ∧ n.get R.LAMP_FW_STAT_CODE = 0x8)) ∧
  Shows .fwAbort (fun m => m.lamp.fw.isSome = true) (fun _ n => n.lamp.fw = none ∧ cfg n = 5 ∧ n.get R.LAMP_FW_STAT_CODE = 0x1) ∧
  Turns .fwAbort (fun m => m.lamp.fw = none) id ∧
  (∀ c t, Shows .fwBurstRetry (fun m => m.lamp.fw = some c ∧ c.retryAt = some t ∧ t ≤ m.monoNs ∧ c.todo ≠ [] ∧ m.on (R.RIDGE_CLS_CFG_EN 2) = false)
    (fun m n => n.lamp.fw = some { c with retryAt := some (m.monoNs + 10000000000) })) ∧
  (∀ c t, Shows .fwBurstRetry
    (fun m => m.lamp.fw = some c ∧ c.retryAt = some t ∧ t ≤ m.monoNs ∧ c.todo ≠ [] ∧
      (m.admitJob { cls := 2, cost := m.get (R.RIDGE_CLS_COST 2), draw := m.get (R.RIDGE_CLS_DRAW 2), owner := 2 ^ 32 + 3 }).1 = .ok 0)
    (fun _ n => n.lamp.fw = some { c with todo := c.todo.drop 2048, retryAt := none })) ∧
  (∀ c, Turns .fwBurstRetry (fun m => m.lamp.fw = none ∨ (m.lamp.fw = some c ∧ ∀ t, c.retryAt = some t → m.monoNs < t)) id) ∧
  (∀ f m1 c, Shows (.fwMissing f) (fun m => m.rx 0x23 f false = (true, m1) ∧ m1.lamp.fw = some c)
    (fun _ n => fld f.payload 0 4 = m1.fwHead.id.toNat → ∃ d, n.lamp.fw = some d ∧ d = { c with missing := d.missing } ∧
      (∀ b ∈ c.missing, b ∈ d.missing) ∧ ∀ b, b < 8 * (f.payload.length - 12) → (fld f.payload (12 + b / 8) 1).testBit (b % 8) = true →
        fld f.payload 8 4 + b ∈ d.missing)) ∧
  (∀ f m1, Turns (.fwMissing f) (fun m => m.rx 0x23 f false = (false, m1)) (fun _ => m1)) ∧
  (∀ c, Shows .fwCampaignStep (fun m => m.lamp.fw = some c ∧ cfg m = 1 ∧ (m.vslot c.key).kind ≠ 7)
    (fun m n => n.lamp.fw = none ∧ cfg n = 5 ∧
      n.get R.LAMP_FW_STAT_CODE = (if (m.vslot c.key).kind ≠ 0 ∧ (m.vslot c.key).count = 0 then 0xC else 0xB))) ∧
  (∀ c, Shows .fwCampaignStep (fun m => m.lamp.fw = some c ∧ cfg m = 2 ∧ c.retryAt = none ∧ c.todo = [])
    (fun _ n => cfg n = 3 ∧ n.lamp.fw = some { c with missing := [], retryAt := none })) ∧
  (∀ c, Shows .fwCampaignStep (fun m => m.lamp.fw = some c ∧ cfg m = 3 ∧ c.missing ≠ [] ∧ c.round < 8)
    (fun _ n => cfg n = 2 ∧ n.lamp.fw = some { c with todo := c.missing, round := c.round + 1 } ∧
      (c.round < 7 → n.get R.LAMP_FW_STAT_ROUND = c.round + 1))) ∧
  (∀ c, Shows .fwCampaignStep (fun m => m.lamp.fw = some c ∧ cfg m = 3 ∧ c.round = 8 ∧ m.fwLead c.group = true)
    (fun m n => cfg n = 4 ∧ n.lamp.fw = some { c with act := some (m.lamp.seq + 1) })) ∧
  (∀ c, Shows .fwCampaignStep (fun m => m.lamp.fw = some c ∧ cfg m = 3 ∧ c.missing = [])
    (fun m n => if m.fwLead c.group then cfg n = 4 ∧ n.lamp.fw = some { c with act := some (m.lamp.seq + 1) }
      else cfg n = 5 ∧ n.lamp.fw = none ∧ n.get R.LAMP_FW_STAT_CODE = 0x8)) ∧
  (∀ c, Shows .fwCampaignStep (fun m => m.lamp.fw = some c ∧ cfg m = 4) (fun _ n => cfg n = 5 ∧ n.lamp.fw = none ∧ n.get R.LAMP_FW_STAT_CODE = 0)) ∧
  Turns .fwCampaignStep (fun m => m.lamp.fw = none) id

/-- At a new grid instant an enabled loop in AUTO with a fit bank, usable PV and setpoint pair and no test runs the law: first sample or not, u is the clamp of P
plus I plus D, I under its anti-windup, the output point takes u, and so does LOOP_L_MAN; error within FE_LIM clears the accumulator. With RUN at 0 the loop
is in HOLD; an unfit bank holds it with flag 4; a bad PV with flag 0; a broken setpoint pair sets flag 1 and counts; MANUAL writes LOOP_L_MAN after its clamp;
a SAFE latch writes SAFE. At no new grid instant nothing happens. A write of MODE sets it and clears a latch; RESET clears the latch and makes the next sample
a first one. -/
def Obligations.LoopSamples : Prop :=
  let ent := fun (m : Chip) (n : Fin 512) => m.loopEnt n.val
  let bank := fun (m : Chip) (n : Fin 512) => m.coefs n.val (m.loopBank n.val)
  let pt := fun (m : Chip) (tag : BitVec 40) => m.pt (tagIdx tag)
  let sound := fun (m : Chip) (tag : BitVec 40) => m.local tag = true ∧ m.outOfRange tag = false ∧ (pt m tag).intact = true ∧
    m.overlayOf (tagIdx tag) = none ∧ (pt m tag).desc ≠ 0 ∧ (m.descOfRec (pt m tag)).ok = true ∧ (m.descOfRec (pt m tag)).fresh = 0 ∧
    (m.descOfRec (pt m tag)).critical = false
  let output := fun (m : Chip) (tag : BitVec 40) => sound m tag ∧ (m.descOfRec (pt m tag)).isFp = true ∧
    (m.descOfRec (pt m tag)).mask.testBit 1 = true ∧ (m.descOfRec (pt m tag)).range = false ∧ m.force (tagIdx tag) = none
  let due := fun (m : Chip) (n : Fin 512) => m.on R.POINT_STAT_READY = true ∧ m.loopRuns = true ∧ (ent m n).enabled = true ∧
    ∃ i, (ent m n).gridAt m.now = some i ∧ (∀ g, (m.loopSt n.val).gridDone = some g → g < i) ∧
    ∀ p, (m.loopSt n.val).prevMono = some p → 500 * (ent m n).period ≤ m.monoNs - p
  let runs := fun (m : Chip) (n : Fin 512) => due m n ∧ m.on R.LOOP_CTL_RUN = true ∧ (bank m n).fit (ent m n).safe = true
  let pvOk := fun (m : Chip) (n : Fin 512) => sound m (ent m n).pv ∧ Q.state (pt m (ent m n).pv).quality < 2 ∧ Fp.isNan (pt m (ent m n).pv).value = false
  let spOk := fun (m : Chip) (n : Fin 512) => let r := pt m (ent m n).sp
    m.local (ent m n).sp = true ∧ m.outOfRange (ent m n).sp = false ∧ r.intact = true ∧ m.overlayOf (tagIdx (ent m n).sp) = none ∧ r.desc ≠ 0 ∧
    (m.descOfRec r).ok = true ∧ (m.descOfRec r).fresh = 0 ∧ r.second = ~~~r.value ∧ Q.state r.quality < 2 ∧ Fp.isNan r.value = false
  let state := fun (m : Chip) (n : Fin 512) => m.get (R.LOOP_L_STAT_STATE n.val)
  let flag := fun (m : Chip) (n : Fin 512) (b : Nat) => (m.get (R.LOOP_L_STAT_FLAGS n.val)).testBit b
  (∀ n, Shows (.loopSample n)
    (fun m => runs m n ∧ pvOk m n ∧ spOk m n ∧ output m (ent m n).out ∧ m.get (R.LOOP_L_CTL_MODE n.val) = 0 ∧ (m.loopSt n.val).latch = 0 ∧
      m.loop.gens = [])
    (fun m t =>
      let e := ent m n; let c := bank m n; let st := m.loopSt n.val
      let pv := (pt m e.pv).value; let sp := (pt m e.sp).value; let last := (pt m e.out)
      let s : DWord := if e.reverse then 0xBFF0000000000000 else 0x3FF0000000000000
      let ts := Fp.fdiv (Fp.fofNat e.period) (Fp.fofNat 1000000)
      let err := Fp.fmul s (Fp.fsub (Fp.fadd sp 0) pv)
      let p := Fp.fmul (interp c.pt (Fp.absolute err)) err
      let d : DWord := if st.first = true ∨ st.havePrev = false then 0 else
        Fp.fsub (Fp.fmul (Fp.fdiv c.tf (Fp.fadd c.tf ts)) st.d) (Fp.fmul (Fp.fdiv (Fp.fmul s c.kd) (Fp.fadd c.tf ts)) (Fp.fsub pv st.pvPrev))
      let new := c.clamp (Fp.fadd st.i (Fp.fmul (Fp.fmul (interp c.it (Fp.absolute err)) err) ts))
      let un := Fp.fadd (Fp.fadd (Fp.fadd p new) d) 0
      let i := if st.first = true then c.clamp (Fp.fsub (if Q.state last.quality < 2 then last.value else c.umin) p)
        else if (Fp.gt un c.umax = true ∧ Fp.gt err 0 = true) ∨ (Fp.gt c.umin un = true ∧ Fp.gt 0 err = true) then st.i else new
      let u := c.clamp (Fp.fadd (Fp.fadd (Fp.fadd p i) d) 0)
      t.get64 (R.LOOP_L_MAN_LO n.val) = u ∧ (Fp.isNan u = false → (pt t e.out).value = u) ∧
      (t.loopSt n.val).i = i ∧ (t.loopSt n.val).d = d ∧ (t.loopSt n.val).pvPrev = pv ∧ (t.loopSt n.val).spGood = sp ∧
      (Fp.gt (Fp.absolute err) e.feLim = false → (t.loopSt n.val).acc = 0 ∧ state t n = 1))) ∧
  (∀ n, Shows (.loopSample n) (fun m => due m n ∧ m.on R.LOOP_CTL_RUN = false) (fun m t => state t n = 3 ∧ t.pts = m.pts)) ∧
  (∀ n, Shows (.loopSample n) (fun m => due m n ∧ m.on R.LOOP_CTL_RUN = true ∧ (bank m n).fit (ent m n).safe = false)
    (fun m t => state t n = 3 ∧ flag t n 4 = true ∧ t.pts = m.pts)) ∧
  (∀ n, Shows (.loopSample n)
    (fun m => runs m n ∧ sound m (ent m n).pv ∧ spOk m n ∧ 2 ≤ Q.state (pt m (ent m n).pv).quality ∧ m.get (R.LOOP_L_CTL_MODE n.val) = 0 ∧
      (m.loopSt n.val).latch = 0)
    (fun m t => state t n = 3 ∧ flag t n 0 = true ∧ t.pts = m.pts ∧ (t.loopSt n.val).havePrev = false)) ∧
  (∀ n, Shows (.loopSample n)
    (fun m => runs m n ∧ sound m (ent m n).pv ∧ sound m (ent m n).sp ∧ (pt m (ent m n).sp).second ≠ ~~~(pt m (ent m n).sp).value ∧
      m.get (R.LOOP_L_CTL_MODE n.val) = 0 ∧ (m.loopSt n.val).latch = 1)
    (fun m t => state t n = 3 ∧ flag t n 1 = true ∧ t.get R.LOOP_PAIR_CNT = min 0xFFFFFFFF (m.get R.LOOP_PAIR_CNT + 1))) ∧
  (∀ n, Shows (.loopSample n)
    (fun m => runs m n ∧ sound m (ent m n).pv ∧ spOk m n ∧ output m (ent m n).out ∧ m.get (R.LOOP_L_CTL_MODE n.val) = 1)
    (fun m t => let u := (bank m n).clamp (m.get64 (R.LOOP_L_MAN_LO n.val))
      state t n = 2 ∧ (t.loopSt n.val).first = true ∧ (Fp.isNan u = false → (pt t (ent m n).out).value = u))) ∧
  (∀ n, Shows (.loopSample n)
    (fun m => runs m n ∧ sound m (ent m n).pv ∧ spOk m n ∧ output m (ent m n).out ∧ m.get (R.LOOP_L_CTL_MODE n.val) = 0 ∧
      (m.loopSt n.val).latch = 2)
    (fun m t => state t n = 4 ∧ (pt t (ent m n).out).value = (ent m n).safe)) ∧
  (∀ n, Turns (.loopSample n) (fun m => (ent m n).enabled = false ∨ (ent m n).gridAt m.now = none ∨
    ((ent m n).gridAt m.now).isSome = true ∧ (ent m n).gridAt m.now = (m.loopSt n.val).gridDone) id) ∧
  (∀ n b, Shows (.loopModeWrite n b) (fun _ => True) (fun m t => t.get (R.LOOP_L_CTL_MODE n.val) = bit b ∧ (t.loopSt n.val).latch = 0 ∧
    (t.loopSt n.val).acc = 0 ∧ ((m.loopSt n.val).latch ≠ 0 → (t.loopSt n.val).first = true) ∧ SameRegs [(R.LOOP_L_CTL n.val).addr] m t)) ∧
  (∀ n, Shows (.loopReset n) (fun _ => True) (fun m t => (t.loopSt n.val).latch = 0 ∧ (t.loopSt n.val).first = true ∧ t.regs = m.regs))

/-- SWAP GO answers CANCELLED_DISABLE with the engine closed, BUSY beside a pending swap and CHECK_FAILED for a loop that is not enabled; else it freezes channel
3's set of the named loops with its mode and instant. A write to a loop's active bank is discarded and counted without SINGLE; with it the last word of a
coefficient's pair applies both. TEST GO answers CANCELLED_DISABLE, BUSY or CHECK_FAILED, or starts a STEP test at sample 0; ABORT ends a test with
SUPERSEDED. ARM starts a capture unless one runs, STOP ends a running one as DONE. -/
def Obligations.LoopSwapsTestsAndCapture : Prop :=
  let swap := fun (b : Bool) (code : Nat) (m : Chip) =>
    ((m.put R.LOOP_SWAP_CMD_MODE (bit b)).put R.LOOP_SWAP_RES_DONE 1).put R.LOOP_SWAP_RES_CODE code
  (∀ b, Turns (.loopSwapGo b) (fun m => m.unitOpen UK.loop = false) (swap b 0x1)) ∧
  (∀ b, Turns (.loopSwapGo b) (fun m => m.unitOpen UK.loop = true ∧ (m.pend 3).isSome = true) (swap b 0xE)) ∧
  (∀ b, Turns (.loopSwapGo b) (fun m => m.unitOpen UK.loop = true ∧ m.pend 3 = none ∧ ∃ n ∈ m.swapSet, (m.loopEnt n).enabled = false) (swap b 0x8)) ∧
  (∀ b, Shows (.loopSwapGo b) (fun m => m.unitOpen UK.loop = true ∧ m.pend 3 = none ∧ m.swapSet ≠ [] ∧ ∀ n ∈ m.swapSet, (m.loopEnt n).enabled = true)
    (fun m t => t.get (R.COMMIT_STAT_PENDING 3) = 1 ∧ ∃ p, t.pend 3 = some p ∧ p.set.loops = m.swapSet ∧ p.mode = (if b then 2 else 0) ∧
      p.instant = m.get64 R.LOOP_SWAP_AT_LO ∧ p.set.bytes.length = 1152 * m.swapSet.length)) ∧
  (let base := fun (m : Chip) (n : Fin 512) => bankOff n.val (m.loopBank n.val)
   let key := fun (m : Chip) (n : Fin 512) (off : Nat) => (Space.win .loopBank).key (base m n + off)
   (∀ r n w v, Shows (.bankSingleWrite r n w v) (fun m => (m.loopEnt n.val).single = false)
     (fun m t => SameBytes m t ∧ t.reqs = m.reqs ∧ t.get R.LOOP_REJ_CNT = min 0xFFFFFFFF (m.get R.LOOP_REJ_CNT + 1))) ∧
   (∀ r n (w : Fin 288) v, Shows (.bankSingleWrite r n w v) (fun m => (m.loopEnt n.val).single = true ∧ w.val % 2 = 0 ∧ w.val < 272)
     (fun m t => SameBytes m t ∧ t.regs = m.regs ∧ assoc (t.req r).held (key m n (4 * w.val)) = some v)) ∧
   (∀ r n (w : Fin 288) v lo, Shows (.bankSingleWrite r n w v)
     (fun m => (m.loopEnt n.val).single = true ∧ w.val % 2 = 1 ∧ w.val < 272 ∧ assoc (m.req r).held (key m n (4 * w.val - 4)) = some lo)
     (fun m t => t.rd (.win .loopBank) (base m n + 4 * w.val - 4) 8 = lo.toNat + 2 ^ 32 * v.toNat ∧ t.regs = m.regs ∧
       ∀ sp i, (∀ j, j < 8 → sp.key i ≠ key m n (4 * w.val - 4 + j)) → t.byte sp i = m.byte sp i))) ∧
  (let code := fun (g : Fin 4) (c : Nat) (m : Chip) => m.put (R.LOOP_TG_STAT_CODE g.val) c
   (∀ g, Turns (.testGo g) (fun m => m.unitOpen UK.loop = false) (code g 0x1)) ∧
   (∀ g, Turns (.testGo g) (fun m => m.unitOpen UK.loop = true ∧ (assoc m.loop.gens g.val).isSome = true) (code g 0xE)) ∧
   (∀ g, Turns (.testGo g) (fun m => m.unitOpen UK.loop = true ∧ assoc m.loop.gens g.val = none ∧
     ((m.loopEnt (m.get (R.LOOP_TG_CTL_LOOP g.val))).enabled = false ∨ m.get (R.LOOP_TG_LEN_LEN g.val) = 0)) (code g 0x8)) ∧
   (∀ g, Shows (.testGo g)
     (fun m => m.unitOpen UK.loop = true ∧ m.loop.gens = [] ∧ (m.loopEnt (m.get (R.LOOP_TG_CTL_LOOP g.val))).enabled = true ∧
       m.get (R.LOOP_TG_CTL_TYPE g.val) = 0 ∧ m.get (R.LOOP_TG_LEN_LEN g.val) ≠ 0 ∧ Fp.finite (m.get64 (R.LOOP_TG_AMP_LO g.val)) = true)
     (fun m t => t.get (R.LOOP_TG_STAT_RUNNING g.val) = 1 ∧ t.get (R.LOOP_TG_STAT_CODE g.val) = 0 ∧
       t.get (R.LOOP_L_STAT_TEST (m.get (R.LOOP_TG_CTL_LOOP g.val))) = 1 ∧ ∃ x, t.loop.gens = [(g.val, x)] ∧ x.j = 0 ∧
       x.loop = m.get (R.LOOP_TG_CTL_LOOP g.val) ∧ x.amp = m.get64 (R.LOOP_TG_AMP_LO g.val) ∧ x.n = m.get (R.LOOP_TG_LEN_LEN g.val) ∧
       ∀ period, x.value period = x.amp)) ∧
   (∀ g x, Shows (.testAbort g) (fun m => m.loop.gens = [(g.val, x)])
     (fun _ t => t.loop.gens = [] ∧ t.get (R.LOOP_TG_STAT_RUNNING g.val) = 0 ∧ t.get (R.LOOP_TG_STAT_ABORTED g.val) = 1 ∧
       t.get (R.LOOP_TG_STAT_CODE g.val) = 0x6)) ∧
   (∀ g, Turns (.testAbort g) (fun m => assoc m.loop.gens g.val = none) id)) ∧
  (let running := fun (m : Chip) => m.get R.LOOP_CAP_STAT_STATE = 1 ∨ m.get R.LOOP_CAP_STAT_STATE = 2
   Shows .captureArm (fun m => ¬ running m) (fun m t => t.loop.cap = [] ∧ t.get R.LOOP_CAP_STAT_FILL = 0 ∧
     (m.get R.LOOP_CAP_CTL_TRIG = 0 → t.get R.LOOP_CAP_STAT_STATE = 2 ∧ t.get64 R.LOOP_CAP_TRIG_LO = m.stamp) ∧
     (m.get R.LOOP_CAP_CTL_TRIG ∈ [1, 2] → t.get R.LOOP_CAP_STAT_STATE = 1)) ∧
   Turns .captureArm running id ∧
   Shows .captureStop running (fun m t => t.get R.LOOP_CAP_STAT_STATE = 3 ∧ t.loop.cap = m.loop.cap) ∧
   Turns .captureStop (fun m => ¬ running m) id)

/-- A stuck bitstream of an enabled channel sets MOD_FAULT and activity clears it. An RMS window gives its values. A used voltage below the dip threshold starts a
dip, which ends above it plus the hysteresis. A rising edge counts one pulse, and one that follows within MINPER sets CHATTER. A residue update shows the
interval's whole LSB. An interval that is due closes: the next opens, FOLDING is set, and at the fold a channel's total takes the count, in both copies with
complement and CRC; a BAD record takes nothing. After a start a flush record is folded once; an open interval without one is marked lost, until 0 is written
to METER_LOST_CNT. -/
def Obligations.MeterWork : Prop :=
  let on := fun (m : Chip) (c : Fin 64) => m.hasWave = true ∧ m.dspOn = true ∧ m.on (R.METER_SDM_CFG_EN c.val) = true
  (∀ c : Fin 64, ∀ e ∈ [(Instr.modFault c, 1), (.modFaultCleared c, 0)],
    Shows e.1 (fun m => on m c ∧ m.get (R.METER_SDM_STAT_MOD_FAULT c.val) = 1 - e.2)
      (fun m n => n.get (R.METER_SDM_STAT_MOD_FAULT c.val) = e.2 ∧ SameRegs [(R.METER_SDM_STAT c.val).addr] m n) ∧
    Turns e.1 (fun m => ¬ on m c ∨ m.get (R.METER_SDM_STAT_MOD_FAULT c.val) = e.2) id) ∧
  (∀ (p : Fin 14) r q f, Turns (.rmsWindowEnd p r q f) (fun m => m.hasWave = true ∧ m.dspOn = true ∧ p.val < 10 ∧ m.on (R.METER_MP_CFG_EN p.val) = true)
    (fun m => m.withMeter { m.meter with windows := AMap.put {} p.val ⟨r, q, f⟩ m.meter.windows })) ∧
  (∀ (p : Fin 14) r q f, Turns (.rmsWindowEnd p r q f) (fun m => m.dspOn = false ∨ m.hasWave = false) id) ∧
  (let single := fun (m : Chip) (p : Fin 10) => m.hasWave = true ∧ m.dspOn = true ∧ m.on (R.METER_MP_CFG_EN p.val) = true ∧
     m.get (R.METER_MP_CFG_WIRING p.val) = 2
   let pct := fun (m : Chip) (p : Fin 10) (v : DWord) => Fp.fdiv (Fp.fmul v (Fp.fofNat 100)) (m.get64 (R.METER_MP_UDECL_LO p.val))
   let dip := fun (m : Chip) (p : Fin 10) => Fp.fofNat (m.get (R.METER_MP_THR_DIP p.val))
   let hyst := fun (m : Chip) (p : Fin 10) => Fp.fdiv (Fp.fofNat (m.get (R.METER_MP_THR_HYST p.val))) (Fp.fofNat 10)
   (∀ p v, Shows (.halfCycleRefresh p [v]) (fun m => single m p ∧ assoc m.meter.dips p.val = none ∧ Fp.gt (dip m p) (pct m p v) = true)
     (fun m n => ∃ e, assoc n.meter.dips p.val = some e ∧ e.start = m.now ∧ e.mask = 1)) ∧
   (∀ p v e, Shows (.halfCycleRefresh p [v])
     (fun m => single m p ∧ assoc m.meter.dips p.val = some e ∧ Fp.gt (Fp.fadd (dip m p) (hyst m p)) (pct m p v) = true)
     (fun _ n => ∃ f, assoc n.meter.dips p.val = some f ∧ f.start = e.start)) ∧
   (∀ p v e, Shows (.halfCycleRefresh p [v])
     (fun m => single m p ∧ m.meter.dips = [(p.val, e)] ∧ Fp.gt (Fp.fadd (dip m p) (hyst m p)) (pct m p v) = false)
     (fun _ n => n.meter.dips = []))) ∧
  (let input := fun (m : Chip) (p : Fin 32) => m.dspOn = true ∧ m.on (R.METER_PI_CFG_EN p.val) = true
   (∀ p t, Shows (.pulseEdge p true t) (fun m => input m p)
     (fun m n => n.get (R.METER_PI_STAT_LEVEL p.val) = 1 ∧ AMap.get 0 n.meter.pulses p.val = AMap.get 0 m.meter.pulses p.val + 1 ∧
       assoc n.meter.lastPulse p.val = some t.toNat)) ∧
   (∀ p t s, Shows (.pulseEdge p true t)
     (fun m => input m p ∧ assoc m.meter.lastPulse p.val = some s ∧ m.get (R.METER_PI_CFG_MINPER p.val) ≠ 0 ∧
       t.toNat < s + m.get (R.METER_PI_CFG_MINPER p.val) * 100000)
     (fun _ n => n.get (R.METER_PI_STAT_CHATTER p.val) = 1)) ∧
   (∀ p t, Turns (.pulseEdge p false t) (fun m => input m p) (fun m => m.put (R.METER_PI_STAT_LEVEL p.val) 0)) ∧
   (∀ p b t, Turns (.pulseEdge p b t) (fun m => ¬ input m p) id)) ∧
  (∀ l o, Shows (.residueUpdate l o) (fun m => m.dspOn = true)
    (fun m n => (∀ c ∈ o, c < 64 → n.get (R.METER_SDM_STAT_OVR c) = 1) ∧ ∀ c ∈ m.slotChans, (m.mchan c).kind = 2 → AMap.get 0 n.totals.opened c =
      (wholeLsb (Fp.fadd (Fp.fofNat (AMap.get 0 m.meter.pulses (m.mchan c).source * (m.mchan c).param)) (AMap.get 0 m.meter.frac c))).1 % 2 ^ 32)) ∧
  (∀ l o, Turns (.residueUpdate l o) (fun m => m.dspOn = false) id) ∧
  (∀ l k, Shows (.intervalClose l k) (fun m => m.dspOn = true ∧ m.closeDue = true)
    (fun m n => n.totals.interval = (m.totals.interval + 1) % 2 ^ 32 ∧ n.totals.start = m.now ∧ n.totals.closingDue = true ∧ n.totals.isOpen = true ∧
      n.totals.opened = [] ∧ n.meter.pulses = [] ∧ n.meter.vacc = [] ∧ n.get R.METER_STAT_FOLDING = 1)) ∧
  (∀ l k, Turns (.intervalClose l k) (fun m => m.dspOn = false ∨ m.closeDue = false) id) ∧
  (let sealed := fun (r : TotRec) => r.intact = true ∧ r.totalC = ~~~r.total ∧ r.wrapC = ~~~r.wrap ∧ r.crc = crc32c r.body
   let folding := fun (m : Chip) (c : Nat) (r : TotRec) => m.totals.closingDue = true ∧ m.totals.map = [c] ∧ m.meter.foldV = [] ∧
     (m.tot c).1 = r ∧ r.intact = true
   (∀ c r, Shows .totalFold (fun m => folding m c r ∧ r.bad = false ∧ r.total.toNat + AMap.get 0 m.totals.closing c < 2 ^ 64)
     (fun m n => n.totals.closingDue = false ∧ n.get R.METER_STAT_FOLDING = 0 ∧ (n.tot c).1 = (n.tot c).2 ∧ sealed (n.tot c).1 ∧
       (n.tot c).1.total.toNat = r.total.toNat + AMap.get 0 m.totals.closing c ∧ (n.tot c).1.wrap = r.wrap ∧
       (n.tot c).1.last = BitVec.ofNat 32 m.totals.previous ∧ (n.tot c).1.gen = r.gen + 1)) ∧
   (∀ c r, Shows .totalFold (fun m => folding m c r ∧ r.bad = false ∧ 2 ^ 64 ≤ r.total.toNat + AMap.get 0 m.totals.closing c ∧ r.wrap ≠ 0xFFFF)
     (fun m n => (n.tot c).1.total = r.total + BitVec.ofNat 64 (AMap.get 0 m.totals.closing c) ∧ (n.tot c).1.wrap = r.wrap + 1 ∧
       n.get R.METER_WRAP_CNT = min 0xFFFFFFFF (m.get R.METER_WRAP_CNT + 1))) ∧
   (∀ c r, Shows .totalFold (fun m => folding m c r ∧ r.bad = true) (fun m n => n.tot c = m.tot c ∧ n.get R.METER_STAT_FOLDING = 0)) ∧
   Turns .totalFold (fun m => m.totals.closingDue = false ∧ m.meter.foldV = []) id ∧
   Turns .flushRecovery (fun m => m.meter.recovered = true) id ∧
   (∀ c r f, Shows .flushRecovery
     (fun m => m.meter.recovered = false ∧ m.totals.flush = some f ∧ f.closingDue = false ∧ m.totals.map = [c] ∧ (m.tot c).1 = r ∧ r.intact = true ∧
       r.bad = false ∧ newer (BitVec.ofNat 32 f.interval) r.last = true ∧ r.total.toNat + AMap.get 0 f.opened c < 2 ^ 64)
     (fun _ n => n.meter.recovered = true ∧ n.totals.flush = none ∧ (n.tot c).1.total.toNat = r.total.toNat + AMap.get 0 f.opened c ∧
       sealed (n.tot c).1)) ∧
   (∀ c r, Shows .flushRecovery
     (fun m => m.meter.recovered = false ∧ m.totals.flush = none ∧ m.totals.isOpen = true ∧ m.totals.closingDue = false ∧ m.totals.map = [c] ∧
       (m.tot c).1 = r ∧ r.intact = true ∧ r.bad = false ∧ m.totals.start < 2 ^ 64)
     (fun m n => n.get R.METER_STAT_LOST = 1 ∧ (n.get64 R.METER_LOST_START_LO).toNat = m.totals.start ∧ n.get R.METER_LOST_CNT_CHANNELS = 1 ∧
       (n.tot c).1.total = r.total ∧ (n.tot c).1.lostStart.toNat = m.totals.start ∧ n.totals.isOpen = false))) ∧
  (∀ v, Shows (.lostMarkerClear v) (fun _ => True) (fun m n => if v = 0 then n.get R.METER_STAT_LOST = 0 ∧ n.get R.METER_LOST_CNT_CHANNELS = 0 ∧
    n.get R.METER_LOST_LEN = 0 ∧ n.get64 R.METER_LOST_START_LO = 0 else n = m))

/-- A frame of a station that is not enabled, or whose version or CRC is wrong, changes nothing. One whose number is not newer than the last accepted of its type
counts in TXN_DUP_CNT and lands nothing. An accepted IO_REPORT writes each entry to the point its INPUT route names as a FIELD write, or counts in
TXN_NOROUTE_CNT. IO_ACK, QUENCH_ACK and LG_RESP end the transaction they name; HELLO clears the station's inbound numbers; LG_READ, LG_WRITE and LG_SUBSCRIBE
are answered, LG_UPDATE refreshes the mirror. A time beacon is never landed, an unknown type counts in TXN_CLASS_MIS_CNT. -/
def Obligations.StationFrames : Prop :=
  let word := fun (f : RxFrame) (o : Nat) => BitVec.ofNat 32 (fld f.payload o 4)
  let dword := fun (f : RxFrame) (o : Nat) => BitVec.ofNat 64 (fld f.payload o 8)
  let kept := fun (m : Chip) (f : RxFrame) (type k : Nat) => m.staOn f.station.toNat = true ∧ f.sound type = true ∧ f.cls.toNat = k ∧ f.deep = 0 ∧
    f.occ < m.get (R.TXN_CLS_MIN_KIB k) ∧ m.member f.station.toNat type = true ∧ m.standby = false
  (∀ f, ∀ c ∈ [(Instr.ioReport f, 0x30), (.ioAck f, 0x32), (.hello f, 0x33), (.quenchAck f, 0x39), (.lgRead f, 0x40), (.lgWrite f, 0x41),
      (.lgResp f, 0x42), (.lgSubscribe f, 0x44), (.lgUpdate f, 0x43), (.lgAnnounce f, 0x46), (.ack f, 0x04), (.report f, 0x10), (.fwMissing f, 0x23)],
    Turns c.1 (fun m => m.staOn f.station.toNat = false ∨ f.sound c.2 = false) id) ∧
  (∀ f q, ∀ c ∈ [(Instr.ioReport f, 0x30, 3), (.lgRead f, 0x40, 1), (.lgWrite f, 0x41, 1), (.lgSubscribe f, 0x44, 1), (.lgUpdate f, 0x43, 1)],
    Shows c.1 (fun m => kept m f c.2.1 c.2.2 ∧ AMap.get none (m.sta f.station.toNat).inSeq c.2.1 = some q ∧ newer f.seq q = false)
      (fun m n => n.get R.TXN_DUP_CNT = min 0xFFFFFFFF (m.get R.TXN_DUP_CNT + 1) ∧ n.pts = m.pts ∧ n.txn.txs = m.txn.txs ∧
        AMap.get none (n.sta f.station.toNat).inSeq c.2.1 = some q)) ∧
  (let route := fun (f : RxFrame) (r : Route) =>
     r.input && r.station == f.station.toNat && r.module == fld f.payload 8 2 && r.chan == fld f.payload 12 2
   let entry := fun (m1 : Chip) (f : RxFrame) (i : Nat) =>
     ({ tag := m1.tagOf i, src := .field, value := dword f 20, second := dword f 28, stamp := dword f 0, seq := f.seq,
        quality := BitVec.ofNat 16 (fld f.payload 14 2) ||| (if (fld f.payload 10 1) % 2 = 1 then 0x0080 else 0) } : PtWrite)
   let landed := fun (m m1 : Chip) (f : RxFrame) => m.rx 0x30 f false = (true, m1) ∧ fld f.payload 11 1 = 1
   (∀ f m1 i, Turns (.ioReport f) (fun m => landed m m1 f ∧ m1.pointsBy (route f) = [i])
     (fun _ => (m1.ptWrite .txn (entry m1 f i)).2)) ∧
   (∀ f m1, Shows (.ioReport f) (fun m => landed m m1 f ∧ m1.pointsBy (route f) = [])
     (fun _ n => n.pts = m1.pts ∧ n.get R.TXN_NOROUTE_CNT = min 0xFFFFFFFF (m1.get R.TXN_NOROUTE_CNT + 1)))) ∧
  (let open_ := fun (m : Chip) (f : RxFrame) (t : Tx) => m.txn.txs = [t] ∧ t.inFlight = true ∧ t.station = f.station.toNat ∧ t.seq = word f 0
   (∀ f m1 t, Shows (.ioAck f) (fun m => open_ m f t ∧ t.kind = .output ∧ m.rx 0x32 f false = (true, m1))
     (fun _ n => n.txn.txs = m1.txn.txs.erase t ∧ n.txn.held = m1.txn.held)) ∧
   (∀ f m1 t, Shows (.quenchAck f) (fun m => open_ m f t ∧ t.kind = .quench ∧ t.reqPort = some 3 ∧ m.rx 0x39 f false = (true, m1))
     (fun _ n => n.txn.txs = m1.txn.txs.erase t ∧ n.get R.TXN_Q_RES_DONE = 1 ∧ n.get R.TXN_Q_RES_CODE = 0)) ∧
   (∀ f m1 t p, Shows (.lgResp f) (fun m => open_ m f t ∧ t.kind = .lgWrite ∧ t.reqPort = some p ∧ p < 3 ∧ m.rx 0x42 f false = (true, m1))
     (fun _ n => n.txn.txs = m1.txn.txs.erase t ∧ n.get (R.POINT_ACC_STAT_BUSY p) = 0 ∧ n.get (R.POINT_ACC_STAT_CODE p) = fld f.payload 4 2)) ∧
   (∀ f m1 t p, Shows (.lgResp f)
     (fun m => open_ m f t ∧ t.kind = .lgRead ∧ t.reqPort = some p ∧ p < 3 ∧ 72 ≤ f.payload.length ∧ m.rx 0x42 f false = (true, m1))
     (fun _ n => n.get (R.POINT_ACC_STAT_BUSY p) = 0 ∧ ∀ w, w < 16 → n.get (R.POINT_ACC_DATA p w) = fld f.payload (8 + 4 * w) 4))) ∧
  (∀ f m1, Shows (.hello f) (fun m => m.rx 0x33 f false = (true, m1))
    (fun _ n => (n.sta f.station.toNat).inSeq = AMap.put none 0x33 (some f.seq) [])) ∧
  (∀ f m1 m2 c r, Turns (.lgRead f) (fun m => m.rx 0x40 f false = (true, m1) ∧ m1.ptRead .txn (BitVec.ofNat 40 (fld f.payload 0 8)) = (c, some r, m2))
    (fun _ => m2.sendPlain f.station.toNat 0x42 1 (le 4 f.seq.toNat ++ le 2 c.toNat ++ le 2 0 ++ r.image))) ∧
  (∀ f m1 m2 c, Turns (.lgWrite f)
    (fun m => m.rx 0x41 f false = (true, m1) ∧
      m1.ptWrite .txn { tag := BitVec.ofNat 40 (fld f.payload 0 8), src := .host, value := dword f 8, second := dword f 16 } = (c, m2))
    (fun _ => m2.sendPlain f.station.toNat 0x42 1 (le 4 f.seq.toNat ++ le 2 c.toNat ++ le 2 0))) ∧
  (let tag := fun (f : RxFrame) => BitVec.ofNat 40 (fld f.payload 0 8)
   let update := fun (m1 : Chip) (f : RxFrame) (i : Nat) =>
     ({ tag := m1.tagOf i, src := .field, value := dword f 8, second := dword f 16, stamp := dword f 24, seq := f.seq, mirror := true,
        quality := BitVec.ofNat 16 (fld f.payload 32 2), untrusted := (fld f.payload 34 2).testBit 2 } : PtWrite)
   let here := fun (m1 : Chip) (f : RxFrame) => m1.outOfRange (tag f) = false ∧ m1.local (tag f) = true
   (∀ f m1, Turns (.lgSubscribe f)
     (fun m => m.rx 0x44 f false = (true, m1) ∧ here m1 f ∧ (m1.route (m1.pt (tagIdx (tag f))).route.toNat).published = false)
     (fun _ => m1.sendPlain f.station.toNat 0x42 1 (le 4 f.seq.toNat ++ le 2 0x8 ++ le 2 0))) ∧
   (∀ f m1, Shows (.lgSubscribe f)
     (fun m => m.rx 0x44 f false = (true, m1) ∧ here m1 f ∧ (m1.pt (tagIdx (tag f))).desc ≠ 0 ∧
       (m1.route (m1.pt (tagIdx (tag f))).route.toNat).published = true ∧ m1.txn.subs.length < 262144)
     (fun _ n => ({ station := f.station.toNat, tag := (tag f).toNat, refresh := fld f.payload 8 4, renewed := m1.monoNs } : Subscr) ∈ n.txn.subs)) ∧
   (∀ f m1 i, Turns (.lgUpdate f)
     (fun m => m.rx 0x43 f false = (true, m1) ∧ m1.txn.txs = [] ∧
       m1.pointsBy (fun r => r.mirror && r.remote == tag f && r.station == f.station.toNat) = [i] ∧ (m1.route (m1.pt i).route.toNat).output = false)
     (fun _ => (m1.ptWrite .txn (update m1 f i)).2))) ∧
  (∀ f, Turns (.timeBeacon f) (fun m => m.standby = false ∨ f.sound 0x08 = false) id) ∧
  (∀ f, Shows (.timeBeacon f) (fun m => m.standby = true ∧ f.sound 0x08 = true)
    (fun m n => AMap.get 0 n.sadl.beaconSeen (m.portOf f.station.toNat) = f.seq ∧ n.pts = m.pts ∧ n.regs = m.regs)) ∧
  (∀ type : Byte, Shows (.unknownFrameType type) (fun _ => typeClass type.toNat = none)
    (fun m n => n.get R.TXN_CLASS_MIS_CNT = min 0xFFFFFFFF (m.get R.TXN_CLASS_MIS_CNT + 1))) ∧
  (∀ type : Byte, Turns (.unknownFrameType type) (fun _ => (typeClass type.toNat).isSome = true) id)

/-- The transaction sent is of the highest class that may go; it takes the next number of its type and its station's retries. Past its timeout it is sent again
with the same number, or, at its last retry, ends with its station DOWN; past its deadline it ends. A station silent for its loss time is DOWN. A MIRROR
route's refresh queues LG_SUBSCRIBE, and a subscription not renewed within three periods is dropped. A QUENCH under untrusted time, or for more than 600 s
ahead, answers CHECK_FAILED, another before the last ended BUSY, else it is sent. A quench ends at its instant. Pauses are sent while a class is above XON and
obeyed for classes 0 to 5. -/
def Obligations.TransactionQueue : Prop :=
  Turns .txnSend (fun m => ∀ t ∈ m.txn.txs, m.maySend t = false) id ∧
  (∀ t, Shows .txnSend (fun m => m.nextTx = some t)
    (fun m n => t ∈ m.txn.txs ∧ t.state = .queued ∧ (∀ v ∈ m.txn.txs, m.maySend v = true → v.kind.cls ≤ t.kind.cls) ∧
      AMap.get 0 (n.sta t.station).outSeq t.kind.type = AMap.get 0 (m.sta t.station).outSeq t.kind.type + 1 ∧
      ({ t with state := .sent, seq := AMap.get 0 (m.sta t.station).outSeq t.kind.type + 1, sentAt := m.monoNs,
                retries := (m.staEnt t.station).retries } : Tx) ∈ n.txn.txs ∧ n.txn.txs.length = m.txn.txs.length)) ∧
  (let open_ := fun (m : Chip) (n : BitVec 18) (t : Tx) => m.txn.txs = [t] ∧ t.station = n.toNat
   let late := fun (m : Chip) (n : BitVec 18) (t : Tx) => open_ m n t ∧ t.inFlight = true ∧ t.sentAt + (m.staEnt n.toNat).timeout * 1000000 ≤ m.monoNs
   (∀ n t, Shows (.txnTimeout n t.seq) (fun m => late m n t ∧ t.retries ≠ 0 ∧ (m.sta n.toNat).up = true)
     (fun m s => s.txn.txs = [{ t with state := .sent, sentAt := m.monoNs, retries := t.retries - 1 }] ∧ s.txn.stations = m.txn.stations)) ∧
   (∀ n t, Shows (.txnTimeout n t.seq) (fun m => late m n t ∧ t.retries = 0 ∧ t.kind ≠ .output)
     (fun _ s => s.txn.txs = [] ∧ (s.sta n.toNat).up = false)) ∧
   (∀ n t, Shows (.txnTimeout n t.seq) (fun m => late m n t ∧ t.retries = 0 ∧ t.kind = .output ∧ m.txn.held = [])
     (fun _ s => s.txn.txs = [] ∧ (s.sta n.toNat).up = false ∧ ∃ h, s.txn.held = [h] ∧ h.station = n.toNat ∧ h.group = t.group ∧ h.payload = t.payload ∧
       h.since = t.since ∧ h.life = t.life)) ∧
   (∀ n seq t, Turns (.txnTimeout n seq)
     (fun m => open_ m n t ∧ (t.seq ≠ seq ∨ m.monoNs < t.sentAt + (m.staEnt n.toNat).timeout * 1000000)) id) ∧
   (∀ n t, Shows (.txnDeadline n) (fun m => open_ m n t ∧ t.deadline ≠ 0 ∧ t.deadline ≤ m.monoNs)
     (fun m s => s.txn.txs = [] ∧ s.txn.stations = m.txn.stations)) ∧
   (∀ n t, Turns (.txnDeadline n) (fun m => open_ m n t ∧ (t.deadline = 0 ∨ m.monoNs < t.deadline)) id)) ∧
  (let silent := fun (m : Chip) (n : BitVec 18) =>
     m.staOn n.toNat = true ∧ (m.staEnt n.toNat).loss ≠ 0 ∧ (m.sta n.toNat).heardAt + (m.staEnt n.toNat).loss * 1000000 ≤ m.monoNs
   (∀ n, Shows (.stationDown n) (fun m => silent m n) (fun m s => (s.sta n.toNat).up = false ∧ s.txn.txs = m.txn.txs)) ∧
   (∀ n, Turns (.stationDown n) (fun m => ¬ silent m n) id)) ∧
  (∀ r, Shows (.subscribeRefresh r)
    (fun m => let e := m.route r.toNat
      e.mirror = true ∧ m.staOn e.station = true ∧ (m.sta e.station).up = true ∧
      m.txn.txs.countP (fun u => decide (u.kind = .lgSubscribe ∧ u.station = e.station ∧ u.state = .queued)) < 64)
    (fun m n => ∃ t, n.txn.txs = m.txn.txs ++ [t] ∧ t.kind = .lgSubscribe ∧ t.station = (m.route r.toNat).station ∧
      t.tag = (m.route r.toNat).remote.toNat ∧ t.state = .queued)) ∧
  (∀ r, Turns (.subscribeRefresh r) (fun m => (m.route r.toNat).mirror = false) id) ∧
  Shows .subscriptionExpiry (fun _ => True) (fun m n => n.regs = m.regs ∧ n.txn.txs = m.txn.txs ∧
    ∀ x, x ∈ n.txn.subs ↔ x ∈ m.txn.subs ∧ m.monoNs < x.renewed + 3 * x.refresh * 1000000) ∧
  (let idle := fun (m : Chip) => ∀ t ∈ m.txn.txs, t.reqPort ≠ some 3
   let answer := fun (b : Bool) (code : Nat) (m : Chip) => ((m.put R.TXN_Q_CMD_ACK_REQ (bit b)).put R.TXN_Q_RES_DONE 1).put R.TXN_Q_RES_CODE code
   let good := fun (m : Chip) => idle m ∧ m.trusted = true ∧ (m.get64 R.TXN_Q_UNTIL_LO).toNat ≤ m.now + 600000000000 ∧
     m.on R.TXN_Q_TGT_PORT = false ∧ m.staOn (m.get R.TXN_Q_TGT_TARGET) = true
   (∀ b, Turns (.quenchGo b) (fun m => ¬ idle m) (answer b 0xE)) ∧
   (∀ b, Turns (.quenchGo b) (fun m => idle m ∧ (m.trusted = false ∨ m.now + 600000000000 < (m.get64 R.TXN_Q_UNTIL_LO).toNat)) (answer b 0x8)) ∧
   Shows (.quenchGo false) good (fun m n => n.get R.TXN_Q_RES_DONE = 1 ∧ n.get R.TXN_Q_RES_CODE = 0 ∧
     (n.sta (m.get R.TXN_Q_TGT_TARGET)).quenchUntil = (m.get64 R.TXN_Q_UNTIL_LO).toNat) ∧
   Shows (.quenchGo true)
     (fun m => good m ∧ (m.sta (m.get R.TXN_Q_TGT_TARGET)).up = true ∧ m.txn.txs.countP (fun u => decide (u.kind = .quench ∧ u.state = .queued)) < 64)
     (fun m n => ∃ t, n.txn.txs = m.txn.txs ++ [t] ∧ t.kind = .quench ∧ t.reqPort = some 3 ∧ t.station = m.get R.TXN_Q_TGT_TARGET ∧
       t.deadline = m.monoNs + 1000000000) ∧
   (∀ n, Shows (.quenchEnd n) (fun m => (m.sta n.toNat).babbleUntil ≠ 0 ∧ m.reached (m.sta n.toNat).babbleUntil = true ∧ m.on R.TXN_CTL_AUTOQ_EN = false)
     (fun m s => (s.sta n.toNat).babbleUntil = 0 ∧ s.txn.txs = m.txn.txs)) ∧
   (∀ n, Turns (.quenchEnd n) (fun m => (m.sta n.toNat).babbleUntil = 0 ∨ m.reached (m.sta n.toNat).babbleUntil = false) id)) ∧
  (∀ (k : Fin 6) deep, Shows (.pfcRepeat k deep)
    (fun m => m.on (xoffFlag k.val) = true ∧ m.get (R.TXN_CLS_PFC_XON k.val) * 1024 < deep ∧ deep < 2 ^ 21 ∧ m.leads = true)
    (fun m n => n.on (xoffFlag k.val) = true ∧ n.get (R.TXN_CLS_DQ_KIB k.val) = deep ∧
      n.out = m.out ++ m.uplinks.map (fun u => .frame 7 u "PFC" [m.pcp k.val, 0xFFFF]))) ∧
  (∀ (k : Fin 6) deep, Shows (.pfcRepeat k deep)
    (fun m => m.on (xoffFlag k.val) = true ∧ deep ≤ m.get (R.TXN_CLS_PFC_XON k.val) * 1024 ∧ deep < 2 ^ 21)
    (fun _ n => n.on (xoffFlag k.val) = false)) ∧
  (∀ (u : Fin 4) vec q (k : Fin 6), Shows (.pfcFrame u vec q) (fun m => vec.getLsbD (m.pcp k.val) = true)
    (fun m n => AMap.get 0 n.txn.paused (u.val * 8 + k.val) = m.monoNs + (q.getD (m.pcp k.val) 0 * 2048 + 99) / 100)) ∧
  (∀ u : Fin 4, Shows (.pauseFrame u) (fun _ => True)
    (fun m n => n.get (R.UPL_P_DROP u.val) = min 0xFFFFFFFF (m.get (R.UPL_P_DROP u.val) + 1) ∧ n.txn = m.txn))

/-- A write of UPL_TIME_SET steps league time with its trust bit, or only sets SET_REF where SLAVE has a master. A slave's Sync offset beyond the threshold before
calibration steps, another slews; the fourth offset in trust sets LOCKED and trust, the sixteenth beyond four times it clears LOCKED. A lost master is
replaced or dropped; SLAVE without one for HOLD loses trust. Announce, Sync and Delay_Resp leave ports that may send. A MEMBER silent for 3 s is LOST; an
announce of another league makes FOREIGN. Requests for an uplink's own address are answered, others counted. A link change is shown; PERST_N and link-down
take the host's latches. -/
def Obligations.UplinksAndLeagueTime : Prop :=
  let slave := fun (m : Chip) (u : Nat) => m.ptpPort u = true ∧ m.get R.UPL_TIME_CTL_MODE = 1 ∧ m.followsTwin = false
  (∀ r v, Turns (.timeSet r v) (fun m => m.get R.UPL_TIME_CTL_MODE = 1 ∧ m.upl.selected.isSome = true)
    (fun m => (m.heldWord r R.UPL_TIME_SET_LO.addr).2.put R.UPL_TIME_STAT_SET_REF 1)) ∧
  (∀ r v, Shows (.timeSet r v) (fun m => m.get R.UPL_TIME_CTL_MODE ≠ 1 ∨ m.upl.selected = none)
    (fun m n => let lo := (m.heldWord r R.UPL_TIME_SET_LO.addr).1
      n.now = (v.toNat % 2 ^ 31) * 2 ^ 32 + lo.toNat / 2 * 2 ∧ n.trusted = lo.getLsbD 0 ∧ n.meter.stepClose = true ∧ n.clk.mono = m.clk.mono)) ∧
  (let offset := fun (m : Chip) (u : Fin 4) (i : DWord) (d sec ns rx : Nat) (o : Int) => slave m u.val ∧ m.upl.selected = some (u.val, i) ∧
     AMap.get none m.upl.delay u.val = some d ∧ o = (rx : Int) - (((sec : Int) - 946684800) * 1000000000 + ns + d) ∧ o.natAbs < 2 ^ 31
   let thr := fun (m : Chip) => m.get R.UPL_PTP_CFG_STEP_THR * 100000
   (∀ u i sec ns rx d o, Shows (.sync u i sec ns rx)
     (fun m => offset m u i d sec ns rx o ∧ thr m < o.natAbs ∧ m.upl.calibrated = false ∧ m.get R.UPL_TIME_CTL_TRUST_NS < o.natAbs ∧ o ≤ m.now)
     (fun m n => (n.now : Int) = m.now - o ∧ (n.get R.UPL_TIME_OFS : Int) = o % 2 ^ 32)) ∧
   (∀ u i sec ns rx d o, Shows (.sync u i sec ns rx) (fun m => offset m u i d sec ns rx o ∧ o.natAbs ≤ thr m)
     (fun m n => n.clk.league = m.clk.league ∧ rateNominal - ratePpm200 ≤ n.clk.rate ∧ n.clk.rate ≤ rateNominal + ratePpm200)) ∧
   (∀ u i sec ns rx d o, Shows (.sync u i sec ns rx)
     (fun m => offset m u i d sec ns rx o ∧ o.natAbs ≤ m.get R.UPL_TIME_CTL_TRUST_NS ∧ m.upl.inLock = 3 ∧ m.on R.UPL_TIME_STAT_LOCKED = false)
     (fun _ n => n.on R.UPL_TIME_STAT_LOCKED = true ∧ n.trusted = true ∧ n.upl.calibrated = true)) ∧
   (∀ u i sec ns rx d o, Shows (.sync u i sec ns rx)
     (fun m => offset m u i d sec ns rx o ∧ 4 * m.get R.UPL_TIME_CTL_TRUST_NS < o.natAbs ∧ m.upl.outLock = 15)
     (fun m n => n.on R.UPL_TIME_STAT_LOCKED = false ∧ n.trusted = m.trusted)) ∧
   (∀ (u : Fin 4) i sec ns rx, Turns (.sync u i sec ns rx) (fun m => AMap.get none m.upl.delay u.val = none ∨ m.upl.selected ≠ some (u.val, i)) id)) ∧
  (∀ a : PtpAnnounce, Turns (.announce a) (fun m => m.ptpPort a.port.val = false ∨ a.domain.toNat ≠ m.get R.UPL_PTP_CFG_DOMAIN) id) ∧
  (∀ a : PtpAnnounce, Shows (.announce a)
    (fun m => slave m a.port.val ∧ a.domain.toNat = m.get R.UPL_PTP_CFG_DOMAIN ∧ 946684800 ≤ a.seconds ∧ m.upl.selected = none ∧
      ∃ x, m.upl.masters = [x] ∧ x.port = a.port.val ∧ x.ident = a.ident ∧ ∃ t l, x.heard = t :: l ∧ t ≤ m.monoNs ∧ m.monoNs ≤ t + 4 * m.annInterval)
    (fun m n => n.upl.selected = some (a.port.val, a.ident) ∧ n.get R.UPL_TIME_STAT_HAS_MASTER = 1 ∧ n.get R.UPL_TIME_STAT_MASTER_PORT = a.port.val ∧
      n.get R.UPL_UTC_OFS = a.utc.toNat ∧ n.now = m.now)) ∧
  (∀ x p i, Shows .announceTimeout (fun m => m.upl.selected = some (p, i) ∧ m.upl.masters = [x] ∧ x.port = p ∧ x.ident = i ∧ m.qualified x = false)
    (fun m n => n.upl.selected = none ∧ n.upl.noMaster = some m.monoNs ∧ n.on R.UPL_TIME_STAT_LOCKED = false ∧
      n.get R.UPL_TIME_STAT_HAS_MASTER = 0)) ∧
  Turns .announceTimeout (fun m => m.upl.selected = none) id ∧
  Shows .holdoverExpiry
    (fun m => m.get R.UPL_TIME_CTL_MODE = 1 ∧ m.upl.selected = none ∧ m.followsTwin = false ∧
      m.upl.noMaster.getD 0 + max 1 (m.get R.UPL_TIME_HOLD) * 1000000000 ≤ m.monoNs)
    (fun m n => n.trusted = false ∧ n.now = m.now) ∧
  Turns .holdoverExpiry (fun m => m.get R.UPL_TIME_CTL_MODE ≠ 1 ∨ m.upl.selected.isSome = true) id ∧
  (∀ u : Fin 4, Shows (.syncSend u) (fun m => m.ptpSends u.val = true)
    (fun m n => n.out = m.out ++ [.frame 7 u.val "PTP_SYNC" [(AMap.get 0 m.upl.ptpSeq u.val + 1) % 65536, m.get R.UPL_PTP_CFG_DOMAIN,
      m.now / 1000000000 + 946684800, m.now % 1000000000]] ∧ n.regs = m.regs)) ∧
  (∀ u : Fin 4, Shows (.announceSend u) (fun m => m.ptpSends u.val = true)
    (fun m n => n.out = m.out ++ [.frame 7 u.val "PTP_ANNOUNCE" [(AMap.get 0 m.upl.ptpSeq u.val + 1) % 65536, m.get R.UPL_PTP_CFG_DOMAIN,
      m.get R.UPL_PTP_CFG_PRIO1, m.clockClass, m.get R.UPL_UTC_OFS, m.get R.UPL_UTC_VALID, m.get R.UPL_UTC_LI61, m.get R.UPL_UTC_LI59]] ∧
      n.regs = m.regs)) ∧
  (∀ u : Fin 4, ∀ seq rx, ∀ c ∈ [Instr.syncSend u, .announceSend u, .delayReq u seq rx], Turns c (fun m => m.ptpSends u.val = false) id) ∧
  (∀ (u : Fin 4) (seq : Half) rx, Turns (.delayReq u seq rx) (fun m => m.ptpSends u.val = true)
    (fun m => m.emit (.frame 7 u.val "PTP_DELAY_RESP" [seq.toNat, rx / 1000000000 + 946684800, rx % 1000000000]))) ∧
  (∀ (u : Fin 4) d, Shows (.delayResp u d) (fun m => slave m u.val) (fun m n => AMap.get none n.upl.delay u.val = some d ∧ n.regs = m.regs)) ∧
  (∀ (u : Fin 4) d, Turns (.delayResp u d) (fun m => m.ptpPort u.val = false) id) ∧
  (let neighbour := fun (m m1 : Chip) (f : RxFrame) (i : Nat) => m.rx 0x46 f false = (true, m1) ∧ (m1.staEnt f.station.toNat).medium = 4 ∧
     (m1.staEnt f.station.toNat).addr = i ∧ nbrLeague (m1.nbrEnt i) = true ∧ f.device.toNat ≠ m1.get R.POINT_CFG_DEVNUM ∧ (m1.peer i).state ≠ 3
   (∀ f m1 i, Shows (.lgAnnounce f) (fun m => neighbour m m1 f i ∧ fld f.payload 0 4 ≠ m1.get R.UPL_LEAGUE_ID) (fun _ n => (n.peer i).state = 2)) ∧
   (∀ f m1 i, Shows (.lgAnnounce f)
     (fun m => neighbour m m1 f i ∧ fld f.payload 0 4 = m1.get R.UPL_LEAGUE_ID ∧ f.device.toNat ≠ nbrDev (m1.nbrEnt i)) (fun _ n => (n.peer i).state = 3)) ∧
   (∀ f m1 i, Shows (.lgAnnounce f)
     (fun m => neighbour m m1 f i ∧ fld f.payload 0 4 = m1.get R.UPL_LEAGUE_ID ∧ f.device.toNat = nbrDev (m1.nbrEnt i) ∧
       ∀ x, (m1.peer i).ident = some x → x.toNat = fld f.payload 4 8)
     (fun _ n => (n.peer i).state = 1 ∧ (n.peer i).last = m1.monoNs ∧ ((n.peer i).ident.map BitVec.toNat) = some (fld f.payload 4 8)))) ∧
  (∀ i, Shows .leagueAnnounceSend
    (fun m => m.leads = true ∧ m.nbrs = [i] ∧ nbrLeague (m.nbrEnt i) = true ∧ m.stations = [] ∧ m.uplinkOf i < 32)
    (fun m n => ∃ f, n.out = m.out ++ [.mirfor f] ∧ f.port = 128 + m.uplinkOf i ∧ f.type = 0x46 ∧ f.cls = 5 ∧ f.payload = m.announceBody)) ∧
  Turns .leagueAnnounceSend (fun m => ∀ i ∈ m.nbrs, nbrLeague (m.nbrEnt i) = false) id ∧
  (∀ i : Fin 4096, Shows (.peerLost i) (fun m => (m.peer i.val).state = 1 ∧ (m.peer i.val).last + 3000000000 ≤ m.monoNs)
    (fun _ n => (n.peer i.val).state = 4)) ∧
  (∀ i : Fin 4096, Turns (.peerLost i) (fun m => (m.peer i.val).state ≠ 1 ∨ m.monoNs < (m.peer i.val).last + 3000000000) id) ∧
  (let takes := fun (m : Chip) (u : Fin 4) (tags : List Nat) => m.on (R.UPL_P_CFG_EN u.val) = true ∧ m.unitOpen (UK.uplink u.val) = true ∧
     m.tagsOk u.val tags = true
   let own4 := fun (m : Chip) (u : Fin 4) (a : Word) => a ≠ 0 ∧ fld (m.addrEnt u.val) 20 4 = ofLe (le 4 a.toNat).reverse
   let own6 := fun (m : Chip) (u : Fin 4) (a : BitVec 128) => a ≠ 0 ∧ fld (m.addrEnt u.val) 0 16 = ofLe (le 16 a.toNat).reverse
   let answer := fun (u : Fin 4) (name : String) (l : List Nat) (m : Chip) => m.emit (.frame 7 u.val name l)
   (∀ u tags a, Turns (.arpRequest u tags a) (fun m => takes m u tags ∧ own4 m u a ∧ m.standby = false) (answer u "ARP_REPLY" [a.toNat])) ∧
   (∀ u tags a, Turns (.neighborSolicitation u tags a) (fun m => takes m u tags ∧ own6 m u a ∧ m.standby = false)
     (answer u "NEIGHBOR_ADVERTISEMENT" [a.toNat])) ∧
   (∀ u tags a src body, Turns (.echoRequest u tags true a src body) (fun m => takes m u tags ∧ own6 m u a ∧ m.standby = false)
     (answer u "ECHO_REPLY" (src.toNat :: body.map BitVec.toNat))) ∧
   (∀ u tags (a : Word), ∀ src body, Turns (.echoRequest u tags false (a.zeroExtend 128) src body) (fun m => takes m u tags ∧ own4 m u a ∧ m.standby = false)
     (answer u "ECHO_REPLY" (src.toNat :: body.map BitVec.toNat))) ∧
   (∀ u tags a, Shows (.arpRequest u tags a) (fun m => takes m u tags ∧ fld (m.addrEnt u.val) 20 4 ≠ ofLe (le 4 a.toNat).reverse)
     (fun m n => n.out = m.out ∧ n.get (R.UPL_P_DROP u.val) = min 0xFFFFFFFF (m.get (R.UPL_P_DROP u.val) + 1)))) ∧
  (∀ l, Shows (.neighborResolveRetry l) (fun m => m.standby = false)
    (fun _ n => ∀ i : Fin 4096, i ∈ l → AMap.get false n.upl.resolved i.val = true)) ∧
  (∀ i, Shows (.neighborResolveRetry [])
    (fun m => m.standby = false ∧ m.nbrs = [i] ∧ AMap.get false m.upl.resolved i = false ∧ (fld (m.nbrEnt i) 0 1).testBit 2 = true)
    (fun m n => n.out = m.out ++ [.frame 7 (m.uplinkOf i) "ARP_REQUEST" [fld (m.nbrEnt i) 8 4]])) ∧
  (∀ (u : Fin 4) up s w, Shows (.linkState (BitVec.ofNat 8 u.val) up s w) (fun m => m.on (R.UPL_P_CFG_EN u.val) = true)
    (fun _ n => n.on (R.UPL_P_STAT_LINK u.val) = up)) ∧
  (let down := fun (m n : Chip) => n.on R.UPL_PCIE_STAT_LINK = false ∧ n.get R.UPL_PCIE_STAT_GEN = 0 ∧ n.get R.UPL_PCIE_STAT_WIDTH = 0 ∧
     (n.req .pcie).latch = [] ∧ (n.req .pcie).pair = none ∧ n.pts = m.pts
   Shows .pcieLinkDown (fun _ => True) down ∧
   Shows (.pcieReset true) (fun _ => True) (fun m n => down m n ∧ n.upl.pcieReset = true) ∧
   (∀ s w, Turns (.linkState 32 true s w) (fun m => m.upl.pcieReset = true) id)) ∧
  Turns (.pcieReset false) (fun _ => True) (fun m => m.withUpl { m.upl with pcieReset := false })

/-- A PLCA cycle sends the first BURST + 1 waiting frames in egress order; a collided one goes again first. The device sends TIME_BEACON with league time, UTC
offset, flags and validity. A G3-PLC beacon opens the window in which all waiting frames go. A join that passes is a joined station with a route, another is
refused and counted. A foreign BEACON quarantines the segment; only QCLR lifts that, and the segment listens again. Jabber counts; silence sets SILENT; the
amplifier's fault and a PAN conflict are shown; the listen ends with the port open, or as coordinator. A given-up frame is lost and counted. -/
def Obligations.FieldPorts : Prop :=
  let seg := fun (m : Chip) (g : Fin 16) => m.segOn g.val = true ∧ m.quarantined g.val = false
  (∀ g l, Shows (.plcaCycle g l) (fun m => seg m g ∧ (m.seg g.val).isOpen = true ∧ m.leads = true)
    (fun m n => let q := egressOrder (m.egress g.val); let k := 1 + m.get (R.FLD_T1S_PLCA_BURST g.val)
      n.egress g.val = q.drop k ∧ n.out = m.out ++ (q.take k).map Out.mirfor ∧ (n.seg g.val).burst = q.take k)) ∧
  (∀ g l, Turns (.plcaCycle g l) (fun m => m.segOn g.val = false ∨ m.quarantined g.val = true ∨ (m.seg g.val).isOpen = false) id) ∧
  (∀ g (k : Fin 4) f, Shows (.localCollision g k) (fun m => m.segOn g.val = true ∧ (m.seg g.val).burst[k.val]? = some f)
    (fun m n => n.egress g.val = f :: m.egress g.val ∧ n.get (R.FLD_T1S_COL_CNT g.val) = min 0xFFFFFFFF (m.get (R.FLD_T1S_COL_CNT g.val) + 1))) ∧
  (∀ g (k : Fin 4), Turns (.localCollision g k) (fun m => (m.seg g.val).burst[k.val]? = none) id) ∧
  (let beacon := fun (m : Chip) (code hops period cfw : Nat) (f : MFrame) => f.port = code ∧ f.station = none ∧ f.type = 0x08 ∧ f.cls = 6 ∧
     f.target = 0x40000000 ∧ f.seq = AMap.get 0 (m.sta (portSta code)).outSeq 0x08 + 1 ∧
     f.payload = le 8 m.now ++ le 2 (m.get R.UPL_UTC_OFS) ++ le 1 (bit m.trusted + 2 * m.get R.UPL_TIME_STAT_LOCKED + 4 * m.get R.UPL_UTC_LI61 +
       8 * m.get R.UPL_UTC_LI59 + 16 * bit (decide (0 < cfw))) ++ le 1 hops ++ le 2 period ++ le 2 cfw
   (∀ g : Fin 16, Shows (.timeBeaconSend (BitVec.ofNat 8 g.val)) (fun m => seg m g ∧ (m.seg g.val).isOpen = true ∧ m.leads = true)
     (fun m n => ∃ f, beacon m g.val 0 (5 * m.get (R.FLD_T1S_CFG_BCN g.val)) 0 f ∧ n.out = m.out ++ [.mirfor f])) ∧
   (∀ c : Fin 8, Shows (.timeBeaconSend (BitVec.ofNat 8 (32 + c.val)))
     (fun m => m.leads = true ∧ m.on (R.UPL_SG_CFG_EN c.val) = true ∧ m.unitOpen (UK.sgmii c.val) = true)
     (fun m n => ∃ f, beacon m (32 + c.val) 0 (5 * m.get (R.UPL_SG_CFG_BEACON c.val)) 0 f ∧ n.out = m.out ++ [.mirfor f])) ∧
   (∀ c : Fin 32, Shows (.timeBeaconSend (BitVec.ofNat 8 (96 + c.val)))
     (fun m => m.leads = true ∧ c.val < m.canN ∧ m.unitOpen (UK.can c.val) = true ∧ m.pdReady 10 = true ∧ m.portHolds (96 + c.val) = true)
     (fun m n => ∃ f, beacon m (96 + c.val) 0 (5 * m.get (R.CAN_CFG_BCN c.val)) 0 f ∧
       n.egress (96 + c.val) = (m.egress (96 + c.val)).filter (fun x => x.type != 0x08) ++ [f])) ∧
   (∀ c, Turns (.timeBeaconSend c) (fun m => m.leads = false) id) ∧
   (∀ i : Fin 8, Shows (.plcBeaconSend i) (fun m => m.plcSends i.val = true ∧ m.pairedActive = false)
     (fun m n => n.egress (64 + i.val) = [] ∧ ∃ f,
       beacon m (64 + i.val) (m.get (R.FLD_PLC_CFG_BHOPS i.val) - 1) (100 * m.get (R.FLD_PLC_BCN_PERIOD i.val)) (m.get (R.FLD_PLC_BCN_CFW i.val)) f ∧
       n.out = m.out ++ .mirfor f :: (egressOrder (m.egress (64 + i.val))).map Out.mirfor))) ∧
  (∀ i : Fin 8, Turns (.plcBeaconSend i) (fun m => m.plcSends i.val = false) id) ∧
  (let entry := fun (m : Chip) (i : Fin 8) (eui : DWord) => (m.adms i.val).find? (fun e => e.eui == eui)
   let refused := fun (i : Fin 8) (m n : Chip) => n.ports = m.ports ∧
     n.get (R.FLD_PLC_JOINREF_CNT i.val) = min 0xFFFFFFFF (m.get (R.FLD_PLC_JOINREF_CNT i.val) + 1)
   (∀ i eui pass hop, Shows (.plcJoin i eui pass hop) (fun m => m.plcSends i.val = true ∧ (entry m i eui).any AdmEnt.on = false) (refused i)) ∧
   (∀ i eui hop e, Shows (.plcJoin i eui false hop) (fun m => m.plcSends i.val = true ∧ entry m i eui = some e ∧ e.on = true) (refused i)) ∧
   (∀ i eui hop e, Shows (.plcJoin i eui true hop)
     (fun m => let k := m.vslot (m.get (R.FLD_PLC_KEY_PSK_SLOT i.val))
       m.plcSends i.val = true ∧ entry m i eui = some e ∧ e.on = true ∧ k.kind ≠ 0 ∧ k.count ≠ 0 ∧ (m.plc i.val).joined.length < 2047)
     (fun _ n => (eui, e.short) ∈ (n.plc i.val).joined ∧ assoc (n.plc i.val).routes e.short = some hop.toNat ∧
       n.get (R.FLD_PLC_STAT_JOINED i.val) = (n.plc i.val).joined.length)) ∧
   (∀ i eui pass hop, Turns (.plcJoin i eui pass hop) (fun m => m.plcSends i.val = false) id)) ∧
  (∀ g, Shows (.coordConflict g)
    (fun m => seg m g ∧ ((m.seg g.val).listening = true ∨ ((m.seg g.val).isOpen = true ∧ m.get (R.FLD_T1S_STAT_NODE g.val) = 0)))
    (fun _ n => n.quarantined g.val = true ∧ (n.seg g.val).isOpen = false ∧ (n.seg g.val).listening = false)) ∧
  (∀ g, Turns (.coordConflict g) (fun m => ¬ seg m g) id) ∧
  (∀ g, Shows (.qclr g) (fun m => m.quarantined g.val = true ∧ m.standby = false)
    (fun m n => n.quarantined g.val = false ∧ (n.seg g.val).listening = true ∧ (n.seg g.val).isOpen = false ∧ (n.seg g.val).lastFrame = m.monoNs)) ∧
  (∀ g, Turns (.qclr g) (fun m => m.quarantined g.val = false) id) ∧
  (∀ g, Shows (.rxJabber g) (fun m => m.segOn g.val = true)
    (fun m n => n.get (R.FLD_T1S_RXERR_CNT g.val) = min 0xFFFFFFFF (m.get (R.FLD_T1S_RXERR_CNT g.val) + 1) ∧ n.txn = m.txn)) ∧
  (∀ g, Turns (.rxJabber g) (fun m => m.segOn g.val = false) id) ∧
  (let quiet := fun (m : Chip) (g : Fin 16) => (m.seg g.val).lastFrame + m.get (R.FLD_T1S_CFG_SILENT g.val) * 1000000 ≤ m.monoNs
   (∀ g, Shows (.segmentSilent g) (fun m => m.segOn g.val = true ∧ (m.seg g.val).isOpen = true ∧ quiet m g)
     (fun _ n => n.get (R.FLD_T1S_STAT_SILENT g.val) = 1)) ∧
   (∀ g, Turns (.segmentSilent g) (fun m => ¬ quiet m g) id)) ∧
  (∀ i : Fin 8, ∀ e ∈ [(Instr.afeFault i, 1), (.afeFaultRelease i, 0)],
    Shows e.1 (fun m => m.plcOn i.val = true) (fun _ n => n.get (R.FLD_PLC_STAT_AFE_FLT i.val) = e.2) ∧ Turns e.1 (fun m => m.plcOn i.val = false) id) ∧
  (∀ i : Fin 8, Shows (.panConflict i) (fun m => m.plcOn i.val = true) (fun _ n => n.get (R.FLD_PLC_STAT_PAN_CONF i.val) = 1)) ∧
  (∀ i : Fin 8, Turns (.panConflict i) (fun m => m.plcOn i.val = false) id) ∧
  (∀ g : Fin 16, Shows (.portListenEnd (BitVec.ofNat 8 g.val)) (fun m => m.segOn g.val = true ∧ (m.seg g.val).listening = true)
    (fun m n => (n.seg g.val).isOpen = true ∧ (n.seg g.val).listening = false ∧ n.regs = m.regs)) ∧
  (∀ i : Fin 8, Shows (.portListenEnd (BitVec.ofNat 8 (64 + i.val))) (fun m => m.plcOn i.val = true ∧ (m.plc i.val).listening = true)
    (fun _ n => n.get (R.FLD_PLC_STAT_COORD i.val) = 1 ∧ (n.plc i.val).listening = false)) ∧
  (∀ (i : Fin 8) f l, Shows (.arqGiveUp i) (fun m => m.plcSends i.val = true ∧ egressOrder (m.egress (64 + i.val)) = f :: l)
    (fun m n => n.egress (64 + i.val) = l ∧ n.get (R.FLD_PLC_TXERR_CNT i.val) = min 0xFFFFFFFF (m.get (R.FLD_PLC_TXERR_CNT i.val) + 1))) ∧
  (∀ i : Fin 8, Turns (.arqGiveUp i) (fun m => m.egress (64 + i.val) = []) id)

/-- A software frame goes to the first receive buffer whose filter takes it, NEW set, LOST where NEW stood. A Mirfor segment of a sender that may not use the
channel counts as refused; a FIRST opens a reassembly, a CONT in order extends it, an index out of order ends it and counts. Reassemblies end after 200 ms.
REQ on an identifier outside the software ranges answers CHECK_FAILED, on a channel off the bus CANCELLED_DISABLE, else the buffer pends; ABORT ends it. At
the end of a frame sent TEC falls, and the next is chosen; command-lane frames first. TEC above 255 is bus-off; RECOVER and 128 idle sequences bring the
channel back ERROR_ACTIVE with TEC and REC 0. -/
def Obligations.CanChannels : Prop :=
  let state := fun (m : Chip) (n : Fin 32) => m.get (R.CAN_STAT_STATE n.val)
  let bus := fun (m : Chip) (n : Fin 32) => n.val < m.canN ∧ m.pdReady 10 = true ∧ (state m n = 2 ∨ state m n = 3)
  (∀ n f (r : Fin 16), Shows (.canFrameReceive n f)
    (fun m => bus m n ∧ f.rtr = false ∧ f.xtd = false ∧ 0x010 ≤ f.id.toNat ∧ m.rxbFor n.val f = some r.val)
    (fun m t => let body := (f.data.take (dlcBytes f.dlc.toNat) ++ List.replicate 64 0).take 64
      t.get (R.CAN_RXB_ID_XTD n.val r.val) = bit f.xtd ∧ t.get (R.CAN_RXB_ID_ID n.val r.val) = f.id.toNat ∧
      t.get (R.CAN_RXB_CTL_DLC n.val r.val) = f.dlc.toNat ∧ t.get (R.CAN_RXB_CTL_FDF n.val r.val) = bit f.fdf ∧
      t.get64 (R.CAN_RXB_STAMP_LO n.val r.val) = f.sof ∧ t.get (R.CAN_RXB_STAT_NEW n.val r.val) = 1 ∧
      (m.get (R.CAN_RXB_STAT_NEW n.val r.val) = 1 → t.get (R.CAN_RXB_STAT_LOST n.val r.val) = 1) ∧
      ∀ w, w < 16 → t.get (R.CAN_RXB_DATA n.val r.val w) = fld body (4 * w) 4)) ∧
  (∀ n f, Turns (.canFrameReceive n f) (fun m => ¬ bus m n ∨ (f.xtd = true ∧ 0x02000000 ≤ f.id.toNat ∧ f.id.toNat ≤ 0x11FFFFFF)) id) ∧
  (let seg := fun (m : Chip) (n : Fin 32) (f : CanFrame) => bus m n ∧ f.xtd = true ∧ 0x02000000 ≤ f.id.toNat ∧ f.id.toNat ≤ 0x11FFFFFF
   let src := fun (f : CanFrame) => bits f.id.toNat 23 16
   let station := fun (f : CanFrame) => f.fdf = true ∧ bits f.id.toNat 24 24 = 1 ∧ 2 ≤ src f ∧ src f < 240 ∧ bits f.id.toNat 15 8 = 0
   let mine := fun (f : CanFrame) (r : Reasm) => r.sender = 256 + src f ∧ r.cls = 8 - bits f.id.toNat 28 25
   (∀ n f o d, Shows (.canSegmentReceive n f o d) (fun m => seg m n f ∧ (f.fdf = false ∨ 240 ≤ src f))
     (fun m t => t.get (R.CAN_RSV_CNT n.val) = min 0xFFFFFFFF (m.get (R.CAN_RSV_CNT n.val) + 1) ∧ t.pts = m.pts ∧ t.txn = m.txn)) ∧
   (∀ n f o d, Shows (.canSegmentReceive n f o d)
     (fun m => seg m n f ∧ station f ∧ bits f.id.toNat 7 6 = 1 ∧ (m.can n.val).reasm.length < 256 ∧ ∀ r ∈ (m.can n.val).reasm, ¬ mine f r)
     (fun m t => ∃ r, (t.can n.val).reasm = (m.can n.val).reasm ++ [r] ∧ mine f r ∧ r.index = bits f.id.toNat 5 0 ∧ r.since = m.monoNs ∧
       r.data = f.data.take (dlcBytes f.dlc.toNat) ∧ t.get (R.CAN_STAT_REASM n.val) = (m.can n.val).reasm.length + 1)) ∧
   (∀ n f o d r, Shows (.canSegmentReceive n f o d)
     (fun m => seg m n f ∧ station f ∧ bits f.id.toNat 7 6 = 0 ∧ (m.can n.val).reasm = [r] ∧ mine f r ∧ bits f.id.toNat 5 0 = r.index + 1)
     (fun _ t => (t.can n.val).reasm = [{ r with index := r.index + 1, data := r.data ++ f.data.take (dlcBytes f.dlc.toNat) }])) ∧
   (∀ n f o d r, Shows (.canSegmentReceive n f o d)
     (fun m => seg m n f ∧ station f ∧ bits f.id.toNat 7 6 ∈ [0, 2] ∧ (m.can n.val).reasm = [r] ∧ mine f r ∧ bits f.id.toNat 5 0 ≠ r.index + 1)
     (fun m t => (t.can n.val).reasm = [] ∧ m.get (R.CAN_SEG_CNT n.val) < t.get (R.CAN_SEG_CNT n.val) + bit (decide (m.get (R.CAN_SEG_CNT n.val) = 0xFFFFFFFF)) ∧
       t.pts = m.pts))) ∧
  (∀ n, Shows (.reassemblyTimeout n) (fun _ => True)
    (fun m t => (t.can n.val).reasm = (m.can n.val).reasm.filter (fun r => decide (m.monoNs < r.since + 200000000)))) ∧
  (let soft := fun (m : Chip) (n : Fin 32) (b : Fin 3) => softId (m.on (R.CAN_TXB_ID_XTD n.val b.val)) (m.get (R.CAN_TXB_ID_ID n.val b.val))
   let idle := fun (m : Chip) (n : Fin 32) (b : Fin 3) => n.val < m.canN ∧ m.get (R.CAN_TXB_STAT_PENDING n.val b.val) = 0
   let ended := fun (t : Chip) (n : Fin 32) (b : Fin 3) (code : Nat) =>
     t.get (R.CAN_TXB_STAT_PENDING n.val b.val) = 0 ∧ t.get (R.CAN_TXB_STAT_CODE n.val b.val) = code
   (∀ n b, Shows (.txbReq n b) (fun m => idle m n b ∧ soft m n b = false) (fun _ t => ended t n b 0x8)) ∧
   (∀ n b, Shows (.txbReq n b) (fun m => idle m n b ∧ soft m n b = true ∧ m.on (R.CAN_TXB_CTL_FDF n.val b.val) = true ∧
       (m.on (R.CAN_CFG_EN n.val) = false ∨ state m n = 4 ∨ state m n = 5)) (fun _ t => ended t n b 0x1)) ∧
   (∀ n b, Shows (.txbReq n b) (fun m => idle m n b ∧ soft m n b = true ∧ m.on (R.CAN_TXB_CTL_FDF n.val b.val) = true ∧
       m.on (R.CAN_CFG_EN n.val) = true ∧ m.unitOpen (UK.can n.val) = true ∧ state m n ≠ 4 ∧ state m n ≠ 5)
     (fun m t => t.get (R.CAN_TXB_STAT_PENDING n.val b.val) = 1 ∧ t.get (R.CAN_TXB_STAT_CODE n.val b.val) = 0 ∧
       SameRegs [(R.CAN_TXB_STAT n.val b.val).addr] m t)) ∧
   (∀ n b, Turns (.txbReq n b) (fun m => m.get (R.CAN_TXB_STAT_PENDING n.val b.val) = 1) id) ∧
   (∀ n b, Shows (.txbAbort n b)
     (fun m => m.get (R.CAN_TXB_STAT_PENDING n.val b.val) = 1 ∧ m.get (R.CAN_TXB_STAT_ACTIVE n.val b.val) = 0)
     (fun _ t => ended t n b 0x6 ∧ t.get (R.CAN_TXB_STAT_ABORTED n.val b.val) = 1)) ∧
   (∀ n b, Turns (.txbAbort n b) (fun m => m.get (R.CAN_TXB_STAT_PENDING n.val b.val) = 0) id) ∧
   (let alone := fun (m : Chip) (n : Fin 32) => bus m n ∧ m.get (R.CAN_CFG_MODE n.val) = 0 ∧ (m.leads = true ∨ m.standby = true) ∧
      (m.can n.val).retune = false ∧ (m.can n.val).begun = []
    (∀ n b, Shows (.canTxComplete n 0)
      (fun m => alone m n ∧ (m.can n.val).bus = some (.buffer b.val) ∧ m.egress (96 + n.val) = [] ∧ ∀ c : Fin 3, c ≠ b →
        m.get (R.CAN_TXB_STAT_PENDING n.val c.val) = 0)
      (fun m t => ended t n b 0 ∧ (t.can n.val).bus = none ∧ (t.can n.val).tec = (m.can n.val).tec - 1)) ∧
    (∀ n f, Shows (.canTxComplete n 0)
      (fun m => alone m n ∧ (m.can n.val).bus = none ∧ (m.egress (96 + n.val)).find? (fun x => x.cls == 7) = some f)
      (fun _ t => (t.can n.val).bus = some (.lane f))) ∧
    (∀ n b how, how ≠ 0 → Shows (.canTxComplete n how)
      (fun m => alone m n ∧ (m.can n.val).bus = some (.buffer b.val) ∧ (m.can n.val).aborts = [] ∧
        m.on (R.CAN_TXB_CTL_ONESHOT n.val b.val) = true ∧ m.egress (96 + n.val) = [])
      (fun _ t => ended t n b 0x2 ∧ t.get (R.CAN_TXB_STAT_ARB_LOST n.val b.val) = bit (decide (how = 1)))))) ∧
  (let faulty := fun (m : Chip) (n : Fin 32) => bus m n ∧ m.get (R.CAN_CFG_MODE n.val) = 0
   (∀ n (code : Fin 7) d, Shows (.canBusError n code d 2) (fun m => faulty m n ∧ 248 ≤ (m.can n.val).tec) (fun _ t => state t n = 4 ∧
     t.egress (96 + n.val) = [] ∧ (t.can n.val).bus = none ∧ ∀ b : Fin 3, t.get (R.CAN_TXB_STAT_PENDING n.val b.val) = 0)) ∧
   (∀ n (code : Fin 7) d, Shows (.canBusError n code d 2) (fun m => faulty m n ∧ (m.can n.val).tec < 248 ∧ (m.can n.val).rec_ < 128)
     (fun m t => (t.can n.val).tec = (m.can n.val).tec + 8 ∧ state t n = (if 120 ≤ (m.can n.val).tec then 3 else 2) ∧
       t.get (R.CAN_ERR_TEC n.val) = (m.can n.val).tec + 8 ∧ t.get (if d then R.CAN_ERR_DLEC n.val else R.CAN_ERR_LEC n.val) = code.val)) ∧
   (∀ n code d how, Turns (.canBusError n code d how) (fun m => ¬ faulty m n) id)) ∧
  (∀ n, Turns (.recover n) (fun m => state m n = 4 ∧ m.on (R.CAN_CFG_EN n.val) = true ∧ m.unitOpen (UK.can n.val) = true)
    (fun m => m.put (R.CAN_STAT_STATE n.val) 5)) ∧
  (∀ n, Turns (.recover n) (fun m => state m n ≠ 4) id) ∧
  (∀ n, Shows (.busRecovered n) (fun m => state m n = 5)
    (fun _ t => state t n = 2 ∧ (t.can n.val).tec = 0 ∧ (t.can n.val).rec_ = 0 ∧ t.get (R.CAN_ERR_TEC n.val) = 0 ∧ t.get (R.CAN_ERR_REC n.val) = 0)) ∧
  (∀ n, Turns (.busRecovered n) (fun m => state m n ≠ 5) id) ∧
  (∀ n, Shows (.busIntegration n false) (fun m => state m n = 1 ∧ (m.can n.val).tec < 128 ∧ (m.can n.val).rec_ < 128) (fun _ t => state t n = 2)) ∧
  (∀ n, Shows (.busIntegration n true) (fun m => bus m n ∧ m.on (R.CAN_CFG_PXE n.val) = true)
    (fun m t => state t n = 1 ∧ t.get (R.CAN_PEX_CNT n.val) = min 0xFFFFFFFF (m.get (R.CAN_PEX_CNT n.val) + 1))) ∧
  (∀ n, Turns (.busIntegration n true) (fun m => m.on (R.CAN_CFG_PXE n.val) = false) id)

/-- An unpaired device whose link runs sends HELLO; one that passes every condition pairs: PEER_ID, role and sync state 2, one copy counted; another changes no
role. After 5 s alone a PREF 0 device is ACTIVE UNPAIRED or STANDBY DETACHED. Streams act on a standby as Table 18-3 says: record images, sets, frames, images
and deltas, loop records, the PAN state and the copy's pieces. The first TIME frame steps league time by half the round trip more, later ones slew. Backlog
above 65,536 KiB, three deltas in wait, or a failed self-test resynchronise. The end of the copy makes SYNCED. Reports carry the health word; three missing
clear FIT. -/
def Obligations.SaddlePairing : Prop :=
  let runs := fun (m : Chip) => m.hasUnit 0x0E = true ∧ m.on R.SADL_CTL_EN = true ∧ m.unitOpen UK.sadl = true ∧ m.pdReady 14 = true
  let link := fun (m : Chip) => m.on R.SADL_STAT_LANE0 = true ∨ m.on R.SADL_STAT_LANE1 = true
  let pair := fun (m : Chip) => m.role = 2 ∧ (m.syncState = 2 ∨ m.syncState = 3)
  let synced := fun (m : Chip) => m.role = 2 ∧ m.syncState = 3
  let resyncs := fun (m n : Chip) => n.syncState = 2 ∧ n.sadl.images = [] ∧ n.sadl.deltas = [] ∧ n.role = m.role ∧
    n.get R.SADL_RESYNC_CNT = min 0xFFFFFFFF (m.get R.SADL_RESYNC_CNT + 1)
  Turns .pairingRetry (fun m => m.hasUnit 0x0E = false ∨ m.on R.SADL_CTL_EN = false ∨ m.paired = true) id ∧
  Shows .pairingRetry (fun m => runs m ∧ m.paired = false ∧ link m)
    (fun m n => n.regs = m.regs ∧ n.out = m.out ++ [.frame 0x0E 0 "HELLO" [1, m.variant.units, m.capIo, m.capMem, m.get R.POINT_CFG_DEVNUM,
      m.vault.ident.toNat, bit (m.on R.SADL_CTL_PREF), bit (m.role == 1)]]) ∧
  (let alike := fun (m : Chip) (units io mem dev : Nat) => units = m.variant.units ∧ io = m.capIo ∧ mem = m.capMem ∧
     dev = m.get R.POINT_CFG_DEVNUM ∧ (m.vslot 3).kind ≠ 0
   let lead := fun (m : Chip) (ident : DWord) (pref active : Bool) => if (m.role == 1) != active then m.role == 1
     else if m.on R.SADL_CTL_PREF != pref then pref else decide (m.vault.ident.toNat < ident.toNat)
   (∀ units io mem dev ident pref active, Shows (.ctrlFrame (.hello true units io mem dev ident pref active true))
     (fun m => runs m ∧ link m ∧ m.paired = false ∧ alike m units io mem dev)
     (fun m n => n.syncState = 2 ∧ n.role = (if lead m ident pref active then 1 else 2) ∧ n.sadl.twin = ident ∧
       n.get64 R.SADL_PEER_ID_LO = ident ∧ n.get R.SADL_STAT_SUSPECT = 0 ∧
       n.get R.SADL_RESYNC_CNT = min 0xFFFFFFFF (m.get R.SADL_RESYNC_CNT + 1))) ∧
   (∀ en units io mem dev ident pref active mac, Shows (.ctrlFrame (.hello en units io mem dev ident pref active mac))
     (fun m => ¬ alike m units io mem dev ∨ en = false ∨ mac = false)
     (fun m n => n.role = m.role ∧ n.syncState = m.syncState ∧ n.sadl = m.sadl ∧ n.pts = m.pts))) ∧
  (∀ x, Turns (.ctrlFrame x) (fun m => ¬ runs m ∨ ¬ link m) id) ∧
  (∀ hb t, Shows (.pairingTimeout hb)
    (fun m => m.sadl.bootAt = some t ∧ m.on R.SADL_CTL_PREF = false ∧ m.role = 0 ∧ m.syncState = 1 ∧ t + 5000000000 ≤ m.monoNs)
    (fun _ n => n.role = (if hb then 2 else 1) ∧ n.syncState = (if hb then 4 else 0) ∧ n.sadl.bootAt = none)) ∧
  (∀ hb, Turns (.pairingTimeout hb) (fun m => m.on R.SADL_CTL_PREF = true ∨ m.sadl.bootAt = none) id) ∧
  (∀ t tr lk utc rtt, Shows (.timeFrame t tr lk utc rtt) (fun m => pair m ∧ m.sadl.timeAt = none)
    (fun m n => n.now = t.toNat + rtt / 2 ∧ n.trusted = tr ∧ n.on R.UPL_TIME_STAT_LOCKED = lk ∧ n.sadl.timeAt = some m.monoNs)) ∧
  (∀ t tr lk utc rtt, Shows (.timeFrame t tr lk utc rtt) (fun m => pair m ∧ m.sadl.timeAt.isSome = true)
    (fun m n => n.now = m.now ∧ n.trusted = tr ∧ n.on R.UPL_TIME_STAT_LOCKED = lk)) ∧
  (∀ t tr lk utc rtt, Turns (.timeFrame t tr lk utc rtt) (fun m => ¬ pair m) id) ∧
  Shows .timeFrameTimeout (fun m => pair m ∧ m.sadl.timeAt.getD 0 + max 1 (m.get R.UPL_TIME_HOLD) * 1000000000 ≤ m.monoNs)
    (fun m n => n.trusted = false ∧ n.now = m.now) ∧
  Turns .timeFrameTimeout (fun m => ¬ pair m ∨ m.monoNs < m.sadl.timeAt.getD 0 + max 1 (m.get R.UPL_TIME_HOLD) * 1000000000) id ∧
  (∀ k x, Turns (.commitFrame k x) (fun m => ¬ pair m) id) ∧
  (∀ (k : Fin 4) b frames mode task instant, Shows (.commitFrame k (.set b frames mode task instant false))
    (fun m => pair m ∧ m.judgeReplica k.val b mode task instant = none)
    (fun m n => (assoc n.com.pend (16 + k.val)).map PendCommit.set = some b ∧ n.regs = m.regs)) ∧
  (∀ (k : Fin 4) b frames mode task instant, Shows (.commitFrame k (.set b frames mode task instant false))
    (fun m => synced m ∧ (m.judgeReplica k.val b mode task instant).isSome = true)
    (fun m n => resyncs m n ∧ n.get R.SADL_STAT_SUSPECT = 1 ∧ n.com = m.com)) ∧
  (∀ f, Turns (.frameFrame f) (fun m => synced m ∧ f.cls = 7) (·.sendCopy f)) ∧
  (∀ f, Turns (.frameFrame f) (fun m => ¬ synced m ∨ f.cls ≠ 7) id) ∧
  (∀ i r, Shows (.pointFrame i r) (fun m => pair m ∧ i.toNat < m.capPts)
    (fun m n => n.pt i.toNat = r ∧ (∀ j, j ≠ i.toNat → n.pt j = m.pt j) ∧ n.regs = m.regs ∧ n.mem = m.mem)) ∧
  (∀ i r, Turns (.pointFrame i r) (fun m => ¬ pair m ∨ m.capPts ≤ i.toNat) id) ∧
  (∀ x, Turns (.imageFrame x) synced (fun m => m.withSadl { m.sadl with images := m.sadl.images ++ [x] })) ∧
  (∀ x, Turns (.imageFrame x) (fun m => ¬ synced m) id) ∧
  (let waits := fun (m : Chip) (x : SadDelta) => m.sadl.deltas.countP (fun d => d.task == x.task)
   (∀ x, Turns (.deltaFrame x) (fun m => synced m ∧ waits m x < 2) (fun m => m.withSadl { m.sadl with deltas := m.sadl.deltas ++ [x] })) ∧
   (∀ x, Shows (.deltaFrame x) (fun m => synced m ∧ 2 ≤ waits m x) resyncs)) ∧
  (∀ x, Turns (.deltaFrame x) (fun m => ¬ synced m) id) ∧
  (∀ x : LoopRec, Shows (.loopFrame x) pair
    (fun m n => (n.loopSt x.loop.val).i = x.i ∧ (n.loopSt x.loop.val).d = x.d ∧ (n.loopSt x.loop.val).pvPrev = x.pv ∧ n.pts = m.pts ∧
      (x.state < 8 → n.get (R.LOOP_L_STAT_STATE x.loop.val) = x.state) ∧ (x.state ≠ 1 → n.get R.SADL_MISM_CNT = m.get R.SADL_MISM_CNT))) ∧
  (∀ x, Turns (.loopFrame x) (fun m => ¬ pair m) id) ∧
  (∀ (i : Fin 8) joined routes seq gmk, Shows (.panFrame i joined routes seq gmk) (fun m => pair m ∧ m.plcOn i.val = true)
    (fun _ n => (n.plc i.val).joined = joined ∧ (n.plc i.val).routes = routes ∧ AMap.get 0 n.sadl.beaconSeen (64 + i.val) = seq)) ∧
  (∀ i joined routes seq gmk, Turns (.panFrame i joined routes seq gmk) (fun m => ¬ pair m) id) ∧
  (∀ a w, Turns (.bulkFrame (.reg a w)) pair (·.setReg a w)) ∧
  (∀ i r, Turns (.bulkFrame (.point i r)) pair (·.setRec i r)) ∧
  (∀ n x, Turns (.bulkFrame (.slot n x)) pair (·.setSlot n x)) ∧
  (∀ w o b, Turns (.bulkFrame (.bytes w o b)) pair (·.setBytes (.win w) o b)) ∧
  (∀ t o b, Turns (.bulkFrame (.data t o b)) pair (·.setBytes (.data t.val) o b)) ∧
  (∀ t g, Shows (.bulkFrame (.image t g)) pair (fun _ n => (n.task t.val).img = g)) ∧
  (∀ x, Turns (.bulkFrame x) (fun m => ¬ pair m) id) ∧
  (∀ t, Turns (.echoExecution t) (fun m => ¬ synced m ∨ ∀ d ∈ m.sadl.deltas, d.task ≠ t.val) id) ∧
  (∀ (t : Fin 256) x, Turns (.echoExecution t)
    (fun m => synced m ∧ m.sadl.deltas.find? (fun d => d.task == t.val) = some x ∧ ∀ i ∈ m.sadl.images, i.task = t.val → i.cycle ≠ x.cycle) id) ∧
  (∀ (t : Fin 256) x i, x.swap = false → Shows (.echoExecution t)
    (fun m => synced m ∧ m.sadl.deltas.find? (fun d => d.task == t.val) = some x ∧
      m.sadl.images.find? (fun y => y.task == t.val && y.cycle == x.cycle) = some i ∧ (m.task t.val).swap = none)
    (fun m n => n.get (R.SCAN_TS_CYCLES t.val) = x.cycle.toNat ∧ (n.task t.val).next = x.cycle + 1 ∧
      (∀ d ∈ n.sadl.deltas, d.task = t.val → d.cycle ≠ x.cycle) ∧ (∀ y ∈ n.sadl.images, y.task = t.val → y.cycle ≠ x.cycle) ∧
      n.role = 2 ∧ (n.syncState = 3 ∨ n.syncState = 2 ∧ m.get R.SADL_MISM_CNT < n.get R.SADL_MISM_CNT + bit (decide (m.get R.SADL_MISM_CNT = 0xFFFFFFFF))))) ∧
  (∀ l : Fin 2, let f := if l.val = 0 then R.SADL_STAT_LANE0 else R.SADL_STAT_LANE1
    Shows (.laneUp l) (fun m => runs m ∧ m.on f = false) (fun m n => n.on f = true ∧ n.role = m.role ∧ n.syncState = m.syncState) ∧
    Turns (.laneUp l) (fun m => ¬ runs m ∨ m.on f = true) id) ∧
  (∀ kib late, Shows (.backlog kib late) (fun m => m.syncState = 3 ∧ (65536 < kib ∨ late = true)) resyncs) ∧
  (∀ kib late, Turns (.backlog kib late) (fun m => m.syncState ≠ 3 ∨ (kib ≤ 65536 ∧ late = false))
    (·.put R.SADL_STAT_BACKLOG (min kib 0x3FFFF))) ∧
  Shows .resyncDone (fun m => m.syncState = 2) (fun m n => n.syncState = 3 ∧ n.get R.SADL_STAT_SUSPECT = 0 ∧ n.sadl.mism = [] ∧ n.role = m.role) ∧
  Turns .resyncDone (fun m => m.syncState ≠ 2) id ∧
  (∀ ecc, Shows (.healthReport ecc) (fun m => pair m ∧ runs m)
    (fun m n => n.reg R.SADL_HEALTH.addr = m.healthWord ecc ∧ (∃ l, n.out = m.out ++ l ++ [.frame 0x0E 0 "HEALTH" [(m.healthWord ecc).toNat]]) ∧
      ((m.healthWord ecc).getLsbD 31 = true ↔ m.syncState = 3 ∧ m.on R.SADL_STAT_SUSPECT = false ∧ m.sadl.selfFail = false))) ∧
  (∀ ecc, Turns (.healthReport ecc) (fun m => ¬ pair m ∨ ¬ runs m) id) ∧
  (∀ w, Shows (.ctrlFrame (.health w))
    (fun m => runs m ∧ link m ∧ m.role = 1 ∧ m.syncState = 3 ∧ m.get R.SADL_HEALTH_TAG_LO = 0 ∧ m.get R.SADL_HEALTH_TAG_HI_TAG = 0)
    (fun m n => n.reg R.SADL_HEALTH.addr = w ∧ n.sadl.healthAt = m.monoNs ∧ n.pts = m.pts)) ∧
  Shows .healthReportMissing
    (fun m => m.role = 1 ∧ m.syncState = 3 ∧ m.sadl.healthAt + 300000000 ≤ m.monoNs ∧ m.get R.SADL_HEALTH_TAG_LO = 0 ∧
      m.get R.SADL_HEALTH_TAG_HI_TAG = 0)
    (fun m n => n.sadl.shown = m.reg R.SADL_HEALTH.addr &&& 0x7FFFFFFF ∧ n.pts = m.pts) ∧
  Turns .healthReportMissing (fun m => m.role ≠ 1 ∨ m.monoNs < m.sadl.healthAt + 300000000) id ∧
  Shows (.selfTest false) synced (fun m n => resyncs m n ∧ n.sadl.selfFail = true ∧ n.get R.SADL_STAT_SUSPECT = 1) ∧
  Turns (.selfTest true) (fun _ => True) id ∧
  (∀ p, Turns (.selfTest p) (fun m => ¬ synced m) id) ∧
  Shows .saddleCrcError runs (fun m n => n.get R.SADL_CRC_CNT = min 0xFFFFFFFF (m.get R.SADL_CRC_CNT + 1) ∧ n.sadl = m.sadl) ∧
  Turns .saddleCrcError (fun m => ¬ runs m) id

/-- The last lane's fall makes the link silent; the active of a pair goes on UNPAIRED. After TMO of silence a SYNCED standby not SUSPECT takes over where the
heartbeat is absent, else it becomes DETACHED; with the heartbeat present it is DETACHED. A heartbeat absent on a live link changes no role. SWITCH answers
BUSY while one runs and CHECK_FAILED where the pair is not SYNCED and FIT, else it sets T, the first whole millisecond at least 2 ms ahead; at T the roles
exchange. TAKE answers CHECK_FAILED on a heartbeat, else makes ACTIVE UNPAIRED. LEAVE detaches a standby or ends an active's pairing. RESYNC starts the copy
on a DETACHED or SUSPECT standby. -/
def Obligations.SaddleRoles : Prop :=
  let link := fun (m : Chip) => m.on R.SADL_STAT_LANE0 = true ∨ m.on R.SADL_STAT_LANE1 = true
  let pair := fun (m : Chip) => m.role = 2 ∧ (m.syncState = 2 ∨ m.syncState = 3)
  let res := fun (code : Nat) (n : Chip) => n.get R.SADL_CMD_RES_DONE = 1 ∧ n.get R.SADL_CMD_RES_CODE = code
  let leads := fun (n : Chip) => n.role = 1 ∧ n.syncState = 0
  let answer := fun (code : Nat) (m : Chip) => (m.put R.SADL_CMD_RES_DONE 1).put R.SADL_CMD_RES_CODE code
  let has := fun (m : Chip) => m.hasUnit 0x0E = true
  (∀ l : Fin 2, let f := if l.val = 0 then R.SADL_STAT_LANE0 else R.SADL_STAT_LANE1
    let g := if l.val = 0 then R.SADL_STAT_LANE1 else R.SADL_STAT_LANE0
    Shows (.laneDown l) (fun m => m.on f = true ∧ m.on g = true) (fun m n => n.on f = false ∧ n.on g = true ∧ n.role = m.role ∧ n.syncState = m.syncState) ∧
    Shows (.laneDown l) (fun m => m.on f = true ∧ m.on g = false ∧ m.role = 1 ∧ (m.syncState = 0 ∨ m.paired = true)) (fun m n => ¬ link n ∧ leads n ∧ n.sadl.silentAt = m.monoNs) ∧
    Shows (.laneDown l) (fun m => m.on f = true ∧ m.on g = false ∧ pair m ∧ m.get R.SADL_CTL_TMO ≠ 0)
      (fun m n => ¬ link n ∧ n.role = m.role ∧ n.syncState = m.syncState ∧ n.sadl.silentAt = m.monoNs)) ∧
  (let silent := fun (m : Chip) => has m ∧ pair m ∧ ¬ link m ∧ m.sadl.silentAt + m.get R.SADL_CTL_TMO * 1000 ≤ m.monoNs
   Shows (.takeover true) silent (fun m n => n.role = 2 ∧ n.syncState = 4 ∧ n.get R.SADL_TAKEOVER_CNT = m.get R.SADL_TAKEOVER_CNT) ∧
   Shows (.takeover false) (fun m => silent m ∧ m.syncState = 3 ∧ m.on R.SADL_STAT_SUSPECT = false ∧ m.sadl.rxBuf = [] ∧ m.sadl.images = [])
     (fun m n => leads n ∧ n.get R.SADL_TAKEOVER_CNT = min 0xFFFFFFFF (m.get R.SADL_TAKEOVER_CNT + 1) ∧ n.upl.noMaster = some m.monoNs) ∧
   Shows (.takeover false) (fun m => silent m ∧ (m.syncState ≠ 3 ∨ m.on R.SADL_STAT_SUSPECT = true)) (fun _ n => n.role = 2 ∧ n.syncState = 4) ∧
   (∀ hb, Turns (.takeover hb)
     (fun m => has m ∧ (¬ pair m ∨ link m ∨ m.monoNs < m.sadl.silentAt + m.get R.SADL_CTL_TMO * 1000)) (·.put R.SADL_STAT_HB_IN (bit hb)))) ∧
  Shows .heartbeatLoss (fun m => has m ∧ link m) (fun m n => n.on R.SADL_STAT_HB_IN = false ∧ n.role = m.role ∧ n.syncState = m.syncState) ∧
  (let fit := fun (m : Chip) => m.role = 1 ∧ m.syncState = 3 ∧ (m.reg R.SADL_HEALTH.addr).getLsbD 31 = true
   Turns .switch (fun m => has m ∧ m.sadl.switchAt.isSome = true) (answer 0xE) ∧
   Turns .switch (fun m => has m ∧ m.sadl.switchAt = none ∧ ¬ fit m) (answer 0x8) ∧
   Shows .switch (fun m => has m ∧ m.sadl.switchAt = none ∧ fit m)
     (fun m n => ∃ t, n.sadl.switchAt = some t ∧ t % 1000000 = 0 ∧ m.now + 2000000 ≤ t ∧ t < m.now + 3000000 ∧
       n.out = m.out ++ [.frame 0x0E 0 "SWITCH" [t]] ∧ n.regs = m.regs)) ∧
  (∀ t, Shows .switchInstant (fun m => m.sadl.switchAt = some t ∧ m.reached t = true ∧ m.syncState = 3 ∧ m.role = 1)
    (fun _ n => n.role = 2 ∧ n.syncState = 3 ∧ n.sadl.switchAt = none ∧ res 0 n)) ∧
  (∀ t, Shows .switchInstant (fun m => m.sadl.switchAt = some t ∧ m.reached t = true ∧ m.syncState = 3 ∧ m.role = 2)
    (fun _ n => n.role = 1 ∧ n.syncState = 3 ∧ n.sadl.switchAt = none)) ∧
  (∀ t, Turns .switchInstant (fun m => m.sadl.switchAt = some t ∧ m.reached t = false) id) ∧
  Turns .switchInstant (fun m => m.sadl.switchAt = none) id ∧
  Shows (.take true) (fun m => has m ∧ m.sadl.switchAt = none) (fun m n => res 0x8 n ∧ n.role = m.role ∧ n.syncState = m.syncState) ∧
  Shows (.take false) (fun m => has m ∧ m.sadl.switchAt = none ∧ (m.role = 2 ∨ (m.role = 0 ∧ m.syncState ≠ 0)) ∧ m.sadl.rxBuf = [] ∧ m.sadl.images = [])
    (fun _ n => leads n ∧ res 0 n) ∧
  (∀ hb, Shows (.take hb) (fun m => has m ∧ m.sadl.switchAt.isSome = true) (fun m n => res 0xE n ∧ n.role = m.role)) ∧
  Shows .leave (fun m => has m ∧ m.sadl.switchAt = none ∧ m.role = 2) (fun _ n => n.role = 2 ∧ n.syncState = 4 ∧ res 0 n) ∧
  Shows .leave (fun m => has m ∧ m.sadl.switchAt = none ∧ m.role = 1) (fun _ n => leads n ∧ res 0 n) ∧
  Turns .leave (fun m => has m ∧ m.sadl.switchAt.isSome = true) (answer 0xE) ∧
  Shows .resync (fun m => has m ∧ m.sadl.switchAt = none ∧ m.role = 2 ∧ (m.syncState = 4 ∨ m.on R.SADL_STAT_SUSPECT = true))
    (fun m n => n.role = 2 ∧ n.syncState = 2 ∧ res 0 n ∧ n.get R.SADL_RESYNC_CNT = min 0xFFFFFFFF (m.get R.SADL_RESYNC_CNT + 1)) ∧
  Turns .resync (fun m => has m ∧ m.sadl.switchAt = none ∧ (m.role ≠ 2 ∨ (m.syncState ≠ 4 ∧ m.on R.SADL_STAT_SUSPECT = false))) (answer 0x8) ∧
  (∀ c ∈ [Instr.switch, .take true, .take false, .leave, .resync, .heartbeatLoss, .takeover true, .takeover false, .pairingRetry],
    Turns c (fun m => m.hasUnit 0x0E = false) id)

/-- An evaluation judges each permit from the input states and drives exactly the outputs with both permits, a request and no latched cause. The table locks where
the checks agree and its CRC verifies, with MANUAL outputs latched, else it is refused. A discrepancy of its time makes the input FAULT and takes the permits
it masks. The core's frame carries its judgement and requests with the next number; a newer frame brings permits and requests to the die, another nothing. 5
ms without one, a lockstep mismatch, 20 ms of differing permits, a failed off pulse and a wrong readback each latch their cause. Without VDD_GUARD nothing is
driven; after its return the die is held. -/
def Obligations.GuardDie : Prop :=
  let lives := fun (m : Chip) => m.hasUnit 0x0F = true ∧ m.guard.held = false
  let enabled := fun (m : Chip) (o : Nat) (e : GOut) => (o, e) ∈ m.guard.outs
  (∀ l rb, KeeperShows (.guardEvaluation l rb) lives
    (fun m n => n.guard.tick = m.guard.tick + 1 ∧ n.guard.corePermits = m.guard.corePermits ∧ n.guard.requests = m.guard.requests ∧
      n.guard.table = m.guard.table ∧ n.pts = m.pts ∧ (∀ o, (∀ e, ¬ enabled n o e) → n.guard.driven.testBit o = false) ∧ ∀ o e, enabled n o e →
        (n.guard.permits.testBit o = true ↔ ∀ i, i < 16 → e.mask.testBit i = true → n.guard.inState i = 0) ∧
        (n.guard.driven.testBit o = true ↔ n.guard.permits.testBit o = true ∧ n.guard.corePermits.testBit o = true ∧
          n.guard.requests.testBit o = true ∧ n.guard.cause o = []))) ∧
  (∀ l rb, KeeperTurns (.guardEvaluation l rb) (fun m => ¬ lives m) id) ∧
  (let ok := fun (m : Chip) (agree : Bool) (b : List Byte) => m.guard.sent = some b ∧ m.guard.table = none ∧ m.guard.held = false ∧ agree = true ∧
     fld b 508 4 = (crc32c (b.take 508)).toNat
   (∀ agree b, Shows (.tableState agree) (fun m => ok m agree b)
     (fun m n => n.get R.GUARD_STAT_TABLE = 1 ∧ n.get R.GUARD_STAT_LOCK = 1 ∧ n.get R.GUARD_TABLE_ID = fld b 4 4 ∧
       n.get R.GUARD_TABLE_CRC = fld b 508 4 ∧ n.guard.table = some b ∧ n.guard.sent = none ∧ n.guard.driven = m.guard.driven ∧
       ∀ o e, enabled n o e → e.manual = true → n.guard.cause o = [6])) ∧
   (∀ agree b, Shows (.tableState agree)
     (fun m => m.guard.sent = some b ∧ m.guard.table = none ∧ (m.guard.held = true ∨ agree = false ∨ fld b 508 4 ≠ (crc32c (b.take 508)).toNat))
     (fun m n => n.get R.GUARD_STAT_TABLE = 2 ∧ n.guard = { m.guard with sent := none }))) ∧
  (∀ agree, Turns (.tableState agree) (fun m => m.guard.sent = none) id) ∧
  (∀ agree, Shows (.tableState agree) (fun m => m.guard.table.isSome = true) (fun m n => n.guard.table = m.guard.table ∧ n.regs = m.regs)) ∧
  (let stands := fun (m : Chip) (i : Fin 16) (e : GIn) (t : Nat) => m.guard.ins.find? (fun e => e.1 == i.val) = some (i.val, e) ∧
     assoc m.guard.disc i.val = some t ∧ (if e.typ = 3 then 1000 else e.disc) ≤ m.guard.tick - t ∧ AMap.get 0 m.guard.inFault i.val = 0
   ∀ i e t, KeeperShows (.discrepancyTimeout i) (fun m => stands m i e t)
     (fun m n => AMap.get 0 n.guard.inFault i.val = 1 ∧ n.guard.inState i.val = 2 ∧ n.guard.table = m.guard.table ∧
       ∀ o x, enabled n o x → x.mask.testBit i.val = true → n.guard.permits.testBit o = false)) ∧
  (∀ i, KeeperTurns (.discrepancyTimeout i) (fun m => assoc m.guard.disc i.val = none ∨ AMap.get 0 m.guard.inFault i.val ≠ 0) id) ∧
  Shows .coreLinkFrame (fun m => m.hasUnit 0x0F = true ∧ m.guard.core = true ∧ ∀ o e, enabled m o e → e.tag = 0)
    (fun m n => n.guard.seqOut = m.guard.seqOut + 1 ∧ n.guard.owed = [] ∧ (∃ l req, n.out = m.out ++ .frame 0x0F 0 "LINK"
        [m.guard.judge, req, (m.guard.seqOut + 1).toNat] :: l ∧ ∀ o e, enabled m o e → req.testBit o = true) ∧
      (m.guard.held = false → m.guard.linkUp = true → n.get R.GUARD_STAT_LINK = 1 ∧ n.get R.GUARD_STAT_STALE = 0 ∧ n.get R.GUARD_STAT_CORE = 1 ∧
        ∀ o, o < 8 → (n.reg R.GUARD_OUT.addr).getLsbD (4 * o + 3) = m.guard.driven.testBit o)) ∧
  Turns .coreLinkFrame (fun m => m.hasUnit 0x0F = false ∨ m.guard.core = false) id ∧
  (let next := fun (m : Chip) (seq : Word) => ∀ q, m.guard.seqIn = some q → newer seq q = true
   (∀ p r seq, KeeperShows (.linkFrameReceive p r seq true) (fun m => lives m ∧ next m seq)
     (fun m n => n.guard.corePermits = p.toNat ∧ n.guard.requests = r.toNat ∧ n.guard.seqIn = some seq ∧ n.guard.validAt = m.guard.tick ∧
       n.guard.linkUp = true ∧ n.guard.permits = m.guard.permits)) ∧
   (∀ p r seq ok, KeeperTurns (.linkFrameReceive p r seq ok) (fun m => ¬ lives m ∨ ok = false ∨ ¬ next m seq) id)) ∧
  KeeperShows .guardLinkTimeout (fun m => lives m ∧ m.guard.linkUp = true ∧ m.guard.validAt + 5 ≤ m.guard.tick)
    (fun m n => n.guard.corePermits = 0 ∧ n.guard.requests = 0 ∧ n.guard.driven = 0 ∧ n.guard.linkUp = false ∧
      (∀ o e, enabled m o e → 5 ∈ n.guard.cause o) ∧ n.get R.GUARD_STAT_LINK = 0 ∧ n.get R.GUARD_STAT_STALE = 1) ∧
  KeeperTurns .guardLinkTimeout (fun m => ¬ lives m ∨ m.guard.linkUp = false ∨ m.guard.tick < m.guard.validAt + 5) id ∧
  Shows .lockstepMismatch (fun m => m.hasUnit 0x0F = true ∧ m.guard.core = true)
    (fun m n => n.guard.core = false ∧ n.get R.GUARD_STAT_CORE = 0 ∧ ∀ o e, enabled m o e → 7 ∈ n.guard.cause o) ∧
  Turns .lockstepMismatch (fun m => m.hasUnit 0x0F = false ∨ m.guard.core = false) id ∧
  (∀ (o : Fin 8) t, KeeperShows (.disagreeTimeout o)
    (fun m => assoc m.guard.differ o.val = some t ∧ 20 ≤ m.guard.tick - t ∧ 4 ∉ m.guard.cause o.val) (fun _ n => 4 ∈ n.guard.cause o.val)) ∧
  (∀ o : Fin 8, KeeperTurns (.disagreeTimeout o) (fun m => assoc m.guard.differ o.val = none ∨ 4 ∈ m.guard.cause o.val) id) ∧
  (let due := fun (m : Chip) (o : Fin 8) (e : GOut) => m.guard.outs.find? (fun x => x.1 == o.val) = some (o.val, e) ∧ e.tested = true ∧
     m.guard.driven.testBit o.val = true ∧ (m.guard.tick - m.guard.lockedAt) % (e.period * 1000) = o.val * (e.period * 1000) / 8
   (∀ o e, KeeperTurns (.offPulse o true) (fun m => due m o e) (·.emit (.frame 0x0F o.val "OFF_PULSE" [e.width * 10]))) ∧
   (∀ o e, KeeperShows (.offPulse o false) (fun m => due m o e) (fun _ n => 3 ∈ n.guard.cause o.val ∧ n.guard.driven.testBit o.val = false)) ∧
   (∀ o ok, KeeperTurns (.offPulse o ok) (fun m => ∀ e, ¬ due m o e) id)) ∧
  (∀ (o : Fin 8) e, KeeperShows (.readbackFault o) (fun m => enabled m o.val e)
    (fun m n => (if m.guard.driven.testBit o.val then 1 else 2) ∈ n.guard.cause o.val ∧ n.guard.driven.testBit o.val = false)) ∧
  (∀ o : Fin 8, KeeperTurns (.readbackFault o) (fun m => ∀ e, ¬ enabled m o.val e) id) ∧
  KeeperShows .guardSupplyLoss (fun m => m.hasUnit 0x0F = true ∧ m.guard.power = true)
    (fun _ n => n.guard.power = false ∧ n.guard.held = true ∧ n.guard.driven = 0 ∧ n.guard.permits = 0 ∧ n.guard.table = none ∧
      n.guard.linkUp = false) ∧
  KeeperShows .guardSupplyReturn (fun m => m.hasUnit 0x0F = true ∧ m.guard.power = false)
    (fun _ n => n.guard.power = true ∧ n.guard.held = true ∧ n.guard.driven = 0) ∧
  (∀ e ∈ [(Instr.guardSupplyLoss, false), (.guardSupplyReturn, true)],
    KeeperTurns e.1 (fun m => m.hasUnit 0x0F = false ∨ m.guard.power = e.2) id)

/-- PANEL_UPDATE answers CANCELLED_DISABLE while the panel drains, CHECK_FAILED with EN 0, CRACK, or an address not on 64 bytes or outside the shared region; an
idle panel starts the pass, or ends it at once with OK where no row differs; a request beside a pass waits, and the one it replaces is SUPERSEDED. A line
drives its row with its polarities, records the row and turns its phase; the last one ends the pass with its code. CRACK latches and ends the pass at this
line; CRK_CLR clears it on edges only; MARK_CLR removes the marker and makes the next pass full. -/
def Obligations.PanelPasses : Prop :=
  let src := fun (m : Chip) => m.get R.PANEL_SRC_HI_ADDR * 2 ^ 32 + m.get R.PANEL_SRC_LO
  let good := fun (m : Chip) => m.on R.PANEL_CTL_EN = true ∧ m.on R.PANEL_STAT_CRACK = false ∧ src m % 64 = 0 ∧ m.inShared (src m) 2880 = true
  let done := fun (code : Nat) (n : Chip) => n.get R.PANEL_RES_DONE = 1 ∧ n.get R.PANEL_RES_CODE = code
  let taken := fun (m : Chip) (w : Word) => PanelReq.mk (m.drawn (m.bytes .dram (src m) 2880)) (bits w.toNat 15 0) (w.getLsbD 30)
  (∀ w, Turns (.panelUpdate w) (fun m => m.hasUnit 0x11 = false) id) ∧
  (∀ w, Shows (.panelUpdate w) (fun m => m.hasUnit 0x11 = true ∧ m.unitOpen UK.panel = false)
    (fun m n => done 1 n ∧ n.get R.PANEL_RES_ACC = 0 ∧ n.panel = m.panel)) ∧
  (∀ w, Shows (.panelUpdate w) (fun m => m.hasUnit 0x11 = true ∧ m.unitOpen UK.panel = true ∧ ¬ good m)
    (fun m n => done 8 n ∧ n.get R.PANEL_RES_ACC = 0 ∧ n.panel = m.panel)) ∧
  (∀ w, Shows (.panelUpdate w) (fun m => m.hasUnit 0x11 = true ∧ m.unitOpen UK.panel = true ∧ good m ∧ m.panel.run = none)
    (fun m n => n.get R.PANEL_RES_ACC = 1 ∧ n.get R.PANEL_STAT_GEN = bits w.toNat 15 0 ∧ n.mem = m.mem ∧
      if m.passRows (taken m w) = [] then done 0 n ∧ n.panel.run = none ∧ n.panel.image = some (taken m w).image ∧ n.panel.started = false
      else n.get R.PANEL_STAT_BUSY = 1 ∧ n.panel.started = true ∧ n.panel.run = some (taken m w, m.passRows (taken m w), CC.ok))) ∧
  (∀ w x, Shows (.panelUpdate w) (fun m => m.hasUnit 0x11 = true ∧ m.unitOpen UK.panel = true ∧ good m ∧ m.panel.run = some x)
    (fun m n => n.get R.PANEL_RES_ACC = 1 ∧ n.get R.PANEL_STAT_PENDING = 1 ∧ n.panel = { m.panel with pend := some (taken m w) } ∧
      (m.panel.pend.isSome = true → done 6 n))) ∧
  (let runs := fun (m : Chip) => m.hasUnit 0x11 = true ∧ m.on R.PANEL_CTL_EN = true ∧ m.pdReady 15 = true
   let line := fun (m n : Chip) (r : PanelReq) (y : Nat) => n.out = m.out ++ [.frame 0x11 0 "LINE" (y :: m.lineBits r y)] ∧
     n.get R.PANEL_STAT_ROW = y % 128 ∧ AMap.get false n.panel.phases y = !AMap.get false m.panel.phases y ∧ n.pts = m.pts ∧ n.mem = m.mem
   (∀ r y l code, Shows .panelLine (fun m => runs m ∧ m.panel.run = some (r, y :: l, code) ∧ l ≠ [])
     (fun m n => line m n r y ∧ n.panel.run = some (r, l, code) ∧ n.panel.started = true)) ∧
   (∀ r y code, Shows .panelLine (fun m => runs m ∧ m.panel.run = some (r, [y], code) ∧ m.panel.pend = none)
     (fun m n => line m n r y ∧ n.panel.run = none ∧ n.panel.started = false ∧ n.get R.PANEL_STAT_BUSY = 0 ∧ done code.toNat n ∧
       (code = CC.ok → n.panel.image = some r.image ∧ n.panel.full = false))) ∧
   (∀ r y q, Shows .panelLine (fun m => runs m ∧ m.panel.run = some (r, [y], CC.ok) ∧ m.panel.pend = some q)
     (fun m n => line m n r y ∧ n.panel.pend = none ∧ n.get R.PANEL_STAT_PENDING = 0 ∧ n.get R.PANEL_STAT_GEN = q.gen % 65536)) ∧
   Turns .panelLine (fun m => ¬ runs m ∨ m.panel.run = none) id ∧
   (∀ r l code, Shows .panelCrack
     (fun m => runs m ∧ m.on R.PANEL_CTL_CRK_EN = true ∧ m.on R.PANEL_STAT_CRACK = false ∧ m.panel.run = some (r, l, code))
     (fun _ n => n.on R.PANEL_STAT_CRACK = true ∧ n.panel.run = some (r, l.take 1, CC.checkFailed))) ∧
   Shows .panelCrack (fun m => runs m ∧ m.on R.PANEL_CTL_CRK_EN = true ∧ m.on R.PANEL_STAT_CRACK = false ∧ m.panel.run = none)
     (fun m n => n.on R.PANEL_STAT_CRACK = true ∧ n.panel = m.panel) ∧
   Turns .panelCrack (fun m => ¬ runs m ∨ m.on R.PANEL_CTL_CRK_EN = false ∨ m.on R.PANEL_STAT_CRACK = true) id) ∧
  Shows .markClr (fun m => m.on R.PANEL_STAT_MARK = true)
    (fun m n => n.on R.PANEL_STAT_MARK = false ∧ n.panel = { m.panel with full := true } ∧ SameRegs [R.PANEL_STAT_MARK.addr] m n) ∧
  Turns .markClr (fun m => m.on R.PANEL_STAT_MARK = false) id ∧
  Shows (.crkClr true) (fun m => m.on R.PANEL_STAT_CRACK = true) (fun m n => n.on R.PANEL_STAT_CRACK = false ∧ n.panel = m.panel) ∧
  (∀ e, Turns (.crkClr e) (fun m => m.on R.PANEL_STAT_CRACK = false ∨ e = false) id)

/-- A submission ends CANCELLED_DISABLE while the vault drains, OVERFLOW at 64 requests, else the request waits. One that fails a check ends CHECK_FAILED with
slots as they were. One that passes runs: it writes its output in the caller's room, code, length and DONE in its descriptor, and makes, opens or clears the
key slot its operation names; a wrong tag, MAC or signature is AUTH_FAIL, counted. VRESET clears the EXPIRE slots, REMASK no key. Programming a field shows
BUSY, then the value, once. CHAL gives a nonce; OPEN takes one response per nonce and refuses after three wrong ones; debug changes at the next start only. -/
def Obligations.VaultRequests : Prop :=
  let spc := fun (m : Chip) (r : VReq) => vspace r.caller (m.vdesc r).inData
  let one := fun (op : Nat) (m : Chip) (r : VReq) => m.vault.queue = [r] ∧ r.bulk = false ∧ m.vdescOk r = true ∧ (m.vdesc r).op = op
  let pass := fun (op : Nat) (m : Chip) (r : VReq) => one op m r ∧ (m.vcheck r (m.vdesc r) true).1 = CC.ok
  let done := fun (n : Chip) (r : VReq) (code len : Nat) => let sp := vspace r.caller r.inData
    n.vault.queue = [] ∧ n.get R.VAULT_STAT_QUEUED = 0 ∧ n.rd sp (r.addr + 4) 2 = code ∧ n.rd sp (r.addr + 32) 4 = len % 2 ^ 32 ∧
      (n.rd sp (r.addr + 3) 1).testBit 1 = true
  let wrote := fun (m n : Chip) (r : VReq) (l : List Byte) => let d := m.vdesc r
    l.length ≤ d.outCap → d.outAddr + d.outCap ≤ r.addr ∨ r.addr + 64 ≤ d.outAddr → n.bytes (spc m r) d.outAddr l.length = l
  let gives := fun (m n : Chip) (r : VReq) (l : List Byte) => done n r 0 l.length ∧ wrote m n r l
  let failed := fun (m n : Chip) (r : VReq) (len : Nat) => done n r 0xA len ∧ n.get R.VAULT_AUTH_CNT = min 0xFFFFFFFF (m.get R.VAULT_AUTH_CNT + 1)
  let key := fun (m : Chip) (r : VReq) => (m.vslot (m.vdesc r).slot).key
  let kind := fun (m : Chip) (r : VReq) => (m.vslot (m.vdesc r).slot).kind
  let inp := fun (m : Chip) (r : VReq) => m.vinput r (m.vdesc r)
  let p := fun (m : Chip) (r : VReq) => (m.vdesc r).param
  let front := fun (m : Chip) (r : VReq) => (inp m r).take (p m r)
  let rest := fun (m : Chip) (r : VReq) => (inp m r).drop (p m r)
  let made := fun (m n : Chip) (r : VReq) (origin : Nat) (k : List Byte) => let d := m.vdesc r
    n.vslot d.dest = { kind := d.kind, rights := d.rights, count := d.count, expire := d.expire, origin := origin, key := k }
  let used := fun (m n : Chip) (r : VReq) => let x := m.vslot (m.vdesc r).slot
    (n.vslot (m.vdesc r).slot) = if x.count = 0xFFFFFFFF then x else { x with count := x.count - 1 }
  (∀ r, Shows .vaultGcmEnc (pass 1 · r) (fun m n => gives m n r (Config.gcmSeal (key m r) ((m.vdesc r).iv.take 12) (front m r) (rest m r)) ∧ used m n r)) ∧
  (∀ r, Shows .vaultGcmDec (pass 2 · r) (fun m n => used m n r ∧ match Config.gcmOpen (key m r) ((m.vdesc r).iv.take 12) (front m r) (rest m r) with
    | some t => gives m n r t
    | none => let k := (m.vdesc r).inLen - p m r - 16
      failed m n r k ∧ wrote m n r (List.replicate k 0))) ∧
  (∀ r, Shows .vaultCtr (pass 3 · r) (fun m n => gives m n r (Config.aesCtr (key m r) (m.vdesc r).iv (inp m r)) ∧ used m n r)) ∧
  (∀ r, Shows .vaultMac (pass 4 · r) (fun m n => gives m n r (macOf (m.vslot (m.vdesc r).slot) (inp m r)) ∧ used m n r)) ∧
  (∀ r, Shows .vaultMacCheck (pass 5 · r) (fun m n => let k := (m.vdesc r).inLen - macLen (kind m r)
    used m n r ∧ if macOf (m.vslot (m.vdesc r).slot) ((inp m r).take k) = (inp m r).drop k then done n r 0 0 else failed m n r 0)) ∧
  (∀ r, Shows .vaultHash (pass 6 · r) (fun m n => n.vault.slots = m.vault.slots ∧
    gives m n r (if (m.vdesc r).flags.testBit 2 then Config.sha384 (inp m r) else Config.sha256 (inp m r)))) ∧
  (∀ r, Shows .vaultSign (pass 7 · r) (fun m n => gives m n r (Config.ecdsaSign (kind m r) (key m r) (inp m r)) ∧ used m n r)) ∧
  (∀ r, Shows .vaultVerify (pass 8 · r) (fun m n => let k := (m.vdesc r).inLen - (if kind m r = 8 then 96 else 64)
    let a := (inp m r).take k; let b := (inp m r).drop k
    used m n r ∧ if (if kind m r = 8 then Config.ecdsaP384 (key m r) a b else Config.ecdsaP256 (key m r) a b) = true then done n r 0 0
      else failed m n r 0)) ∧
  (∀ r, Shows .vaultHkdf (pass 9 · r) (fun m n => done n r 0 0 ∧
    made m n r 2 (Config.hkdf 256 (key m r) (front m r) (rest m r) (kindLen (m.vdesc r).kind)))) ∧
  (∀ r, Shows .vaultKdf108 (pass 10 · r) (fun m n => let k := kindLen (m.vdesc r).kind
    done n r 0 0 ∧ made m n r 2 (Config.kdf108 (key m r) (front m r ++ [0] ++ rest m r ++ (le 4 (8 * k)).reverse) k))) ∧
  (∀ r, Shows .vaultWrap (pass 11 · r) (fun m n => let x := n.vslot (m.vdesc r).dest
    ∃ iv, iv.length = 12 ∧ gives m n r (blobHead x ++ iv ++ Config.gcmSeal (key m r) iv (blobHead x) x.key))) ∧
  (∀ r, Shows .vaultUnwrap (pass 12 · r) (fun m n => let i := inp m r
    match Config.gcmOpen (key m r) ((i.drop 16).take 12) (i.take 16) ((i.drop 28).take (kindLen (fld i 1 1) + 16)) with
    | some k => done n r 0 0 ∧ n.vslot (m.vdesc r).dest =
        { kind := fld i 1 1, rights := fld i 2 1, count := fld i 4 4, expire := (fld i 3 1).testBit 0, origin := 5, key := k }
    | none => failed m n r 0)) ∧
  (∀ r, Shows (.vaultGenerate true) (pass 13 · r) (fun m n => ∃ k, k.length = kindLen (m.vdesc r).kind ∧ made m n r 4 k ∧
    n.get R.VAULT_STAT_ENTROPY_OK = 1 ∧ gives m n r (if 5 ≤ (m.vdesc r).kind then Config.ecdsaPublic (m.vdesc r).kind k else []))) ∧
  (∀ r, Shows .vaultClear (pass 14 · r) (fun m n => done n r 0 0 ∧ n.vslot (m.vdesc r).dest = {} ∧
    ∀ j, j ≠ (m.vdesc r).dest → n.vslot j = m.vslot j)) ∧
  (∀ r, Shows (.vaultRandom true) (pass 15 · r) (fun m n => n.vault.slots = m.vault.slots ∧ ∃ l, l.length = (m.vdesc r).outCap ∧ gives m n r l)) ∧
  (∀ r, ∀ c ∈ [(Instr.vaultGenerate false, 13), (.vaultRandom false, 15)], Shows c.1 (pass c.2 · r)
    (fun m n => done n r 8 0 ∧ n.get R.VAULT_STAT_ENTROPY_OK = 0 ∧ n.vault.slots = m.vault.slots)) ∧
  (∀ r, Shows .vaultPubkey (pass 16 · r) (fun m n => gives m n r (Config.ecdsaPublic (kind m r) (key m r)) ∧ used m n r)) ∧
  (∀ r, Shows .vaultAttest (pass 17 · r) (fun m n => used m n r ∧ gives m n r (Config.hmac 256 (key m r)
    (inp m r ++ le 8 m.vault.ident.toNat ++ le 4 (bit m.vault.debug * 2 ^ 31 + bit (m.otp 1).isSome * 2 ^ 30 + bit (m.otp 2).isSome * 2 ^ 29 +
      m.get R.KEEP_STAT_COLD * 2 ^ 28 + m.get R.UPL_TIME_STAT_TRUSTED * 2 ^ 27 + m.get R.KEEP_STAT_BKLOSS * 2 ^ 26 + m.role * 2 ^ 24 +
      m.get R.CAIRN_BOOT_STAT_STATE * 2 ^ 20) ++ le 4 (m.get R.CAIRN_GEN))))) ∧
  (let ops : List (Instr × Nat) := [(.vaultGcmEnc, 1), (.vaultGcmDec, 2), (.vaultCtr, 3), (.vaultMac, 4), (.vaultMacCheck, 5), (.vaultHash, 6), (.vaultSign, 7),
     (.vaultVerify, 8), (.vaultHkdf, 9), (.vaultKdf108, 10), (.vaultWrap, 11), (.vaultUnwrap, 12), (.vaultGenerate true, 13), (.vaultClear, 14),
     (.vaultRandom true, 15), (.vaultPubkey, 16), (.vaultAttest, 17)]
   ∀ c ∈ ops, Turns c.1 (fun m => m.vault.queue = []) id ∧
     ∀ r, Shows c.1 (fun m => one c.2 m r ∧ m.vcheck1 r (m.vdesc r) = false) (fun m n => done n r 8 0 ∧ n.vault.slots = m.vault.slots)) ∧
  (let addr := fun (m : Chip) (r : Req) (v : Word) => (m.heldWord r R.VAULT_SUB_LO.addr).1.toNat + v.toNat % 8 * 2 ^ 32
   let host := fun (r : Req) => ∀ c, r ≠ .core c
   (∀ r v, Shows (.vaultSubmit r v) (fun m => m.unitOpen UK.vault = false) (fun m n => n.get R.VAULT_SUB_RES_CODE = 1 ∧ n.vault = m.vault)) ∧
   (∀ r v, Shows (.vaultSubmit r v) (fun m => m.unitOpen UK.vault = true ∧ 64 ≤ m.vault.queue.length)
     (fun m n => n.get R.VAULT_SUB_RES_CODE = 0xF ∧ n.vault = m.vault)) ∧
   (∀ r v, Shows (.vaultSubmit r v)
     (fun m => let x : VReq := { addr := addr m r v }
       host r ∧ m.unitOpen UK.vault = true ∧ m.vault.queue = [] ∧ m.vdescOk x = true ∧ 1 ≤ (m.vdesc x).op ∧ (m.vdesc x).op ≤ 17 ∧
         (m.vdesc x).inLen ≤ 65536)
     (fun m n => n.get R.VAULT_SUB_RES_CODE = 0 ∧ n.get R.VAULT_STAT_QUEUED = 1 ∧
       n.vault = { m.vault with queue := [{ addr := addr m r v }] } ∧ n.mem = m.mem))) ∧
  Shows .vreset (fun _ => True) (fun m n => n.vault = { m.vault with slots := m.vault.slots.filter (fun e => !e.2.expire) }) ∧
  Shows .remask (fun _ => True) (fun m n => n.vault = { m.vault with mask := n.vault.mask } ∧ n.regs = m.regs ∧ n.mem = m.mem) ∧
  (let size := fun (f : Fin 8) => if f.val = 2 then 48 else 32
   let data := fun (m : Chip) (f : Fin 8) => (((List.range 12).map (fun w => le 4 (m.get (R.VAULT_OTP_DATA w)))).flatten).take (size f)
   let free := fun (m : Chip) (f : Fin 8) => 1 ≤ f.val ∧ f.val ≤ 4 ∧ AMap.get [] m.vault.otp f.val = [] ∧ f.val ∉ m.vault.burnt ∧ ∃ b ∈ data m f, b ≠ 0
   (∀ r f, (r = .pcie ∨ r = .uart) → Shows (.otpProgram r f) (fun m => m.vault.otpRun = none ∧ free m f)
     (fun m n => n.get R.VAULT_OTP_RES_BUSY = 1 ∧ n.vault = { m.vault with otpRun := some (f.val, data m f) })) ∧
   (∀ r f, (r = .pcie ∨ r = .uart) → Turns (.otpProgram r f) (fun m => m.vault.otpRun = none ∧ ¬ free m f) (·.put R.VAULT_OTP_RES_CODE 8)) ∧
   (∀ r f, Turns (.otpProgram r f) (fun m => m.vault.otpRun.isSome = true ∨ (r ≠ .pcie ∧ r ≠ .uart)) id)) ∧
  (∀ f l, Shows .otpProgrammed (fun m => m.vault.otpRun = some (f, l))
    (fun m n => n.get R.VAULT_OTP_RES_BUSY = 0 ∧ n.get R.VAULT_OTP_RES_CODE = 0 ∧
      n.vault = { m.vault with otpRun := none, otp := AMap.put [] f l m.vault.otp })) ∧
  Turns .otpProgrammed (fun m => m.vault.otpRun = none) id ∧
  (∀ r, (r = .pcie ∨ r = .uart) → Shows (.debugChal r) (fun _ => True)
    (fun m n => ∃ l, l.length = 32 ∧ n.vault = { m.vault with nonce := some l } ∧ ∀ w, w < 8 → n.get (R.VAULT_DBG_NONCE w) = fld l (4 * w) 4)) ∧
  (∀ r, (r ≠ .pcie ∧ r ≠ .uart) → Turns (.debugChal r) (fun _ => True) id ∧ Turns (.debugOpen r) (fun _ => True) id) ∧
  (∀ r, (r = .pcie ∨ r = .uart) →
    Turns (.debugOpen r) (fun m => m.otp 4 = none ∨ 3 ≤ m.vault.fails) (·.put R.VAULT_DBG_RES_CODE 8) ∧
    ∀ k l, Shows (.debugOpen r) (fun m => m.otp 4 = some k ∧ m.vault.fails < 3 ∧ m.vault.nonce = some l)
      (fun m n => n.vault.nonce = none ∧ n.vault.debug = m.vault.debug ∧
        if Config.hmac 256 k (l ++ le 8 m.vault.ident.toNat ++ text "QV-DEBUG") =
            ((List.range 8).map (fun w => le 4 (m.get (R.VAULT_DBG_RESP w)))).flatten
        then n.get R.VAULT_DBG_RES_CODE = 0 ∧ n.get R.VAULT_STAT_DBG_PEND = 1 ∧ n.vault.debugKept = true ∧ n.vault.fails = m.vault.fails
        else n.get R.VAULT_DBG_RES_CODE = 0xA ∧ n.vault.fails = m.vault.fails + 1 ∧ n.vault.debugKept = m.vault.debugKept ∧
          n.get R.VAULT_AUTH_CNT = min 0xFFFFFFFF (m.get R.VAULT_AUTH_CNT + 1))) ∧
  Shows .debugClose (fun _ => True)
    (fun m n => n.vault = { m.vault with debugKept := false } ∧ n.get R.VAULT_DBG_RES_CODE = 0 ∧ n.get R.VAULT_STAT_DBG_PEND = 1 ∧ n.mem = m.mem)

/-- For every command c and state, the step of the state with c at the front of its queue is c's effect on the state with the queue's rest; every command answers
a next state in every state, and leaves the queue as it finds it. The queue is the model's own (notes/assumptions/6.md). -/
def Obligations.StepRunsFrontCommand : Prop :=
  (∀ c rest m, step ⟨c :: rest, m⟩ = exec c ⟨rest, m⟩) ∧ ∀ c s, ∃ t, exec c s = .next t ∧ t.pending = s.pending

/-- That an empty queue makes a step one clock edge is the model's design choice (notes/assumptions/6.md). On it, with PD2 on, the spine's count grows by 1.25 ns
at 800 MHz or 10 ns at 100 MHz, and league time by the rate word for every PLL_AUX tick that falls in it; with PD2 off neither clock moves. Points and guard
stay. -/
def Obligations.EmptyQueueTakesClockEdge : Prop :=
  (∀ m, step ⟨[], m⟩ = .next ⟨[], m.tick⟩) ∧
  ∀ m : Chip, m.tick.pts = m.pts ∧ m.tick.guard = m.guard ∧ (m.pd2 = false → m.tick.clk = m.clk) ∧
    (m.pd2 = true →
      let p := if m.clk.fast then 5 else 40
      m.tick.clk.mono = m.clk.mono + p ∧ m.tick.clk.league = m.clk.league + (m.clk.auxPhase + p * 24576 / 5) / 100000 * m.clk.rate)

/-- State.reset has an empty queue and canonical registers and memories; every register reads its reset word, and the fields named here read the values that the
register tables of their units give; nothing has left the block. What a byte that nothing has written reads as, erased flash 0xFF and elsewhere 0, is the
model's choice (notes/assumptions/4.md). -/
def Obligations.ResetState : Prop :=
  let m := State.reset.chip
  State.reset.pending = [] ∧ Regs.wf m.regs = true ∧ Memory.wf m.mem = true ∧ m.out = [] ∧ m.pd2 = true ∧ (∀ a, m.reg a = regReset a) ∧
  (∀ sp i, m.byte sp i = if sp = .flash then 0xFF else 0) ∧
  ∀ e ∈ ([(R.POINT_CFG_BG_EN, 1), (R.POINT_BG_SCRUB_RATE, 4), (R.POINT_BG_SWEEP_RATE, 16), (R.SCAN_CTL_FIND_EN, 1), (R.PLAN_CADENCE_PERIOD, 300),
      (R.PLAN_TIMING_GRID, 60), (R.PLAN_NUM_ITER_MAX, 60), (R.PLAN_NUM_PIV_EXP, 44), (R.RIDGE_CTL_GATE_EN, 1), (R.RIDGE_CTL_IDLE_MS, 5),
      (R.RIDGE_CTL_TARGET, 2), (R.RIDGE_STAT_STATE, 3), (R.RIDGE_CAB_LIMIT_LIMIT, 15000), (R.RIDGE_BUCKET_CAP, 200), (R.RIDGE_BUCKET_FLOOR, 60),
      (R.RIDGE_THERM_RIDGE, 95), (R.LAMP_CTL_AUTO_EN, 1), (R.LAMP_DERATE_MIN_K_MIN, 8192), (R.LOOP_CTL_RUN, 1), (R.METER_CTL_SDM_EN, 1),
      (R.METER_VM_TOL_PCT, 10), (R.TXN_CTL_AUTOQ_EN, 1), (R.TXN_CTL_LG_DEADLINE, 100), (R.UPL_CTL_ETYPE, 34997), (R.UPL_CTL_UDP_PORT, 48510),
      (R.UPL_TIME_HOLD, 86400), (R.UPL_PTP_CFG_PRIO1, 128), (R.UPL_UTC_OFS, 37), (R.SADL_CTL_TMO, 1000), (R.SADL_MISM_LIM_LIM, 3),
      (R.GUARD_IN, 4294967295), (R.KEEP_CTL_FOLLOW_EN, 1), (R.KEEP_STAT_OSF, 1), (R.KEEP_STAT_BKLOSS, 1), (R.VAULT_CTL_REMASK, 60),
      (R.PANEL_CTL_CRK_EN, 1), (R.PANEL_TIMING_DRIVE_US, 1200), (R.PANEL_CHAIN_COL_BITS, 240)] : List (FRef × Nat)), m.get e.1 = e.2

/-- With PD2 off, every command but those of the keeper die, of the guard die and of the supply sequence answers the state as it stands. -/
def Obligations.MainDieIdleWithoutPower : Prop :=
  ∀ c s, s.chip.pd2 = false → c.offline = false → exec c s = .next s

/-- From every state whose register map and memory map are in canonical form (addresses strictly rising, nothing listed that equals what an unlisted address reads
as), a step that answers a next state gives one with both in canonical form again, on a chip of the same variant: no command changes which units and
capacities the device has. -/
def Obligations.StepKeepsCanonicalForm : Prop :=
  ∀ s t, Regs.wf s.chip.regs = true → Memory.wf s.chip.mem = true → step s = .next t →
    t.chip.variant = s.chip.variant ∧ Regs.wf t.chip.regs = true ∧ Memory.wf t.chip.mem = true

/-- In every state, whatever command is at the front of the queue, and on a clock edge: a step leaves a locked interlock table as it is unless the command starts
PD2 or switches VDD_GUARD; and a step whose command is none of the guard's own, no commit's apply or replica, and no start of PD2 leaves the whole guard die
as it is: inputs, permits, causes, requests, outputs, link and table. -/
def Obligations.LockedTableStaysLocked : Prop :=
  ∀ s t, step s = .next t →
    (∀ b, s.chip.guard.table = some b → (∀ c, s.pending.head? = some c → c.resetsGuard = false) → t.chip.guard.table = some b) ∧
    ((∀ c, s.pending.head? = some c → c.reachesGuard = false) → t.chip.guard = s.chip.guard)
end

