-- ==== Sys2Proof/Laws/Guard.lean ====
section
/-! SUPPORT. The guard die's operations leave its interlock table. -/

namespace Sys2Proof.Machine

open Sys2Proof

/-- A fold whose step leaves the table leaves the table. -/
theorem Guard.foldl_table {β : Type} {f : Guard → β → Guard} (hf : ∀ g b, (f g b).table = g.table) (l : List β) (g : Guard) :
    (l.foldl f g).table = g.table := by
  induction l generalizing g with
  | nil => rfl
  | cons b t ih => exact (ih _).trans (hf g b)

@[simp] theorem Guard.setCause_table (g : Guard) (o : Nat) (l : List Nat) : (g.setCause o l).table = g.table := rfl
@[simp] theorem Guard.off_table (g : Guard) (o : Nat) : (g.off o).table = g.table := rfl
@[simp] theorem Guard.differing_table (g : Guard) : g.differing.table = g.table := rfl
@[simp] theorem Guard.latch_table (g : Guard) (o c : Nat) : (g.latch o c).table = g.table := by unfold Guard.latch; split <;> simp
@[simp] theorem Guard.sample_table (g : Guard) (x : BitVec 16 × BitVec 16) : (g.sample x).table = g.table := by
  unfold Guard.sample; refine Guard.foldl_table ?_ _ g; intro a b; rfl
@[simp] theorem Guard.track_table (g : Guard) : g.track.table = g.table := by
  unfold Guard.track; refine Guard.foldl_table ?_ _ g; intro a b; rfl
@[simp] theorem Guard.operate_table (g : Guard) (ops : List Nat) (rb : Nat) : (g.operate ops rb).table = g.table :=
  Guard.foldl_table (fun g e => by dsimp only; split <;> simp) _ g

/-- Folds of samples and of latches. -/
@[simp] theorem Guard.samples_table (l : List (BitVec 16 × BitVec 16)) (g : Guard) : (l.foldl Guard.sample g).table = g.table :=
  Guard.foldl_table Guard.sample_table l g
@[simp] theorem Guard.latches_table (l : List (Nat × GOut)) (c : Nat) (g : Guard) : (l.foldl (fun a e => a.latch e.1 c) g).table = g.table :=
  Guard.foldl_table (fun g e => Guard.latch_table g e.1 c) l g

@[simp] theorem Guard.resets_table (g : Guard) : g.resets.2.table = g.table := by
  unfold Guard.resets
  generalize g.ins.filter _ = l
  suffices h : ∀ (l : List (Nat × GIn)) (x : List Nat × Guard), (l.foldl (fun (x : List Nat × Guard) (e : Nat × GIn) =>
      let (ops, a) := x
      let i := e.1
      let up := g.filtA.testBit i && g.filtB.testBit i
      let down := !g.filtA.testBit i && !g.filtB.testBit i
      match assoc a.high i with
      | none => (ops, if up then { a with high := reassoc a.high i g.tick } else a)
      | some t =>
        if down then
          (if decide (50 ≤ g.tick - t ∧ g.tick - t ≤ 5000) && AMap.get 0 g.inFault i == 0 then ops ++ [i] else ops,
            { a with high := unassoc a.high i })
        else (ops, a)) x).2.table = x.2.table from h l ([], g)
  intro l
  induction l with
  | nil => intro x; rfl
  | cons e t ih =>
    intro x
    refine (ih _).trans ?_
    obtain ⟨ops, a⟩ := x
    dsimp only
    split <;> split <;> rfl

end Sys2Proof.Machine
end

