-- ==== Sys2Proof/Laws/Keyed.lean ====
section
/-! SUPPORT. Keyed data: reading after writing, and the canonical form that every write keeps. -/

namespace Sys2Proof.Machine

open Sys2Proof

namespace AMap

variable {α : Type}

@[simp] theorem get_nil (d : α) (i : Nat) : AMap.get d [] i = d := rfl

/-- A key that was dropped reads as the default. -/
theorem get_drop_same (d : α) (i : Nat) (m : AMap α) : AMap.get d (AMap.drop i m) i = d := by
  induction m with
  | nil => rfl
  | cons e t ih =>
    obtain ⟨k, u⟩ := e
    by_cases h : k = i
    · simpa [AMap.drop, h] using ih
    · have h' : ¬ i = k := fun e => h e.symm
      simpa [AMap.drop, h, AMap.get, h'] using ih

/-- Dropping one key leaves the others. -/
theorem get_drop_other (d : α) {i j : Nat} (h : j ≠ i) (m : AMap α) : AMap.get d (AMap.drop i m) j = AMap.get d m j := by
  induction m with
  | nil => rfl
  | cons e t ih =>
    obtain ⟨k, u⟩ := e
    by_cases hk : k = i
    · have : ¬ j = k := fun e => h (e.trans hk)
      simpa [AMap.drop, hk, AMap.get, h] using ih
    · by_cases hj : j = k
      · subst hj; simp [AMap.drop, hk, AMap.get]
      · simpa [AMap.drop, hk, AMap.get, hj] using ih

variable [DecidableEq α]

/-- A key that was set reads as what was set, in every map. -/
@[simp] theorem get_put_same (d : α) (i : Nat) (v : α) (m : AMap α) : AMap.get d (AMap.put d i v m) i = v := by
  induction m with
  | nil => by_cases h : v = d <;> simp [AMap.put, h, AMap.get]
  | cons e t ih =>
    obtain ⟨k, u⟩ := e
    by_cases hlt : i < k
    · have hne : ¬ i = k := by omega
      by_cases h : v = d
      · simp [AMap.put, hlt, h, AMap.get, hne, get_drop_same]
      · simp [AMap.put, hlt, h, AMap.get]
    · by_cases he : i = k
      · simpa [AMap.put, hlt, he] using (he ▸ ih)
      · simpa [AMap.put, hlt, he, AMap.get] using ih

/-- Setting one key leaves the others, in every map and whatever an absent key reads as. -/
theorem get_put_other (d e : α) {i j : Nat} (h : j ≠ i) (v : α) (m : AMap α) :
    AMap.get e (AMap.put d i v m) j = AMap.get e m j := by
  induction m with
  | nil => by_cases hv : v = d <;> simp [AMap.put, hv, AMap.get, h]
  | cons x t ih =>
    obtain ⟨k, u⟩ := x
    by_cases hlt : i < k
    · by_cases hv : v = d
      · by_cases hj : j = k
        · simp [AMap.put, hlt, hv, AMap.get, hj]
        · simp [AMap.put, hlt, hv, AMap.get, hj, get_drop_other e h]
      · simp [AMap.put, hlt, hv, AMap.get, h]
    · by_cases he : i = k
      · subst he
        simpa [AMap.put, AMap.get, h] using ih
      · by_cases hj : j = k
        · simp [AMap.put, hlt, he, AMap.get, hj]
        · simpa [AMap.put, hlt, he, AMap.get, hj] using ih

omit [DecidableEq α] in
theorem above_mono {a b : Nat} (h : a ≤ b) {m : AMap α} (hm : AMap.above b m = true) : AMap.above a m = true := by
  cases m with
  | nil => rfl
  | cons e t =>
    obtain ⟨k, u⟩ := e
    simp only [AMap.above, Bool.and_eq_true, decide_eq_true_eq] at hm ⊢
    exact ⟨by omega, hm.2⟩

omit [DecidableEq α] in
/-- Taking entries away keeps the keys rising. -/
theorem above_filter {b : Nat} (p : Nat × α → Bool) {m : AMap α} (hm : AMap.above b m = true) :
    AMap.above b (m.filter p) = true := by
  induction m generalizing b with
  | nil => rfl
  | cons e t ih =>
    obtain ⟨k, u⟩ := e
    simp only [AMap.above, Bool.and_eq_true, decide_eq_true_eq] at hm
    by_cases hp : p (k, u) = true
    · simp only [List.filter_cons, hp, if_true, AMap.above, Bool.and_eq_true, decide_eq_true_eq]
      exact ⟨hm.1, ih hm.2⟩
    · simp only [List.filter_cons, hp]
      exact ih (above_mono (by omega) hm.2)

theorem above_put (d : α) {b i : Nat} (hb : b < i) (v : α) {m : AMap α} (hm : AMap.above b m = true) :
    AMap.above b (AMap.put d i v m) = true := by
  induction m generalizing b with
  | nil => by_cases hv : v = d <;> simp [AMap.put, hv, AMap.above, hb]
  | cons e t ih =>
    obtain ⟨k, u⟩ := e
    simp only [AMap.above, Bool.and_eq_true, decide_eq_true_eq] at hm
    by_cases hlt : i < k
    · by_cases hv : v = d
      · simp only [AMap.put, hlt, hv, if_true, AMap.above, Bool.and_eq_true, decide_eq_true_eq]
        exact ⟨hm.1, above_filter _ hm.2⟩
      · simp [AMap.put, hlt, hv, AMap.above, hb, hm.2]
    · by_cases he : i = k
      · subst he
        simpa only [AMap.put, Nat.lt_irrefl, if_true, if_false] using ih hb (above_mono (by omega) hm.2)
      · simp only [AMap.put, hlt, he, if_false, AMap.above, Bool.and_eq_true, decide_eq_true_eq]
        exact ⟨hm.1, ih (by omega) hm.2⟩

/-- Setting a key keeps the keys rising. -/
theorem rising_put (d : α) (i : Nat) (v : α) {m : AMap α} (hm : AMap.rising m = true) : AMap.rising (AMap.put d i v m) = true := by
  cases m with
  | nil => by_cases hv : v = d <;> simp [AMap.put, hv, AMap.rising, AMap.above]
  | cons e t =>
    obtain ⟨k, u⟩ := e
    simp only [AMap.rising] at hm
    by_cases hlt : i < k
    · by_cases hv : v = d
      · simp only [AMap.put, hlt, hv, if_true, AMap.rising]
        exact above_filter _ hm
      · simp [AMap.put, hlt, hv, AMap.rising, AMap.above, hm]
    · by_cases he : i = k
      · subst he
        simp only [AMap.put, Nat.lt_irrefl, if_true, if_false]
        cases t with
        | nil => by_cases hv : v = d <;> simp [AMap.put, hv, AMap.rising, AMap.above]
        | cons e2 t2 =>
          obtain ⟨k2, u2⟩ := e2
          simp only [AMap.above, Bool.and_eq_true, decide_eq_true_eq] at hm
          by_cases hv : v = d
          · simp only [AMap.put, hm.1, hv, if_true, AMap.rising]
            exact above_filter _ hm.2
          · simp [AMap.put, hm.1, hv, AMap.rising, AMap.above, hm.2]
      · simp only [AMap.put, hlt, he, if_false, AMap.rising]
        exact above_put d (by omega) v hm

omit [DecidableEq α] in
/-- Taking entries away keeps the keys rising. -/
theorem rising_filter (p : Nat × α → Bool) {m : AMap α} (hm : AMap.rising m = true) : AMap.rising (m.filter p) = true := by
  cases m with
  | nil => rfl
  | cons e t =>
    obtain ⟨k, u⟩ := e
    simp only [AMap.rising] at hm
    by_cases hp : p (k, u) = true
    · simp only [List.filter_cons, hp, if_true, AMap.rising]
      exact above_filter p hm
    · simp only [List.filter_cons, hp]
      have := above_filter p hm
      cases h : List.filter p t with
      | nil => rfl
      | cons e2 t2 =>
        obtain ⟨k2, u2⟩ := e2
        simp only [Bool.false_eq_true, if_false, AMap.rising]
        rw [h] at this
        simp only [AMap.above, Bool.and_eq_true] at this
        exact this.2

/-- What holds of the entries and of the new one holds of the entries after the write. -/
theorem all_put (d : α) (i : Nat) (v : α) (p : Nat × α → Bool) (hv : v ≠ d → p (i, v) = true) {m : AMap α}
    (hm : m.all p = true) : (AMap.put d i v m).all p = true := by
  induction m with
  | nil =>
    by_cases h : v = d
    · simp [AMap.put, h]
    · simp [AMap.put, h, hv h]
  | cons e t ih =>
    obtain ⟨k, u⟩ := e
    simp only [List.all_cons, Bool.and_eq_true] at hm
    by_cases hlt : i < k
    · by_cases h : v = d
      · simp only [AMap.put, hlt, h, if_true, List.all_cons, Bool.and_eq_true]
        refine ⟨hm.1, ?_⟩
        simp only [AMap.drop, List.all_eq_true, List.mem_filter] at hm ⊢
        exact fun x hx => hm.2 x hx.1
      · simp [AMap.put, hlt, h, hv h, hm.1, hm.2]
    · by_cases he : i = k
      · subst he
        simpa only [AMap.put, Nat.lt_irrefl, if_true, if_false] using ih hm.2
      · simp only [AMap.put, hlt, he, if_false, List.all_cons, Bool.and_eq_true]
        exact ⟨hm.1, ih hm.2⟩

end AMap

/-! ### The two canonical forms -/

/-- Writing a byte keeps memory canonical. -/
theorem Memory.wf_put (k : Nat) (b : Byte) {mem : AMap Byte} (h : Memory.wf mem = true) :
    Memory.wf (AMap.put (memDefault k) k b mem) = true := by
  simp only [Memory.wf, Bool.and_eq_true] at h ⊢
  exact ⟨AMap.rising_put _ k b h.1, AMap.all_put _ k b _ (by simp) h.2⟩

/-- Forgetting bytes keeps memory canonical. -/
theorem Memory.wf_filter (p : Nat × Byte → Bool) {mem : AMap Byte} (h : Memory.wf mem = true) :
    Memory.wf (mem.filter p) = true := by
  simp only [Memory.wf, Bool.and_eq_true] at h ⊢
  refine ⟨AMap.rising_filter p h.1, ?_⟩
  simp only [List.all_eq_true, List.mem_filter] at h ⊢
  exact fun x hx => h.2 x hx.1

/-- Setting a register keeps the registers canonical. -/
theorem Regs.wf_put (a : Nat) (w : Word) {regs : AMap Word} (h : Regs.wf regs = true) :
    Regs.wf (AMap.put (regReset a) a w regs) = true := by
  simp only [Regs.wf, Bool.and_eq_true] at h ⊢
  exact ⟨AMap.rising_put _ a w h.1, AMap.all_put _ a w _ (by simp) h.2⟩

/-- Returning registers to their reset values keeps the registers canonical. -/
theorem Regs.wf_filter (p : Nat × Word → Bool) {regs : AMap Word} (h : Regs.wf regs = true) :
    Regs.wf (regs.filter p) = true := by
  simp only [Regs.wf, Bool.and_eq_true] at h ⊢
  refine ⟨AMap.rising_filter p h.1, ?_⟩
  simp only [List.all_eq_true, List.mem_filter] at h ⊢
  exact fun x hx => h.2 x hx.1

end Sys2Proof.Machine
end

