-- ==== Sys2Proof/Laws/State.lean ====
section
/-! SUPPORT. What each update of the state leaves and changes: one lemma for each field and each update, so that no later proof unfolds a record
update; what `State.act` and `step` answer. -/

namespace Sys2Proof.Machine

open Sys2Proof

@[simp] theorem Chip.withPd2_variant (m : Chip) x : (m.withPd2 x).variant = m.variant := rfl
@[simp] theorem Chip.withPd2_pd2 (m : Chip) x : (m.withPd2 x).pd2 = x := rfl
@[simp] theorem Chip.withPd2_clk (m : Chip) x : (m.withPd2 x).clk = m.clk := rfl
@[simp] theorem Chip.withPd2_regs (m : Chip) x : (m.withPd2 x).regs = m.regs := rfl
@[simp] theorem Chip.withPd2_mem (m : Chip) x : (m.withPd2 x).mem = m.mem := rfl
@[simp] theorem Chip.withPd2_reqs (m : Chip) x : (m.withPd2 x).reqs = m.reqs := rfl
@[simp] theorem Chip.withPd2_units (m : Chip) x : (m.withPd2 x).units = m.units := rfl
@[simp] theorem Chip.withPd2_rings (m : Chip) x : (m.withPd2 x).rings = m.rings := rfl
@[simp] theorem Chip.withPd2_pts (m : Chip) x : (m.withPd2 x).pts = m.pts := rfl
@[simp] theorem Chip.withPd2_com (m : Chip) x : (m.withPd2 x).com = m.com := rfl
@[simp] theorem Chip.withPd2_boot (m : Chip) x : (m.withPd2 x).boot = m.boot := rfl
@[simp] theorem Chip.withPd2_scan (m : Chip) x : (m.withPd2 x).scan = m.scan := rfl
@[simp] theorem Chip.withPd2_txn (m : Chip) x : (m.withPd2 x).txn = m.txn := rfl
@[simp] theorem Chip.withPd2_upl (m : Chip) x : (m.withPd2 x).upl = m.upl := rfl
@[simp] theorem Chip.withPd2_sadl (m : Chip) x : (m.withPd2 x).sadl = m.sadl := rfl
@[simp] theorem Chip.withPd2_ridge (m : Chip) x : (m.withPd2 x).ridge = m.ridge := rfl
@[simp] theorem Chip.withPd2_keep (m : Chip) x : (m.withPd2 x).keep = m.keep := rfl
@[simp] theorem Chip.withPd2_totals (m : Chip) x : (m.withPd2 x).totals = m.totals := rfl
@[simp] theorem Chip.withPd2_meter (m : Chip) x : (m.withPd2 x).meter = m.meter := rfl
@[simp] theorem Chip.withPd2_vault (m : Chip) x : (m.withPd2 x).vault = m.vault := rfl
@[simp] theorem Chip.withPd2_loop (m : Chip) x : (m.withPd2 x).loop = m.loop := rfl
@[simp] theorem Chip.withPd2_ports (m : Chip) x : (m.withPd2 x).ports = m.ports := rfl
@[simp] theorem Chip.withPd2_lamp (m : Chip) x : (m.withPd2 x).lamp = m.lamp := rfl
@[simp] theorem Chip.withPd2_plan (m : Chip) x : (m.withPd2 x).plan = m.plan := rfl
@[simp] theorem Chip.withPd2_guard (m : Chip) x : (m.withPd2 x).guard = m.guard := rfl
@[simp] theorem Chip.withPd2_panel (m : Chip) x : (m.withPd2 x).panel = m.panel := rfl
@[simp] theorem Chip.withPd2_out (m : Chip) x : (m.withPd2 x).out = m.out := rfl
@[simp] theorem Chip.withClk_variant (m : Chip) x : (m.withClk x).variant = m.variant := rfl
@[simp] theorem Chip.withClk_pd2 (m : Chip) x : (m.withClk x).pd2 = m.pd2 := rfl
@[simp] theorem Chip.withClk_clk (m : Chip) x : (m.withClk x).clk = x := rfl
@[simp] theorem Chip.withClk_regs (m : Chip) x : (m.withClk x).regs = m.regs := rfl
@[simp] theorem Chip.withClk_mem (m : Chip) x : (m.withClk x).mem = m.mem := rfl
@[simp] theorem Chip.withClk_reqs (m : Chip) x : (m.withClk x).reqs = m.reqs := rfl
@[simp] theorem Chip.withClk_units (m : Chip) x : (m.withClk x).units = m.units := rfl
@[simp] theorem Chip.withClk_rings (m : Chip) x : (m.withClk x).rings = m.rings := rfl
@[simp] theorem Chip.withClk_pts (m : Chip) x : (m.withClk x).pts = m.pts := rfl
@[simp] theorem Chip.withClk_com (m : Chip) x : (m.withClk x).com = m.com := rfl
@[simp] theorem Chip.withClk_boot (m : Chip) x : (m.withClk x).boot = m.boot := rfl
@[simp] theorem Chip.withClk_scan (m : Chip) x : (m.withClk x).scan = m.scan := rfl
@[simp] theorem Chip.withClk_txn (m : Chip) x : (m.withClk x).txn = m.txn := rfl
@[simp] theorem Chip.withClk_upl (m : Chip) x : (m.withClk x).upl = m.upl := rfl
@[simp] theorem Chip.withClk_sadl (m : Chip) x : (m.withClk x).sadl = m.sadl := rfl
@[simp] theorem Chip.withClk_ridge (m : Chip) x : (m.withClk x).ridge = m.ridge := rfl
@[simp] theorem Chip.withClk_keep (m : Chip) x : (m.withClk x).keep = m.keep := rfl
@[simp] theorem Chip.withClk_totals (m : Chip) x : (m.withClk x).totals = m.totals := rfl
@[simp] theorem Chip.withClk_meter (m : Chip) x : (m.withClk x).meter = m.meter := rfl
@[simp] theorem Chip.withClk_vault (m : Chip) x : (m.withClk x).vault = m.vault := rfl
@[simp] theorem Chip.withClk_loop (m : Chip) x : (m.withClk x).loop = m.loop := rfl
@[simp] theorem Chip.withClk_ports (m : Chip) x : (m.withClk x).ports = m.ports := rfl
@[simp] theorem Chip.withClk_lamp (m : Chip) x : (m.withClk x).lamp = m.lamp := rfl
@[simp] theorem Chip.withClk_plan (m : Chip) x : (m.withClk x).plan = m.plan := rfl
@[simp] theorem Chip.withClk_guard (m : Chip) x : (m.withClk x).guard = m.guard := rfl
@[simp] theorem Chip.withClk_panel (m : Chip) x : (m.withClk x).panel = m.panel := rfl
@[simp] theorem Chip.withClk_out (m : Chip) x : (m.withClk x).out = m.out := rfl
@[simp] theorem Chip.withReqs_variant (m : Chip) x : (m.withReqs x).variant = m.variant := rfl
@[simp] theorem Chip.withReqs_pd2 (m : Chip) x : (m.withReqs x).pd2 = m.pd2 := rfl
@[simp] theorem Chip.withReqs_clk (m : Chip) x : (m.withReqs x).clk = m.clk := rfl
@[simp] theorem Chip.withReqs_regs (m : Chip) x : (m.withReqs x).regs = m.regs := rfl
@[simp] theorem Chip.withReqs_mem (m : Chip) x : (m.withReqs x).mem = m.mem := rfl
@[simp] theorem Chip.withReqs_reqs (m : Chip) x : (m.withReqs x).reqs = x := rfl
@[simp] theorem Chip.withReqs_units (m : Chip) x : (m.withReqs x).units = m.units := rfl
@[simp] theorem Chip.withReqs_rings (m : Chip) x : (m.withReqs x).rings = m.rings := rfl
@[simp] theorem Chip.withReqs_pts (m : Chip) x : (m.withReqs x).pts = m.pts := rfl
@[simp] theorem Chip.withReqs_com (m : Chip) x : (m.withReqs x).com = m.com := rfl
@[simp] theorem Chip.withReqs_boot (m : Chip) x : (m.withReqs x).boot = m.boot := rfl
@[simp] theorem Chip.withReqs_scan (m : Chip) x : (m.withReqs x).scan = m.scan := rfl
@[simp] theorem Chip.withReqs_txn (m : Chip) x : (m.withReqs x).txn = m.txn := rfl
@[simp] theorem Chip.withReqs_upl (m : Chip) x : (m.withReqs x).upl = m.upl := rfl
@[simp] theorem Chip.withReqs_sadl (m : Chip) x : (m.withReqs x).sadl = m.sadl := rfl
@[simp] theorem Chip.withReqs_ridge (m : Chip) x : (m.withReqs x).ridge = m.ridge := rfl
@[simp] theorem Chip.withReqs_keep (m : Chip) x : (m.withReqs x).keep = m.keep := rfl
@[simp] theorem Chip.withReqs_totals (m : Chip) x : (m.withReqs x).totals = m.totals := rfl
@[simp] theorem Chip.withReqs_meter (m : Chip) x : (m.withReqs x).meter = m.meter := rfl
@[simp] theorem Chip.withReqs_vault (m : Chip) x : (m.withReqs x).vault = m.vault := rfl
@[simp] theorem Chip.withReqs_loop (m : Chip) x : (m.withReqs x).loop = m.loop := rfl
@[simp] theorem Chip.withReqs_ports (m : Chip) x : (m.withReqs x).ports = m.ports := rfl
@[simp] theorem Chip.withReqs_lamp (m : Chip) x : (m.withReqs x).lamp = m.lamp := rfl
@[simp] theorem Chip.withReqs_plan (m : Chip) x : (m.withReqs x).plan = m.plan := rfl
@[simp] theorem Chip.withReqs_guard (m : Chip) x : (m.withReqs x).guard = m.guard := rfl
@[simp] theorem Chip.withReqs_panel (m : Chip) x : (m.withReqs x).panel = m.panel := rfl
@[simp] theorem Chip.withReqs_out (m : Chip) x : (m.withReqs x).out = m.out := rfl
@[simp] theorem Chip.withUnits_variant (m : Chip) x : (m.withUnits x).variant = m.variant := rfl
@[simp] theorem Chip.withUnits_pd2 (m : Chip) x : (m.withUnits x).pd2 = m.pd2 := rfl
@[simp] theorem Chip.withUnits_clk (m : Chip) x : (m.withUnits x).clk = m.clk := rfl
@[simp] theorem Chip.withUnits_regs (m : Chip) x : (m.withUnits x).regs = m.regs := rfl
@[simp] theorem Chip.withUnits_mem (m : Chip) x : (m.withUnits x).mem = m.mem := rfl
@[simp] theorem Chip.withUnits_reqs (m : Chip) x : (m.withUnits x).reqs = m.reqs := rfl
@[simp] theorem Chip.withUnits_units (m : Chip) x : (m.withUnits x).units = x := rfl
@[simp] theorem Chip.withUnits_rings (m : Chip) x : (m.withUnits x).rings = m.rings := rfl
@[simp] theorem Chip.withUnits_pts (m : Chip) x : (m.withUnits x).pts = m.pts := rfl
@[simp] theorem Chip.withUnits_com (m : Chip) x : (m.withUnits x).com = m.com := rfl
@[simp] theorem Chip.withUnits_boot (m : Chip) x : (m.withUnits x).boot = m.boot := rfl
@[simp] theorem Chip.withUnits_scan (m : Chip) x : (m.withUnits x).scan = m.scan := rfl
@[simp] theorem Chip.withUnits_txn (m : Chip) x : (m.withUnits x).txn = m.txn := rfl
@[simp] theorem Chip.withUnits_upl (m : Chip) x : (m.withUnits x).upl = m.upl := rfl
@[simp] theorem Chip.withUnits_sadl (m : Chip) x : (m.withUnits x).sadl = m.sadl := rfl
@[simp] theorem Chip.withUnits_ridge (m : Chip) x : (m.withUnits x).ridge = m.ridge := rfl
@[simp] theorem Chip.withUnits_keep (m : Chip) x : (m.withUnits x).keep = m.keep := rfl
@[simp] theorem Chip.withUnits_totals (m : Chip) x : (m.withUnits x).totals = m.totals := rfl
@[simp] theorem Chip.withUnits_meter (m : Chip) x : (m.withUnits x).meter = m.meter := rfl
@[simp] theorem Chip.withUnits_vault (m : Chip) x : (m.withUnits x).vault = m.vault := rfl
@[simp] theorem Chip.withUnits_loop (m : Chip) x : (m.withUnits x).loop = m.loop := rfl
@[simp] theorem Chip.withUnits_ports (m : Chip) x : (m.withUnits x).ports = m.ports := rfl
@[simp] theorem Chip.withUnits_lamp (m : Chip) x : (m.withUnits x).lamp = m.lamp := rfl
@[simp] theorem Chip.withUnits_plan (m : Chip) x : (m.withUnits x).plan = m.plan := rfl
@[simp] theorem Chip.withUnits_guard (m : Chip) x : (m.withUnits x).guard = m.guard := rfl
@[simp] theorem Chip.withUnits_panel (m : Chip) x : (m.withUnits x).panel = m.panel := rfl
@[simp] theorem Chip.withUnits_out (m : Chip) x : (m.withUnits x).out = m.out := rfl
@[simp] theorem Chip.withRings_variant (m : Chip) x : (m.withRings x).variant = m.variant := rfl
@[simp] theorem Chip.withRings_pd2 (m : Chip) x : (m.withRings x).pd2 = m.pd2 := rfl
@[simp] theorem Chip.withRings_clk (m : Chip) x : (m.withRings x).clk = m.clk := rfl
@[simp] theorem Chip.withRings_regs (m : Chip) x : (m.withRings x).regs = m.regs := rfl
@[simp] theorem Chip.withRings_mem (m : Chip) x : (m.withRings x).mem = m.mem := rfl
@[simp] theorem Chip.withRings_reqs (m : Chip) x : (m.withRings x).reqs = m.reqs := rfl
@[simp] theorem Chip.withRings_units (m : Chip) x : (m.withRings x).units = m.units := rfl
@[simp] theorem Chip.withRings_rings (m : Chip) x : (m.withRings x).rings = x := rfl
@[simp] theorem Chip.withRings_pts (m : Chip) x : (m.withRings x).pts = m.pts := rfl
@[simp] theorem Chip.withRings_com (m : Chip) x : (m.withRings x).com = m.com := rfl
@[simp] theorem Chip.withRings_boot (m : Chip) x : (m.withRings x).boot = m.boot := rfl
@[simp] theorem Chip.withRings_scan (m : Chip) x : (m.withRings x).scan = m.scan := rfl
@[simp] theorem Chip.withRings_txn (m : Chip) x : (m.withRings x).txn = m.txn := rfl
@[simp] theorem Chip.withRings_upl (m : Chip) x : (m.withRings x).upl = m.upl := rfl
@[simp] theorem Chip.withRings_sadl (m : Chip) x : (m.withRings x).sadl = m.sadl := rfl
@[simp] theorem Chip.withRings_ridge (m : Chip) x : (m.withRings x).ridge = m.ridge := rfl
@[simp] theorem Chip.withRings_keep (m : Chip) x : (m.withRings x).keep = m.keep := rfl
@[simp] theorem Chip.withRings_totals (m : Chip) x : (m.withRings x).totals = m.totals := rfl
@[simp] theorem Chip.withRings_meter (m : Chip) x : (m.withRings x).meter = m.meter := rfl
@[simp] theorem Chip.withRings_vault (m : Chip) x : (m.withRings x).vault = m.vault := rfl
@[simp] theorem Chip.withRings_loop (m : Chip) x : (m.withRings x).loop = m.loop := rfl
@[simp] theorem Chip.withRings_ports (m : Chip) x : (m.withRings x).ports = m.ports := rfl
@[simp] theorem Chip.withRings_lamp (m : Chip) x : (m.withRings x).lamp = m.lamp := rfl
@[simp] theorem Chip.withRings_plan (m : Chip) x : (m.withRings x).plan = m.plan := rfl
@[simp] theorem Chip.withRings_guard (m : Chip) x : (m.withRings x).guard = m.guard := rfl
@[simp] theorem Chip.withRings_panel (m : Chip) x : (m.withRings x).panel = m.panel := rfl
@[simp] theorem Chip.withRings_out (m : Chip) x : (m.withRings x).out = m.out := rfl
@[simp] theorem Chip.withPts_variant (m : Chip) x : (m.withPts x).variant = m.variant := rfl
@[simp] theorem Chip.withPts_pd2 (m : Chip) x : (m.withPts x).pd2 = m.pd2 := rfl
@[simp] theorem Chip.withPts_clk (m : Chip) x : (m.withPts x).clk = m.clk := rfl
@[simp] theorem Chip.withPts_regs (m : Chip) x : (m.withPts x).regs = m.regs := rfl
@[simp] theorem Chip.withPts_mem (m : Chip) x : (m.withPts x).mem = m.mem := rfl
@[simp] theorem Chip.withPts_reqs (m : Chip) x : (m.withPts x).reqs = m.reqs := rfl
@[simp] theorem Chip.withPts_units (m : Chip) x : (m.withPts x).units = m.units := rfl
@[simp] theorem Chip.withPts_rings (m : Chip) x : (m.withPts x).rings = m.rings := rfl
@[simp] theorem Chip.withPts_pts (m : Chip) x : (m.withPts x).pts = x := rfl
@[simp] theorem Chip.withPts_com (m : Chip) x : (m.withPts x).com = m.com := rfl
@[simp] theorem Chip.withPts_boot (m : Chip) x : (m.withPts x).boot = m.boot := rfl
@[simp] theorem Chip.withPts_scan (m : Chip) x : (m.withPts x).scan = m.scan := rfl
@[simp] theorem Chip.withPts_txn (m : Chip) x : (m.withPts x).txn = m.txn := rfl
@[simp] theorem Chip.withPts_upl (m : Chip) x : (m.withPts x).upl = m.upl := rfl
@[simp] theorem Chip.withPts_sadl (m : Chip) x : (m.withPts x).sadl = m.sadl := rfl
@[simp] theorem Chip.withPts_ridge (m : Chip) x : (m.withPts x).ridge = m.ridge := rfl
@[simp] theorem Chip.withPts_keep (m : Chip) x : (m.withPts x).keep = m.keep := rfl
@[simp] theorem Chip.withPts_totals (m : Chip) x : (m.withPts x).totals = m.totals := rfl
@[simp] theorem Chip.withPts_meter (m : Chip) x : (m.withPts x).meter = m.meter := rfl
@[simp] theorem Chip.withPts_vault (m : Chip) x : (m.withPts x).vault = m.vault := rfl
@[simp] theorem Chip.withPts_loop (m : Chip) x : (m.withPts x).loop = m.loop := rfl
@[simp] theorem Chip.withPts_ports (m : Chip) x : (m.withPts x).ports = m.ports := rfl
@[simp] theorem Chip.withPts_lamp (m : Chip) x : (m.withPts x).lamp = m.lamp := rfl
@[simp] theorem Chip.withPts_plan (m : Chip) x : (m.withPts x).plan = m.plan := rfl
@[simp] theorem Chip.withPts_guard (m : Chip) x : (m.withPts x).guard = m.guard := rfl
@[simp] theorem Chip.withPts_panel (m : Chip) x : (m.withPts x).panel = m.panel := rfl
@[simp] theorem Chip.withPts_out (m : Chip) x : (m.withPts x).out = m.out := rfl
@[simp] theorem Chip.withCom_variant (m : Chip) x : (m.withCom x).variant = m.variant := rfl
@[simp] theorem Chip.withCom_pd2 (m : Chip) x : (m.withCom x).pd2 = m.pd2 := rfl
@[simp] theorem Chip.withCom_clk (m : Chip) x : (m.withCom x).clk = m.clk := rfl
@[simp] theorem Chip.withCom_regs (m : Chip) x : (m.withCom x).regs = m.regs := rfl
@[simp] theorem Chip.withCom_mem (m : Chip) x : (m.withCom x).mem = m.mem := rfl
@[simp] theorem Chip.withCom_reqs (m : Chip) x : (m.withCom x).reqs = m.reqs := rfl
@[simp] theorem Chip.withCom_units (m : Chip) x : (m.withCom x).units = m.units := rfl
@[simp] theorem Chip.withCom_rings (m : Chip) x : (m.withCom x).rings = m.rings := rfl
@[simp] theorem Chip.withCom_pts (m : Chip) x : (m.withCom x).pts = m.pts := rfl
@[simp] theorem Chip.withCom_com (m : Chip) x : (m.withCom x).com = x := rfl
@[simp] theorem Chip.withCom_boot (m : Chip) x : (m.withCom x).boot = m.boot := rfl
@[simp] theorem Chip.withCom_scan (m : Chip) x : (m.withCom x).scan = m.scan := rfl
@[simp] theorem Chip.withCom_txn (m : Chip) x : (m.withCom x).txn = m.txn := rfl
@[simp] theorem Chip.withCom_upl (m : Chip) x : (m.withCom x).upl = m.upl := rfl
@[simp] theorem Chip.withCom_sadl (m : Chip) x : (m.withCom x).sadl = m.sadl := rfl
@[simp] theorem Chip.withCom_ridge (m : Chip) x : (m.withCom x).ridge = m.ridge := rfl
@[simp] theorem Chip.withCom_keep (m : Chip) x : (m.withCom x).keep = m.keep := rfl
@[simp] theorem Chip.withCom_totals (m : Chip) x : (m.withCom x).totals = m.totals := rfl
@[simp] theorem Chip.withCom_meter (m : Chip) x : (m.withCom x).meter = m.meter := rfl
@[simp] theorem Chip.withCom_vault (m : Chip) x : (m.withCom x).vault = m.vault := rfl
@[simp] theorem Chip.withCom_loop (m : Chip) x : (m.withCom x).loop = m.loop := rfl
@[simp] theorem Chip.withCom_ports (m : Chip) x : (m.withCom x).ports = m.ports := rfl
@[simp] theorem Chip.withCom_lamp (m : Chip) x : (m.withCom x).lamp = m.lamp := rfl
@[simp] theorem Chip.withCom_plan (m : Chip) x : (m.withCom x).plan = m.plan := rfl
@[simp] theorem Chip.withCom_guard (m : Chip) x : (m.withCom x).guard = m.guard := rfl
@[simp] theorem Chip.withCom_panel (m : Chip) x : (m.withCom x).panel = m.panel := rfl
@[simp] theorem Chip.withCom_out (m : Chip) x : (m.withCom x).out = m.out := rfl
@[simp] theorem Chip.withBoot_variant (m : Chip) x : (m.withBoot x).variant = m.variant := rfl
@[simp] theorem Chip.withBoot_pd2 (m : Chip) x : (m.withBoot x).pd2 = m.pd2 := rfl
@[simp] theorem Chip.withBoot_clk (m : Chip) x : (m.withBoot x).clk = m.clk := rfl
@[simp] theorem Chip.withBoot_regs (m : Chip) x : (m.withBoot x).regs = m.regs := rfl
@[simp] theorem Chip.withBoot_mem (m : Chip) x : (m.withBoot x).mem = m.mem := rfl
@[simp] theorem Chip.withBoot_reqs (m : Chip) x : (m.withBoot x).reqs = m.reqs := rfl
@[simp] theorem Chip.withBoot_units (m : Chip) x : (m.withBoot x).units = m.units := rfl
@[simp] theorem Chip.withBoot_rings (m : Chip) x : (m.withBoot x).rings = m.rings := rfl
@[simp] theorem Chip.withBoot_pts (m : Chip) x : (m.withBoot x).pts = m.pts := rfl
@[simp] theorem Chip.withBoot_com (m : Chip) x : (m.withBoot x).com = m.com := rfl
@[simp] theorem Chip.withBoot_boot (m : Chip) x : (m.withBoot x).boot = x := rfl
@[simp] theorem Chip.withBoot_scan (m : Chip) x : (m.withBoot x).scan = m.scan := rfl
@[simp] theorem Chip.withBoot_txn (m : Chip) x : (m.withBoot x).txn = m.txn := rfl
@[simp] theorem Chip.withBoot_upl (m : Chip) x : (m.withBoot x).upl = m.upl := rfl
@[simp] theorem Chip.withBoot_sadl (m : Chip) x : (m.withBoot x).sadl = m.sadl := rfl
@[simp] theorem Chip.withBoot_ridge (m : Chip) x : (m.withBoot x).ridge = m.ridge := rfl
@[simp] theorem Chip.withBoot_keep (m : Chip) x : (m.withBoot x).keep = m.keep := rfl
@[simp] theorem Chip.withBoot_totals (m : Chip) x : (m.withBoot x).totals = m.totals := rfl
@[simp] theorem Chip.withBoot_meter (m : Chip) x : (m.withBoot x).meter = m.meter := rfl
@[simp] theorem Chip.withBoot_vault (m : Chip) x : (m.withBoot x).vault = m.vault := rfl
@[simp] theorem Chip.withBoot_loop (m : Chip) x : (m.withBoot x).loop = m.loop := rfl
@[simp] theorem Chip.withBoot_ports (m : Chip) x : (m.withBoot x).ports = m.ports := rfl
@[simp] theorem Chip.withBoot_lamp (m : Chip) x : (m.withBoot x).lamp = m.lamp := rfl
@[simp] theorem Chip.withBoot_plan (m : Chip) x : (m.withBoot x).plan = m.plan := rfl
@[simp] theorem Chip.withBoot_guard (m : Chip) x : (m.withBoot x).guard = m.guard := rfl
@[simp] theorem Chip.withBoot_panel (m : Chip) x : (m.withBoot x).panel = m.panel := rfl
@[simp] theorem Chip.withBoot_out (m : Chip) x : (m.withBoot x).out = m.out := rfl
@[simp] theorem Chip.withScan_variant (m : Chip) x : (m.withScan x).variant = m.variant := rfl
@[simp] theorem Chip.withScan_pd2 (m : Chip) x : (m.withScan x).pd2 = m.pd2 := rfl
@[simp] theorem Chip.withScan_clk (m : Chip) x : (m.withScan x).clk = m.clk := rfl
@[simp] theorem Chip.withScan_regs (m : Chip) x : (m.withScan x).regs = m.regs := rfl
@[simp] theorem Chip.withScan_mem (m : Chip) x : (m.withScan x).mem = m.mem := rfl
@[simp] theorem Chip.withScan_reqs (m : Chip) x : (m.withScan x).reqs = m.reqs := rfl
@[simp] theorem Chip.withScan_units (m : Chip) x : (m.withScan x).units = m.units := rfl
@[simp] theorem Chip.withScan_rings (m : Chip) x : (m.withScan x).rings = m.rings := rfl
@[simp] theorem Chip.withScan_pts (m : Chip) x : (m.withScan x).pts = m.pts := rfl
@[simp] theorem Chip.withScan_com (m : Chip) x : (m.withScan x).com = m.com := rfl
@[simp] theorem Chip.withScan_boot (m : Chip) x : (m.withScan x).boot = m.boot := rfl
@[simp] theorem Chip.withScan_scan (m : Chip) x : (m.withScan x).scan = x := rfl
@[simp] theorem Chip.withScan_txn (m : Chip) x : (m.withScan x).txn = m.txn := rfl
@[simp] theorem Chip.withScan_upl (m : Chip) x : (m.withScan x).upl = m.upl := rfl
@[simp] theorem Chip.withScan_sadl (m : Chip) x : (m.withScan x).sadl = m.sadl := rfl
@[simp] theorem Chip.withScan_ridge (m : Chip) x : (m.withScan x).ridge = m.ridge := rfl
@[simp] theorem Chip.withScan_keep (m : Chip) x : (m.withScan x).keep = m.keep := rfl
@[simp] theorem Chip.withScan_totals (m : Chip) x : (m.withScan x).totals = m.totals := rfl
@[simp] theorem Chip.withScan_meter (m : Chip) x : (m.withScan x).meter = m.meter := rfl
@[simp] theorem Chip.withScan_vault (m : Chip) x : (m.withScan x).vault = m.vault := rfl
@[simp] theorem Chip.withScan_loop (m : Chip) x : (m.withScan x).loop = m.loop := rfl
@[simp] theorem Chip.withScan_ports (m : Chip) x : (m.withScan x).ports = m.ports := rfl
@[simp] theorem Chip.withScan_lamp (m : Chip) x : (m.withScan x).lamp = m.lamp := rfl
@[simp] theorem Chip.withScan_plan (m : Chip) x : (m.withScan x).plan = m.plan := rfl
@[simp] theorem Chip.withScan_guard (m : Chip) x : (m.withScan x).guard = m.guard := rfl
@[simp] theorem Chip.withScan_panel (m : Chip) x : (m.withScan x).panel = m.panel := rfl
@[simp] theorem Chip.withScan_out (m : Chip) x : (m.withScan x).out = m.out := rfl
@[simp] theorem Chip.withTxn_variant (m : Chip) x : (m.withTxn x).variant = m.variant := rfl
@[simp] theorem Chip.withTxn_pd2 (m : Chip) x : (m.withTxn x).pd2 = m.pd2 := rfl
@[simp] theorem Chip.withTxn_clk (m : Chip) x : (m.withTxn x).clk = m.clk := rfl
@[simp] theorem Chip.withTxn_regs (m : Chip) x : (m.withTxn x).regs = m.regs := rfl
@[simp] theorem Chip.withTxn_mem (m : Chip) x : (m.withTxn x).mem = m.mem := rfl
@[simp] theorem Chip.withTxn_reqs (m : Chip) x : (m.withTxn x).reqs = m.reqs := rfl
@[simp] theorem Chip.withTxn_units (m : Chip) x : (m.withTxn x).units = m.units := rfl
@[simp] theorem Chip.withTxn_rings (m : Chip) x : (m.withTxn x).rings = m.rings := rfl
@[simp] theorem Chip.withTxn_pts (m : Chip) x : (m.withTxn x).pts = m.pts := rfl
@[simp] theorem Chip.withTxn_com (m : Chip) x : (m.withTxn x).com = m.com := rfl
@[simp] theorem Chip.withTxn_boot (m : Chip) x : (m.withTxn x).boot = m.boot := rfl
@[simp] theorem Chip.withTxn_scan (m : Chip) x : (m.withTxn x).scan = m.scan := rfl
@[simp] theorem Chip.withTxn_txn (m : Chip) x : (m.withTxn x).txn = x := rfl
@[simp] theorem Chip.withTxn_upl (m : Chip) x : (m.withTxn x).upl = m.upl := rfl
@[simp] theorem Chip.withTxn_sadl (m : Chip) x : (m.withTxn x).sadl = m.sadl := rfl
@[simp] theorem Chip.withTxn_ridge (m : Chip) x : (m.withTxn x).ridge = m.ridge := rfl
@[simp] theorem Chip.withTxn_keep (m : Chip) x : (m.withTxn x).keep = m.keep := rfl
@[simp] theorem Chip.withTxn_totals (m : Chip) x : (m.withTxn x).totals = m.totals := rfl
@[simp] theorem Chip.withTxn_meter (m : Chip) x : (m.withTxn x).meter = m.meter := rfl
@[simp] theorem Chip.withTxn_vault (m : Chip) x : (m.withTxn x).vault = m.vault := rfl
@[simp] theorem Chip.withTxn_loop (m : Chip) x : (m.withTxn x).loop = m.loop := rfl
@[simp] theorem Chip.withTxn_ports (m : Chip) x : (m.withTxn x).ports = m.ports := rfl
@[simp] theorem Chip.withTxn_lamp (m : Chip) x : (m.withTxn x).lamp = m.lamp := rfl
@[simp] theorem Chip.withTxn_plan (m : Chip) x : (m.withTxn x).plan = m.plan := rfl
@[simp] theorem Chip.withTxn_guard (m : Chip) x : (m.withTxn x).guard = m.guard := rfl
@[simp] theorem Chip.withTxn_panel (m : Chip) x : (m.withTxn x).panel = m.panel := rfl
@[simp] theorem Chip.withTxn_out (m : Chip) x : (m.withTxn x).out = m.out := rfl
@[simp] theorem Chip.withUpl_variant (m : Chip) x : (m.withUpl x).variant = m.variant := rfl
@[simp] theorem Chip.withUpl_pd2 (m : Chip) x : (m.withUpl x).pd2 = m.pd2 := rfl
@[simp] theorem Chip.withUpl_clk (m : Chip) x : (m.withUpl x).clk = m.clk := rfl
@[simp] theorem Chip.withUpl_regs (m : Chip) x : (m.withUpl x).regs = m.regs := rfl
@[simp] theorem Chip.withUpl_mem (m : Chip) x : (m.withUpl x).mem = m.mem := rfl
@[simp] theorem Chip.withUpl_reqs (m : Chip) x : (m.withUpl x).reqs = m.reqs := rfl
@[simp] theorem Chip.withUpl_units (m : Chip) x : (m.withUpl x).units = m.units := rfl
@[simp] theorem Chip.withUpl_rings (m : Chip) x : (m.withUpl x).rings = m.rings := rfl
@[simp] theorem Chip.withUpl_pts (m : Chip) x : (m.withUpl x).pts = m.pts := rfl
@[simp] theorem Chip.withUpl_com (m : Chip) x : (m.withUpl x).com = m.com := rfl
@[simp] theorem Chip.withUpl_boot (m : Chip) x : (m.withUpl x).boot = m.boot := rfl
@[simp] theorem Chip.withUpl_scan (m : Chip) x : (m.withUpl x).scan = m.scan := rfl
@[simp] theorem Chip.withUpl_txn (m : Chip) x : (m.withUpl x).txn = m.txn := rfl
@[simp] theorem Chip.withUpl_upl (m : Chip) x : (m.withUpl x).upl = x := rfl
@[simp] theorem Chip.withUpl_sadl (m : Chip) x : (m.withUpl x).sadl = m.sadl := rfl
@[simp] theorem Chip.withUpl_ridge (m : Chip) x : (m.withUpl x).ridge = m.ridge := rfl
@[simp] theorem Chip.withUpl_keep (m : Chip) x : (m.withUpl x).keep = m.keep := rfl
@[simp] theorem Chip.withUpl_totals (m : Chip) x : (m.withUpl x).totals = m.totals := rfl
@[simp] theorem Chip.withUpl_meter (m : Chip) x : (m.withUpl x).meter = m.meter := rfl
@[simp] theorem Chip.withUpl_vault (m : Chip) x : (m.withUpl x).vault = m.vault := rfl
@[simp] theorem Chip.withUpl_loop (m : Chip) x : (m.withUpl x).loop = m.loop := rfl
@[simp] theorem Chip.withUpl_ports (m : Chip) x : (m.withUpl x).ports = m.ports := rfl
@[simp] theorem Chip.withUpl_lamp (m : Chip) x : (m.withUpl x).lamp = m.lamp := rfl
@[simp] theorem Chip.withUpl_plan (m : Chip) x : (m.withUpl x).plan = m.plan := rfl
@[simp] theorem Chip.withUpl_guard (m : Chip) x : (m.withUpl x).guard = m.guard := rfl
@[simp] theorem Chip.withUpl_panel (m : Chip) x : (m.withUpl x).panel = m.panel := rfl
@[simp] theorem Chip.withUpl_out (m : Chip) x : (m.withUpl x).out = m.out := rfl
@[simp] theorem Chip.withSadl_variant (m : Chip) x : (m.withSadl x).variant = m.variant := rfl
@[simp] theorem Chip.withSadl_pd2 (m : Chip) x : (m.withSadl x).pd2 = m.pd2 := rfl
@[simp] theorem Chip.withSadl_clk (m : Chip) x : (m.withSadl x).clk = m.clk := rfl
@[simp] theorem Chip.withSadl_regs (m : Chip) x : (m.withSadl x).regs = m.regs := rfl
@[simp] theorem Chip.withSadl_mem (m : Chip) x : (m.withSadl x).mem = m.mem := rfl
@[simp] theorem Chip.withSadl_reqs (m : Chip) x : (m.withSadl x).reqs = m.reqs := rfl
@[simp] theorem Chip.withSadl_units (m : Chip) x : (m.withSadl x).units = m.units := rfl
@[simp] theorem Chip.withSadl_rings (m : Chip) x : (m.withSadl x).rings = m.rings := rfl
@[simp] theorem Chip.withSadl_pts (m : Chip) x : (m.withSadl x).pts = m.pts := rfl
@[simp] theorem Chip.withSadl_com (m : Chip) x : (m.withSadl x).com = m.com := rfl
@[simp] theorem Chip.withSadl_boot (m : Chip) x : (m.withSadl x).boot = m.boot := rfl
@[simp] theorem Chip.withSadl_scan (m : Chip) x : (m.withSadl x).scan = m.scan := rfl
@[simp] theorem Chip.withSadl_txn (m : Chip) x : (m.withSadl x).txn = m.txn := rfl
@[simp] theorem Chip.withSadl_upl (m : Chip) x : (m.withSadl x).upl = m.upl := rfl
@[simp] theorem Chip.withSadl_sadl (m : Chip) x : (m.withSadl x).sadl = x := rfl
@[simp] theorem Chip.withSadl_ridge (m : Chip) x : (m.withSadl x).ridge = m.ridge := rfl
@[simp] theorem Chip.withSadl_keep (m : Chip) x : (m.withSadl x).keep = m.keep := rfl
@[simp] theorem Chip.withSadl_totals (m : Chip) x : (m.withSadl x).totals = m.totals := rfl
@[simp] theorem Chip.withSadl_meter (m : Chip) x : (m.withSadl x).meter = m.meter := rfl
@[simp] theorem Chip.withSadl_vault (m : Chip) x : (m.withSadl x).vault = m.vault := rfl
@[simp] theorem Chip.withSadl_loop (m : Chip) x : (m.withSadl x).loop = m.loop := rfl
@[simp] theorem Chip.withSadl_ports (m : Chip) x : (m.withSadl x).ports = m.ports := rfl
@[simp] theorem Chip.withSadl_lamp (m : Chip) x : (m.withSadl x).lamp = m.lamp := rfl
@[simp] theorem Chip.withSadl_plan (m : Chip) x : (m.withSadl x).plan = m.plan := rfl
@[simp] theorem Chip.withSadl_guard (m : Chip) x : (m.withSadl x).guard = m.guard := rfl
@[simp] theorem Chip.withSadl_panel (m : Chip) x : (m.withSadl x).panel = m.panel := rfl
@[simp] theorem Chip.withSadl_out (m : Chip) x : (m.withSadl x).out = m.out := rfl
@[simp] theorem Chip.withRidge_variant (m : Chip) x : (m.withRidge x).variant = m.variant := rfl
@[simp] theorem Chip.withRidge_pd2 (m : Chip) x : (m.withRidge x).pd2 = m.pd2 := rfl
@[simp] theorem Chip.withRidge_clk (m : Chip) x : (m.withRidge x).clk = m.clk := rfl
@[simp] theorem Chip.withRidge_regs (m : Chip) x : (m.withRidge x).regs = m.regs := rfl
@[simp] theorem Chip.withRidge_mem (m : Chip) x : (m.withRidge x).mem = m.mem := rfl
@[simp] theorem Chip.withRidge_reqs (m : Chip) x : (m.withRidge x).reqs = m.reqs := rfl
@[simp] theorem Chip.withRidge_units (m : Chip) x : (m.withRidge x).units = m.units := rfl
@[simp] theorem Chip.withRidge_rings (m : Chip) x : (m.withRidge x).rings = m.rings := rfl
@[simp] theorem Chip.withRidge_pts (m : Chip) x : (m.withRidge x).pts = m.pts := rfl
@[simp] theorem Chip.withRidge_com (m : Chip) x : (m.withRidge x).com = m.com := rfl
@[simp] theorem Chip.withRidge_boot (m : Chip) x : (m.withRidge x).boot = m.boot := rfl
@[simp] theorem Chip.withRidge_scan (m : Chip) x : (m.withRidge x).scan = m.scan := rfl
@[simp] theorem Chip.withRidge_txn (m : Chip) x : (m.withRidge x).txn = m.txn := rfl
@[simp] theorem Chip.withRidge_upl (m : Chip) x : (m.withRidge x).upl = m.upl := rfl
@[simp] theorem Chip.withRidge_sadl (m : Chip) x : (m.withRidge x).sadl = m.sadl := rfl
@[simp] theorem Chip.withRidge_ridge (m : Chip) x : (m.withRidge x).ridge = x := rfl
@[simp] theorem Chip.withRidge_keep (m : Chip) x : (m.withRidge x).keep = m.keep := rfl
@[simp] theorem Chip.withRidge_totals (m : Chip) x : (m.withRidge x).totals = m.totals := rfl
@[simp] theorem Chip.withRidge_meter (m : Chip) x : (m.withRidge x).meter = m.meter := rfl
@[simp] theorem Chip.withRidge_vault (m : Chip) x : (m.withRidge x).vault = m.vault := rfl
@[simp] theorem Chip.withRidge_loop (m : Chip) x : (m.withRidge x).loop = m.loop := rfl
@[simp] theorem Chip.withRidge_ports (m : Chip) x : (m.withRidge x).ports = m.ports := rfl
@[simp] theorem Chip.withRidge_lamp (m : Chip) x : (m.withRidge x).lamp = m.lamp := rfl
@[simp] theorem Chip.withRidge_plan (m : Chip) x : (m.withRidge x).plan = m.plan := rfl
@[simp] theorem Chip.withRidge_guard (m : Chip) x : (m.withRidge x).guard = m.guard := rfl
@[simp] theorem Chip.withRidge_panel (m : Chip) x : (m.withRidge x).panel = m.panel := rfl
@[simp] theorem Chip.withRidge_out (m : Chip) x : (m.withRidge x).out = m.out := rfl
@[simp] theorem Chip.withKeep_variant (m : Chip) x : (m.withKeep x).variant = m.variant := rfl
@[simp] theorem Chip.withKeep_pd2 (m : Chip) x : (m.withKeep x).pd2 = m.pd2 := rfl
@[simp] theorem Chip.withKeep_clk (m : Chip) x : (m.withKeep x).clk = m.clk := rfl
@[simp] theorem Chip.withKeep_regs (m : Chip) x : (m.withKeep x).regs = m.regs := rfl
@[simp] theorem Chip.withKeep_mem (m : Chip) x : (m.withKeep x).mem = m.mem := rfl
@[simp] theorem Chip.withKeep_reqs (m : Chip) x : (m.withKeep x).reqs = m.reqs := rfl
@[simp] theorem Chip.withKeep_units (m : Chip) x : (m.withKeep x).units = m.units := rfl
@[simp] theorem Chip.withKeep_rings (m : Chip) x : (m.withKeep x).rings = m.rings := rfl
@[simp] theorem Chip.withKeep_pts (m : Chip) x : (m.withKeep x).pts = m.pts := rfl
@[simp] theorem Chip.withKeep_com (m : Chip) x : (m.withKeep x).com = m.com := rfl
@[simp] theorem Chip.withKeep_boot (m : Chip) x : (m.withKeep x).boot = m.boot := rfl
@[simp] theorem Chip.withKeep_scan (m : Chip) x : (m.withKeep x).scan = m.scan := rfl
@[simp] theorem Chip.withKeep_txn (m : Chip) x : (m.withKeep x).txn = m.txn := rfl
@[simp] theorem Chip.withKeep_upl (m : Chip) x : (m.withKeep x).upl = m.upl := rfl
@[simp] theorem Chip.withKeep_sadl (m : Chip) x : (m.withKeep x).sadl = m.sadl := rfl
@[simp] theorem Chip.withKeep_ridge (m : Chip) x : (m.withKeep x).ridge = m.ridge := rfl
@[simp] theorem Chip.withKeep_keep (m : Chip) x : (m.withKeep x).keep = x := rfl
@[simp] theorem Chip.withKeep_totals (m : Chip) x : (m.withKeep x).totals = m.totals := rfl
@[simp] theorem Chip.withKeep_meter (m : Chip) x : (m.withKeep x).meter = m.meter := rfl
@[simp] theorem Chip.withKeep_vault (m : Chip) x : (m.withKeep x).vault = m.vault := rfl
@[simp] theorem Chip.withKeep_loop (m : Chip) x : (m.withKeep x).loop = m.loop := rfl
@[simp] theorem Chip.withKeep_ports (m : Chip) x : (m.withKeep x).ports = m.ports := rfl
@[simp] theorem Chip.withKeep_lamp (m : Chip) x : (m.withKeep x).lamp = m.lamp := rfl
@[simp] theorem Chip.withKeep_plan (m : Chip) x : (m.withKeep x).plan = m.plan := rfl
@[simp] theorem Chip.withKeep_guard (m : Chip) x : (m.withKeep x).guard = m.guard := rfl
@[simp] theorem Chip.withKeep_panel (m : Chip) x : (m.withKeep x).panel = m.panel := rfl
@[simp] theorem Chip.withKeep_out (m : Chip) x : (m.withKeep x).out = m.out := rfl
@[simp] theorem Chip.withTotals_variant (m : Chip) x : (m.withTotals x).variant = m.variant := rfl
@[simp] theorem Chip.withTotals_pd2 (m : Chip) x : (m.withTotals x).pd2 = m.pd2 := rfl
@[simp] theorem Chip.withTotals_clk (m : Chip) x : (m.withTotals x).clk = m.clk := rfl
@[simp] theorem Chip.withTotals_regs (m : Chip) x : (m.withTotals x).regs = m.regs := rfl
@[simp] theorem Chip.withTotals_mem (m : Chip) x : (m.withTotals x).mem = m.mem := rfl
@[simp] theorem Chip.withTotals_reqs (m : Chip) x : (m.withTotals x).reqs = m.reqs := rfl
@[simp] theorem Chip.withTotals_units (m : Chip) x : (m.withTotals x).units = m.units := rfl
@[simp] theorem Chip.withTotals_rings (m : Chip) x : (m.withTotals x).rings = m.rings := rfl
@[simp] theorem Chip.withTotals_pts (m : Chip) x : (m.withTotals x).pts = m.pts := rfl
@[simp] theorem Chip.withTotals_com (m : Chip) x : (m.withTotals x).com = m.com := rfl
@[simp] theorem Chip.withTotals_boot (m : Chip) x : (m.withTotals x).boot = m.boot := rfl
@[simp] theorem Chip.withTotals_scan (m : Chip) x : (m.withTotals x).scan = m.scan := rfl
@[simp] theorem Chip.withTotals_txn (m : Chip) x : (m.withTotals x).txn = m.txn := rfl
@[simp] theorem Chip.withTotals_upl (m : Chip) x : (m.withTotals x).upl = m.upl := rfl
@[simp] theorem Chip.withTotals_sadl (m : Chip) x : (m.withTotals x).sadl = m.sadl := rfl
@[simp] theorem Chip.withTotals_ridge (m : Chip) x : (m.withTotals x).ridge = m.ridge := rfl
@[simp] theorem Chip.withTotals_keep (m : Chip) x : (m.withTotals x).keep = m.keep := rfl
@[simp] theorem Chip.withTotals_totals (m : Chip) x : (m.withTotals x).totals = x := rfl
@[simp] theorem Chip.withTotals_meter (m : Chip) x : (m.withTotals x).meter = m.meter := rfl
@[simp] theorem Chip.withTotals_vault (m : Chip) x : (m.withTotals x).vault = m.vault := rfl
@[simp] theorem Chip.withTotals_loop (m : Chip) x : (m.withTotals x).loop = m.loop := rfl
@[simp] theorem Chip.withTotals_ports (m : Chip) x : (m.withTotals x).ports = m.ports := rfl
@[simp] theorem Chip.withTotals_lamp (m : Chip) x : (m.withTotals x).lamp = m.lamp := rfl
@[simp] theorem Chip.withTotals_plan (m : Chip) x : (m.withTotals x).plan = m.plan := rfl
@[simp] theorem Chip.withTotals_guard (m : Chip) x : (m.withTotals x).guard = m.guard := rfl
@[simp] theorem Chip.withTotals_panel (m : Chip) x : (m.withTotals x).panel = m.panel := rfl
@[simp] theorem Chip.withTotals_out (m : Chip) x : (m.withTotals x).out = m.out := rfl
@[simp] theorem Chip.withMeter_variant (m : Chip) x : (m.withMeter x).variant = m.variant := rfl
@[simp] theorem Chip.withMeter_pd2 (m : Chip) x : (m.withMeter x).pd2 = m.pd2 := rfl
@[simp] theorem Chip.withMeter_clk (m : Chip) x : (m.withMeter x).clk = m.clk := rfl
@[simp] theorem Chip.withMeter_regs (m : Chip) x : (m.withMeter x).regs = m.regs := rfl
@[simp] theorem Chip.withMeter_mem (m : Chip) x : (m.withMeter x).mem = m.mem := rfl
@[simp] theorem Chip.withMeter_reqs (m : Chip) x : (m.withMeter x).reqs = m.reqs := rfl
@[simp] theorem Chip.withMeter_units (m : Chip) x : (m.withMeter x).units = m.units := rfl
@[simp] theorem Chip.withMeter_rings (m : Chip) x : (m.withMeter x).rings = m.rings := rfl
@[simp] theorem Chip.withMeter_pts (m : Chip) x : (m.withMeter x).pts = m.pts := rfl
@[simp] theorem Chip.withMeter_com (m : Chip) x : (m.withMeter x).com = m.com := rfl
@[simp] theorem Chip.withMeter_boot (m : Chip) x : (m.withMeter x).boot = m.boot := rfl
@[simp] theorem Chip.withMeter_scan (m : Chip) x : (m.withMeter x).scan = m.scan := rfl
@[simp] theorem Chip.withMeter_txn (m : Chip) x : (m.withMeter x).txn = m.txn := rfl
@[simp] theorem Chip.withMeter_upl (m : Chip) x : (m.withMeter x).upl = m.upl := rfl
@[simp] theorem Chip.withMeter_sadl (m : Chip) x : (m.withMeter x).sadl = m.sadl := rfl
@[simp] theorem Chip.withMeter_ridge (m : Chip) x : (m.withMeter x).ridge = m.ridge := rfl
@[simp] theorem Chip.withMeter_keep (m : Chip) x : (m.withMeter x).keep = m.keep := rfl
@[simp] theorem Chip.withMeter_totals (m : Chip) x : (m.withMeter x).totals = m.totals := rfl
@[simp] theorem Chip.withMeter_meter (m : Chip) x : (m.withMeter x).meter = x := rfl
@[simp] theorem Chip.withMeter_vault (m : Chip) x : (m.withMeter x).vault = m.vault := rfl
@[simp] theorem Chip.withMeter_loop (m : Chip) x : (m.withMeter x).loop = m.loop := rfl
@[simp] theorem Chip.withMeter_ports (m : Chip) x : (m.withMeter x).ports = m.ports := rfl
@[simp] theorem Chip.withMeter_lamp (m : Chip) x : (m.withMeter x).lamp = m.lamp := rfl
@[simp] theorem Chip.withMeter_plan (m : Chip) x : (m.withMeter x).plan = m.plan := rfl
@[simp] theorem Chip.withMeter_guard (m : Chip) x : (m.withMeter x).guard = m.guard := rfl
@[simp] theorem Chip.withMeter_panel (m : Chip) x : (m.withMeter x).panel = m.panel := rfl
@[simp] theorem Chip.withMeter_out (m : Chip) x : (m.withMeter x).out = m.out := rfl
@[simp] theorem Chip.withVault_variant (m : Chip) x : (m.withVault x).variant = m.variant := rfl
@[simp] theorem Chip.withVault_pd2 (m : Chip) x : (m.withVault x).pd2 = m.pd2 := rfl
@[simp] theorem Chip.withVault_clk (m : Chip) x : (m.withVault x).clk = m.clk := rfl
@[simp] theorem Chip.withVault_regs (m : Chip) x : (m.withVault x).regs = m.regs := rfl
@[simp] theorem Chip.withVault_mem (m : Chip) x : (m.withVault x).mem = m.mem := rfl
@[simp] theorem Chip.withVault_reqs (m : Chip) x : (m.withVault x).reqs = m.reqs := rfl
@[simp] theorem Chip.withVault_units (m : Chip) x : (m.withVault x).units = m.units := rfl
@[simp] theorem Chip.withVault_rings (m : Chip) x : (m.withVault x).rings = m.rings := rfl
@[simp] theorem Chip.withVault_pts (m : Chip) x : (m.withVault x).pts = m.pts := rfl
@[simp] theorem Chip.withVault_com (m : Chip) x : (m.withVault x).com = m.com := rfl
@[simp] theorem Chip.withVault_boot (m : Chip) x : (m.withVault x).boot = m.boot := rfl
@[simp] theorem Chip.withVault_scan (m : Chip) x : (m.withVault x).scan = m.scan := rfl
@[simp] theorem Chip.withVault_txn (m : Chip) x : (m.withVault x).txn = m.txn := rfl
@[simp] theorem Chip.withVault_upl (m : Chip) x : (m.withVault x).upl = m.upl := rfl
@[simp] theorem Chip.withVault_sadl (m : Chip) x : (m.withVault x).sadl = m.sadl := rfl
@[simp] theorem Chip.withVault_ridge (m : Chip) x : (m.withVault x).ridge = m.ridge := rfl
@[simp] theorem Chip.withVault_keep (m : Chip) x : (m.withVault x).keep = m.keep := rfl
@[simp] theorem Chip.withVault_totals (m : Chip) x : (m.withVault x).totals = m.totals := rfl
@[simp] theorem Chip.withVault_meter (m : Chip) x : (m.withVault x).meter = m.meter := rfl
@[simp] theorem Chip.withVault_vault (m : Chip) x : (m.withVault x).vault = x := rfl
@[simp] theorem Chip.withVault_loop (m : Chip) x : (m.withVault x).loop = m.loop := rfl
@[simp] theorem Chip.withVault_ports (m : Chip) x : (m.withVault x).ports = m.ports := rfl
@[simp] theorem Chip.withVault_lamp (m : Chip) x : (m.withVault x).lamp = m.lamp := rfl
@[simp] theorem Chip.withVault_plan (m : Chip) x : (m.withVault x).plan = m.plan := rfl
@[simp] theorem Chip.withVault_guard (m : Chip) x : (m.withVault x).guard = m.guard := rfl
@[simp] theorem Chip.withVault_panel (m : Chip) x : (m.withVault x).panel = m.panel := rfl
@[simp] theorem Chip.withVault_out (m : Chip) x : (m.withVault x).out = m.out := rfl
@[simp] theorem Chip.withLoop_variant (m : Chip) x : (m.withLoop x).variant = m.variant := rfl
@[simp] theorem Chip.withLoop_pd2 (m : Chip) x : (m.withLoop x).pd2 = m.pd2 := rfl
@[simp] theorem Chip.withLoop_clk (m : Chip) x : (m.withLoop x).clk = m.clk := rfl
@[simp] theorem Chip.withLoop_regs (m : Chip) x : (m.withLoop x).regs = m.regs := rfl
@[simp] theorem Chip.withLoop_mem (m : Chip) x : (m.withLoop x).mem = m.mem := rfl
@[simp] theorem Chip.withLoop_reqs (m : Chip) x : (m.withLoop x).reqs = m.reqs := rfl
@[simp] theorem Chip.withLoop_units (m : Chip) x : (m.withLoop x).units = m.units := rfl
@[simp] theorem Chip.withLoop_rings (m : Chip) x : (m.withLoop x).rings = m.rings := rfl
@[simp] theorem Chip.withLoop_pts (m : Chip) x : (m.withLoop x).pts = m.pts := rfl
@[simp] theorem Chip.withLoop_com (m : Chip) x : (m.withLoop x).com = m.com := rfl
@[simp] theorem Chip.withLoop_boot (m : Chip) x : (m.withLoop x).boot = m.boot := rfl
@[simp] theorem Chip.withLoop_scan (m : Chip) x : (m.withLoop x).scan = m.scan := rfl
@[simp] theorem Chip.withLoop_txn (m : Chip) x : (m.withLoop x).txn = m.txn := rfl
@[simp] theorem Chip.withLoop_upl (m : Chip) x : (m.withLoop x).upl = m.upl := rfl
@[simp] theorem Chip.withLoop_sadl (m : Chip) x : (m.withLoop x).sadl = m.sadl := rfl
@[simp] theorem Chip.withLoop_ridge (m : Chip) x : (m.withLoop x).ridge = m.ridge := rfl
@[simp] theorem Chip.withLoop_keep (m : Chip) x : (m.withLoop x).keep = m.keep := rfl
@[simp] theorem Chip.withLoop_totals (m : Chip) x : (m.withLoop x).totals = m.totals := rfl
@[simp] theorem Chip.withLoop_meter (m : Chip) x : (m.withLoop x).meter = m.meter := rfl
@[simp] theorem Chip.withLoop_vault (m : Chip) x : (m.withLoop x).vault = m.vault := rfl
@[simp] theorem Chip.withLoop_loop (m : Chip) x : (m.withLoop x).loop = x := rfl
@[simp] theorem Chip.withLoop_ports (m : Chip) x : (m.withLoop x).ports = m.ports := rfl
@[simp] theorem Chip.withLoop_lamp (m : Chip) x : (m.withLoop x).lamp = m.lamp := rfl
@[simp] theorem Chip.withLoop_plan (m : Chip) x : (m.withLoop x).plan = m.plan := rfl
@[simp] theorem Chip.withLoop_guard (m : Chip) x : (m.withLoop x).guard = m.guard := rfl
@[simp] theorem Chip.withLoop_panel (m : Chip) x : (m.withLoop x).panel = m.panel := rfl
@[simp] theorem Chip.withLoop_out (m : Chip) x : (m.withLoop x).out = m.out := rfl
@[simp] theorem Chip.withPorts_variant (m : Chip) x : (m.withPorts x).variant = m.variant := rfl
@[simp] theorem Chip.withPorts_pd2 (m : Chip) x : (m.withPorts x).pd2 = m.pd2 := rfl
@[simp] theorem Chip.withPorts_clk (m : Chip) x : (m.withPorts x).clk = m.clk := rfl
@[simp] theorem Chip.withPorts_regs (m : Chip) x : (m.withPorts x).regs = m.regs := rfl
@[simp] theorem Chip.withPorts_mem (m : Chip) x : (m.withPorts x).mem = m.mem := rfl
@[simp] theorem Chip.withPorts_reqs (m : Chip) x : (m.withPorts x).reqs = m.reqs := rfl
@[simp] theorem Chip.withPorts_units (m : Chip) x : (m.withPorts x).units = m.units := rfl
@[simp] theorem Chip.withPorts_rings (m : Chip) x : (m.withPorts x).rings = m.rings := rfl
@[simp] theorem Chip.withPorts_pts (m : Chip) x : (m.withPorts x).pts = m.pts := rfl
@[simp] theorem Chip.withPorts_com (m : Chip) x : (m.withPorts x).com = m.com := rfl
@[simp] theorem Chip.withPorts_boot (m : Chip) x : (m.withPorts x).boot = m.boot := rfl
@[simp] theorem Chip.withPorts_scan (m : Chip) x : (m.withPorts x).scan = m.scan := rfl
@[simp] theorem Chip.withPorts_txn (m : Chip) x : (m.withPorts x).txn = m.txn := rfl
@[simp] theorem Chip.withPorts_upl (m : Chip) x : (m.withPorts x).upl = m.upl := rfl
@[simp] theorem Chip.withPorts_sadl (m : Chip) x : (m.withPorts x).sadl = m.sadl := rfl
@[simp] theorem Chip.withPorts_ridge (m : Chip) x : (m.withPorts x).ridge = m.ridge := rfl
@[simp] theorem Chip.withPorts_keep (m : Chip) x : (m.withPorts x).keep = m.keep := rfl
@[simp] theorem Chip.withPorts_totals (m : Chip) x : (m.withPorts x).totals = m.totals := rfl
@[simp] theorem Chip.withPorts_meter (m : Chip) x : (m.withPorts x).meter = m.meter := rfl
@[simp] theorem Chip.withPorts_vault (m : Chip) x : (m.withPorts x).vault = m.vault := rfl
@[simp] theorem Chip.withPorts_loop (m : Chip) x : (m.withPorts x).loop = m.loop := rfl
@[simp] theorem Chip.withPorts_ports (m : Chip) x : (m.withPorts x).ports = x := rfl
@[simp] theorem Chip.withPorts_lamp (m : Chip) x : (m.withPorts x).lamp = m.lamp := rfl
@[simp] theorem Chip.withPorts_plan (m : Chip) x : (m.withPorts x).plan = m.plan := rfl
@[simp] theorem Chip.withPorts_guard (m : Chip) x : (m.withPorts x).guard = m.guard := rfl
@[simp] theorem Chip.withPorts_panel (m : Chip) x : (m.withPorts x).panel = m.panel := rfl
@[simp] theorem Chip.withPorts_out (m : Chip) x : (m.withPorts x).out = m.out := rfl
@[simp] theorem Chip.withLamp_variant (m : Chip) x : (m.withLamp x).variant = m.variant := rfl
@[simp] theorem Chip.withLamp_pd2 (m : Chip) x : (m.withLamp x).pd2 = m.pd2 := rfl
@[simp] theorem Chip.withLamp_clk (m : Chip) x : (m.withLamp x).clk = m.clk := rfl
@[simp] theorem Chip.withLamp_regs (m : Chip) x : (m.withLamp x).regs = m.regs := rfl
@[simp] theorem Chip.withLamp_mem (m : Chip) x : (m.withLamp x).mem = m.mem := rfl
@[simp] theorem Chip.withLamp_reqs (m : Chip) x : (m.withLamp x).reqs = m.reqs := rfl
@[simp] theorem Chip.withLamp_units (m : Chip) x : (m.withLamp x).units = m.units := rfl
@[simp] theorem Chip.withLamp_rings (m : Chip) x : (m.withLamp x).rings = m.rings := rfl
@[simp] theorem Chip.withLamp_pts (m : Chip) x : (m.withLamp x).pts = m.pts := rfl
@[simp] theorem Chip.withLamp_com (m : Chip) x : (m.withLamp x).com = m.com := rfl
@[simp] theorem Chip.withLamp_boot (m : Chip) x : (m.withLamp x).boot = m.boot := rfl
@[simp] theorem Chip.withLamp_scan (m : Chip) x : (m.withLamp x).scan = m.scan := rfl
@[simp] theorem Chip.withLamp_txn (m : Chip) x : (m.withLamp x).txn = m.txn := rfl
@[simp] theorem Chip.withLamp_upl (m : Chip) x : (m.withLamp x).upl = m.upl := rfl
@[simp] theorem Chip.withLamp_sadl (m : Chip) x : (m.withLamp x).sadl = m.sadl := rfl
@[simp] theorem Chip.withLamp_ridge (m : Chip) x : (m.withLamp x).ridge = m.ridge := rfl
@[simp] theorem Chip.withLamp_keep (m : Chip) x : (m.withLamp x).keep = m.keep := rfl
@[simp] theorem Chip.withLamp_totals (m : Chip) x : (m.withLamp x).totals = m.totals := rfl
@[simp] theorem Chip.withLamp_meter (m : Chip) x : (m.withLamp x).meter = m.meter := rfl
@[simp] theorem Chip.withLamp_vault (m : Chip) x : (m.withLamp x).vault = m.vault := rfl
@[simp] theorem Chip.withLamp_loop (m : Chip) x : (m.withLamp x).loop = m.loop := rfl
@[simp] theorem Chip.withLamp_ports (m : Chip) x : (m.withLamp x).ports = m.ports := rfl
@[simp] theorem Chip.withLamp_lamp (m : Chip) x : (m.withLamp x).lamp = x := rfl
@[simp] theorem Chip.withLamp_plan (m : Chip) x : (m.withLamp x).plan = m.plan := rfl
@[simp] theorem Chip.withLamp_guard (m : Chip) x : (m.withLamp x).guard = m.guard := rfl
@[simp] theorem Chip.withLamp_panel (m : Chip) x : (m.withLamp x).panel = m.panel := rfl
@[simp] theorem Chip.withLamp_out (m : Chip) x : (m.withLamp x).out = m.out := rfl
@[simp] theorem Chip.withPlan_variant (m : Chip) x : (m.withPlan x).variant = m.variant := rfl
@[simp] theorem Chip.withPlan_pd2 (m : Chip) x : (m.withPlan x).pd2 = m.pd2 := rfl
@[simp] theorem Chip.withPlan_clk (m : Chip) x : (m.withPlan x).clk = m.clk := rfl
@[simp] theorem Chip.withPlan_regs (m : Chip) x : (m.withPlan x).regs = m.regs := rfl
@[simp] theorem Chip.withPlan_mem (m : Chip) x : (m.withPlan x).mem = m.mem := rfl
@[simp] theorem Chip.withPlan_reqs (m : Chip) x : (m.withPlan x).reqs = m.reqs := rfl
@[simp] theorem Chip.withPlan_units (m : Chip) x : (m.withPlan x).units = m.units := rfl
@[simp] theorem Chip.withPlan_rings (m : Chip) x : (m.withPlan x).rings = m.rings := rfl
@[simp] theorem Chip.withPlan_pts (m : Chip) x : (m.withPlan x).pts = m.pts := rfl
@[simp] theorem Chip.withPlan_com (m : Chip) x : (m.withPlan x).com = m.com := rfl
@[simp] theorem Chip.withPlan_boot (m : Chip) x : (m.withPlan x).boot = m.boot := rfl
@[simp] theorem Chip.withPlan_scan (m : Chip) x : (m.withPlan x).scan = m.scan := rfl
@[simp] theorem Chip.withPlan_txn (m : Chip) x : (m.withPlan x).txn = m.txn := rfl
@[simp] theorem Chip.withPlan_upl (m : Chip) x : (m.withPlan x).upl = m.upl := rfl
@[simp] theorem Chip.withPlan_sadl (m : Chip) x : (m.withPlan x).sadl = m.sadl := rfl
@[simp] theorem Chip.withPlan_ridge (m : Chip) x : (m.withPlan x).ridge = m.ridge := rfl
@[simp] theorem Chip.withPlan_keep (m : Chip) x : (m.withPlan x).keep = m.keep := rfl
@[simp] theorem Chip.withPlan_totals (m : Chip) x : (m.withPlan x).totals = m.totals := rfl
@[simp] theorem Chip.withPlan_meter (m : Chip) x : (m.withPlan x).meter = m.meter := rfl
@[simp] theorem Chip.withPlan_vault (m : Chip) x : (m.withPlan x).vault = m.vault := rfl
@[simp] theorem Chip.withPlan_loop (m : Chip) x : (m.withPlan x).loop = m.loop := rfl
@[simp] theorem Chip.withPlan_ports (m : Chip) x : (m.withPlan x).ports = m.ports := rfl
@[simp] theorem Chip.withPlan_lamp (m : Chip) x : (m.withPlan x).lamp = m.lamp := rfl
@[simp] theorem Chip.withPlan_plan (m : Chip) x : (m.withPlan x).plan = x := rfl
@[simp] theorem Chip.withPlan_guard (m : Chip) x : (m.withPlan x).guard = m.guard := rfl
@[simp] theorem Chip.withPlan_panel (m : Chip) x : (m.withPlan x).panel = m.panel := rfl
@[simp] theorem Chip.withPlan_out (m : Chip) x : (m.withPlan x).out = m.out := rfl
@[simp] theorem Chip.withGuard_variant (m : Chip) x : (m.withGuard x).variant = m.variant := rfl
@[simp] theorem Chip.withGuard_pd2 (m : Chip) x : (m.withGuard x).pd2 = m.pd2 := rfl
@[simp] theorem Chip.withGuard_clk (m : Chip) x : (m.withGuard x).clk = m.clk := rfl
@[simp] theorem Chip.withGuard_regs (m : Chip) x : (m.withGuard x).regs = m.regs := rfl
@[simp] theorem Chip.withGuard_mem (m : Chip) x : (m.withGuard x).mem = m.mem := rfl
@[simp] theorem Chip.withGuard_reqs (m : Chip) x : (m.withGuard x).reqs = m.reqs := rfl
@[simp] theorem Chip.withGuard_units (m : Chip) x : (m.withGuard x).units = m.units := rfl
@[simp] theorem Chip.withGuard_rings (m : Chip) x : (m.withGuard x).rings = m.rings := rfl
@[simp] theorem Chip.withGuard_pts (m : Chip) x : (m.withGuard x).pts = m.pts := rfl
@[simp] theorem Chip.withGuard_com (m : Chip) x : (m.withGuard x).com = m.com := rfl
@[simp] theorem Chip.withGuard_boot (m : Chip) x : (m.withGuard x).boot = m.boot := rfl
@[simp] theorem Chip.withGuard_scan (m : Chip) x : (m.withGuard x).scan = m.scan := rfl
@[simp] theorem Chip.withGuard_txn (m : Chip) x : (m.withGuard x).txn = m.txn := rfl
@[simp] theorem Chip.withGuard_upl (m : Chip) x : (m.withGuard x).upl = m.upl := rfl
@[simp] theorem Chip.withGuard_sadl (m : Chip) x : (m.withGuard x).sadl = m.sadl := rfl
@[simp] theorem Chip.withGuard_ridge (m : Chip) x : (m.withGuard x).ridge = m.ridge := rfl
@[simp] theorem Chip.withGuard_keep (m : Chip) x : (m.withGuard x).keep = m.keep := rfl
@[simp] theorem Chip.withGuard_totals (m : Chip) x : (m.withGuard x).totals = m.totals := rfl
@[simp] theorem Chip.withGuard_meter (m : Chip) x : (m.withGuard x).meter = m.meter := rfl
@[simp] theorem Chip.withGuard_vault (m : Chip) x : (m.withGuard x).vault = m.vault := rfl
@[simp] theorem Chip.withGuard_loop (m : Chip) x : (m.withGuard x).loop = m.loop := rfl
@[simp] theorem Chip.withGuard_ports (m : Chip) x : (m.withGuard x).ports = m.ports := rfl
@[simp] theorem Chip.withGuard_lamp (m : Chip) x : (m.withGuard x).lamp = m.lamp := rfl
@[simp] theorem Chip.withGuard_plan (m : Chip) x : (m.withGuard x).plan = m.plan := rfl
@[simp] theorem Chip.withGuard_guard (m : Chip) x : (m.withGuard x).guard = x := rfl
@[simp] theorem Chip.withGuard_panel (m : Chip) x : (m.withGuard x).panel = m.panel := rfl
@[simp] theorem Chip.withGuard_out (m : Chip) x : (m.withGuard x).out = m.out := rfl
@[simp] theorem Chip.withPanel_variant (m : Chip) x : (m.withPanel x).variant = m.variant := rfl
@[simp] theorem Chip.withPanel_pd2 (m : Chip) x : (m.withPanel x).pd2 = m.pd2 := rfl
@[simp] theorem Chip.withPanel_clk (m : Chip) x : (m.withPanel x).clk = m.clk := rfl
@[simp] theorem Chip.withPanel_regs (m : Chip) x : (m.withPanel x).regs = m.regs := rfl
@[simp] theorem Chip.withPanel_mem (m : Chip) x : (m.withPanel x).mem = m.mem := rfl
@[simp] theorem Chip.withPanel_reqs (m : Chip) x : (m.withPanel x).reqs = m.reqs := rfl
@[simp] theorem Chip.withPanel_units (m : Chip) x : (m.withPanel x).units = m.units := rfl
@[simp] theorem Chip.withPanel_rings (m : Chip) x : (m.withPanel x).rings = m.rings := rfl
@[simp] theorem Chip.withPanel_pts (m : Chip) x : (m.withPanel x).pts = m.pts := rfl
@[simp] theorem Chip.withPanel_com (m : Chip) x : (m.withPanel x).com = m.com := rfl
@[simp] theorem Chip.withPanel_boot (m : Chip) x : (m.withPanel x).boot = m.boot := rfl
@[simp] theorem Chip.withPanel_scan (m : Chip) x : (m.withPanel x).scan = m.scan := rfl
@[simp] theorem Chip.withPanel_txn (m : Chip) x : (m.withPanel x).txn = m.txn := rfl
@[simp] theorem Chip.withPanel_upl (m : Chip) x : (m.withPanel x).upl = m.upl := rfl
@[simp] theorem Chip.withPanel_sadl (m : Chip) x : (m.withPanel x).sadl = m.sadl := rfl
@[simp] theorem Chip.withPanel_ridge (m : Chip) x : (m.withPanel x).ridge = m.ridge := rfl
@[simp] theorem Chip.withPanel_keep (m : Chip) x : (m.withPanel x).keep = m.keep := rfl
@[simp] theorem Chip.withPanel_totals (m : Chip) x : (m.withPanel x).totals = m.totals := rfl
@[simp] theorem Chip.withPanel_meter (m : Chip) x : (m.withPanel x).meter = m.meter := rfl
@[simp] theorem Chip.withPanel_vault (m : Chip) x : (m.withPanel x).vault = m.vault := rfl
@[simp] theorem Chip.withPanel_loop (m : Chip) x : (m.withPanel x).loop = m.loop := rfl
@[simp] theorem Chip.withPanel_ports (m : Chip) x : (m.withPanel x).ports = m.ports := rfl
@[simp] theorem Chip.withPanel_lamp (m : Chip) x : (m.withPanel x).lamp = m.lamp := rfl
@[simp] theorem Chip.withPanel_plan (m : Chip) x : (m.withPanel x).plan = m.plan := rfl
@[simp] theorem Chip.withPanel_guard (m : Chip) x : (m.withPanel x).guard = m.guard := rfl
@[simp] theorem Chip.withPanel_panel (m : Chip) x : (m.withPanel x).panel = x := rfl
@[simp] theorem Chip.withPanel_out (m : Chip) x : (m.withPanel x).out = m.out := rfl
@[simp] theorem Chip.withOut_variant (m : Chip) x : (m.withOut x).variant = m.variant := rfl
@[simp] theorem Chip.withOut_pd2 (m : Chip) x : (m.withOut x).pd2 = m.pd2 := rfl
@[simp] theorem Chip.withOut_clk (m : Chip) x : (m.withOut x).clk = m.clk := rfl
@[simp] theorem Chip.withOut_regs (m : Chip) x : (m.withOut x).regs = m.regs := rfl
@[simp] theorem Chip.withOut_mem (m : Chip) x : (m.withOut x).mem = m.mem := rfl
@[simp] theorem Chip.withOut_reqs (m : Chip) x : (m.withOut x).reqs = m.reqs := rfl
@[simp] theorem Chip.withOut_units (m : Chip) x : (m.withOut x).units = m.units := rfl
@[simp] theorem Chip.withOut_rings (m : Chip) x : (m.withOut x).rings = m.rings := rfl
@[simp] theorem Chip.withOut_pts (m : Chip) x : (m.withOut x).pts = m.pts := rfl
@[simp] theorem Chip.withOut_com (m : Chip) x : (m.withOut x).com = m.com := rfl
@[simp] theorem Chip.withOut_boot (m : Chip) x : (m.withOut x).boot = m.boot := rfl
@[simp] theorem Chip.withOut_scan (m : Chip) x : (m.withOut x).scan = m.scan := rfl
@[simp] theorem Chip.withOut_txn (m : Chip) x : (m.withOut x).txn = m.txn := rfl
@[simp] theorem Chip.withOut_upl (m : Chip) x : (m.withOut x).upl = m.upl := rfl
@[simp] theorem Chip.withOut_sadl (m : Chip) x : (m.withOut x).sadl = m.sadl := rfl
@[simp] theorem Chip.withOut_ridge (m : Chip) x : (m.withOut x).ridge = m.ridge := rfl
@[simp] theorem Chip.withOut_keep (m : Chip) x : (m.withOut x).keep = m.keep := rfl
@[simp] theorem Chip.withOut_totals (m : Chip) x : (m.withOut x).totals = m.totals := rfl
@[simp] theorem Chip.withOut_meter (m : Chip) x : (m.withOut x).meter = m.meter := rfl
@[simp] theorem Chip.withOut_vault (m : Chip) x : (m.withOut x).vault = m.vault := rfl
@[simp] theorem Chip.withOut_loop (m : Chip) x : (m.withOut x).loop = m.loop := rfl
@[simp] theorem Chip.withOut_ports (m : Chip) x : (m.withOut x).ports = m.ports := rfl
@[simp] theorem Chip.withOut_lamp (m : Chip) x : (m.withOut x).lamp = m.lamp := rfl
@[simp] theorem Chip.withOut_plan (m : Chip) x : (m.withOut x).plan = m.plan := rfl
@[simp] theorem Chip.withOut_guard (m : Chip) x : (m.withOut x).guard = m.guard := rfl
@[simp] theorem Chip.withOut_panel (m : Chip) x : (m.withOut x).panel = m.panel := rfl
@[simp] theorem Chip.withOut_out (m : Chip) x : (m.withOut x).out = x := rfl
@[simp] theorem Chip.setReg_variant (m : Chip) a w : (m.setReg a w).variant = m.variant := rfl
@[simp] theorem Chip.setReg_pd2 (m : Chip) a w : (m.setReg a w).pd2 = m.pd2 := rfl
@[simp] theorem Chip.setReg_clk (m : Chip) a w : (m.setReg a w).clk = m.clk := rfl
@[simp] theorem Chip.setReg_mem (m : Chip) a w : (m.setReg a w).mem = m.mem := rfl
@[simp] theorem Chip.setReg_reqs (m : Chip) a w : (m.setReg a w).reqs = m.reqs := rfl
@[simp] theorem Chip.setReg_units (m : Chip) a w : (m.setReg a w).units = m.units := rfl
@[simp] theorem Chip.setReg_rings (m : Chip) a w : (m.setReg a w).rings = m.rings := rfl
@[simp] theorem Chip.setReg_pts (m : Chip) a w : (m.setReg a w).pts = m.pts := rfl
@[simp] theorem Chip.setReg_com (m : Chip) a w : (m.setReg a w).com = m.com := rfl
@[simp] theorem Chip.setReg_boot (m : Chip) a w : (m.setReg a w).boot = m.boot := rfl
@[simp] theorem Chip.setReg_scan (m : Chip) a w : (m.setReg a w).scan = m.scan := rfl
@[simp] theorem Chip.setReg_txn (m : Chip) a w : (m.setReg a w).txn = m.txn := rfl
@[simp] theorem Chip.setReg_upl (m : Chip) a w : (m.setReg a w).upl = m.upl := rfl
@[simp] theorem Chip.setReg_sadl (m : Chip) a w : (m.setReg a w).sadl = m.sadl := rfl
@[simp] theorem Chip.setReg_ridge (m : Chip) a w : (m.setReg a w).ridge = m.ridge := rfl
@[simp] theorem Chip.setReg_keep (m : Chip) a w : (m.setReg a w).keep = m.keep := rfl
@[simp] theorem Chip.setReg_totals (m : Chip) a w : (m.setReg a w).totals = m.totals := rfl
@[simp] theorem Chip.setReg_meter (m : Chip) a w : (m.setReg a w).meter = m.meter := rfl
@[simp] theorem Chip.setReg_vault (m : Chip) a w : (m.setReg a w).vault = m.vault := rfl
@[simp] theorem Chip.setReg_loop (m : Chip) a w : (m.setReg a w).loop = m.loop := rfl
@[simp] theorem Chip.setReg_ports (m : Chip) a w : (m.setReg a w).ports = m.ports := rfl
@[simp] theorem Chip.setReg_lamp (m : Chip) a w : (m.setReg a w).lamp = m.lamp := rfl
@[simp] theorem Chip.setReg_plan (m : Chip) a w : (m.setReg a w).plan = m.plan := rfl
@[simp] theorem Chip.setReg_guard (m : Chip) a w : (m.setReg a w).guard = m.guard := rfl
@[simp] theorem Chip.setReg_panel (m : Chip) a w : (m.setReg a w).panel = m.panel := rfl
@[simp] theorem Chip.setReg_out (m : Chip) a w : (m.setReg a w).out = m.out := rfl
@[simp] theorem Chip.put_variant (m : Chip) r v : (m.put r v).variant = m.variant := rfl
@[simp] theorem Chip.put_pd2 (m : Chip) r v : (m.put r v).pd2 = m.pd2 := rfl
@[simp] theorem Chip.put_clk (m : Chip) r v : (m.put r v).clk = m.clk := rfl
@[simp] theorem Chip.put_mem (m : Chip) r v : (m.put r v).mem = m.mem := rfl
@[simp] theorem Chip.put_reqs (m : Chip) r v : (m.put r v).reqs = m.reqs := rfl
@[simp] theorem Chip.put_units (m : Chip) r v : (m.put r v).units = m.units := rfl
@[simp] theorem Chip.put_rings (m : Chip) r v : (m.put r v).rings = m.rings := rfl
@[simp] theorem Chip.put_pts (m : Chip) r v : (m.put r v).pts = m.pts := rfl
@[simp] theorem Chip.put_com (m : Chip) r v : (m.put r v).com = m.com := rfl
@[simp] theorem Chip.put_boot (m : Chip) r v : (m.put r v).boot = m.boot := rfl
@[simp] theorem Chip.put_scan (m : Chip) r v : (m.put r v).scan = m.scan := rfl
@[simp] theorem Chip.put_txn (m : Chip) r v : (m.put r v).txn = m.txn := rfl
@[simp] theorem Chip.put_upl (m : Chip) r v : (m.put r v).upl = m.upl := rfl
@[simp] theorem Chip.put_sadl (m : Chip) r v : (m.put r v).sadl = m.sadl := rfl
@[simp] theorem Chip.put_ridge (m : Chip) r v : (m.put r v).ridge = m.ridge := rfl
@[simp] theorem Chip.put_keep (m : Chip) r v : (m.put r v).keep = m.keep := rfl
@[simp] theorem Chip.put_totals (m : Chip) r v : (m.put r v).totals = m.totals := rfl
@[simp] theorem Chip.put_meter (m : Chip) r v : (m.put r v).meter = m.meter := rfl
@[simp] theorem Chip.put_vault (m : Chip) r v : (m.put r v).vault = m.vault := rfl
@[simp] theorem Chip.put_loop (m : Chip) r v : (m.put r v).loop = m.loop := rfl
@[simp] theorem Chip.put_ports (m : Chip) r v : (m.put r v).ports = m.ports := rfl
@[simp] theorem Chip.put_lamp (m : Chip) r v : (m.put r v).lamp = m.lamp := rfl
@[simp] theorem Chip.put_plan (m : Chip) r v : (m.put r v).plan = m.plan := rfl
@[simp] theorem Chip.put_guard (m : Chip) r v : (m.put r v).guard = m.guard := rfl
@[simp] theorem Chip.put_panel (m : Chip) r v : (m.put r v).panel = m.panel := rfl
@[simp] theorem Chip.put_out (m : Chip) r v : (m.put r v).out = m.out := rfl
@[simp] theorem Chip.setByte_variant (m : Chip) sp i b : (m.setByte sp i b).variant = m.variant := rfl
@[simp] theorem Chip.setByte_pd2 (m : Chip) sp i b : (m.setByte sp i b).pd2 = m.pd2 := rfl
@[simp] theorem Chip.setByte_clk (m : Chip) sp i b : (m.setByte sp i b).clk = m.clk := rfl
@[simp] theorem Chip.setByte_regs (m : Chip) sp i b : (m.setByte sp i b).regs = m.regs := rfl
@[simp] theorem Chip.setByte_reqs (m : Chip) sp i b : (m.setByte sp i b).reqs = m.reqs := rfl
@[simp] theorem Chip.setByte_units (m : Chip) sp i b : (m.setByte sp i b).units = m.units := rfl
@[simp] theorem Chip.setByte_rings (m : Chip) sp i b : (m.setByte sp i b).rings = m.rings := rfl
@[simp] theorem Chip.setByte_pts (m : Chip) sp i b : (m.setByte sp i b).pts = m.pts := rfl
@[simp] theorem Chip.setByte_com (m : Chip) sp i b : (m.setByte sp i b).com = m.com := rfl
@[simp] theorem Chip.setByte_boot (m : Chip) sp i b : (m.setByte sp i b).boot = m.boot := rfl
@[simp] theorem Chip.setByte_scan (m : Chip) sp i b : (m.setByte sp i b).scan = m.scan := rfl
@[simp] theorem Chip.setByte_txn (m : Chip) sp i b : (m.setByte sp i b).txn = m.txn := rfl
@[simp] theorem Chip.setByte_upl (m : Chip) sp i b : (m.setByte sp i b).upl = m.upl := rfl
@[simp] theorem Chip.setByte_sadl (m : Chip) sp i b : (m.setByte sp i b).sadl = m.sadl := rfl
@[simp] theorem Chip.setByte_ridge (m : Chip) sp i b : (m.setByte sp i b).ridge = m.ridge := rfl
@[simp] theorem Chip.setByte_keep (m : Chip) sp i b : (m.setByte sp i b).keep = m.keep := rfl
@[simp] theorem Chip.setByte_totals (m : Chip) sp i b : (m.setByte sp i b).totals = m.totals := rfl
@[simp] theorem Chip.setByte_meter (m : Chip) sp i b : (m.setByte sp i b).meter = m.meter := rfl
@[simp] theorem Chip.setByte_vault (m : Chip) sp i b : (m.setByte sp i b).vault = m.vault := rfl
@[simp] theorem Chip.setByte_loop (m : Chip) sp i b : (m.setByte sp i b).loop = m.loop := rfl
@[simp] theorem Chip.setByte_ports (m : Chip) sp i b : (m.setByte sp i b).ports = m.ports := rfl
@[simp] theorem Chip.setByte_lamp (m : Chip) sp i b : (m.setByte sp i b).lamp = m.lamp := rfl
@[simp] theorem Chip.setByte_plan (m : Chip) sp i b : (m.setByte sp i b).plan = m.plan := rfl
@[simp] theorem Chip.setByte_guard (m : Chip) sp i b : (m.setByte sp i b).guard = m.guard := rfl
@[simp] theorem Chip.setByte_panel (m : Chip) sp i b : (m.setByte sp i b).panel = m.panel := rfl
@[simp] theorem Chip.setByte_out (m : Chip) sp i b : (m.setByte sp i b).out = m.out := rfl
@[simp] theorem Chip.put64_variant (m : Chip) r v : (m.put64 r v).variant = m.variant := rfl
@[simp] theorem Chip.put64_pd2 (m : Chip) r v : (m.put64 r v).pd2 = m.pd2 := rfl
@[simp] theorem Chip.put64_clk (m : Chip) r v : (m.put64 r v).clk = m.clk := rfl
@[simp] theorem Chip.put64_mem (m : Chip) r v : (m.put64 r v).mem = m.mem := rfl
@[simp] theorem Chip.put64_reqs (m : Chip) r v : (m.put64 r v).reqs = m.reqs := rfl
@[simp] theorem Chip.put64_units (m : Chip) r v : (m.put64 r v).units = m.units := rfl
@[simp] theorem Chip.put64_rings (m : Chip) r v : (m.put64 r v).rings = m.rings := rfl
@[simp] theorem Chip.put64_pts (m : Chip) r v : (m.put64 r v).pts = m.pts := rfl
@[simp] theorem Chip.put64_com (m : Chip) r v : (m.put64 r v).com = m.com := rfl
@[simp] theorem Chip.put64_boot (m : Chip) r v : (m.put64 r v).boot = m.boot := rfl
@[simp] theorem Chip.put64_scan (m : Chip) r v : (m.put64 r v).scan = m.scan := rfl
@[simp] theorem Chip.put64_txn (m : Chip) r v : (m.put64 r v).txn = m.txn := rfl
@[simp] theorem Chip.put64_upl (m : Chip) r v : (m.put64 r v).upl = m.upl := rfl
@[simp] theorem Chip.put64_sadl (m : Chip) r v : (m.put64 r v).sadl = m.sadl := rfl
@[simp] theorem Chip.put64_ridge (m : Chip) r v : (m.put64 r v).ridge = m.ridge := rfl
@[simp] theorem Chip.put64_keep (m : Chip) r v : (m.put64 r v).keep = m.keep := rfl
@[simp] theorem Chip.put64_totals (m : Chip) r v : (m.put64 r v).totals = m.totals := rfl
@[simp] theorem Chip.put64_meter (m : Chip) r v : (m.put64 r v).meter = m.meter := rfl
@[simp] theorem Chip.put64_vault (m : Chip) r v : (m.put64 r v).vault = m.vault := rfl
@[simp] theorem Chip.put64_loop (m : Chip) r v : (m.put64 r v).loop = m.loop := rfl
@[simp] theorem Chip.put64_ports (m : Chip) r v : (m.put64 r v).ports = m.ports := rfl
@[simp] theorem Chip.put64_lamp (m : Chip) r v : (m.put64 r v).lamp = m.lamp := rfl
@[simp] theorem Chip.put64_plan (m : Chip) r v : (m.put64 r v).plan = m.plan := rfl
@[simp] theorem Chip.put64_guard (m : Chip) r v : (m.put64 r v).guard = m.guard := rfl
@[simp] theorem Chip.put64_panel (m : Chip) r v : (m.put64 r v).panel = m.panel := rfl
@[simp] theorem Chip.put64_out (m : Chip) r v : (m.put64 r v).out = m.out := rfl

/-! ### Commands and steps -/

/-- With PD2 on a command of the main die answers its effect, and the queue stays. -/
@[simp] theorem State.act_on {s : State} (h : s.chip.pd2 = true) (f : Chip → Chip) : s.act f = .next ⟨s.pending, f s.chip⟩ := by
  simp [State.act, State.actAll, h]

/-- With PD2 off it changes nothing. -/
@[simp] theorem State.act_off {s : State} (h : s.chip.pd2 = false) (f : Chip → Chip) : s.act f = .next s := by
  simp [State.act, State.actAll, h]

/-- A command of the keeper or guard die answers its effect whether PD2 is on or off. -/
theorem State.actAll_eq (s : State) (f : Chip → Chip) : s.actAll f = .next ⟨s.pending, f s.chip⟩ := rfl

end Sys2Proof.Machine
end

