-- ==== Sys2Proof/Laws/Regs.lean ====
section
/-! SUPPORT. Registers, their fields and bytes of memory: reading after writing. -/

namespace Sys2Proof.Machine

open Sys2Proof

/-! ### Words -/

@[simp] theorem Chip.reg_setReg_same (m : Chip) (a : Nat) (w : Word) : (m.setReg a w).reg a = w := AMap.get_put_same _ _ _ _

theorem Chip.reg_setReg_other (m : Chip) {a b : Nat} (h : b ≠ a) (w : Word) : (m.setReg a w).reg b = m.reg b :=
  AMap.get_put_other _ _ h _ _

theorem Chip.reg_put_other (m : Chip) {f : FRef} {b : Nat} (h : b ≠ f.addr) (v : Nat) : (m.put f v).reg b = m.reg b :=
  Chip.reg_setReg_other _ h _

/-! ### Fields -/

theorem bits_lt (v hi lo : Nat) : bits v hi lo < 2 ^ (hi + 1 - lo) := Nat.mod_lt _ (Nat.two_pow_pos _)

/-- A bit of a field is a bit of the number. -/
theorem testBit_bits (v hi lo i : Nat) : (bits v hi lo).testBit i = (decide (i < hi + 1 - lo) && v.testBit (i + lo)) := by
  simp [bits, Nat.testBit_mod_two_pow, Nat.testBit_div_two_pow, Nat.add_comm]

/-- A bit of a number after one of its fields was replaced. -/
theorem testBit_setBits (v x : Nat) {hi lo : Nat} (h : lo ≤ hi) (i : Nat) :
    (setBits v hi lo x).testBit i = if lo ≤ i ∧ i ≤ hi then x.testBit (i - lo) else v.testBit i := by
  have e : setBits v hi lo x =
      2 ^ (hi + 1) * (v / 2 ^ (hi + 1)) + (2 ^ lo * (x % 2 ^ (hi + 1 - lo)) + v % 2 ^ lo) := by
    simp only [setBits, Nat.mul_comm]; omega
  have hlt : 2 ^ lo * (x % 2 ^ (hi + 1 - lo)) + v % 2 ^ lo < 2 ^ (hi + 1) := by
    have h1 : x % 2 ^ (hi + 1 - lo) < 2 ^ (hi + 1 - lo) := Nat.mod_lt _ (Nat.two_pow_pos _)
    have h2 : v % 2 ^ lo < 2 ^ lo := Nat.mod_lt _ (Nat.two_pow_pos _)
    have h3 : (2 : Nat) ^ (hi + 1) = 2 ^ lo * 2 ^ (hi + 1 - lo) := by rw [← Nat.pow_add]; congr 1; omega
    rw [h3]
    have := Nat.mul_le_mul_left (2 ^ lo) (Nat.succ_le_of_lt h1)
    rw [Nat.mul_succ] at this
    omega
  rw [e, Nat.testBit_two_pow_mul_add _ hlt]
  by_cases hi1 : i < hi + 1
  · rw [if_pos hi1, Nat.testBit_two_pow_mul_add _ (Nat.mod_lt _ (Nat.two_pow_pos _))]
    by_cases hl : i < lo
    · rw [if_pos hl, if_neg (by omega), Nat.testBit_mod_two_pow]; simp [hl]
    · rw [if_neg hl, if_pos ⟨by omega, by omega⟩, Nat.testBit_mod_two_pow]; simp; omega
  · rw [if_neg hi1, if_neg (by omega), Nat.testBit_div_two_pow]; congr 1; omega

/-- A field reads what was put into it, cut to its width. -/
theorem Chip.get_put_same (m : Chip) {f : FRef} (h : f.lo ≤ f.hi) (h32 : f.hi < 32) (v : Nat) :
    (m.put f v).get f = v % 2 ^ (f.hi + 1 - f.lo) := by
  simp only [Chip.get, Chip.put, Chip.reg_setReg_same, BitVec.toNat_ofNat]
  apply Nat.eq_of_testBit_eq
  intro i
  rw [testBit_bits, Nat.testBit_mod_two_pow, Nat.testBit_mod_two_pow, testBit_setBits _ _ h]
  by_cases hi : i < f.hi + 1 - f.lo
  · have h1 : i + f.lo < 32 := by omega
    have h2 : f.lo ≤ i + f.lo ∧ i + f.lo ≤ f.hi := by omega
    simp [hi, h1, h2]
  · simp [hi]

/-- A field of another word stays. -/
theorem Chip.get_put_other (m : Chip) {f g : FRef} (h : g.addr ≠ f.addr) (v : Nat) : (m.put f v).get g = m.get g := by
  simp [Chip.get, Chip.put, Chip.reg_setReg_other _ h]

/-- Another field of the same word stays. -/
theorem Chip.get_put_apart (m : Chip) {f g : FRef} (ha : g.addr = f.addr) (h : f.lo ≤ f.hi) (h32 : g.hi < 32)
    (ho : g.hi < f.lo ∨ f.hi < g.lo) (v : Nat) : (m.put f v).get g = m.get g := by
  simp only [Chip.get, Chip.put, ha, Chip.reg_setReg_same, BitVec.toNat_ofNat]
  apply Nat.eq_of_testBit_eq
  intro i
  rw [testBit_bits, testBit_bits, Nat.testBit_mod_two_pow, testBit_setBits _ _ h]
  by_cases hi : i < g.hi + 1 - g.lo
  · have h1 : i + g.lo < 32 := by omega
    have h2 : ¬ (f.lo ≤ i + g.lo ∧ i + g.lo ≤ f.hi) := by omega
    simp [hi, h1, h2]
  · simp [hi]

/-- A register that was set reads, in one of its fields, the field of the word. -/
theorem Chip.get_setReg_same (m : Chip) (f : FRef) (w : Word) : (m.setReg f.addr w).get f = fieldOf f w := by
  simp [Chip.get, fieldOf]

/-- A field of another register stays. -/
theorem Chip.get_setReg_other (m : Chip) {a : Nat} {g : FRef} (h : g.addr ≠ a) (w : Word) : (m.setReg a w).get g = m.get g := by
  simp [Chip.get, Chip.reg_setReg_other _ h]

/-! ### Bytes -/

@[simp] theorem Chip.reg_setByte (m : Chip) (sp : Space) (i : Nat) (b : Byte) (a : Nat) : (m.setByte sp i b).reg a = m.reg a := rfl

@[simp] theorem Chip.byte_setByte_same (m : Chip) (sp : Space) (i : Nat) (b : Byte) : (m.setByte sp i b).byte sp i = b :=
  AMap.get_put_same _ _ _ _

theorem Chip.byte_setByte_other (m : Chip) {sp sq : Space} {i j : Nat} (h : sq.key j ≠ sp.key i) (b : Byte) :
    (m.setByte sp i b).byte sq j = m.byte sq j :=
  AMap.get_put_other _ _ h _ _

@[simp] theorem Chip.byte_setReg (m : Chip) (a : Nat) (w : Word) (sp : Space) (i : Nat) : (m.setReg a w).byte sp i = m.byte sp i := rfl

@[simp] theorem Chip.byte_put (m : Chip) (f : FRef) (v : Nat) (sp : Space) (i : Nat) : (m.put f v).byte sp i = m.byte sp i := rfl

/-- Writing bytes leaves every byte that is not among them. -/
theorem Chip.byte_setBytes_other (m : Chip) {sp sq : Space} {i j : Nat} (l : List Byte)
    (h : ∀ k, k < l.length → sq.key j ≠ sp.key (i + k)) : (m.setBytes sp i l).byte sq j = m.byte sq j := by
  induction l generalizing m i with
  | nil => rfl
  | cons b t ih =>
    rw [Chip.setBytes, ih _ (fun k hk => by have := h (k + 1) (by simpa using hk); rwa [Nat.add_assoc, Nat.add_comm 1 k])]
    exact Chip.byte_setByte_other _ (by simpa using h 0 (by simp)) _

/-- Writing bytes changes no register. -/
@[simp] theorem Chip.regs_setBytes (m : Chip) (sp : Space) (i : Nat) (l : List Byte) : (m.setBytes sp i l).regs = m.regs := by
  induction l generalizing m i with
  | nil => rfl
  | cons b t ih => rw [Chip.setBytes, ih]; rfl

@[simp] theorem Chip.scan_setBytes (m : Chip) (sp : Space) (i : Nat) (l : List Byte) : (m.setBytes sp i l).scan = m.scan := by
  induction l generalizing m i with
  | nil => rfl
  | cons b t ih => rw [Chip.setBytes, ih]; rfl

/-- Two keys of one space agree where their offsets agree modulo 2^40. -/
theorem Space.key_inj {sp : Space} {i j : Nat} (h : sp.key i = sp.key j) : i % 2 ^ 40 = j % 2 ^ 40 := by
  unfold Space.key at h; omega

/-- Bytes written read back. -/
theorem Chip.bytes_setBytes_same (m : Chip) (sp : Space) (a : Nat) (l : List Byte) (h : l.length ≤ 2 ^ 40) :
    (m.setBytes sp a l).bytes sp a l.length = l := by
  induction l generalizing m a with
  | nil => rfl
  | cons b t ih =>
    simp only [List.length_cons] at h ⊢
    rw [Chip.setBytes, Chip.bytes, ih _ _ (by omega), Chip.byte_setBytes_other, Chip.byte_setByte_same]
    intro i hi e
    have := Space.key_inj e
    omega

/-- Bytes are those of the memory. -/
theorem Chip.bytes_of_mem {m n : Chip} (h : m.mem = n.mem) (sp : Space) (a k : Nat) : m.bytes sp a k = n.bytes sp a k := by
  induction k generalizing a with
  | zero => rfl
  | succ k ih => rw [Chip.bytes, Chip.bytes, ih, Chip.byte, Chip.byte, h]

/-! Registers and bytes through the replacement of another part. -/

@[simp] theorem Chip.reg_withPd2 (m : Chip) x (a : Nat) : (m.withPd2 x).reg a = m.reg a := rfl
@[simp] theorem Chip.get_withPd2 (m : Chip) x (f : FRef) : (m.withPd2 x).get f = m.get f := rfl
@[simp] theorem Chip.byte_withPd2 (m : Chip) x (sp : Space) (i : Nat) : (m.withPd2 x).byte sp i = m.byte sp i := rfl
@[simp] theorem Chip.reg_withClk (m : Chip) x (a : Nat) : (m.withClk x).reg a = m.reg a := rfl
@[simp] theorem Chip.get_withClk (m : Chip) x (f : FRef) : (m.withClk x).get f = m.get f := rfl
@[simp] theorem Chip.byte_withClk (m : Chip) x (sp : Space) (i : Nat) : (m.withClk x).byte sp i = m.byte sp i := rfl
@[simp] theorem Chip.reg_withReqs (m : Chip) x (a : Nat) : (m.withReqs x).reg a = m.reg a := rfl
@[simp] theorem Chip.get_withReqs (m : Chip) x (f : FRef) : (m.withReqs x).get f = m.get f := rfl
@[simp] theorem Chip.byte_withReqs (m : Chip) x (sp : Space) (i : Nat) : (m.withReqs x).byte sp i = m.byte sp i := rfl
@[simp] theorem Chip.reg_withUnits (m : Chip) x (a : Nat) : (m.withUnits x).reg a = m.reg a := rfl
@[simp] theorem Chip.get_withUnits (m : Chip) x (f : FRef) : (m.withUnits x).get f = m.get f := rfl
@[simp] theorem Chip.byte_withUnits (m : Chip) x (sp : Space) (i : Nat) : (m.withUnits x).byte sp i = m.byte sp i := rfl
@[simp] theorem Chip.reg_withRings (m : Chip) x (a : Nat) : (m.withRings x).reg a = m.reg a := rfl
@[simp] theorem Chip.get_withRings (m : Chip) x (f : FRef) : (m.withRings x).get f = m.get f := rfl
@[simp] theorem Chip.byte_withRings (m : Chip) x (sp : Space) (i : Nat) : (m.withRings x).byte sp i = m.byte sp i := rfl
@[simp] theorem Chip.reg_withPts (m : Chip) x (a : Nat) : (m.withPts x).reg a = m.reg a := rfl
@[simp] theorem Chip.get_withPts (m : Chip) x (f : FRef) : (m.withPts x).get f = m.get f := rfl
@[simp] theorem Chip.byte_withPts (m : Chip) x (sp : Space) (i : Nat) : (m.withPts x).byte sp i = m.byte sp i := rfl
@[simp] theorem Chip.reg_withCom (m : Chip) x (a : Nat) : (m.withCom x).reg a = m.reg a := rfl
@[simp] theorem Chip.get_withCom (m : Chip) x (f : FRef) : (m.withCom x).get f = m.get f := rfl
@[simp] theorem Chip.byte_withCom (m : Chip) x (sp : Space) (i : Nat) : (m.withCom x).byte sp i = m.byte sp i := rfl
@[simp] theorem Chip.reg_withBoot (m : Chip) x (a : Nat) : (m.withBoot x).reg a = m.reg a := rfl
@[simp] theorem Chip.get_withBoot (m : Chip) x (f : FRef) : (m.withBoot x).get f = m.get f := rfl
@[simp] theorem Chip.byte_withBoot (m : Chip) x (sp : Space) (i : Nat) : (m.withBoot x).byte sp i = m.byte sp i := rfl
@[simp] theorem Chip.reg_withScan (m : Chip) x (a : Nat) : (m.withScan x).reg a = m.reg a := rfl
@[simp] theorem Chip.get_withScan (m : Chip) x (f : FRef) : (m.withScan x).get f = m.get f := rfl
@[simp] theorem Chip.byte_withScan (m : Chip) x (sp : Space) (i : Nat) : (m.withScan x).byte sp i = m.byte sp i := rfl
@[simp] theorem Chip.reg_withTxn (m : Chip) x (a : Nat) : (m.withTxn x).reg a = m.reg a := rfl
@[simp] theorem Chip.get_withTxn (m : Chip) x (f : FRef) : (m.withTxn x).get f = m.get f := rfl
@[simp] theorem Chip.byte_withTxn (m : Chip) x (sp : Space) (i : Nat) : (m.withTxn x).byte sp i = m.byte sp i := rfl
@[simp] theorem Chip.reg_withUpl (m : Chip) x (a : Nat) : (m.withUpl x).reg a = m.reg a := rfl
@[simp] theorem Chip.get_withUpl (m : Chip) x (f : FRef) : (m.withUpl x).get f = m.get f := rfl
@[simp] theorem Chip.byte_withUpl (m : Chip) x (sp : Space) (i : Nat) : (m.withUpl x).byte sp i = m.byte sp i := rfl
@[simp] theorem Chip.reg_withSadl (m : Chip) x (a : Nat) : (m.withSadl x).reg a = m.reg a := rfl
@[simp] theorem Chip.get_withSadl (m : Chip) x (f : FRef) : (m.withSadl x).get f = m.get f := rfl
@[simp] theorem Chip.byte_withSadl (m : Chip) x (sp : Space) (i : Nat) : (m.withSadl x).byte sp i = m.byte sp i := rfl
@[simp] theorem Chip.reg_withRidge (m : Chip) x (a : Nat) : (m.withRidge x).reg a = m.reg a := rfl
@[simp] theorem Chip.get_withRidge (m : Chip) x (f : FRef) : (m.withRidge x).get f = m.get f := rfl
@[simp] theorem Chip.byte_withRidge (m : Chip) x (sp : Space) (i : Nat) : (m.withRidge x).byte sp i = m.byte sp i := rfl
@[simp] theorem Chip.reg_withKeep (m : Chip) x (a : Nat) : (m.withKeep x).reg a = m.reg a := rfl
@[simp] theorem Chip.get_withKeep (m : Chip) x (f : FRef) : (m.withKeep x).get f = m.get f := rfl
@[simp] theorem Chip.byte_withKeep (m : Chip) x (sp : Space) (i : Nat) : (m.withKeep x).byte sp i = m.byte sp i := rfl
@[simp] theorem Chip.reg_withTotals (m : Chip) x (a : Nat) : (m.withTotals x).reg a = m.reg a := rfl
@[simp] theorem Chip.get_withTotals (m : Chip) x (f : FRef) : (m.withTotals x).get f = m.get f := rfl
@[simp] theorem Chip.byte_withTotals (m : Chip) x (sp : Space) (i : Nat) : (m.withTotals x).byte sp i = m.byte sp i := rfl
@[simp] theorem Chip.reg_withMeter (m : Chip) x (a : Nat) : (m.withMeter x).reg a = m.reg a := rfl
@[simp] theorem Chip.get_withMeter (m : Chip) x (f : FRef) : (m.withMeter x).get f = m.get f := rfl
@[simp] theorem Chip.byte_withMeter (m : Chip) x (sp : Space) (i : Nat) : (m.withMeter x).byte sp i = m.byte sp i := rfl
@[simp] theorem Chip.reg_withVault (m : Chip) x (a : Nat) : (m.withVault x).reg a = m.reg a := rfl
@[simp] theorem Chip.get_withVault (m : Chip) x (f : FRef) : (m.withVault x).get f = m.get f := rfl
@[simp] theorem Chip.byte_withVault (m : Chip) x (sp : Space) (i : Nat) : (m.withVault x).byte sp i = m.byte sp i := rfl
@[simp] theorem Chip.reg_withLoop (m : Chip) x (a : Nat) : (m.withLoop x).reg a = m.reg a := rfl
@[simp] theorem Chip.get_withLoop (m : Chip) x (f : FRef) : (m.withLoop x).get f = m.get f := rfl
@[simp] theorem Chip.byte_withLoop (m : Chip) x (sp : Space) (i : Nat) : (m.withLoop x).byte sp i = m.byte sp i := rfl
@[simp] theorem Chip.reg_withPorts (m : Chip) x (a : Nat) : (m.withPorts x).reg a = m.reg a := rfl
@[simp] theorem Chip.get_withPorts (m : Chip) x (f : FRef) : (m.withPorts x).get f = m.get f := rfl
@[simp] theorem Chip.byte_withPorts (m : Chip) x (sp : Space) (i : Nat) : (m.withPorts x).byte sp i = m.byte sp i := rfl
@[simp] theorem Chip.reg_withLamp (m : Chip) x (a : Nat) : (m.withLamp x).reg a = m.reg a := rfl
@[simp] theorem Chip.get_withLamp (m : Chip) x (f : FRef) : (m.withLamp x).get f = m.get f := rfl
@[simp] theorem Chip.byte_withLamp (m : Chip) x (sp : Space) (i : Nat) : (m.withLamp x).byte sp i = m.byte sp i := rfl
@[simp] theorem Chip.reg_withPlan (m : Chip) x (a : Nat) : (m.withPlan x).reg a = m.reg a := rfl
@[simp] theorem Chip.get_withPlan (m : Chip) x (f : FRef) : (m.withPlan x).get f = m.get f := rfl
@[simp] theorem Chip.byte_withPlan (m : Chip) x (sp : Space) (i : Nat) : (m.withPlan x).byte sp i = m.byte sp i := rfl
@[simp] theorem Chip.reg_withGuard (m : Chip) x (a : Nat) : (m.withGuard x).reg a = m.reg a := rfl
@[simp] theorem Chip.get_withGuard (m : Chip) x (f : FRef) : (m.withGuard x).get f = m.get f := rfl
@[simp] theorem Chip.byte_withGuard (m : Chip) x (sp : Space) (i : Nat) : (m.withGuard x).byte sp i = m.byte sp i := rfl
@[simp] theorem Chip.reg_withPanel (m : Chip) x (a : Nat) : (m.withPanel x).reg a = m.reg a := rfl
@[simp] theorem Chip.get_withPanel (m : Chip) x (f : FRef) : (m.withPanel x).get f = m.get f := rfl
@[simp] theorem Chip.byte_withPanel (m : Chip) x (sp : Space) (i : Nat) : (m.withPanel x).byte sp i = m.byte sp i := rfl
@[simp] theorem Chip.reg_withOut (m : Chip) x (a : Nat) : (m.withOut x).reg a = m.reg a := rfl
@[simp] theorem Chip.get_withOut (m : Chip) x (f : FRef) : (m.withOut x).get f = m.get f := rfl
@[simp] theorem Chip.byte_withOut (m : Chip) x (sp : Space) (i : Nat) : (m.withOut x).byte sp i = m.byte sp i := rfl

end Sys2Proof.Machine
end

