-- ==== Sys2Proof/Laws/Canon.lean ====
section
/-! SUPPORT. Properties of a chip that every change of one of its parts keeps, and the small lemmas by which the files Laws/Canon… carry them
through every operation of the model. A lemma named after an operation with `_canon` says that the operation keeps each such property: the canonical form
(`Inv.canon`), the locked interlock table (`Inv.locked`), the guard die as a whole (`Inv.guardIs`). -/

namespace Sys2Proof.Machine
open Sys2Proof

/-- A property of chips that every change of a part keeps, the guard die apart: what is shown of the model's operations below holds of each such property. -/
structure Inv where
  P : Chip → Prop
  pd2' : ∀ {m : Chip} {x}, P m → P (m.withPd2 x)
  clk' : ∀ {m : Chip} {x}, P m → P (m.withClk x)
  reqs' : ∀ {m : Chip} {x}, P m → P (m.withReqs x)
  units' : ∀ {m : Chip} {x}, P m → P (m.withUnits x)
  rings' : ∀ {m : Chip} {x}, P m → P (m.withRings x)
  pts' : ∀ {m : Chip} {x}, P m → P (m.withPts x)
  com' : ∀ {m : Chip} {x}, P m → P (m.withCom x)
  boot' : ∀ {m : Chip} {x}, P m → P (m.withBoot x)
  scan' : ∀ {m : Chip} {x}, P m → P (m.withScan x)
  txn' : ∀ {m : Chip} {x}, P m → P (m.withTxn x)
  upl' : ∀ {m : Chip} {x}, P m → P (m.withUpl x)
  sadl' : ∀ {m : Chip} {x}, P m → P (m.withSadl x)
  ridge' : ∀ {m : Chip} {x}, P m → P (m.withRidge x)
  keep' : ∀ {m : Chip} {x}, P m → P (m.withKeep x)
  totals' : ∀ {m : Chip} {x}, P m → P (m.withTotals x)
  meter' : ∀ {m : Chip} {x}, P m → P (m.withMeter x)
  vault' : ∀ {m : Chip} {x}, P m → P (m.withVault x)
  loop' : ∀ {m : Chip} {x}, P m → P (m.withLoop x)
  ports' : ∀ {m : Chip} {x}, P m → P (m.withPorts x)
  lamp' : ∀ {m : Chip} {x}, P m → P (m.withLamp x)
  plan' : ∀ {m : Chip} {x}, P m → P (m.withPlan x)
  panel' : ∀ {m : Chip} {x}, P m → P (m.withPanel x)
  out' : ∀ {m : Chip} {x}, P m → P (m.withOut x)
  setReg : ∀ {m : Chip} {a w}, P m → P (m.setReg a w)
  setByte : ∀ {m : Chip} {sp off b}, P m → P (m.setByte sp off b)
  clearSpace : ∀ {m : Chip} {sp}, P m → P (m.clearSpace sp)
  dark : ∀ {m : Chip}, P m → P m.dark

/-- One that a change of the guard die that leaves its table keeps too. -/
structure InvT extends Inv where
  guardT : ∀ {m : Chip} {g : Guard}, P m → g.table = m.guard.table → P (m.withGuard g)

/-- One that every change of the guard die keeps too. -/
structure InvG extends InvT where
  guard' : ∀ {m : Chip} {g}, P m → P (m.withGuard g)

/-- The chip has the property. -/
def Canon (K : Inv) (m : Chip) : Prop := K.P m

namespace Canon
variable {v : Inv}

theorem ite {c : Prop} [Decidable c] {a b : Chip} (ha : Canon v a) (hb : Canon v b) : Canon v (if c then a else b) := by
  by_cases h : c <;> simp [h, ha, hb]
theorem iteR {α : Type} {c : Prop} [Decidable c] {a b : α × Chip} (ha : Canon v a.2) (hb : Canon v b.2) :
    Canon v (if c then a else b).2 := by
  by_cases h : c <;> simp [h, ha, hb]
theorem iteRR {α β : Type} {c : Prop} [Decidable c] {a b : α × β × Chip} (ha : Canon v a.2.2) (hb : Canon v b.2.2) :
    Canon v (if c then a else b).2.2 := by
  by_cases h : c <;> simp [h, ha, hb]
theorem snd {α : Type} {p : α × Chip} {a : α} {m : Chip} (e : p = (a, m)) (h : Canon v p.2) : Canon v m := by
  subst e; exact h
theorem fst {α : Type} {p : Chip × α} {a : α} {m : Chip} (e : p = (m, a)) (h : Canon v p.1) : Canon v m := by
  subst e; exact h
theorem mid {α β : Type} {p : α × Chip × β} {a : α} {m : Chip} {b : β} (e : p = (a, m, b)) (h : Canon v p.2.1) : Canon v m := by
  subst e; exact h
theorem thd {α β : Type} {p : α × β × Chip} {a : α} {m : Chip} {b : β} (e : p = (a, b, m)) (h : Canon v p.2.2) : Canon v m := by
  subst e; exact h
theorem foldl {β : Type} {f : Chip → β → Chip} (hf : ∀ m b, Canon v m → Canon v (f m b)) {l : List β} {m : Chip} (h : Canon v m) :
    Canon v (l.foldl f m) := by
  induction l generalizing m with
  | nil => exact h
  | cons b t ih => exact ih (hf m b h)
end Canon

/-- The chip that an instruction leaves. -/
def Done.chip : Done → Chip
  | .go m _ => m
  | .trap _ m _ => m
  | .stop m _ _ => m

theorem Canon.iteD {vt : Inv} {c : Prop} [Decidable c] {a b : Done} (ha : Canon vt a.chip) (hb : Canon vt b.chip) :
    Canon vt (if c then a else b).chip := by
  by_cases h : c <;> simp [h, ha, hb]
theorem Canon.go {vt : Inv} {m : Chip} {k : Core} (h : Canon vt m) : Canon vt (Done.go m k).chip := h
theorem Canon.trap {vt : Inv} {t : Trap} {m : Chip} {k : Core} (h : Canon vt m) : Canon vt (Done.trap t m k).chip := h
theorem Canon.stop {vt : Inv} {m : Chip} {k : Core} {b : Bool} (h : Canon vt m) : Canon vt (Done.stop m k b).chip := h

/-- A command of the main die keeps the canonical form where its effect does. -/
theorem act_canon {vt : Inv} {s : State} {f : Chip → Chip} (hf : ∀ m, Canon vt m → Canon vt (f m)) (h : Canon vt s.chip) :
    ∃ t, s.act f = .next t ∧ t.pending = s.pending ∧ Canon vt t.chip := ⟨_, rfl, rfl, Canon.ite (hf _ h) h⟩

/-- The same for a command that acts whether PD2 is on or off. -/
theorem actAll_canon {vt : Inv} {s : State} {f : Chip → Chip} (hf : ∀ m, Canon vt m → Canon vt (f m)) (h : Canon vt s.chip) :
    ∃ t, s.actAll f = .next t ∧ t.pending = s.pending ∧ Canon vt t.chip := ⟨_, rfl, rfl, hf _ h⟩

end Sys2Proof.Machine
end

