-- ==== Sys2Proof/Laws/CanonStore.lean ====
section
/-! SUPPORT. What changes of single parts keep, through the shared operations, the point store, the scan engine, the ridge and the commit engine (Laws/Canon.lean). -/

namespace Sys2Proof.Machine

open Sys2Proof

/-! ### State -/

theorem Chip.withPd2_canon {vt : Inv} {m : Chip} {x} (h0 : Canon vt m) : Canon vt (m.withPd2 x) := vt.pd2' h0

theorem Chip.withClk_canon {vt : Inv} {m : Chip} {x} (h0 : Canon vt m) : Canon vt (m.withClk x) := vt.clk' h0

theorem Chip.withReqs_canon {vt : Inv} {m : Chip} {x} (h0 : Canon vt m) : Canon vt (m.withReqs x) := vt.reqs' h0

theorem Chip.withUnits_canon {vt : Inv} {m : Chip} {x} (h0 : Canon vt m) : Canon vt (m.withUnits x) := vt.units' h0

theorem Chip.withRings_canon {vt : Inv} {m : Chip} {x} (h0 : Canon vt m) : Canon vt (m.withRings x) := vt.rings' h0

theorem Chip.withPts_canon {vt : Inv} {m : Chip} {x} (h0 : Canon vt m) : Canon vt (m.withPts x) := vt.pts' h0

theorem Chip.withCom_canon {vt : Inv} {m : Chip} {x} (h0 : Canon vt m) : Canon vt (m.withCom x) := vt.com' h0

theorem Chip.withBoot_canon {vt : Inv} {m : Chip} {x} (h0 : Canon vt m) : Canon vt (m.withBoot x) := vt.boot' h0

theorem Chip.withScan_canon {vt : Inv} {m : Chip} {x} (h0 : Canon vt m) : Canon vt (m.withScan x) := vt.scan' h0

theorem Chip.withTxn_canon {vt : Inv} {m : Chip} {x} (h0 : Canon vt m) : Canon vt (m.withTxn x) := vt.txn' h0

theorem Chip.withUpl_canon {vt : Inv} {m : Chip} {x} (h0 : Canon vt m) : Canon vt (m.withUpl x) := vt.upl' h0

theorem Chip.withSadl_canon {vt : Inv} {m : Chip} {x} (h0 : Canon vt m) : Canon vt (m.withSadl x) := vt.sadl' h0

theorem Chip.withRidge_canon {vt : Inv} {m : Chip} {x} (h0 : Canon vt m) : Canon vt (m.withRidge x) := vt.ridge' h0

theorem Chip.withKeep_canon {vt : Inv} {m : Chip} {x} (h0 : Canon vt m) : Canon vt (m.withKeep x) := vt.keep' h0

theorem Chip.withTotals_canon {vt : Inv} {m : Chip} {x} (h0 : Canon vt m) : Canon vt (m.withTotals x) := vt.totals' h0

theorem Chip.withMeter_canon {vt : Inv} {m : Chip} {x} (h0 : Canon vt m) : Canon vt (m.withMeter x) := vt.meter' h0

theorem Chip.withVault_canon {vt : Inv} {m : Chip} {x} (h0 : Canon vt m) : Canon vt (m.withVault x) := vt.vault' h0

theorem Chip.withLoop_canon {vt : Inv} {m : Chip} {x} (h0 : Canon vt m) : Canon vt (m.withLoop x) := vt.loop' h0

theorem Chip.withPorts_canon {vt : Inv} {m : Chip} {x} (h0 : Canon vt m) : Canon vt (m.withPorts x) := vt.ports' h0

theorem Chip.withLamp_canon {vt : Inv} {m : Chip} {x} (h0 : Canon vt m) : Canon vt (m.withLamp x) := vt.lamp' h0

theorem Chip.withPlan_canon {vt : Inv} {m : Chip} {x} (h0 : Canon vt m) : Canon vt (m.withPlan x) := vt.plan' h0

theorem Chip.withGuard_canon {vt : InvT} {m : Chip} {g : Guard} (h0 : Canon vt.toInv m) (hg : g.table = m.guard.table) : Canon vt.toInv (m.withGuard g) := vt.guardT h0 hg

theorem Chip.withPanel_canon {vt : Inv} {m : Chip} {x} (h0 : Canon vt m) : Canon vt (m.withPanel x) := vt.panel' h0

theorem Chip.withOut_canon {vt : Inv} {m : Chip} {x} (h0 : Canon vt m) : Canon vt (m.withOut x) := vt.out' h0

/-! ### Ops -/

theorem Chip.setReg_canon {vt : Inv} {m : Chip} {a : Nat} {w : Word} (h0 : Canon vt m) : Canon vt (m.setReg a w) :=
  vt.setReg h0

theorem Chip.put_canon {vt : Inv} {m : Chip} {f : FRef} {v : Nat} (h0 : Canon vt m) : Canon vt (Chip.put m f v) := by
  unfold Chip.put
  repeat' first | with_reducible assumption | with_reducible apply Chip.setReg_canon

theorem Chip.put64_canon {vt : Inv} {m : Chip} {f : FRef} {v : DWord} (h0 : Canon vt m) : Canon vt (Chip.put64 m f v) := by
  unfold Chip.put64
  repeat' first | with_reducible assumption | with_reducible apply Chip.setReg_canon

theorem Chip.count_canon {vt : Inv} {m : Chip} {cnt : FRef} {sat : Option FRef} (h0 : Canon vt m) : Canon vt (Chip.count m cnt sat) := by
  unfold Chip.count
  repeat' first | with_reducible assumption | with_reducible apply Chip.put_canon | with_reducible apply Canon.ite | split | with_reducible refine Canon.snd (by assumption) ?_ | with_reducible refine Canon.fst (by assumption) ?_ | with_reducible refine Canon.mid (by assumption) ?_ | with_reducible refine Canon.thd (by assumption) ?_ | dsimp only

theorem Chip.countN_canon {vt : Inv} {m : Chip} {cnt : FRef} {sat : Option FRef} {n : Nat} (h0 : Canon vt m) : Canon vt (Chip.countN m cnt sat n) := by
  unfold Chip.countN
  repeat' first | with_reducible assumption | with_reducible apply Chip.put_canon | with_reducible apply Canon.ite | split | with_reducible refine Canon.snd (by assumption) ?_ | with_reducible refine Canon.fst (by assumption) ?_ | with_reducible refine Canon.mid (by assumption) ?_ | with_reducible refine Canon.thd (by assumption) ?_ | dsimp only

theorem Chip.setByte_canon {vt : Inv} {m : Chip} {sp : Space} {off : Nat} {b : Byte} (h0 : Canon vt m) : Canon vt (m.setByte sp off b) :=
  vt.setByte h0

theorem Chip.setBytes_canon {vt : Inv} {m : Chip} {sp : Space} {off : Nat} {l : List Byte} (h0 : Canon vt m) :
    Canon vt (m.setBytes sp off l) := by
  induction l generalizing m off with
  | nil => exact h0
  | cons b t ih => exact ih (Chip.setByte_canon h0)

theorem Chip.wr_canon {vt : Inv} {m : Chip} {sp : Space} {off : Nat} {n : Nat} {v : Nat} (h0 : Canon vt m) : Canon vt (Chip.wr m sp off n v) := by
  unfold Chip.wr
  repeat' first | with_reducible assumption | with_reducible apply Chip.setBytes_canon

theorem Chip.clearSpace_canon {vt : Inv} {m : Chip} {sp : Space} (h0 : Canon vt m) : Canon vt (m.clearSpace sp) :=
  vt.clearSpace h0

theorem Chip.fresh_canon {vt : Inv} {m : Chip} (h0 : Canon vt m) : Canon vt (Chip.fresh m).2 := by
  unfold Chip.fresh
  repeat' first | with_reducible assumption | with_reducible apply Chip.withClk_canon | dsimp only

theorem Chip.emit_canon {vt : Inv} {m : Chip} {o : Out} (h0 : Canon vt m) : Canon vt (Chip.emit m o) := by
  unfold Chip.emit
  repeat' first | with_reducible assumption | with_reducible apply Chip.withOut_canon

theorem Chip.ringLose_canon {vt : Inv} {m : Chip} {n : Nat} (h0 : Canon vt m) : Canon vt (Chip.ringLose m n) := by
  unfold Chip.ringLose
  repeat' first | with_reducible assumption | with_reducible apply Chip.withRings_canon | with_reducible apply Chip.count_canon

theorem Chip.ringWrite_canon {vt : Inv} {m : Chip} {n : Nat} {e : Event} (h0 : Canon vt m) : Canon vt (Chip.ringWrite m n e) := by
  unfold Chip.ringWrite
  repeat' first | with_reducible assumption | with_reducible apply Chip.emit_canon | with_reducible apply Chip.withRings_canon | with_reducible apply Chip.put_canon | with_reducible apply Chip.setBytes_canon | with_reducible apply Canon.ite

theorem Chip.judge_canon {vt : Inv} {m : Chip} {e : Event} (h0 : Canon vt m) : Canon vt (Chip.judge m e) := by
  unfold Chip.judge
  repeat' first | with_reducible assumption | with_reducible apply Chip.ringWrite_canon | with_reducible apply Chip.ringLose_canon | with_reducible apply Canon.ite

theorem Chip.arise_canon {vt : Inv} {m : Chip} {e : Event} (h0 : Canon vt m) : Canon vt (Chip.arise m e) := by
  unfold Chip.arise
  repeat' first | with_reducible assumption | with_reducible apply Chip.ringLose_canon | with_reducible apply Chip.withRings_canon | with_reducible apply Chip.judge_canon | with_reducible apply Canon.ite

theorem Chip.post_canon {vt : Inv} {m : Chip} {e : Event} (h0 : Canon vt m) : Canon vt (Chip.post m e) := by
  unfold Chip.post
  repeat' first | with_reducible assumption | with_reducible apply Chip.arise_canon

theorem Chip.postAt_canon {vt : Inv} {m : Chip} {t : DWord} {e : Event} (h0 : Canon vt m) : Canon vt (Chip.postAt m t e) := by
  unfold Chip.postAt
  repeat' first | with_reducible assumption | with_reducible apply Chip.arise_canon

theorem Chip.setReq_canon {vt : Inv} {m : Chip} {r : Req} {x : ReqSt} (h0 : Canon vt m) : Canon vt (Chip.setReq m r x) := by
  unfold Chip.setReq
  repeat' first | with_reducible assumption | with_reducible apply Chip.withReqs_canon

theorem Chip.heldWord_canon {vt : Inv} {m : Chip} {r : Req} {a : Nat} (h0 : Canon vt m) : Canon vt (Chip.heldWord m r a).2 := by
  unfold Chip.heldWord
  repeat' first | with_reducible assumption | with_reducible apply Chip.setReq_canon | split | with_reducible refine Canon.snd (by assumption) ?_ | with_reducible refine Canon.fst (by assumption) ?_ | with_reducible refine Canon.mid (by assumption) ?_ | with_reducible refine Canon.thd (by assumption) ?_ | dsimp only

theorem Chip.setUnitRun_canon {vt : Inv} {m : Chip} {u : Nat} {x : UnitRun} (h0 : Canon vt m) : Canon vt (Chip.setUnitRun m u x) := by
  unfold Chip.setUnitRun
  repeat' first | with_reducible assumption | with_reducible apply Chip.withUnits_canon

/-! ### Image -/

theorem Chip.loadData_canon {vt : Inv} {m : Chip} {key : Nat} {g : Image} (h0 : Canon vt m) : Canon vt (Chip.loadData m key g) := by
  unfold Chip.loadData
  repeat' first | with_reducible assumption | with_reducible apply Chip.withScan_canon | with_reducible apply Chip.clearSpace_canon | with_reducible apply Chip.setBytes_canon

theorem Chip.setDataBit_canon {vt : Inv} {m : Chip} {key : Nat} {base : Nat} {n : Nat} {v : Bool} (h0 : Canon vt m) : Canon vt (Chip.setDataBit m key base n v) := by
  unfold Chip.setDataBit
  repeat' first | with_reducible assumption | with_reducible apply Chip.setByte_canon

/-! ### Txn -/

theorem Chip.stream_canon {vt : Inv} {m : Chip} {name : String} {body : List Nat} (h0 : Canon vt m) : Canon vt (Chip.stream m name body) := by
  unfold Chip.stream
  repeat' first | with_reducible assumption | with_reducible apply Chip.emit_canon | with_reducible apply Canon.ite

theorem Chip.txnCount_canon {vt : Inv} {m : Chip} {i : Nat} (h0 : Canon vt m) : Canon vt (Chip.txnCount m i) := by
  unfold Chip.txnCount
  repeat' first | with_reducible assumption | with_reducible apply Chip.count_canon

theorem Chip.setSta_canon {vt : Inv} {m : Chip} {n : Nat} {s : Station} (h0 : Canon vt m) : Canon vt (Chip.setSta m n s) := by
  unfold Chip.setSta
  repeat' first | with_reducible assumption | with_reducible apply Chip.withTxn_canon

theorem Chip.nextSeq_canon {vt : Inv} {m : Chip} {n : Nat} {type : Nat} (h0 : Canon vt m) : Canon vt (Chip.nextSeq m n type).2 := by
  unfold Chip.nextSeq
  repeat' first | with_reducible assumption | with_reducible apply Chip.setSta_canon | dsimp only

theorem Chip.txnUsed_canon {vt : Inv} {m : Chip} (h0 : Canon vt m) : Canon vt (Chip.txnUsed m) := by
  unfold Chip.txnUsed
  repeat' first | with_reducible assumption | with_reducible apply Chip.put_canon

theorem Chip.setTxs_canon {vt : Inv} {m : Chip} {l : List Tx} (h0 : Canon vt m) : Canon vt (Chip.setTxs m l) := by
  unfold Chip.setTxs
  repeat' first | with_reducible assumption | with_reducible apply Chip.withTxn_canon | with_reducible apply Chip.txnUsed_canon

theorem Chip.sendFrame_canon {vt : Inv} {m : Chip} {f : MFrame} (h0 : Canon vt m) : Canon vt (Chip.sendFrame m f) := by
  unfold Chip.sendFrame
  repeat' first | with_reducible assumption | with_reducible apply Chip.withTxn_canon | with_reducible apply Chip.emit_canon | with_reducible apply Chip.stream_canon | with_reducible apply Canon.ite

theorem Chip.sendCopy_canon {vt : Inv} {m : Chip} {f : MFrame} (h0 : Canon vt m) : Canon vt (Chip.sendCopy m f) := by
  unfold Chip.sendCopy
  repeat' first | with_reducible assumption | with_reducible apply Chip.withTxn_canon | with_reducible apply Chip.emit_canon | with_reducible apply Canon.ite

theorem Chip.sendPlain_canon {vt : Inv} {m : Chip} {n : Nat} {type : Nat} {cls : Nat} {payload : List Byte} (h0 : Canon vt m) : Canon vt (Chip.sendPlain m n type cls payload) := by
  unfold Chip.sendPlain
  repeat' first | with_reducible assumption | with_reducible apply Chip.sendFrame_canon | with_reducible apply Chip.nextSeq_canon | split | with_reducible refine Canon.snd (by assumption) ?_ | with_reducible refine Canon.fst (by assumption) ?_ | with_reducible refine Canon.mid (by assumption) ?_ | with_reducible refine Canon.thd (by assumption) ?_ | dsimp only

theorem Chip.holdOut_canon {vt : Inv} {m : Chip} {t : Tx} (h0 : Canon vt m) : Canon vt (Chip.holdOut m t) := by
  unfold Chip.holdOut
  repeat' first | with_reducible assumption | with_reducible apply Chip.withTxn_canon | with_reducible apply Chip.setTxs_canon | with_reducible apply Canon.ite | split | with_reducible refine Canon.snd (by assumption) ?_ | with_reducible refine Canon.fst (by assumption) ?_ | with_reducible refine Canon.mid (by assumption) ?_ | with_reducible refine Canon.thd (by assumption) ?_ | dsimp only

theorem Chip.accDone_canon {vt : Inv} {m : Chip} {p : Nat} {code : Half} (h0 : Canon vt m) : Canon vt (Chip.accDone m p code) := by
  unfold Chip.accDone
  repeat' first | with_reducible assumption | with_reducible apply Chip.put_canon

theorem Chip.txReport_canon {vt : Inv} {m : Chip} {t : Tx} {code : Half} (h0 : Canon vt m) : Canon vt (Chip.txReport m t code) := by
  unfold Chip.txReport
  repeat' first | with_reducible assumption | with_reducible apply Chip.accDone_canon | with_reducible apply Chip.put_canon | with_reducible apply Chip.holdOut_canon | with_reducible apply Canon.ite | split | with_reducible refine Canon.snd (by assumption) ?_ | with_reducible refine Canon.fst (by assumption) ?_ | with_reducible refine Canon.mid (by assumption) ?_ | with_reducible refine Canon.thd (by assumption) ?_ | dsimp only

theorem Chip.staDown_canon {vt : Inv} {m : Chip} {n : Nat} {reason : Nat} (h0 : Canon vt m) : Canon vt (Chip.staDown m n reason) := by
  unfold Chip.staDown
  repeat' first | with_reducible assumption | with_reducible apply Chip.setSta_canon | with_reducible apply Chip.post_canon | with_reducible apply Canon.ite

theorem Chip.txDone_canon {vt : Inv} {m : Chip} {t : Tx} {code : Half} (h0 : Canon vt m) : Canon vt (Chip.txDone m t code) := by
  unfold Chip.txDone
  repeat' first | with_reducible assumption | with_reducible apply Chip.staDown_canon | with_reducible apply Chip.setTxs_canon | with_reducible apply Chip.txReport_canon | with_reducible apply Canon.ite

theorem Chip.txAccept_canon {vt : Inv} {m : Chip} {t : Tx} (h0 : Canon vt m) : Canon vt (Chip.txAccept m t) := by
  unfold Chip.txAccept
  repeat' first | with_reducible assumption | with_reducible apply Chip.txnCount_canon | with_reducible apply Chip.txReport_canon | with_reducible apply Chip.setTxs_canon | with_reducible apply Chip.withTxn_canon | with_reducible apply Chip.holdOut_canon | with_reducible apply Canon.ite

theorem Chip.singleOut_canon {vt : Inv} {m : Chip} {tag : BitVec 40} {r : Route} {value : DWord} {second : DWord} (h0 : Canon vt m) : Canon vt (Chip.singleOut m tag r value second) := by
  unfold Chip.singleOut
  repeat' first | with_reducible assumption | with_reducible apply Chip.txAccept_canon

theorem Chip.league_canon {vt : Inv} {m : Chip} {kind : TxKind} {tag : BitVec 40} {payload : List Byte} {port : Option Nat} (h0 : Canon vt m) : Canon vt (Chip.league m kind tag payload port) := by
  unfold Chip.league
  repeat' first | with_reducible assumption | with_reducible apply Chip.txReport_canon | with_reducible apply Chip.fresh_canon | with_reducible apply Chip.txAccept_canon | split | with_reducible refine Canon.snd (by assumption) ?_ | with_reducible refine Canon.fst (by assumption) ?_ | with_reducible refine Canon.mid (by assumption) ?_ | with_reducible refine Canon.thd (by assumption) ?_ | dsimp only

theorem Chip.staUp_canon {vt : Inv} {m : Chip} {n : Nat} (h0 : Canon vt m) : Canon vt (Chip.staUp m n) := by
  unfold Chip.staUp
  repeat' first | with_reducible assumption | with_reducible apply Canon.foldl | intro _ | with_reducible apply Chip.post_canon | with_reducible apply Chip.txAccept_canon | with_reducible apply Chip.withTxn_canon | with_reducible apply Chip.setSta_canon | with_reducible apply Canon.ite

theorem Chip.staCancel_canon {vt : Inv} {m : Chip} {n : Nat} (h0 : Canon vt m) : Canon vt (Chip.staCancel m n) := by
  unfold Chip.staCancel
  repeat' first | with_reducible assumption | with_reducible apply Canon.foldl | intro _ | with_reducible apply Chip.txDone_canon | with_reducible apply Chip.staDown_canon

theorem Chip.portCancel_canon {vt : Inv} {m : Chip} {medium : Nat} {port : Nat} (h0 : Canon vt m) : Canon vt (Chip.portCancel m medium port) := by
  unfold Chip.portCancel
  repeat' first | with_reducible assumption | with_reducible apply Canon.foldl | intro _ | with_reducible apply Chip.staCancel_canon

/-! ### Points -/

theorem Chip.setRec_canon {vt : Inv} {m : Chip} {i : Nat} {r : PointRec} (h0 : Canon vt m) : Canon vt (Chip.setRec m i r) := by
  unfold Chip.setRec
  repeat' first | with_reducible assumption | with_reducible apply Chip.withPts_canon

theorem Chip.store_canon {vt : Inv} {m : Chip} {i : Nat} {r : PointRec} (h0 : Canon vt m) : Canon vt (Chip.store m i r) := by
  unfold Chip.store
  repeat' first | with_reducible assumption | with_reducible apply Chip.setRec_canon | with_reducible apply Chip.stream_canon

theorem Chip.setForces_canon {vt : Inv} {m : Chip} {l : List (Nat × Force)} (h0 : Canon vt m) : Canon vt (Chip.setForces m l) := by
  unfold Chip.setForces
  repeat' first | with_reducible assumption | with_reducible apply Chip.withPts_canon | with_reducible apply Chip.put_canon

theorem Chip.ptCount_canon {vt : Inv} {m : Chip} {i : Nat} (h0 : Canon vt m) : Canon vt (Chip.ptCount m i) := by
  unfold Chip.ptCount
  repeat' first | with_reducible assumption | with_reducible apply Chip.count_canon

theorem Chip.postWhen_canon {vt : Inv} {m : Chip} {t : Option DWord} {e : Event} (h0 : Canon vt m) : Canon vt (Chip.postWhen m t e) := by
  unfold Chip.postWhen
  repeat' first | with_reducible assumption | with_reducible apply Chip.post_canon | with_reducible apply Chip.postAt_canon | split | with_reducible refine Canon.snd (by assumption) ?_ | with_reducible refine Canon.fst (by assumption) ?_ | with_reducible refine Canon.mid (by assumption) ?_ | with_reducible refine Canon.thd (by assumption) ?_ | dsimp only

theorem Chip.offerSubs_canon {vt : Inv} {m : Chip} {tag : BitVec 40} {image : List Byte} (h0 : Canon vt m) : Canon vt (Chip.offerSubs m tag image) := by
  unfold Chip.offerSubs
  repeat' first | with_reducible assumption | with_reducible apply Canon.foldl | intro _ | with_reducible apply Chip.sendPlain_canon | with_reducible apply Canon.ite

theorem Chip.settle_canon {vt : Inv} {m : Chip} {i : Nat} {d : Desc} {old : PointRec} {new : PointRec} {t : Option DWord} (h0 : Canon vt m) : Canon vt (Chip.settle m i d old new t) := by
  unfold Chip.settle
  repeat' first | with_reducible assumption | with_reducible apply Chip.offerSubs_canon | with_reducible apply Chip.postWhen_canon | with_reducible apply Chip.store_canon | with_reducible apply Canon.ite | split | with_reducible refine Canon.snd (by assumption) ?_ | with_reducible refine Canon.fst (by assumption) ?_ | with_reducible refine Canon.mid (by assumption) ?_ | with_reducible refine Canon.thd (by assumption) ?_ | dsimp only

theorem Chip.pairMark_canon {vt : Inv} {m : Chip} {i : Nat} {d : Desc} {r : PointRec} {reject : Bool} (h0 : Canon vt m) : Canon vt (Chip.pairMark m i d r reject) := by
  unfold Chip.pairMark
  repeat' first | with_reducible assumption | with_reducible apply Chip.settle_canon

theorem Chip.pairEvent_canon {vt : Inv} {m : Chip} {i : Nat} {v : DWord} {c : DWord} {incoming : Nat} (h0 : Canon vt m) : Canon vt (Chip.pairEvent m i v c incoming) := by
  unfold Chip.pairEvent
  repeat' first | with_reducible assumption | with_reducible apply Chip.post_canon | with_reducible apply Chip.ptCount_canon

theorem Chip.touch_canon {vt : Inv} {m : Chip} {i : Nat} (h0 : Canon vt m) : Canon vt (Chip.touch m i) := by
  unfold Chip.touch
  repeat' first | with_reducible assumption | with_reducible apply Chip.pairMark_canon | with_reducible apply Chip.pairEvent_canon | with_reducible apply Canon.ite

theorem Chip.dropForce_canon {vt : Inv} {m : Chip} {i : Nat} (h0 : Canon vt m) : Canon vt (Chip.dropForce m i) := by
  unfold Chip.dropForce
  repeat' first | with_reducible assumption | with_reducible apply Chip.setForces_canon

theorem Chip.dropOverlay_canon {vt : Inv} {m : Chip} {i : Nat} (h0 : Canon vt m) : Canon vt (Chip.dropOverlay m i) := by
  unfold Chip.dropOverlay
  repeat' first | with_reducible assumption | with_reducible apply Chip.withPts_canon

theorem Chip.bindPoint_canon {vt : Inv} {m : Chip} {i : Nat} {oldTyp : Nat} (h0 : Canon vt m) : Canon vt (Chip.bindPoint m i oldTyp) := by
  unfold Chip.bindPoint
  repeat' first | with_reducible assumption | with_reducible apply Chip.post_canon | with_reducible apply Chip.store_canon | with_reducible apply Chip.dropOverlay_canon | with_reducible apply Chip.setRec_canon | with_reducible apply Chip.dropForce_canon | with_reducible apply Canon.ite | split | with_reducible refine Canon.snd (by assumption) ?_ | with_reducible refine Canon.fst (by assumption) ?_ | with_reducible refine Canon.mid (by assumption) ?_ | with_reducible refine Canon.thd (by assumption) ?_ | dsimp only

theorem Chip.rebuild_canon {vt : Inv} {m : Chip} {i : Nat} (h0 : Canon vt m) : Canon vt (Chip.rebuild m i) := by
  unfold Chip.rebuild
  repeat' first | with_reducible assumption | with_reducible apply Chip.post_canon | with_reducible apply Chip.ptCount_canon | with_reducible apply Chip.store_canon | with_reducible apply Chip.setRec_canon | with_reducible apply Canon.ite | split | with_reducible refine Canon.snd (by assumption) ?_ | with_reducible refine Canon.fst (by assumption) ?_ | with_reducible refine Canon.mid (by assumption) ?_ | with_reducible refine Canon.thd (by assumption) ?_ | dsimp only

theorem Chip.crcCheck_canon {vt : Inv} {m : Chip} {i : Nat} (h0 : Canon vt m) : Canon vt (Chip.crcCheck m i) := by
  unfold Chip.crcCheck
  repeat' first | with_reducible assumption | with_reducible apply Chip.rebuild_canon | with_reducible apply Canon.ite

theorem Chip.superviseRec_canon {vt : Inv} {m : Chip} {i : Nat} (h0 : Canon vt m) : Canon vt (Chip.superviseRec m i) := by
  unfold Chip.superviseRec
  repeat' first | with_reducible assumption | with_reducible apply Chip.settle_canon | with_reducible apply Canon.ite

theorem Chip.fold_canon {vt : Inv} {m : Chip} {i : Nat} (h0 : Canon vt m) : Canon vt (Chip.fold m i) := by
  unfold Chip.fold
  repeat' first | with_reducible assumption | with_reducible apply Chip.settle_canon | with_reducible apply Chip.dropOverlay_canon | with_reducible apply Canon.ite | split | with_reducible refine Canon.snd (by assumption) ?_ | with_reducible refine Canon.fst (by assumption) ?_ | with_reducible refine Canon.mid (by assumption) ?_ | with_reducible refine Canon.thd (by assumption) ?_ | dsimp only

theorem Chip.refuseWrite_canon {vt : Inv} {m : Chip} {i : Nat} {r : PointRec} (h0 : Canon vt m) : Canon vt (Chip.refuseWrite m i r) := by
  unfold Chip.refuseWrite
  repeat' first | with_reducible assumption | with_reducible apply Chip.store_canon | with_reducible apply Chip.ptCount_canon

theorem Chip.holdWrite_canon {vt : Inv} {m : Chip} {i : Nat} {r : PointRec} {f : Force} {w : PtWrite} {v : DWord} {c : DWord} (h0 : Canon vt m) : Canon vt (Chip.holdWrite m i r f w v c) := by
  unfold Chip.holdWrite
  repeat' first | with_reducible assumption | with_reducible apply Chip.setForces_canon | with_reducible apply Chip.store_canon | split | with_reducible refine Canon.snd (by assumption) ?_ | with_reducible refine Canon.fst (by assumption) ?_ | with_reducible refine Canon.mid (by assumption) ?_ | with_reducible refine Canon.thd (by assumption) ?_ | dsimp only

theorem Chip.rangeFault_canon {vt : Inv} {m : Chip} {port : Port} {tag : BitVec 40} (h0 : Canon vt m) : Canon vt (Chip.rangeFault m port tag) := by
  unfold Chip.rangeFault
  repeat' first | with_reducible assumption | with_reducible apply Chip.ptCount_canon | with_reducible apply Chip.post_canon

theorem Chip.routeOut_canon {vt : Inv} {m : Chip} {i : Nat} {w : PtWrite} (h0 : Canon vt m) : Canon vt (Chip.routeOut m i w) := by
  unfold Chip.routeOut
  repeat' first | with_reducible assumption | with_reducible apply Chip.singleOut_canon | with_reducible apply Canon.ite

theorem Chip.writeLocal_canon {vt : Inv} {m : Chip} {i : Nat} {w : PtWrite} (h0 : Canon vt m) : Canon vt (Chip.writeLocal m i w).2 := by
  unfold Chip.writeLocal
  repeat' first | with_reducible assumption | with_reducible apply Chip.settle_canon | with_reducible apply Chip.routeOut_canon | with_reducible apply Chip.dropForce_canon | with_reducible apply Chip.holdWrite_canon | with_reducible apply Chip.pairMark_canon | with_reducible apply Chip.pairEvent_canon | with_reducible apply Chip.refuseWrite_canon | with_reducible apply Chip.ptCount_canon | with_reducible apply Chip.fold_canon | with_reducible apply Chip.touch_canon | with_reducible apply Canon.ite | with_reducible apply Canon.iteR | split | with_reducible refine Canon.snd (by assumption) ?_ | with_reducible refine Canon.fst (by assumption) ?_ | with_reducible refine Canon.mid (by assumption) ?_ | with_reducible refine Canon.thd (by assumption) ?_ | dsimp only

theorem Chip.ptWrite_canon {vt : Inv} {m : Chip} {port : Port} {w : PtWrite} (h0 : Canon vt m) : Canon vt (Chip.ptWrite m port w).2 := by
  unfold Chip.ptWrite
  repeat' first | with_reducible assumption | with_reducible apply Chip.writeLocal_canon | with_reducible apply Chip.rangeFault_canon | with_reducible apply Canon.ite | with_reducible apply Canon.iteR | dsimp only

theorem Chip.readLocal_canon {vt : Inv} {m : Chip} {i : Nat} (h0 : Canon vt m) : Canon vt (Chip.readLocal m i).2.2 := by
  unfold Chip.readLocal
  repeat' first | with_reducible assumption | with_reducible apply Chip.touch_canon | with_reducible apply Chip.superviseRec_canon | with_reducible apply Chip.crcCheck_canon | with_reducible apply Canon.ite | with_reducible apply Canon.iteRR | split | with_reducible refine Canon.snd (by assumption) ?_ | with_reducible refine Canon.fst (by assumption) ?_ | with_reducible refine Canon.mid (by assumption) ?_ | with_reducible refine Canon.thd (by assumption) ?_ | dsimp only

theorem Chip.ptRead_canon {vt : Inv} {m : Chip} {port : Port} {tag : BitVec 40} (h0 : Canon vt m) : Canon vt (Chip.ptRead m port tag).2.2 := by
  unfold Chip.ptRead
  repeat' first | with_reducible assumption | with_reducible apply Chip.readLocal_canon | with_reducible apply Chip.rangeFault_canon | with_reducible apply Canon.ite | with_reducible apply Canon.iteRR | split | with_reducible refine Canon.snd (by assumption) ?_ | with_reducible refine Canon.fst (by assumption) ?_ | with_reducible refine Canon.mid (by assumption) ?_ | with_reducible refine Canon.thd (by assumption) ?_ | dsimp only

theorem Chip.forcePoint_canon {vt : Inv} {m : Chip} {i : Nat} {subst : Bool} {good : Bool} {value : DWord} {second : DWord} (h0 : Canon vt m) : Canon vt (Chip.forcePoint m i subst good value second).2 := by
  unfold Chip.forcePoint
  repeat' first | with_reducible assumption | with_reducible apply Chip.setForces_canon | with_reducible apply Chip.settle_canon | with_reducible apply Chip.fold_canon | with_reducible apply Canon.ite | with_reducible apply Canon.iteR | split | with_reducible refine Canon.snd (by assumption) ?_ | with_reducible refine Canon.fst (by assumption) ?_ | with_reducible refine Canon.mid (by assumption) ?_ | with_reducible refine Canon.thd (by assumption) ?_ | dsimp only

theorem Chip.unforcePoint_canon {vt : Inv} {m : Chip} {i : Nat} {subst : Bool} (h0 : Canon vt m) : Canon vt (Chip.unforcePoint m i subst).2 := by
  unfold Chip.unforcePoint
  repeat' first | with_reducible assumption | with_reducible apply Chip.settle_canon | with_reducible apply Chip.routeOut_canon | with_reducible apply Chip.dropForce_canon | with_reducible apply Canon.ite | with_reducible apply Canon.iteR | split | with_reducible refine Canon.snd (by assumption) ?_ | with_reducible refine Canon.fst (by assumption) ?_ | with_reducible refine Canon.mid (by assumption) ?_ | with_reducible refine Canon.thd (by assumption) ?_ | dsimp only

theorem Chip.clearChg_canon {vt : Inv} {m : Chip} {i : Nat} (h0 : Canon vt m) : Canon vt (Chip.clearChg m i) := by
  unfold Chip.clearChg
  repeat' first | with_reducible assumption | with_reducible apply Chip.store_canon | with_reducible apply Canon.ite

theorem Chip.planWrite_canon {vt : Inv} {m : Chip} {w : PtWrite} (h0 : Canon vt m) : Canon vt (Chip.planWrite m w).2 := by
  unfold Chip.planWrite
  repeat' first | with_reducible assumption | with_reducible apply Chip.singleOut_canon | with_reducible apply Chip.withPts_canon | with_reducible apply Chip.dropForce_canon | with_reducible apply Chip.holdWrite_canon | with_reducible apply Chip.pairMark_canon | with_reducible apply Chip.pairEvent_canon | with_reducible apply Chip.refuseWrite_canon | with_reducible apply Chip.ptCount_canon | with_reducible apply Chip.rangeFault_canon | with_reducible apply Canon.ite | with_reducible apply Canon.iteR | split | with_reducible refine Canon.snd (by assumption) ?_ | with_reducible refine Canon.fst (by assumption) ?_ | with_reducible refine Canon.mid (by assumption) ?_ | with_reducible refine Canon.thd (by assumption) ?_ | dsimp only

theorem Chip.foldNext_canon {vt : Inv} {m : Chip} (h0 : Canon vt m) : Canon vt (Chip.foldNext m) := by
  unfold Chip.foldNext
  repeat' first | with_reducible assumption | with_reducible apply Chip.fold_canon | split | with_reducible refine Canon.snd (by assumption) ?_ | with_reducible refine Canon.fst (by assumption) ?_ | with_reducible refine Canon.mid (by assumption) ?_ | with_reducible refine Canon.thd (by assumption) ?_ | dsimp only

theorem Chip.sweep_canon {vt : Inv} {m : Chip} (h0 : Canon vt m) : Canon vt (Chip.sweep m) := by
  unfold Chip.sweep
  repeat' first | with_reducible assumption | with_reducible apply Chip.touch_canon | with_reducible apply Chip.superviseRec_canon | with_reducible apply Chip.crcCheck_canon | with_reducible apply Chip.withPts_canon | with_reducible apply Canon.ite | split | with_reducible refine Canon.snd (by assumption) ?_ | with_reducible refine Canon.fst (by assumption) ?_ | with_reducible refine Canon.mid (by assumption) ?_ | with_reducible refine Canon.thd (by assumption) ?_ | dsimp only

theorem Chip.scrub_canon {vt : Inv} {m : Chip} (h0 : Canon vt m) : Canon vt (Chip.scrub m) := by
  unfold Chip.scrub
  repeat' first | with_reducible assumption | with_reducible apply Chip.withPts_canon | with_reducible apply Chip.crcCheck_canon | with_reducible apply Chip.touch_canon | with_reducible apply Canon.ite | split | with_reducible refine Canon.snd (by assumption) ?_ | with_reducible refine Canon.fst (by assumption) ?_ | with_reducible refine Canon.mid (by assumption) ?_ | with_reducible refine Canon.thd (by assumption) ?_ | dsimp only

theorem Chip.accImage_canon {vt : Inv} {m : Chip} {p : Nat} {image : List Byte} (h0 : Canon vt m) : Canon vt (Chip.accImage m p image) := by
  unfold Chip.accImage
  repeat' first | with_reducible assumption | with_reducible apply Canon.foldl | intro _ | with_reducible apply Chip.put_canon

theorem Chip.accOp_canon {vt : Inv} {m : Chip} {p : Nat} {here : Chip → Nat → Half × Chip} {there : Chip → Chip} (h0 : Canon vt m)
    (hh : ∀ a i, Canon vt a → Canon vt (here a i).2) (ht : ∀ a, Canon vt a → Canon vt (there a)) : Canon vt (m.accOp p here there) := by
  unfold Chip.accOp
  repeat' first | with_reducible assumption | with_reducible apply Chip.accDone_canon | with_reducible apply Chip.rangeFault_canon | with_reducible apply hh | with_reducible apply ht | with_reducible apply Canon.ite | split | dsimp only

theorem Chip.accFree_canon {vt : Inv} {m : Chip} {p : Nat} (h0 : Canon vt m) : Canon vt (Chip.accFree m p) := by
  unfold Chip.accFree
  repeat' first | with_reducible assumption | with_reducible apply Chip.accDone_canon | with_reducible apply Chip.fresh_canon | split | with_reducible refine Canon.snd (by assumption) ?_ | with_reducible refine Canon.fst (by assumption) ?_ | with_reducible refine Canon.mid (by assumption) ?_ | with_reducible refine Canon.thd (by assumption) ?_ | dsimp only

theorem Chip.accRead_canon {vt : Inv} {m : Chip} {p : Nat} (h0 : Canon vt m) : Canon vt (Chip.accRead m p) := by
  unfold Chip.accRead
  repeat' first | with_reducible assumption | with_reducible apply Canon.foldl | intro _ | with_reducible apply Chip.put_canon | with_reducible apply Chip.league_canon | with_reducible apply Chip.readLocal_canon | with_reducible apply Chip.accOp_canon | with_reducible apply Chip.rangeFault_canon | with_reducible apply Chip.accImage_canon | with_reducible apply Chip.accDone_canon | with_reducible apply Canon.ite | split | with_reducible refine Canon.snd (by assumption) ?_ | with_reducible refine Canon.fst (by assumption) ?_ | with_reducible refine Canon.mid (by assumption) ?_ | with_reducible refine Canon.thd (by assumption) ?_ | dsimp only

theorem Chip.accWrite_canon {vt : Inv} {m : Chip} {p : Nat} (h0 : Canon vt m) : Canon vt (Chip.accWrite m p) := by
  unfold Chip.accWrite
  repeat' first | with_reducible assumption | with_reducible apply Canon.foldl | intro _ | with_reducible apply Chip.put_canon | with_reducible apply Chip.league_canon | with_reducible apply Chip.writeLocal_canon | with_reducible apply Chip.accOp_canon

theorem Chip.accForce_canon {vt : Inv} {m : Chip} {p : Nat} {subst : Bool} {good : Bool} (h0 : Canon vt m) : Canon vt (Chip.accForce m p subst good) := by
  unfold Chip.accForce
  repeat' first | with_reducible assumption | with_reducible apply Canon.foldl | intro _ | with_reducible apply Chip.accFree_canon | with_reducible apply Chip.forcePoint_canon | with_reducible apply Chip.accOp_canon

theorem Chip.accUnforce_canon {vt : Inv} {m : Chip} {p : Nat} {subst : Bool} (h0 : Canon vt m) : Canon vt (Chip.accUnforce m p subst) := by
  unfold Chip.accUnforce
  repeat' first | with_reducible assumption | with_reducible apply Canon.foldl | intro _ | with_reducible apply Chip.accFree_canon | with_reducible apply Chip.unforcePoint_canon | with_reducible apply Chip.accOp_canon

theorem Chip.accClear_canon {vt : Inv} {m : Chip} {p : Nat} (h0 : Canon vt m) : Canon vt (Chip.accClear m p) := by
  unfold Chip.accClear
  repeat' first | with_reducible assumption | with_reducible apply Canon.foldl | intro _ | with_reducible apply Chip.accFree_canon | with_reducible apply Chip.fold_canon | with_reducible apply Chip.clearChg_canon | with_reducible apply Chip.accOp_canon

theorem Chip.accCmd_canon {vt : Inv} {m : Chip} {p : Nat} {w : Word} (h0 : Canon vt m) : Canon vt (Chip.accCmd m p w) := by
  unfold Chip.accCmd
  repeat' first | with_reducible assumption | with_reducible apply Chip.accDone_canon | with_reducible apply Chip.accClear_canon | with_reducible apply Chip.accUnforce_canon | with_reducible apply Chip.accForce_canon | with_reducible apply Chip.accWrite_canon | with_reducible apply Chip.accRead_canon | with_reducible apply Canon.ite | split | with_reducible refine Canon.snd (by assumption) ?_ | with_reducible refine Canon.fst (by assumption) ?_ | with_reducible refine Canon.mid (by assumption) ?_ | with_reducible refine Canon.thd (by assumption) ?_ | dsimp only

theorem Chip.clearDone_canon {vt : Inv} {m : Chip} (h0 : Canon vt m) : Canon vt (Chip.clearDone m) := by
  unfold Chip.clearDone
  repeat' first | with_reducible assumption | with_reducible apply Chip.withPts_canon | with_reducible apply Chip.setForces_canon | with_reducible apply Chip.put_canon | with_reducible apply Canon.ite

/-! ### Scan -/

theorem Chip.setTask_canon {vt : Inv} {m : Chip} {t : Nat} {x : Task} (h0 : Canon vt m) : Canon vt (Chip.setTask m t x) := by
  unfold Chip.setTask
  repeat' first | with_reducible assumption | with_reducible apply Chip.withScan_canon

theorem Chip.setCore_canon {vt : Inv} {m : Chip} {c : Nat} {x : Core} (h0 : Canon vt m) : Canon vt (Chip.setCore m c x) := by
  unfold Chip.setCore
  repeat' first | with_reducible assumption | with_reducible apply Chip.withScan_canon

theorem Chip.setTState_canon {vt : Inv} {m : Chip} {t : Nat} {st : Nat} (h0 : Canon vt m) : Canon vt (Chip.setTState m t st) := by
  unfold Chip.setTState
  repeat' first | with_reducible assumption | with_reducible apply Chip.put_canon | with_reducible apply Chip.post_canon | with_reducible apply Canon.ite

theorem Chip.anchor_canon {vt : Inv} {m : Chip} {t : Nat} (h0 : Canon vt m) : Canon vt (Chip.anchor m t) := by
  unfold Chip.anchor
  repeat' first | with_reducible assumption | with_reducible apply Chip.setTask_canon

theorem Chip.anchorStep_canon {vt : Inv} {m : Chip} {t : Nat} (h0 : Canon vt m) : Canon vt (Chip.anchorStep m t) := by
  unfold Chip.anchorStep
  repeat' first | with_reducible assumption | with_reducible apply Chip.setTask_canon | with_reducible apply Canon.ite

theorem Chip.markBoundary_canon {vt : Inv} {m : Chip} {t : Nat} {v : Bool} (h0 : Canon vt m) : Canon vt (Chip.markBoundary m t v) := by
  unfold Chip.markBoundary
  repeat' first | with_reducible assumption | with_reducible apply Chip.withCom_canon | with_reducible apply Canon.ite

theorem Chip.stopDone_canon {vt : Inv} {m : Chip} {t : Nat} (h0 : Canon vt m) : Canon vt (Chip.stopDone m t) := by
  unfold Chip.stopDone
  repeat' first | with_reducible assumption | with_reducible apply Chip.put_canon | with_reducible apply Chip.setTask_canon | with_reducible apply Canon.ite

theorem Chip.settleTask_canon {vt : Inv} {m : Chip} {t : Nat} (h0 : Canon vt m) : Canon vt (Chip.settleTask m t) := by
  unfold Chip.settleTask
  repeat' first | with_reducible assumption | with_reducible apply Chip.stopDone_canon | with_reducible apply Chip.setTask_canon | with_reducible apply Chip.setTState_canon | with_reducible apply Chip.post_canon | with_reducible apply Canon.ite

theorem Chip.boundary_canon {vt : Inv} {m : Chip} {t : Nat} (h0 : Canon vt m) : Canon vt (Chip.boundary m t) := by
  unfold Chip.boundary
  repeat' first | with_reducible assumption | with_reducible apply Chip.settleTask_canon | with_reducible apply Chip.setTState_canon | with_reducible apply Chip.markBoundary_canon | with_reducible apply Canon.ite

theorem Chip.abandonTask_canon {vt : Inv} {m : Chip} {t : Nat} (h0 : Canon vt m) : Canon vt (Chip.abandonTask m t) := by
  unfold Chip.abandonTask
  repeat' first | with_reducible assumption | with_reducible apply Chip.settleTask_canon | with_reducible apply Chip.setTState_canon | with_reducible apply Chip.post_canon | with_reducible apply Chip.put_canon | with_reducible apply Chip.markBoundary_canon | with_reducible apply Chip.count_canon | with_reducible apply Chip.setTask_canon | with_reducible apply Canon.ite

theorem Chip.missRelease_canon {vt : Inv} {m : Chip} {t : Nat} {inst : Nat} (h0 : Canon vt m) : Canon vt (Chip.missRelease m t inst) := by
  unfold Chip.missRelease
  repeat' first | with_reducible assumption | with_reducible apply Chip.setTask_canon | with_reducible apply Chip.count_canon | with_reducible apply Chip.put_canon | with_reducible apply Chip.post_canon | with_reducible apply Canon.ite

theorem Chip.release_canon {vt : Inv} {m : Chip} {t : Nat} {inst : Nat} (h0 : Canon vt m) : Canon vt (Chip.release m t inst) := by
  unfold Chip.release
  repeat' first | with_reducible assumption | with_reducible apply Chip.setTState_canon | with_reducible apply Chip.setTask_canon | with_reducible apply Chip.markBoundary_canon | with_reducible apply Chip.put_canon | with_reducible apply Canon.ite

theorem Chip.taskRelease_canon {vt : Inv} {m : Chip} {t : Nat} (h0 : Canon vt m) : Canon vt (Chip.taskRelease m t) := by
  unfold Chip.taskRelease
  repeat' first | with_reducible assumption | with_reducible apply Chip.release_canon | with_reducible apply Chip.missRelease_canon | with_reducible apply Chip.setTask_canon | with_reducible apply Canon.ite | split | with_reducible refine Canon.snd (by assumption) ?_ | with_reducible refine Canon.fst (by assumption) ?_ | with_reducible refine Canon.mid (by assumption) ?_ | with_reducible refine Canon.thd (by assumption) ?_ | dsimp only

theorem Chip.setForced_canon {vt : Inv} {m : Chip} {t : Nat} {f : FRef} {n : Nat} (h0 : Canon vt m) : Canon vt (Chip.setForced m t f n) := by
  unfold Chip.setForced
  repeat' first | with_reducible assumption | with_reducible apply Chip.post_canon | with_reducible apply Chip.put_canon | with_reducible apply Canon.ite

theorem Chip.snapEntry_canon {vt : Inv} {m : Chip} {t : Nat} {e : MapEnt} (h0 : Canon vt m) : Canon vt (Chip.snapEntry m t e).2 := by
  unfold Chip.snapEntry
  repeat' first | with_reducible assumption | with_reducible apply Chip.setBytes_canon | with_reducible apply Chip.wr_canon | with_reducible apply Chip.setDataBit_canon | with_reducible apply Chip.ptRead_canon | with_reducible apply Canon.ite | with_reducible apply Canon.iteR | split | with_reducible refine Canon.snd (by assumption) ?_ | with_reducible refine Canon.fst (by assumption) ?_ | with_reducible refine Canon.mid (by assumption) ?_ | with_reducible refine Canon.thd (by assumption) ?_ | dsimp only

theorem Chip.snapAll_canon {vt : Inv} {m : Chip} {t : Nat} {l : List MapEnt} (h0 : Canon vt m) : Canon vt (m.snapAll t l).2 := by
  induction l generalizing m with
  | nil => exact h0
  | cons e r ih => simp only [Chip.snapAll]; exact ih (Chip.snapEntry_canon h0)

theorem Chip.snapshotDone_canon {vt : Inv} {m : Chip} {t : Nat} (h0 : Canon vt m) : Canon vt (Chip.snapshotDone m t) := by
  unfold Chip.snapshotDone
  repeat' first | with_reducible assumption | with_reducible apply Chip.stream_canon | with_reducible apply Chip.setForced_canon | with_reducible apply Chip.setTState_canon | with_reducible apply Chip.snapAll_canon | with_reducible apply Canon.ite | split | with_reducible refine Canon.snd (by assumption) ?_ | with_reducible refine Canon.fst (by assumption) ?_ | with_reducible refine Canon.mid (by assumption) ?_ | with_reducible refine Canon.thd (by assumption) ?_ | dsimp only

theorem Chip.drainStores_canon {vt : Inv} {m : Chip} {c : Nat} {k : Core} {l : List Posted} (h0 : Canon vt m) : Canon vt (m.drainStores c k l).1 := by
  induction l generalizing m k with
  | nil => exact h0
  | cons e r ih => simp only [Chip.drainStores]; exact ih (Chip.ptWrite_canon h0)

theorem Chip.runTask_canon {vt : Inv} {m : Chip} {c : Nat} {t : Nat} (h0 : Canon vt m) : Canon vt (Chip.runTask m c t) := by
  unfold Chip.runTask
  repeat' first | with_reducible assumption | with_reducible apply Chip.setTask_canon | with_reducible apply Chip.setCore_canon | with_reducible apply Chip.put_canon | with_reducible apply Chip.setTState_canon | split | with_reducible refine Canon.snd (by assumption) ?_ | with_reducible refine Canon.fst (by assumption) ?_ | with_reducible refine Canon.mid (by assumption) ?_ | with_reducible refine Canon.thd (by assumption) ?_ | dsimp only

theorem Chip.dispatch_canon {vt : Inv} {m : Chip} {c : Nat} (h0 : Canon vt m) : Canon vt (Chip.dispatch m c) := by
  unfold Chip.dispatch
  repeat' first | with_reducible assumption | with_reducible apply Chip.setTask_canon | with_reducible apply Chip.setTState_canon | with_reducible apply Chip.drainStores_canon | with_reducible apply Chip.runTask_canon | with_reducible apply Canon.ite | split | with_reducible refine Canon.snd (by assumption) ?_ | with_reducible refine Canon.fst (by assumption) ?_ | with_reducible refine Canon.mid (by assumption) ?_ | with_reducible refine Canon.thd (by assumption) ?_ | dsimp only

theorem Chip.endCycle_canon {vt : Inv} {m : Chip} {c : Nat} {t : Nat} (h0 : Canon vt m) : Canon vt (Chip.endCycle m c t) := by
  unfold Chip.endCycle
  repeat' first | with_reducible assumption | with_reducible apply Chip.setTask_canon | with_reducible apply Chip.setCore_canon | with_reducible apply Chip.setTState_canon

theorem Chip.handEntry_canon {vt : Inv} {m : Chip} {t : Nat} {x : MapEnt × DWord × DWord} (h0 : Canon vt m) : Canon vt (Chip.handEntry m t x).2.2 := by
  unfold Chip.handEntry
  repeat' first | with_reducible assumption | with_reducible apply Chip.ptWrite_canon | with_reducible apply Canon.ite | with_reducible apply Canon.iteRR | split | with_reducible refine Canon.snd (by assumption) ?_ | with_reducible refine Canon.fst (by assumption) ?_ | with_reducible refine Canon.mid (by assumption) ?_ | with_reducible refine Canon.thd (by assumption) ?_ | dsimp only

theorem Chip.handAll_canon {vt : Inv} {m : Chip} {t : Nat} {l : List (MapEnt × DWord × DWord)} (h0 : Canon vt m) : Canon vt (m.handAll t l).2.2 := by
  induction l generalizing m with
  | nil => exact h0
  | cons e r ih => simp only [Chip.handAll]; exact ih (Chip.handEntry_canon h0)

theorem Chip.withhold_canon {vt : Inv} {m : Chip} {t : Nat} {g : Nat} {es : List MapEnt} (h0 : Canon vt m) : Canon vt (Chip.withhold m t g es) := by
  unfold Chip.withhold
  repeat' first | with_reducible assumption | with_reducible apply Canon.foldl | intro _ | with_reducible apply Chip.withTxn_canon | with_reducible apply Canon.ite

theorem Chip.offerGroup_canon {vt : Inv} {m : Chip} {t : Nat} {g : Nat} {es : List MapEnt} (h0 : Canon vt m) : Canon vt (Chip.offerGroup m t g es) := by
  unfold Chip.offerGroup
  repeat' first | with_reducible assumption | with_reducible apply Canon.foldl | intro _ | with_reducible apply Chip.txAccept_canon | with_reducible apply Canon.ite | split | with_reducible refine Canon.snd (by assumption) ?_ | with_reducible refine Canon.fst (by assumption) ?_ | with_reducible refine Canon.mid (by assumption) ?_ | with_reducible refine Canon.thd (by assumption) ?_ | dsimp only

theorem Chip.handGroups_canon {vt : Inv} {m : Chip} {t : Nat} {done : List (MapEnt × Half)} (h0 : Canon vt m) : Canon vt (Chip.handGroups m t done) := by
  unfold Chip.handGroups
  repeat' first | with_reducible assumption | with_reducible apply Canon.foldl | intro _ | with_reducible apply Chip.offerGroup_canon | with_reducible apply Chip.withhold_canon | with_reducible apply Chip.post_canon | split | with_reducible refine Canon.snd (by assumption) ?_ | with_reducible refine Canon.fst (by assumption) ?_ | with_reducible refine Canon.mid (by assumption) ?_ | with_reducible refine Canon.thd (by assumption) ?_ | dsimp only

theorem Chip.handoffDone_canon {vt : Inv} {m : Chip} {t : Nat} (h0 : Canon vt m) : Canon vt (Chip.handoffDone m t) := by
  unfold Chip.handoffDone
  repeat' first | with_reducible assumption | with_reducible apply Chip.stream_canon | with_reducible apply Chip.boundary_canon | with_reducible apply Chip.setTask_canon | with_reducible apply Chip.put_canon | with_reducible apply Chip.handGroups_canon | with_reducible apply Chip.setForced_canon | with_reducible apply Chip.handAll_canon | with_reducible apply Canon.ite | split | with_reducible refine Canon.snd (by assumption) ?_ | with_reducible refine Canon.fst (by assumption) ?_ | with_reducible refine Canon.mid (by assumption) ?_ | with_reducible refine Canon.thd (by assumption) ?_ | dsimp only

theorem Chip.tcmdDone_canon {vt : Inv} {m : Chip} {t : Nat} {pending : Bool} {code : Half} (h0 : Canon vt m) : Canon vt (Chip.tcmdDone m t pending code) := by
  unfold Chip.tcmdDone
  repeat' first | with_reducible assumption | with_reducible apply Chip.put_canon

theorem Chip.startTask_canon {vt : Inv} {m : Chip} {t : Nat} (h0 : Canon vt m) : Canon vt (Chip.startTask m t) := by
  unfold Chip.startTask
  repeat' first | with_reducible assumption | with_reducible apply Chip.anchor_canon | with_reducible apply Chip.setTState_canon

theorem Chip.tcmdStart_canon {vt : Inv} {m : Chip} {t : Nat} (h0 : Canon vt m) : Canon vt (Chip.tcmdStart m t) := by
  unfold Chip.tcmdStart
  repeat' first | with_reducible assumption | with_reducible apply Chip.startTask_canon | with_reducible apply Chip.tcmdDone_canon | with_reducible apply Canon.ite

theorem Chip.tcmdStop_canon {vt : Inv} {m : Chip} {t : Nat} (h0 : Canon vt m) : Canon vt (Chip.tcmdStop m t) := by
  unfold Chip.tcmdStop
  repeat' first | with_reducible assumption | with_reducible apply Chip.setTState_canon | with_reducible apply Chip.setTask_canon | with_reducible apply Chip.tcmdDone_canon | with_reducible apply Canon.ite

theorem Chip.tcmdReset_canon {vt : Inv} {m : Chip} {t : Nat} (h0 : Canon vt m) : Canon vt (Chip.tcmdReset m t) := by
  unfold Chip.tcmdReset
  repeat' first | with_reducible assumption | with_reducible apply Chip.put_canon | with_reducible apply Chip.setTState_canon | with_reducible apply Chip.tcmdDone_canon | with_reducible apply Canon.ite

theorem Chip.tcmd_canon {vt : Inv} {m : Chip} {w : Word} (h0 : Canon vt m) : Canon vt (Chip.tcmd m w) := by
  unfold Chip.tcmd
  repeat' first | with_reducible assumption | with_reducible apply Chip.tcmdReset_canon | with_reducible apply Chip.tcmdStop_canon | with_reducible apply Chip.tcmdStart_canon | split | with_reducible refine Canon.snd (by assumption) ?_ | with_reducible refine Canon.fst (by assumption) ?_ | with_reducible refine Canon.mid (by assumption) ?_ | with_reducible refine Canon.thd (by assumption) ?_ | dsimp only

theorem Chip.setSlot_canon {vt : Inv} {m : Chip} {n : Nat} {x : Slot} (h0 : Canon vt m) : Canon vt (Chip.setSlot m n x) := by
  unfold Chip.setSlot
  repeat' first | with_reducible assumption | with_reducible apply Chip.withScan_canon

theorem Chip.clearSlots_canon {vt : Inv} {m : Chip} {base : Nat} {n : Nat} (h0 : Canon vt m) : Canon vt (Chip.clearSlots m base n) := by
  unfold Chip.clearSlots
  repeat' first | with_reducible assumption | with_reducible apply Chip.withScan_canon

theorem Chip.setRun_canon {vt : Inv} {m : Chip} {t : Nat} {base : Nat} {n : Nat} (h0 : Canon vt m) : Canon vt (Chip.setRun m t base n) := by
  unfold Chip.setRun
  repeat' first | with_reducible assumption | with_reducible apply Chip.put_canon

theorem Chip.carryInst_canon {vt : Inv} {m : Chip} {m0 : Chip} {t : Nat} {ob : Nat} {nb : Nat} {o : InstEnt} {e : InstEnt} (h0 : Canon vt m) : Canon vt (Chip.carryInst m m0 t ob nb o e) := by
  unfold Chip.carryInst
  repeat' first | with_reducible assumption | with_reducible apply Canon.foldl | intro _ | with_reducible apply Chip.setSlot_canon | with_reducible apply Chip.setDataBit_canon | with_reducible apply Chip.setBytes_canon | split | with_reducible refine Canon.snd (by assumption) ?_ | with_reducible refine Canon.fst (by assumption) ?_ | with_reducible refine Canon.mid (by assumption) ?_ | with_reducible refine Canon.thd (by assumption) ?_ | dsimp only

theorem Chip.carryAll_canon {vt : Inv} {m m0 : Chip} {t ob nb : Nat} {old l : List InstEnt} {n : Nat × Nat × Nat} (h0 : Canon vt m) : Canon vt (m.carryAll m0 t ob nb old l n).2 := by
  induction l generalizing m n with
  | nil => exact h0
  | cons e r ih =>
    obtain ⟨c, f, q⟩ := n
    unfold Chip.carryAll
    split
    · exact ih h0
    · exact ih (Chip.carryInst_canon h0)
    · exact ih (Canon.ite (Chip.post_canon h0) h0)

theorem Chip.swapDone_canon {vt : Inv} {m : Chip} {t : Nat} {kind : Nat} {c : Nat} {f : Nat} {r : Nat} {d : Nat} (h0 : Canon vt m) : Canon vt (Chip.swapDone m t kind c f r d) := by
  unfold Chip.swapDone
  repeat' first | with_reducible assumption | with_reducible apply Chip.post_canon | with_reducible apply Chip.put_canon

theorem Chip.coldLoad_canon {vt : Inv} {m : Chip} {t : Nat} {g : Image} {base : Nat} (h0 : Canon vt m) : Canon vt (Chip.coldLoad m t g base) := by
  unfold Chip.coldLoad
  repeat' first | with_reducible assumption | with_reducible apply Chip.setTask_canon | with_reducible apply Chip.swapDone_canon | with_reducible apply Chip.loadData_canon | with_reducible apply Chip.clearSlots_canon | with_reducible apply Chip.setRun_canon

theorem Chip.writeValues_canon {vt : Inv} {m : Chip} {t : Nat} {l : List ValEnt} (h0 : Canon vt m) : Canon vt (Chip.writeValues m t l) := by
  unfold Chip.writeValues
  repeat' first | with_reducible assumption | with_reducible apply Canon.foldl | intro _ | with_reducible apply Chip.wr_canon

theorem Chip.makeSwitch_canon {vt : Inv} {m : Chip} {t : Nat} {s : Swap} (h0 : Canon vt m) : Canon vt (Chip.makeSwitch m t s) := by
  unfold Chip.makeSwitch
  repeat' first | with_reducible assumption | with_reducible apply Canon.foldl | intro _ | with_reducible apply Chip.carryAll_canon | with_reducible apply Chip.loadData_canon | with_reducible apply Chip.setRun_canon | with_reducible apply Chip.setTask_canon | with_reducible apply Chip.swapDone_canon | with_reducible apply Chip.setBytes_canon | with_reducible apply Chip.writeValues_canon | with_reducible apply Chip.setSlot_canon | with_reducible apply Chip.clearSlots_canon | with_reducible apply Chip.coldLoad_canon | with_reducible apply Canon.ite | split | with_reducible refine Canon.snd (by assumption) ?_ | with_reducible refine Canon.fst (by assumption) ?_ | with_reducible refine Canon.mid (by assumption) ?_ | with_reducible refine Canon.thd (by assumption) ?_ | dsimp only

theorem Chip.colSwitch_canon {vt : Inv} {m : Chip} {t : Nat} (h0 : Canon vt m) : Canon vt (Chip.colSwitch m t) := by
  unfold Chip.colSwitch
  repeat' first | with_reducible assumption | with_reducible apply Chip.settleTask_canon | with_reducible apply Chip.makeSwitch_canon | with_reducible apply Canon.ite | split | with_reducible refine Canon.snd (by assumption) ?_ | with_reducible refine Canon.fst (by assumption) ?_ | with_reducible refine Canon.mid (by assumption) ?_ | with_reducible refine Canon.thd (by assumption) ?_ | dsimp only

/-! ### Ridge -/

theorem Chip.setLevel_canon {vt : Inv} {m : Chip} {b : Int} (h0 : Canon vt m) : Canon vt (Chip.setLevel m b) := by
  unfold Chip.setLevel
  repeat' first | with_reducible assumption | with_reducible apply Chip.withRidge_canon | with_reducible apply Chip.setReg_canon | with_reducible apply Chip.put_canon

theorem Chip.setJobs_canon {vt : Inv} {m : Chip} {l : List Job} (h0 : Canon vt m) : Canon vt (Chip.setJobs m l) := by
  unfold Chip.setJobs
  repeat' first | with_reducible assumption | with_reducible apply Chip.withRidge_canon

theorem Chip.setPdOn_canon {vt : Inv} {m : Chip} {d : Nat} {v : Bool} (h0 : Canon vt m) : Canon vt (Chip.setPdOn m d v) := by
  unfold Chip.setPdOn
  repeat' first | with_reducible assumption | with_reducible apply Chip.put_canon

theorem Chip.setPdReady_canon {vt : Inv} {m : Chip} {d : Nat} {v : Bool} (h0 : Canon vt m) : Canon vt (Chip.setPdReady m d v) := by
  unfold Chip.setPdReady
  repeat' first | with_reducible assumption | with_reducible apply Chip.put_canon

theorem Chip.setState_canon {vt : Inv} {m : Chip} {v : Nat} (h0 : Canon vt m) : Canon vt (Chip.setState m v) := by
  unfold Chip.setState
  repeat' first | with_reducible assumption | with_reducible apply Chip.put_canon | with_reducible apply Chip.post_canon | with_reducible apply Canon.ite

theorem Chip.showBurst_canon {vt : Inv} {m : Chip} (h0 : Canon vt m) : Canon vt (Chip.showBurst m) := by
  unfold Chip.showBurst
  repeat' first | with_reducible assumption | with_reducible apply Chip.setState_canon | with_reducible apply Canon.ite

theorem Chip.domainOn_canon {vt : Inv} {m : Chip} {d : Nat} (h0 : Canon vt m) : Canon vt (Chip.domainOn m d) := by
  unfold Chip.domainOn
  repeat' first | with_reducible assumption | with_reducible apply Chip.withRidge_canon | with_reducible apply Chip.showBurst_canon | with_reducible apply Chip.setPdOn_canon | with_reducible apply Canon.ite

theorem Chip.domainOff_canon {vt : Inv} {m : Chip} {d : Nat} (h0 : Canon vt m) : Canon vt (Chip.domainOff m d) := by
  unfold Chip.domainOff
  repeat' first | with_reducible assumption | with_reducible apply Chip.showBurst_canon | with_reducible apply Chip.withRidge_canon | with_reducible apply Chip.setPdOn_canon | with_reducible apply Chip.setPdReady_canon | split | with_reducible refine Canon.snd (by assumption) ?_ | with_reducible refine Canon.fst (by assumption) ?_ | with_reducible refine Canon.mid (by assumption) ?_ | with_reducible refine Canon.thd (by assumption) ?_ | dsimp only

theorem Chip.stepVcore_canon {vt : Inv} {m : Chip} (h0 : Canon vt m) : Canon vt (Chip.stepVcore m) := by
  unfold Chip.stepVcore
  repeat' first | with_reducible assumption | with_reducible apply Chip.withRidge_canon | with_reducible apply Canon.ite

theorem Chip.startRelock_canon {vt : Inv} {m : Chip} {c : Nat} {f : Nat} (h0 : Canon vt m) : Canon vt (Chip.startRelock m c f) := by
  unfold Chip.startRelock
  repeat' first | with_reducible assumption | with_reducible apply Chip.withRidge_canon

theorem Chip.setClock_canon {vt : Inv} {m : Chip} {c : Nat} {f : Nat} (h0 : Canon vt m) : Canon vt (Chip.setClock m c f) := by
  unfold Chip.setClock
  repeat' first | with_reducible assumption | with_reducible apply Chip.startRelock_canon | with_reducible apply Chip.withRidge_canon | with_reducible apply Chip.stepVcore_canon | with_reducible apply Canon.ite

theorem Chip.clockLocked_canon {vt : Inv} {m : Chip} {c : Nat} (h0 : Canon vt m) : Canon vt (Chip.clockLocked m c) := by
  unfold Chip.clockLocked
  repeat' first | with_reducible assumption | with_reducible apply Chip.withRidge_canon | with_reducible apply Chip.put_canon | with_reducible apply Chip.stepVcore_canon | split | with_reducible refine Canon.snd (by assumption) ?_ | with_reducible refine Canon.fst (by assumption) ?_ | with_reducible refine Canon.mid (by assumption) ?_ | with_reducible refine Canon.thd (by assumption) ?_ | dsimp only

theorem Chip.vcoreSettle_canon {vt : Inv} {m : Chip} (h0 : Canon vt m) : Canon vt (Chip.vcoreSettle m) := by
  unfold Chip.vcoreSettle
  repeat' first | with_reducible assumption | with_reducible apply Canon.foldl | intro _ | with_reducible apply Chip.stepVcore_canon | with_reducible apply Chip.domainOn_canon | with_reducible apply Chip.startRelock_canon | with_reducible apply Chip.withRidge_canon | with_reducible apply Chip.put_canon | with_reducible apply Canon.ite | split | with_reducible refine Canon.snd (by assumption) ?_ | with_reducible refine Canon.fst (by assumption) ?_ | with_reducible refine Canon.mid (by assumption) ?_ | with_reducible refine Canon.thd (by assumption) ?_ | dsimp only

theorem Chip.revoke_canon {vt : Inv} {m : Chip} {j : Job} (h0 : Canon vt m) : Canon vt (Chip.revoke m j) := by
  unfold Chip.revoke
  repeat' first | with_reducible assumption | with_reducible apply Chip.setJobs_canon | with_reducible apply Chip.setClock_canon | with_reducible apply Chip.post_canon

theorem Chip.revokeWhile_canon {vt : Inv} {m : Chip} {p : Chip → Bool} {l : List Job} (h0 : Canon vt m) : Canon vt (Chip.revokeWhile p l m) := by
  induction l generalizing m with
  | nil => exact h0
  | cons e r ih => exact Canon.ite (ih (Chip.revoke_canon h0)) h0

theorem Chip.refuseJob_canon {vt : Inv} {m : Chip} {k : Nat} (h0 : Canon vt m) : Canon vt (Chip.refuseJob m k).2 := by
  unfold Chip.refuseJob
  repeat' first | with_reducible assumption | with_reducible apply Chip.count_canon | dsimp only

theorem Chip.startJob_canon {vt : Inv} {m : Chip} {j : Job} (h0 : Canon vt m) : Canon vt (Chip.startJob m j) := by
  unfold Chip.startJob
  repeat' first | with_reducible assumption | with_reducible apply Canon.foldl | intro _ | with_reducible apply Chip.withRidge_canon | with_reducible apply Chip.stepVcore_canon | with_reducible apply Chip.domainOn_canon | with_reducible apply Chip.put_canon | with_reducible apply Chip.setJobs_canon | with_reducible apply Canon.ite | split | with_reducible refine Canon.snd (by assumption) ?_ | with_reducible refine Canon.fst (by assumption) ?_ | with_reducible refine Canon.mid (by assumption) ?_ | with_reducible refine Canon.thd (by assumption) ?_ | dsimp only

theorem Chip.admitJob_canon {vt : Inv} {m : Chip} {j : Job} (h0 : Canon vt m) : Canon vt (Chip.admitJob m j).2 := by
  unfold Chip.admitJob
  repeat' first | with_reducible assumption | with_reducible apply Chip.startJob_canon | with_reducible apply Chip.post_canon | with_reducible apply Chip.setLevel_canon | with_reducible apply Chip.revokeWhile_canon | with_reducible apply Chip.refuseJob_canon | with_reducible apply Canon.ite | with_reducible apply Canon.iteR | split | with_reducible refine Canon.snd (by assumption) ?_ | with_reducible refine Canon.fst (by assumption) ?_ | with_reducible refine Canon.mid (by assumption) ?_ | with_reducible refine Canon.thd (by assumption) ?_ | dsimp only

theorem Chip.settleJob_canon {vt : Inv} {m : Chip} {cost : Nat} {measured : Option Nat} (h0 : Canon vt m) : Canon vt (Chip.settleJob m cost measured) := by
  unfold Chip.settleJob
  repeat' first | with_reducible assumption | with_reducible apply Chip.setLevel_canon | split | with_reducible refine Canon.snd (by assumption) ?_ | with_reducible refine Canon.fst (by assumption) ?_ | with_reducible refine Canon.mid (by assumption) ?_ | with_reducible refine Canon.thd (by assumption) ?_ | dsimp only

theorem Chip.markIdle_canon {vt : Inv} {m : Chip} {d : Nat} (h0 : Canon vt m) : Canon vt (Chip.markIdle m d) := by
  unfold Chip.markIdle
  repeat' first | with_reducible assumption | with_reducible apply Chip.withRidge_canon

theorem Chip.endJob_canon {vt : Inv} {m : Chip} {p : Job → Bool} {measured : Option Nat} (h0 : Canon vt m) : Canon vt (Chip.endJob m p measured) := by
  unfold Chip.endJob
  repeat' first | with_reducible assumption | with_reducible apply Canon.foldl | intro _ | with_reducible apply Chip.markIdle_canon | with_reducible apply Chip.put_canon | with_reducible apply Chip.setJobs_canon | with_reducible apply Chip.settleJob_canon | with_reducible apply Canon.ite | split | with_reducible refine Canon.snd (by assumption) ?_ | with_reducible refine Canon.fst (by assumption) ?_ | with_reducible refine Canon.mid (by assumption) ?_ | with_reducible refine Canon.thd (by assumption) ?_ | dsimp only

theorem Chip.jobCancelled_canon {vt : Inv} {m : Chip} {k : Nat} {reason : Nat} (h0 : Canon vt m) : Canon vt (Chip.jobCancelled m k reason) := by
  unfold Chip.jobCancelled
  repeat' first | with_reducible assumption | with_reducible apply Chip.post_canon

theorem Chip.ridgeSubmit_canon {vt : Inv} {m : Chip} {core : Nat} {cls : Nat} {cost : Nat} {draw : Nat} (h0 : Canon vt m) : Canon vt (Chip.ridgeSubmit m core cls cost draw).2 := by
  unfold Chip.ridgeSubmit
  repeat' first | with_reducible assumption | with_reducible apply Chip.admitJob_canon | with_reducible apply Canon.ite | with_reducible apply Canon.iteR | split | with_reducible refine Canon.snd (by assumption) ?_ | with_reducible refine Canon.fst (by assumption) ?_ | with_reducible refine Canon.mid (by assumption) ?_ | with_reducible refine Canon.thd (by assumption) ?_ | dsimp only

theorem Chip.ridgeRelease_canon {vt : Inv} {m : Chip} {core : Nat} {cls : Nat} (h0 : Canon vt m) : Canon vt (Chip.ridgeRelease m core cls).2 := by
  unfold Chip.ridgeRelease
  repeat' first | with_reducible assumption | with_reducible apply Chip.endJob_canon | dsimp only

theorem Chip.jobTimeout_canon {vt : Inv} {m : Chip} {core : Nat} {cls : Nat} (h0 : Canon vt m) : Canon vt (Chip.jobTimeout m core cls) := by
  unfold Chip.jobTimeout
  repeat' first | with_reducible assumption | with_reducible apply Chip.endJob_canon | with_reducible apply Chip.jobCancelled_canon | with_reducible apply Canon.ite

/-! ### CommitCore -/

theorem Chip.setBank_canon {vt : Inv} {m : Chip} {k : Nat} {b : Bank} (h0 : Canon vt m) : Canon vt (Chip.setBank m k b) := by
  unfold Chip.setBank
  repeat' first | with_reducible assumption | with_reducible apply Chip.put_canon | with_reducible apply Chip.withCom_canon

theorem Chip.stageReg_canon {vt : Inv} {m : Chip} {k : Nat} {a : Nat} {w : Word} (h0 : Canon vt m) : Canon vt (Chip.stageReg m k a w) := by
  unfold Chip.stageReg
  repeat' first | with_reducible assumption | with_reducible apply Chip.setBank_canon

theorem Chip.stageBytes_canon {vt : Inv} {m : Chip} {k : Nat} {w : Win} {off : Nat} {l : List Byte} (h0 : Canon vt m) : Canon vt (Chip.stageBytes m k w off l) := by
  unfold Chip.stageBytes
  repeat' first | with_reducible assumption | with_reducible apply Chip.setBank_canon

theorem Chip.stagePoint_canon {vt : Inv} {m : Chip} {k : Nat} {p : PtWrite} (h0 : Canon vt m) : Canon vt (Chip.stagePoint m k p) := by
  unfold Chip.stagePoint
  repeat' first | with_reducible assumption | with_reducible apply Chip.setBank_canon

theorem Chip.discard_canon {vt : Inv} {m : Chip} {k : Nat} (h0 : Canon vt m) : Canon vt (Chip.discard m k) := by
  unfold Chip.discard
  repeat' first | with_reducible assumption | with_reducible apply Chip.setBank_canon

theorem Chip.setPend_canon {vt : Inv} {m : Chip} {k : Nat} {p : PendCommit} (h0 : Canon vt m) : Canon vt (Chip.setPend m k p) := by
  unfold Chip.setPend
  repeat' first | with_reducible assumption | with_reducible apply Chip.withCom_canon

theorem Chip.setPhase_canon {vt : Inv} {m : Chip} {k : Nat} {p : Nat} (h0 : Canon vt m) : Canon vt (Chip.setPhase m k p) := by
  unfold Chip.setPhase
  repeat' first | with_reducible assumption | with_reducible apply Chip.put_canon

theorem Chip.result_canon {vt : Inv} {m : Chip} {k : Nat} {v : Verdict} {aborted : Bool} {trap : Bool} {rej : Bool} (h0 : Canon vt m) : Canon vt (Chip.result m k v aborted trap rej) := by
  unfold Chip.result
  repeat' first | with_reducible assumption | with_reducible apply Chip.setReg_canon | with_reducible apply Chip.put64_canon

theorem Chip.finish_canon {vt : Inv} {m : Chip} {k : Nat} {v : Verdict} {aborted : Bool} {trap : Bool} {rej : Bool} (h0 : Canon vt m) : Canon vt (Chip.finish m k v aborted trap rej) := by
  unfold Chip.finish
  repeat' first | with_reducible assumption | with_reducible apply Chip.setPhase_canon | with_reducible apply Chip.put_canon | with_reducible apply Chip.result_canon | with_reducible apply Chip.withCom_canon | with_reducible apply Canon.ite

theorem Chip.goWith_canon {vt : Inv} {m : Chip} {k : Nat} {judge : Bank → Option Verdict} (h0 : Canon vt m) : Canon vt (Chip.goWith m k judge) := by
  unfold Chip.goWith
  repeat' first | with_reducible assumption | with_reducible apply Chip.setBank_canon | with_reducible apply Chip.setPend_canon | with_reducible apply Chip.put_canon | with_reducible apply Chip.setPhase_canon | with_reducible apply Chip.result_canon | with_reducible apply Canon.ite

theorem Chip.sendSet_canon {vt : Inv} {m : Chip} {k : Nat} {p : PendCommit} {swap : Bool} (h0 : Canon vt m) : Canon vt (Chip.sendSet m k p swap) := by
  unfold Chip.sendSet
  repeat' first | with_reducible assumption | with_reducible apply Chip.stream_canon

theorem Chip.rulesPassed_canon {vt : Inv} {m : Chip} {k : Nat} (h0 : Canon vt m) : Canon vt (Chip.rulesPassed m k) := by
  unfold Chip.rulesPassed
  repeat' first | with_reducible assumption | with_reducible apply Chip.sendSet_canon | with_reducible apply Chip.setPhase_canon | with_reducible apply Canon.ite | split | with_reducible refine Canon.snd (by assumption) ?_ | with_reducible refine Canon.fst (by assumption) ?_ | with_reducible refine Canon.mid (by assumption) ?_ | with_reducible refine Canon.thd (by assumption) ?_ | dsimp only

theorem Chip.checkStop_canon {vt : Inv} {m : Chip} {k : Nat} (h0 : Canon vt m) : Canon vt (Chip.checkStop m k) := by
  unfold Chip.checkStop
  repeat' first | with_reducible assumption | with_reducible apply Chip.endJob_canon | with_reducible apply Chip.withScan_canon | with_reducible apply Chip.setCore_canon

theorem Chip.checkStart_canon {vt : Inv} {m : Chip} {k : Nat} {g : Image} {p : PendCommit} (h0 : Canon vt m) : Canon vt (Chip.checkStart m k g p) := by
  unfold Chip.checkStart
  repeat' first | with_reducible assumption | with_reducible apply Chip.setPend_canon | with_reducible apply Chip.setPhase_canon | with_reducible apply Chip.loadData_canon | with_reducible apply Chip.setCore_canon | with_reducible apply Chip.withScan_canon | with_reducible apply Canon.ite

theorem Chip.rulesDone_canon {vt : Inv} {m : Chip} {k : Nat} (h0 : Canon vt m) : Canon vt (Chip.rulesDone m k) := by
  unfold Chip.rulesDone
  repeat' first | with_reducible assumption | with_reducible apply Chip.checkStart_canon | with_reducible apply Chip.admitJob_canon | with_reducible apply Chip.rulesPassed_canon | with_reducible apply Chip.finish_canon | with_reducible apply Canon.ite | split | with_reducible refine Canon.snd (by assumption) ?_ | with_reducible refine Canon.fst (by assumption) ?_ | with_reducible refine Canon.mid (by assumption) ?_ | with_reducible refine Canon.thd (by assumption) ?_ | dsimp only

theorem Chip.checkEnded_canon {vt : Inv} {m : Chip} {k : Nat} {g0 : DWord} (h0 : Canon vt m) : Canon vt (Chip.checkEnded m k g0) := by
  unfold Chip.checkEnded
  repeat' first | with_reducible assumption | with_reducible apply Chip.finish_canon | with_reducible apply Chip.checkStop_canon | with_reducible apply Chip.rulesPassed_canon | with_reducible apply Canon.ite | split | with_reducible refine Canon.snd (by assumption) ?_ | with_reducible refine Canon.fst (by assumption) ?_ | with_reducible refine Canon.mid (by assumption) ?_ | with_reducible refine Canon.thd (by assumption) ?_ | dsimp only

theorem Chip.checkTrapped_canon {vt : Inv} {m : Chip} {k : Nat} (h0 : Canon vt m) : Canon vt (Chip.checkTrapped m k) := by
  unfold Chip.checkTrapped
  repeat' first | with_reducible assumption | with_reducible apply Chip.checkStop_canon | with_reducible apply Chip.finish_canon | with_reducible apply Canon.ite

theorem Chip.checkLimit_canon {vt : Inv} {m : Chip} {k : Nat} (h0 : Canon vt m) : Canon vt (Chip.checkLimit m k) := by
  unfold Chip.checkLimit
  repeat' first | with_reducible assumption | with_reducible apply Chip.checkTrapped_canon | with_reducible apply Canon.ite | split | with_reducible refine Canon.snd (by assumption) ?_ | with_reducible refine Canon.fst (by assumption) ?_ | with_reducible refine Canon.mid (by assumption) ?_ | with_reducible refine Canon.thd (by assumption) ?_ | dsimp only

theorem Chip.prepDone_canon {vt : Inv} {m : Chip} {k : Nat} (h0 : Canon vt m) : Canon vt (Chip.prepDone m k) := by
  unfold Chip.prepDone
  repeat' first | with_reducible assumption | with_reducible apply Chip.setPend_canon | with_reducible apply Chip.setPhase_canon | with_reducible apply Chip.finish_canon | with_reducible apply Canon.ite | split | with_reducible refine Canon.snd (by assumption) ?_ | with_reducible refine Canon.fst (by assumption) ?_ | with_reducible refine Canon.mid (by assumption) ?_ | with_reducible refine Canon.thd (by assumption) ?_ | dsimp only

theorem Chip.taskTimeout_canon {vt : Inv} {m : Chip} {k : Nat} (h0 : Canon vt m) : Canon vt (Chip.taskTimeout m k) := by
  unfold Chip.taskTimeout
  repeat' first | with_reducible assumption | with_reducible apply Chip.finish_canon | with_reducible apply Canon.ite | split | with_reducible refine Canon.snd (by assumption) ?_ | with_reducible refine Canon.fst (by assumption) ?_ | with_reducible refine Canon.mid (by assumption) ?_ | with_reducible refine Canon.thd (by assumption) ?_ | dsimp only

theorem Chip.cancelCommit_canon {vt : Inv} {m : Chip} {k : Nat} {aborted : Bool} (h0 : Canon vt m) : Canon vt (Chip.cancelCommit m k aborted) := by
  unfold Chip.cancelCommit
  repeat' first | with_reducible assumption | with_reducible apply Chip.checkStop_canon | with_reducible apply Chip.finish_canon | with_reducible apply Canon.ite

end Sys2Proof.Machine
end

