-- ==== Sys2Proof/Laws/CanonField.lean ====
section
/-! SUPPORT. What changes of single parts keep, through the loop engine, the transaction engine, the vault, the uplinks, the field ports and the metering DSP (Laws/Canon.lean). -/

namespace Sys2Proof.Machine

open Sys2Proof

/-! ### Loop -/

theorem Chip.setLoopSt_canon {vt : Inv} {m : Chip} {n : Nat} {x : LoopSt} (h0 : Canon vt m) : Canon vt (Chip.setLoopSt m n x) := by
  unfold Chip.setLoopSt
  repeat' first | with_reducible assumption | with_reducible apply Chip.withLoop_canon

theorem Chip.loopFlag_canon {vt : Inv} {m : Chip} {n : Nat} {b : Nat} (h0 : Canon vt m) : Canon vt (Chip.loopFlag m n b) := by
  unfold Chip.loopFlag
  repeat' first | with_reducible assumption | with_reducible apply Chip.put_canon

theorem Chip.loopCount_canon {vt : Inv} {m : Chip} {k : Nat} (h0 : Canon vt m) : Canon vt (Chip.loopCount m k) := by
  unfold Chip.loopCount
  repeat' first | with_reducible assumption | with_reducible apply Chip.count_canon

theorem Chip.setCap_canon {vt : Inv} {m : Chip} {l : AMap (List DWord)} (h0 : Canon vt m) : Canon vt (Chip.setCap m l) := by
  unfold Chip.setCap
  repeat' first | with_reducible assumption | with_reducible apply Chip.withLoop_canon

theorem Chip.capFill_canon {vt : Inv} {m : Chip} (h0 : Canon vt m) : Canon vt (Chip.capFill m) := by
  unfold Chip.capFill
  repeat' first | with_reducible assumption | with_reducible apply Canon.foldl | intro _ | with_reducible apply Chip.put_canon | split | with_reducible refine Canon.snd (by assumption) ?_ | with_reducible refine Canon.fst (by assumption) ?_ | with_reducible refine Canon.mid (by assumption) ?_ | with_reducible refine Canon.thd (by assumption) ?_ | dsimp only

theorem Chip.capEnd_canon {vt : Inv} {m : Chip} {why : Nat} (h0 : Canon vt m) : Canon vt (Chip.capEnd m why) := by
  unfold Chip.capEnd
  repeat' first | with_reducible assumption | with_reducible apply Chip.put_canon | with_reducible apply Chip.post_canon | with_reducible apply Canon.ite

theorem Chip.capTrigger_canon {vt : Inv} {m : Chip} (h0 : Canon vt m) : Canon vt (Chip.capTrigger m) := by
  unfold Chip.capTrigger
  repeat' first | with_reducible assumption | with_reducible apply Chip.put_canon | with_reducible apply Chip.put64_canon | with_reducible apply Canon.ite

theorem Chip.capMaybe_canon {vt : Inv} {m : Chip} {kind : Nat} {arg : Nat} (h0 : Canon vt m) : Canon vt (Chip.capMaybe m kind arg) := by
  unfold Chip.capMaybe
  repeat' first | with_reducible assumption | with_reducible apply Chip.capTrigger_canon | with_reducible apply Canon.ite

theorem Chip.capRecord_canon {vt : Inv} {m : Chip} {n : Nat} {sig : List DWord} (h0 : Canon vt m) : Canon vt (Chip.capRecord m n sig) := by
  unfold Chip.capRecord
  repeat' first | with_reducible assumption | with_reducible apply Canon.foldl | intro _ | with_reducible apply Chip.capEnd_canon | with_reducible apply Chip.capFill_canon | with_reducible apply Chip.setCap_canon | with_reducible apply Canon.ite

theorem Chip.capArm_canon {vt : Inv} {m : Chip} (h0 : Canon vt m) : Canon vt (Chip.capArm m) := by
  unfold Chip.capArm
  repeat' first | with_reducible assumption | with_reducible apply Chip.capTrigger_canon | with_reducible apply Chip.setCap_canon | with_reducible apply Chip.put_canon | with_reducible apply Canon.ite

theorem Chip.setGens_canon {vt : Inv} {m : Chip} {l : List (Nat × Gen)} (h0 : Canon vt m) : Canon vt (Chip.setGens m l) := by
  unfold Chip.setGens
  repeat' first | with_reducible assumption | with_reducible apply Chip.withLoop_canon

theorem Chip.testBit_canon {vt : Inv} {m : Chip} {n : Nat} (h0 : Canon vt m) : Canon vt (Chip.testBit m n) := by
  unfold Chip.testBit
  repeat' first | with_reducible assumption | with_reducible apply Chip.put_canon

theorem Chip.testEnd_canon {vt : Inv} {m : Chip} {g : Nat} {code : Half} {aborted : Bool} (h0 : Canon vt m) : Canon vt (Chip.testEnd m g code aborted) := by
  unfold Chip.testEnd
  repeat' first | with_reducible assumption | with_reducible apply Chip.testBit_canon | with_reducible apply Chip.post_canon | with_reducible apply Chip.setGens_canon | with_reducible apply Chip.put_canon | with_reducible apply Canon.ite | split | with_reducible refine Canon.snd (by assumption) ?_ | with_reducible refine Canon.fst (by assumption) ?_ | with_reducible refine Canon.mid (by assumption) ?_ | with_reducible refine Canon.thd (by assumption) ?_ | dsimp only

theorem Chip.testsLeave_canon {vt : Inv} {m : Chip} {n : Nat} (h0 : Canon vt m) : Canon vt (Chip.testsLeave m n) := by
  unfold Chip.testsLeave
  repeat' first | with_reducible assumption | with_reducible apply Canon.foldl | intro _ | with_reducible apply Chip.testEnd_canon

theorem Chip.testGo_canon {vt : Inv} {m : Chip} {g : Nat} (h0 : Canon vt m) : Canon vt (Chip.testGo m g) := by
  unfold Chip.testGo
  repeat' first | with_reducible assumption | with_reducible apply Chip.setGens_canon | with_reducible apply Chip.testBit_canon | with_reducible apply Chip.put_canon | with_reducible apply Canon.ite

theorem Chip.inject_canon {vt : Inv} {m : Chip} {n : Nat} {period : Nat} (h0 : Canon vt m) : Canon vt (Chip.inject m n period).2.2 := by
  unfold Chip.inject
  repeat' first | with_reducible assumption | with_reducible apply Canon.foldl | intro _ | with_reducible apply Chip.setGens_canon | with_reducible apply Chip.capMaybe_canon | with_reducible apply Chip.testEnd_canon | with_reducible apply Canon.ite | with_reducible apply Canon.iteRR | split | with_reducible refine Canon.snd (by assumption) ?_ | with_reducible refine Canon.fst (by assumption) ?_ | with_reducible refine Canon.mid (by assumption) ?_ | with_reducible refine Canon.thd (by assumption) ?_ | dsimp only

theorem Chip.loopRead_canon {vt : Inv} {m : Chip} {tag : BitVec 40} (h0 : Canon vt m) : Canon vt (Chip.loopRead m tag).2.2 := by
  unfold Chip.loopRead
  repeat' first | with_reducible assumption | with_reducible apply Chip.ptRead_canon | split | with_reducible refine Canon.snd (by assumption) ?_ | with_reducible refine Canon.fst (by assumption) ?_ | with_reducible refine Canon.mid (by assumption) ?_ | with_reducible refine Canon.thd (by assumption) ?_ | dsimp only

theorem Chip.loopFault_canon {vt : Inv} {m : Chip} {n : Nat} {b : Nat} {ent : LoopEnt} {cc : Half} (h0 : Canon vt m) : Canon vt (Chip.loopFault m n b ent cc) := by
  unfold Chip.loopFault
  repeat' first | with_reducible assumption | with_reducible apply Chip.post_canon | with_reducible apply Chip.capMaybe_canon | with_reducible apply Canon.ite

theorem Chip.loopHold_canon {vt : Inv} {m : Chip} {n : Nat} {b : Nat} {ent : LoopEnt} (h0 : Canon vt m) : Canon vt (Chip.loopHold m n b ent) := by
  unfold Chip.loopHold
  repeat' first | with_reducible assumption | with_reducible apply Chip.loopFault_canon | with_reducible apply Chip.loopFlag_canon | with_reducible apply Chip.put_canon | with_reducible apply Chip.setLoopSt_canon | with_reducible apply Canon.ite

theorem Chip.loopWrite_canon {vt : Inv} {m : Chip} {n : Nat} {ent : LoopEnt} {u : DWord} (h0 : Canon vt m) : Canon vt (Chip.loopWrite m n ent u) := by
  unfold Chip.loopWrite
  repeat' first | with_reducible assumption | with_reducible apply Chip.loopFlag_canon | with_reducible apply Chip.loopCount_canon | with_reducible apply Chip.ptWrite_canon | with_reducible apply Canon.ite | split | with_reducible refine Canon.snd (by assumption) ?_ | with_reducible refine Canon.fst (by assumption) ?_ | with_reducible refine Canon.mid (by assumption) ?_ | with_reducible refine Canon.thd (by assumption) ?_ | dsimp only

theorem Chip.loopOut_canon {vt : Inv} {m : Chip} {n : Nat} {ent : LoopEnt} {c : Coef} {raw : DWord} {state : Nat} (h0 : Canon vt m) : Canon vt (Chip.loopOut m n ent c raw state) := by
  unfold Chip.loopOut
  repeat' first | with_reducible assumption | with_reducible apply Chip.setLoopSt_canon | with_reducible apply Chip.loopWrite_canon | with_reducible apply Chip.put_canon

theorem Chip.loopSupervise_canon {vt : Inv} {m : Chip} {n : Nat} {ent : LoopEnt} {e : DWord} (h0 : Canon vt m) : Canon vt (Chip.loopSupervise m n ent e) := by
  unfold Chip.loopSupervise
  repeat' first | with_reducible assumption | with_reducible apply Chip.put_canon | with_reducible apply Chip.loopCount_canon | with_reducible apply Chip.post_canon | with_reducible apply Chip.capMaybe_canon | with_reducible apply Chip.loopFlag_canon | with_reducible apply Chip.setLoopSt_canon | with_reducible apply Canon.ite | split | with_reducible refine Canon.snd (by assumption) ?_ | with_reducible refine Canon.fst (by assumption) ?_ | with_reducible refine Canon.mid (by assumption) ?_ | with_reducible refine Canon.thd (by assumption) ?_ | dsimp only

theorem Chip.loopSetpoint_canon {vt : Inv} {m : Chip} {n : Nat} {ent : LoopEnt} (h0 : Canon vt m) : Canon vt (Chip.loopSetpoint m n ent) := by
  unfold Chip.loopSetpoint
  repeat' first | with_reducible assumption | with_reducible apply Chip.loopFault_canon | with_reducible apply Chip.setLoopSt_canon | with_reducible apply Chip.loopFlag_canon | with_reducible apply Chip.loopCount_canon | with_reducible apply Chip.loopRead_canon | with_reducible apply Canon.ite | split | with_reducible refine Canon.snd (by assumption) ?_ | with_reducible refine Canon.fst (by assumption) ?_ | with_reducible refine Canon.mid (by assumption) ?_ | with_reducible refine Canon.thd (by assumption) ?_ | dsimp only

theorem Chip.loopLast_canon {vt : Inv} {m : Chip} {ent : LoopEnt} {c : Coef} (h0 : Canon vt m) : Canon vt (Chip.loopLast m ent c).2 := by
  unfold Chip.loopLast
  repeat' first | with_reducible assumption | with_reducible apply Chip.loopRead_canon | with_reducible apply Canon.ite | with_reducible apply Canon.iteR | split | with_reducible refine Canon.snd (by assumption) ?_ | with_reducible refine Canon.fst (by assumption) ?_ | with_reducible refine Canon.mid (by assumption) ?_ | with_reducible refine Canon.thd (by assumption) ?_ | dsimp only

theorem Chip.loopSig_canon {vt : Inv} {m : Chip} {n : Nat} {new : List (Nat × DWord)} (h0 : Canon vt m) : Canon vt (Chip.loopSig m n new) := by
  unfold Chip.loopSig
  repeat' first | with_reducible assumption | with_reducible apply Chip.setLoopSt_canon

theorem Chip.loopAuto_canon {vt : Inv} {m : Chip} {n : Nat} {ent : LoopEnt} {c : Coef} {pv : DWord} (h0 : Canon vt m) : Canon vt (Chip.loopAuto m n ent c pv) := by
  unfold Chip.loopAuto
  repeat' first | with_reducible assumption | with_reducible apply Chip.loopSig_canon | with_reducible apply Chip.setLoopSt_canon | with_reducible apply Chip.loopOut_canon | with_reducible apply Chip.put64_canon | with_reducible apply Chip.loopSupervise_canon | with_reducible apply Chip.loopLast_canon | with_reducible apply Chip.inject_canon | with_reducible apply Canon.ite | split | with_reducible refine Canon.snd (by assumption) ?_ | with_reducible refine Canon.fst (by assumption) ?_ | with_reducible refine Canon.mid (by assumption) ?_ | with_reducible refine Canon.thd (by assumption) ?_ | dsimp only

theorem Chip.loopBody_canon {vt : Inv} {m : Chip} {n : Nat} (h0 : Canon vt m) : Canon vt (Chip.loopBody m n) := by
  unfold Chip.loopBody
  repeat' first | with_reducible assumption | with_reducible apply Chip.loopAuto_canon | with_reducible apply Chip.setLoopSt_canon | with_reducible apply Chip.loopOut_canon | with_reducible apply Chip.loopSetpoint_canon | with_reducible apply Chip.loopSig_canon | with_reducible apply Chip.loopRead_canon | with_reducible apply Chip.loopHold_canon | with_reducible apply Chip.put_canon | with_reducible apply Canon.ite | split | with_reducible refine Canon.snd (by assumption) ?_ | with_reducible refine Canon.fst (by assumption) ?_ | with_reducible refine Canon.mid (by assumption) ?_ | with_reducible refine Canon.thd (by assumption) ?_ | dsimp only

theorem Chip.loopAnchor_canon {vt : Inv} {m : Chip} {n : Nat} (h0 : Canon vt m) : Canon vt (Chip.loopAnchor m n) := by
  unfold Chip.loopAnchor
  repeat' first | with_reducible assumption | with_reducible apply Chip.setLoopSt_canon

theorem Chip.loopStep_canon {vt : Inv} {m : Chip} {n : Nat} (h0 : Canon vt m) : Canon vt (Chip.loopStep m n) := by
  unfold Chip.loopStep
  repeat' first | with_reducible assumption | with_reducible apply Chip.setLoopSt_canon | with_reducible apply Canon.ite

theorem Chip.loopSample_canon {vt : Inv} {m : Chip} {n : Nat} (h0 : Canon vt m) : Canon vt (Chip.loopSample m n) := by
  unfold Chip.loopSample
  repeat' first | with_reducible assumption | with_reducible apply Chip.testsLeave_canon | with_reducible apply Chip.stream_canon | with_reducible apply Chip.capRecord_canon | with_reducible apply Chip.loopBody_canon | with_reducible apply Chip.setLoopSt_canon | with_reducible apply Canon.ite | split | with_reducible refine Canon.snd (by assumption) ?_ | with_reducible refine Canon.fst (by assumption) ?_ | with_reducible refine Canon.mid (by assumption) ?_ | with_reducible refine Canon.thd (by assumption) ?_ | dsimp only

theorem Chip.loopCtl_canon {vt : Inv} {m : Chip} {n : Nat} {mode : Option Nat} {reset : Bool} (h0 : Canon vt m) : Canon vt (Chip.loopCtl m n mode reset) := by
  unfold Chip.loopCtl
  repeat' first | with_reducible assumption | with_reducible apply Chip.setLoopSt_canon | with_reducible apply Chip.put_canon | split | with_reducible refine Canon.snd (by assumption) ?_ | with_reducible refine Canon.fst (by assumption) ?_ | with_reducible refine Canon.mid (by assumption) ?_ | with_reducible refine Canon.thd (by assumption) ?_ | dsimp only

theorem Chip.editWrite_canon {vt : Inv} {m : Chip} {n : Nat} {off : Nat} {v : Word} (h0 : Canon vt m) : Canon vt (Chip.editWrite m n off v) := by
  unfold Chip.editWrite
  repeat' first | with_reducible assumption | with_reducible apply Canon.foldl | intro _ | with_reducible apply Chip.setLoopSt_canon

theorem Chip.singleWrite_canon {vt : Inv} {m : Chip} {r : Req} {n : Nat} {off : Nat} {v : Word} (h0 : Canon vt m) : Canon vt (Chip.singleWrite m r n off v) := by
  unfold Chip.singleWrite
  repeat' first | with_reducible assumption | with_reducible apply Chip.wr_canon | with_reducible apply Chip.setReq_canon | with_reducible apply Chip.loopCount_canon | with_reducible apply Canon.ite | split | with_reducible refine Canon.snd (by assumption) ?_ | with_reducible refine Canon.fst (by assumption) ?_ | with_reducible refine Canon.mid (by assumption) ?_ | with_reducible refine Canon.thd (by assumption) ?_ | dsimp only

theorem Chip.loopLoad_canon {vt : Inv} {m : Chip} (h0 : Canon vt m) : Canon vt (Chip.loopLoad m) := by
  unfold Chip.loopLoad
  repeat' first | with_reducible assumption | with_reducible apply Canon.foldl | intro _ | with_reducible apply Chip.put_canon

theorem Chip.withSwap_canon {vt : Inv} {m : Chip} {b : Bank} (h0 : Canon vt m) : Canon vt (Chip.withSwap m b) := by
  unfold Chip.withSwap
  repeat' first | with_reducible assumption | with_reducible apply Canon.foldl | intro _ | with_reducible apply Chip.put_canon | with_reducible apply Chip.setByte_canon

theorem Chip.swapGo_canon {vt : Inv} {m : Chip} {at_ : Bool} (h0 : Canon vt m) : Canon vt (Chip.swapGo m at_) := by
  unfold Chip.swapGo
  repeat' first | with_reducible assumption | with_reducible apply Chip.withSwap_canon | with_reducible apply Chip.goWith_canon | with_reducible apply Chip.put64_canon | with_reducible apply Chip.setBank_canon | with_reducible apply Chip.put_canon | with_reducible apply Canon.ite

theorem Chip.swapApply_canon {vt : Inv} {m : Chip} {loops : List Nat} (h0 : Canon vt m) : Canon vt (Chip.swapApply m loops) := by
  unfold Chip.swapApply
  repeat' first | with_reducible assumption | with_reducible apply Canon.foldl | intro _ | with_reducible apply Chip.post_canon | with_reducible apply Chip.put_canon | with_reducible apply Chip.setLoopSt_canon | with_reducible apply Canon.ite

theorem Chip.loopStart_canon {vt : Inv} {m : Chip} {n : Nat} (h0 : Canon vt m) : Canon vt (Chip.loopStart m n) := by
  unfold Chip.loopStart
  repeat' first | with_reducible assumption | with_reducible apply Chip.setLoopSt_canon | with_reducible apply Chip.loopAnchor_canon | with_reducible apply Chip.put_canon | with_reducible apply Canon.ite

theorem Chip.loopChanged_canon {vt : Inv} {m : Chip} {o : LoopEnt} {n : Nat} (h0 : Canon vt m) : Canon vt (Chip.loopChanged m o n) := by
  unfold Chip.loopChanged
  repeat' first | with_reducible assumption | with_reducible apply Chip.setLoopSt_canon | with_reducible apply Chip.loopAnchor_canon | with_reducible apply Chip.loopStart_canon | with_reducible apply Chip.put_canon | with_reducible apply Chip.testsLeave_canon | with_reducible apply Canon.ite

theorem Chip.loopApplied_canon {vt : Inv} {m : Chip} {old : Chip} (h0 : Canon vt m) : Canon vt (Chip.loopApplied m old) := by
  unfold Chip.loopApplied
  repeat' first | with_reducible assumption | with_reducible apply Canon.foldl | intro _ | with_reducible apply Chip.setLoopSt_canon | with_reducible apply Chip.loopChanged_canon | with_reducible apply Chip.loopLoad_canon | with_reducible apply Canon.ite

theorem Chip.loopDisable_canon {vt : Inv} {m : Chip} (h0 : Canon vt m) : Canon vt (Chip.loopDisable m) := by
  unfold Chip.loopDisable
  repeat' first | with_reducible assumption | with_reducible apply Canon.foldl | intro _ | with_reducible apply Chip.capEnd_canon | with_reducible apply Chip.put_canon | with_reducible apply Chip.testEnd_canon

theorem Chip.loopEnable_canon {vt : Inv} {m : Chip} (h0 : Canon vt m) : Canon vt (Chip.loopEnable m) := by
  unfold Chip.loopEnable
  repeat' first | with_reducible assumption | with_reducible apply Canon.foldl | intro _ | with_reducible apply Chip.put_canon | with_reducible apply Chip.loopStart_canon

/-! ### Traffic -/

theorem Chip.sendPfc_canon {vt : Inv} {m : Chip} {k : Nat} {quanta : Nat} (h0 : Canon vt m) : Canon vt (Chip.sendPfc m k quanta) := by
  unfold Chip.sendPfc
  repeat' first | with_reducible assumption | with_reducible apply Canon.foldl | intro _ | with_reducible apply Chip.emit_canon | with_reducible apply Canon.ite

theorem Chip.judgePfc_canon {vt : Inv} {m : Chip} {k : Nat} (h0 : Canon vt m) : Canon vt (Chip.judgePfc m k) := by
  unfold Chip.judgePfc
  repeat' first | with_reducible assumption | with_reducible apply Chip.put_canon | with_reducible apply Chip.sendPfc_canon | with_reducible apply Chip.post_canon | with_reducible apply Canon.ite

theorem Chip.setOcc_canon {vt : Inv} {m : Chip} {k : Nat} {occ : Nat} {deep : Nat} (h0 : Canon vt m) : Canon vt (Chip.setOcc m k occ deep) := by
  unfold Chip.setOcc
  repeat' first | with_reducible assumption | with_reducible apply Canon.foldl | intro _ | with_reducible apply Chip.judgePfc_canon | with_reducible apply Chip.put_canon

theorem Chip.buffer_canon {vt : Inv} {m : Chip} {k : Nat} {occ : Nat} {deep : Nat} (h0 : Canon vt m) : Canon vt (Chip.buffer m k occ deep).2 := by
  unfold Chip.buffer
  repeat' first | with_reducible assumption | with_reducible apply Chip.withTxn_canon | with_reducible apply Chip.txnCount_canon | with_reducible apply Chip.post_canon | with_reducible apply Chip.setOcc_canon | with_reducible apply Canon.ite | with_reducible apply Canon.iteR | split | with_reducible refine Canon.snd (by assumption) ?_ | with_reducible refine Canon.fst (by assumption) ?_ | with_reducible refine Canon.mid (by assumption) ?_ | with_reducible refine Canon.thd (by assumption) ?_ | dsimp only

theorem Chip.quench_canon {vt : Inv} {m : Chip} {wide : Bool} {target : Nat} {until_ : Nat} {mask : Nat} {rate : Nat} {ack : Bool} {who : Option Nat} (h0 : Canon vt m) : Canon vt (Chip.quench m wide target until_ mask rate ack who).2 := by
  unfold Chip.quench
  repeat' first | with_reducible assumption | with_reducible apply Chip.sendPlain_canon | with_reducible apply Chip.txAccept_canon | with_reducible apply Chip.setSta_canon | with_reducible apply Chip.sendFrame_canon | with_reducible apply Chip.withTxn_canon | with_reducible apply Chip.nextSeq_canon | with_reducible apply Canon.ite | with_reducible apply Canon.iteR | split | with_reducible refine Canon.snd (by assumption) ?_ | with_reducible refine Canon.fst (by assumption) ?_ | with_reducible refine Canon.mid (by assumption) ?_ | with_reducible refine Canon.thd (by assumption) ?_ | dsimp only

theorem Chip.quenchGo_canon {vt : Inv} {m : Chip} {ack : Bool} (h0 : Canon vt m) : Canon vt (Chip.quenchGo m ack) := by
  unfold Chip.quenchGo
  repeat' first | with_reducible assumption | with_reducible apply Chip.quench_canon | with_reducible apply Chip.put_canon | with_reducible apply Canon.ite | split | with_reducible refine Canon.snd (by assumption) ?_ | with_reducible refine Canon.fst (by assumption) ?_ | with_reducible refine Canon.mid (by assumption) ?_ | with_reducible refine Canon.thd (by assumption) ?_ | dsimp only

theorem Chip.babble_canon {vt : Inv} {m : Chip} {n : Nat} (h0 : Canon vt m) : Canon vt (Chip.babble m n) := by
  unfold Chip.babble
  repeat' first | with_reducible assumption | with_reducible apply Chip.txAccept_canon | with_reducible apply Chip.post_canon | with_reducible apply Chip.setSta_canon | with_reducible apply Canon.ite

theorem Chip.hear_canon {vt : Inv} {m : Chip} {n : Nat} (h0 : Canon vt m) : Canon vt (Chip.hear m n) := by
  unfold Chip.hear
  repeat' first | with_reducible assumption | with_reducible apply Chip.setSta_canon

theorem Chip.standbyKeep_canon {vt : Inv} {m : Chip} {type : Nat} {f : RxFrame} (h0 : Canon vt m) : Canon vt (Chip.standbyKeep m type f) := by
  unfold Chip.standbyKeep
  repeat' first | with_reducible assumption | with_reducible apply Chip.withSadl_canon

theorem Chip.acceptFrame_canon {vt : Inv} {m : Chip} {n : Nat} {type : Nat} {seq : Word} (h0 : Canon vt m) : Canon vt (Chip.acceptFrame m n type seq) := by
  unfold Chip.acceptFrame
  repeat' first | with_reducible assumption | with_reducible apply Chip.staUp_canon | with_reducible apply Chip.babble_canon | with_reducible apply Chip.setSta_canon | with_reducible apply Chip.hear_canon

theorem Chip.learn_canon {vt : Inv} {m : Chip} {n : Nat} {f : RxFrame} (h0 : Canon vt m) : Canon vt (Chip.learn m n f) := by
  unfold Chip.learn
  repeat' first | with_reducible assumption | with_reducible apply Chip.withUpl_canon | with_reducible apply Canon.ite

theorem Chip.setSeg_canon {vt : Inv} {m : Chip} {s : Nat} {x : Seg} (h0 : Canon vt m) : Canon vt (Chip.setSeg m s x) := by
  unfold Chip.setSeg
  repeat' first | with_reducible assumption | with_reducible apply Chip.withPorts_canon

theorem Chip.heardPort_canon {vt : Inv} {m : Chip} {n : Nat} (h0 : Canon vt m) : Canon vt (Chip.heardPort m n) := by
  unfold Chip.heardPort
  repeat' first | with_reducible assumption | with_reducible apply Chip.setSeg_canon | with_reducible apply Chip.put_canon | with_reducible apply Canon.ite

theorem Chip.rx_canon {vt : Inv} {m : Chip} {type : Nat} {f : RxFrame} {late : Bool} (h0 : Canon vt m) : Canon vt (Chip.rx m type f late).2 := by
  unfold Chip.rx
  repeat' first | with_reducible assumption | with_reducible apply Chip.acceptFrame_canon | with_reducible apply Chip.learn_canon | with_reducible apply Chip.standbyKeep_canon | with_reducible apply Chip.hear_canon | with_reducible apply Chip.count_canon | with_reducible apply Chip.buffer_canon | with_reducible apply Chip.heardPort_canon | with_reducible apply Chip.txnCount_canon | with_reducible apply Canon.ite | with_reducible apply Canon.iteR | split | with_reducible refine Canon.snd (by assumption) ?_ | with_reducible refine Canon.fst (by assumption) ?_ | with_reducible refine Canon.mid (by assumption) ?_ | with_reducible refine Canon.thd (by assumption) ?_ | dsimp only

theorem Chip.landEntry_canon {vt : Inv} {m : Chip} {f : RxFrame} {off : Nat} (h0 : Canon vt m) : Canon vt (Chip.landEntry m f off) := by
  unfold Chip.landEntry
  repeat' first | with_reducible assumption | with_reducible apply Chip.txnCount_canon | with_reducible apply Chip.ptWrite_canon | with_reducible apply Canon.ite | split | with_reducible refine Canon.snd (by assumption) ?_ | with_reducible refine Canon.fst (by assumption) ?_ | with_reducible refine Canon.mid (by assumption) ?_ | with_reducible refine Canon.thd (by assumption) ?_ | dsimp only

theorem Chip.ioReport_canon {vt : Inv} {m : Chip} {f : RxFrame} (h0 : Canon vt m) : Canon vt (Chip.ioReport m f) := by
  unfold Chip.ioReport
  repeat' first | with_reducible assumption | with_reducible apply Canon.foldl | intro _ | with_reducible apply Chip.landEntry_canon | with_reducible apply Chip.rx_canon | with_reducible apply Canon.ite | split | with_reducible refine Canon.snd (by assumption) ?_ | with_reducible refine Canon.fst (by assumption) ?_ | with_reducible refine Canon.mid (by assumption) ?_ | with_reducible refine Canon.thd (by assumption) ?_ | dsimp only

theorem Chip.txEnd_canon {vt : Inv} {m : Chip} {t : Tx} {code : Half} (h0 : Canon vt m) : Canon vt (Chip.txEnd m t code) := by
  unfold Chip.txEnd
  repeat' first | with_reducible assumption | with_reducible apply Chip.setTxs_canon | with_reducible apply Chip.txReport_canon

theorem Chip.respond_canon {vt : Inv} {m : Chip} {type : Nat} {p : TxKind → Bool} {f : RxFrame} {code : Half} (h0 : Canon vt m) : Canon vt (Chip.respond m type p f code) := by
  unfold Chip.respond
  repeat' first | with_reducible assumption | with_reducible apply Chip.txEnd_canon | with_reducible apply Chip.rx_canon | with_reducible apply Canon.ite | split | with_reducible refine Canon.snd (by assumption) ?_ | with_reducible refine Canon.fst (by assumption) ?_ | with_reducible refine Canon.mid (by assumption) ?_ | with_reducible refine Canon.thd (by assumption) ?_ | dsimp only

theorem Chip.ioAck_canon {vt : Inv} {m : Chip} {f : RxFrame} (h0 : Canon vt m) : Canon vt (Chip.ioAck m f) := by
  unfold Chip.ioAck
  repeat' first | with_reducible assumption | with_reducible apply Chip.respond_canon | with_reducible apply Canon.ite

theorem Chip.hello_canon {vt : Inv} {m : Chip} {f : RxFrame} (h0 : Canon vt m) : Canon vt (Chip.hello m f) := by
  unfold Chip.hello
  repeat' first | with_reducible assumption | with_reducible apply Chip.txEnd_canon | with_reducible apply Chip.setSta_canon | with_reducible apply Chip.rx_canon | with_reducible apply Canon.ite | split | with_reducible refine Canon.snd (by assumption) ?_ | with_reducible refine Canon.fst (by assumption) ?_ | with_reducible refine Canon.mid (by assumption) ?_ | with_reducible refine Canon.thd (by assumption) ?_ | dsimp only

theorem Chip.quenchAck_canon {vt : Inv} {m : Chip} {f : RxFrame} (h0 : Canon vt m) : Canon vt (Chip.quenchAck m f) := by
  unfold Chip.quenchAck
  repeat' first | with_reducible assumption | with_reducible apply Chip.respond_canon

theorem Chip.lgRead_canon {vt : Inv} {m : Chip} {f : RxFrame} (h0 : Canon vt m) : Canon vt (Chip.lgRead m f) := by
  unfold Chip.lgRead
  repeat' first | with_reducible assumption | with_reducible apply Chip.sendPlain_canon | with_reducible apply Chip.ptRead_canon | with_reducible apply Chip.rx_canon | with_reducible apply Canon.ite | split | with_reducible refine Canon.snd (by assumption) ?_ | with_reducible refine Canon.fst (by assumption) ?_ | with_reducible refine Canon.mid (by assumption) ?_ | with_reducible refine Canon.thd (by assumption) ?_ | dsimp only

theorem Chip.lgWrite_canon {vt : Inv} {m : Chip} {f : RxFrame} (h0 : Canon vt m) : Canon vt (Chip.lgWrite m f) := by
  unfold Chip.lgWrite
  repeat' first | with_reducible assumption | with_reducible apply Chip.sendPlain_canon | with_reducible apply Chip.ptWrite_canon | with_reducible apply Chip.rx_canon | with_reducible apply Canon.ite | split | with_reducible refine Canon.snd (by assumption) ?_ | with_reducible refine Canon.fst (by assumption) ?_ | with_reducible refine Canon.mid (by assumption) ?_ | with_reducible refine Canon.thd (by assumption) ?_ | dsimp only

theorem Chip.lgResp_canon {vt : Inv} {m : Chip} {f : RxFrame} (h0 : Canon vt m) : Canon vt (Chip.lgResp m f) := by
  unfold Chip.lgResp
  repeat' first | with_reducible assumption | with_reducible apply Chip.txEnd_canon | with_reducible apply Chip.accImage_canon | with_reducible apply Chip.rx_canon | with_reducible apply Canon.ite | split | with_reducible refine Canon.snd (by assumption) ?_ | with_reducible refine Canon.fst (by assumption) ?_ | with_reducible refine Canon.mid (by assumption) ?_ | with_reducible refine Canon.thd (by assumption) ?_ | dsimp only

theorem Chip.lgSubscribe_canon {vt : Inv} {m : Chip} {f : RxFrame} (h0 : Canon vt m) : Canon vt (Chip.lgSubscribe m f) := by
  unfold Chip.lgSubscribe
  repeat' first | with_reducible assumption | with_reducible apply Chip.ptRead_canon | with_reducible apply Chip.withTxn_canon | with_reducible apply Chip.rangeFault_canon | with_reducible apply Chip.sendPlain_canon | with_reducible apply Chip.rx_canon | with_reducible apply Canon.ite | split | with_reducible refine Canon.snd (by assumption) ?_ | with_reducible refine Canon.fst (by assumption) ?_ | with_reducible refine Canon.mid (by assumption) ?_ | with_reducible refine Canon.thd (by assumption) ?_ | dsimp only

theorem Chip.lgUpdate_canon {vt : Inv} {m : Chip} {f : RxFrame} (h0 : Canon vt m) : Canon vt (Chip.lgUpdate m f) := by
  unfold Chip.lgUpdate
  repeat' first | with_reducible assumption | with_reducible apply Canon.foldl | intro _ | with_reducible apply Chip.txEnd_canon | with_reducible apply Chip.ptWrite_canon | with_reducible apply Chip.rx_canon | with_reducible apply Canon.ite | split | with_reducible refine Canon.snd (by assumption) ?_ | with_reducible refine Canon.fst (by assumption) ?_ | with_reducible refine Canon.mid (by assumption) ?_ | with_reducible refine Canon.thd (by assumption) ?_ | dsimp only

theorem Chip.timeBeacon_canon {vt : Inv} {m : Chip} {f : RxFrame} (h0 : Canon vt m) : Canon vt (Chip.timeBeacon m f) := by
  unfold Chip.timeBeacon
  repeat' first | with_reducible assumption | with_reducible apply Chip.withSadl_canon | with_reducible apply Canon.ite

theorem Chip.transmit_canon {vt : Inv} {m : Chip} {t : Tx} (h0 : Canon vt m) : Canon vt (Chip.transmit m t) := by
  unfold Chip.transmit
  repeat' first | with_reducible assumption | with_reducible apply Chip.sendFrame_canon

theorem Chip.txSwap_canon {vt : Inv} {m : Chip} {t : Tx} {u : Tx} (h0 : Canon vt m) : Canon vt (Chip.txSwap m t u) := by
  unfold Chip.txSwap
  repeat' first | with_reducible assumption | with_reducible apply Chip.setTxs_canon | split | with_reducible refine Canon.snd (by assumption) ?_ | with_reducible refine Canon.fst (by assumption) ?_ | with_reducible refine Canon.mid (by assumption) ?_ | with_reducible refine Canon.thd (by assumption) ?_ | dsimp only

theorem Chip.txSend_canon {vt : Inv} {m : Chip} (h0 : Canon vt m) : Canon vt (Chip.txSend m) := by
  unfold Chip.txSend
  repeat' first | with_reducible assumption | with_reducible apply Chip.txSwap_canon | with_reducible apply Chip.transmit_canon | with_reducible apply Chip.nextSeq_canon | split | with_reducible refine Canon.snd (by assumption) ?_ | with_reducible refine Canon.fst (by assumption) ?_ | with_reducible refine Canon.mid (by assumption) ?_ | with_reducible refine Canon.thd (by assumption) ?_ | dsimp only

theorem Chip.txTimeout_canon {vt : Inv} {m : Chip} {n : Nat} {seq : Word} (h0 : Canon vt m) : Canon vt (Chip.txTimeout m n seq) := by
  unfold Chip.txTimeout
  repeat' first | with_reducible assumption | with_reducible apply Chip.txSwap_canon | with_reducible apply Chip.transmit_canon | with_reducible apply Chip.txDone_canon | with_reducible apply Canon.ite | split | with_reducible refine Canon.snd (by assumption) ?_ | with_reducible refine Canon.fst (by assumption) ?_ | with_reducible refine Canon.mid (by assumption) ?_ | with_reducible refine Canon.thd (by assumption) ?_ | dsimp only

theorem Chip.txDeadline_canon {vt : Inv} {m : Chip} {n : Nat} (h0 : Canon vt m) : Canon vt (Chip.txDeadline m n) := by
  unfold Chip.txDeadline
  repeat' first | with_reducible assumption | with_reducible apply Chip.txEnd_canon | split | with_reducible refine Canon.snd (by assumption) ?_ | with_reducible refine Canon.fst (by assumption) ?_ | with_reducible refine Canon.mid (by assumption) ?_ | with_reducible refine Canon.thd (by assumption) ?_ | dsimp only

theorem Chip.staSilent_canon {vt : Inv} {m : Chip} {n : Nat} (h0 : Canon vt m) : Canon vt (Chip.staSilent m n) := by
  unfold Chip.staSilent
  repeat' first | with_reducible assumption | with_reducible apply Chip.staDown_canon | with_reducible apply Canon.ite

theorem Chip.subscribe_canon {vt : Inv} {m : Chip} {route : Nat} (h0 : Canon vt m) : Canon vt (Chip.subscribe m route) := by
  unfold Chip.subscribe
  repeat' first | with_reducible assumption | with_reducible apply Chip.txAccept_canon | with_reducible apply Canon.ite

theorem Chip.dropSubs_canon {vt : Inv} {m : Chip} (h0 : Canon vt m) : Canon vt (Chip.dropSubs m) := by
  unfold Chip.dropSubs
  repeat' first | with_reducible assumption | with_reducible apply Chip.withTxn_canon

theorem Chip.outExpire_canon {vt : Inv} {m : Chip} {n : Nat} {group : Nat} (h0 : Canon vt m) : Canon vt (Chip.outExpire m n group) := by
  unfold Chip.outExpire
  repeat' first | with_reducible assumption | with_reducible apply Chip.withTxn_canon | with_reducible apply Chip.post_canon | with_reducible apply Canon.ite | split | with_reducible refine Canon.snd (by assumption) ?_ | with_reducible refine Canon.fst (by assumption) ?_ | with_reducible refine Canon.mid (by assumption) ?_ | with_reducible refine Canon.thd (by assumption) ?_ | dsimp only

theorem Chip.quenchEnd_canon {vt : Inv} {m : Chip} {n : Nat} (h0 : Canon vt m) : Canon vt (Chip.quenchEnd m n) := by
  unfold Chip.quenchEnd
  repeat' first | with_reducible assumption | with_reducible apply Chip.setSta_canon | with_reducible apply Chip.babble_canon | with_reducible apply Canon.ite

theorem Chip.pfcRepeat_canon {vt : Inv} {m : Chip} {k : Nat} {deep : Nat} (h0 : Canon vt m) : Canon vt (Chip.pfcRepeat m k deep) := by
  unfold Chip.pfcRepeat
  repeat' first | with_reducible assumption | with_reducible apply Chip.sendPfc_canon | with_reducible apply Chip.setOcc_canon | with_reducible apply Canon.ite

theorem Chip.pfcFrame_canon {vt : Inv} {m : Chip} {u : Nat} {vec : Byte} {quanta : List Nat} (h0 : Canon vt m) : Canon vt (Chip.pfcFrame m u vec quanta) := by
  unfold Chip.pfcFrame
  repeat' first | with_reducible assumption | with_reducible apply Canon.foldl | intro _ | with_reducible apply Chip.withTxn_canon | with_reducible apply Chip.txnCount_canon | with_reducible apply Canon.ite

theorem Chip.uplDrop_canon {vt : Inv} {m : Chip} {u : Nat} (h0 : Canon vt m) : Canon vt (Chip.uplDrop m u) := by
  unfold Chip.uplDrop
  repeat' first | with_reducible assumption | with_reducible apply Chip.count_canon

/-! ### Vault -/

theorem Chip.setVault_canon {vt : Inv} {m : Chip} {v : Vault} (h0 : Canon vt m) : Canon vt (Chip.setVault m v) := by
  unfold Chip.setVault
  repeat' first | with_reducible assumption | with_reducible apply Chip.withVault_canon

theorem Chip.random_canon {vt : Inv} {m : Chip} {n : Nat} (h0 : Canon vt m) : Canon vt (Chip.random n m).2 := by
  induction n generalizing m with
  | zero => exact h0
  | succ n ih => simp only [Chip.random]; exact ih (Chip.fresh_canon h0)

theorem Chip.setVslot_canon {vt : Inv} {m : Chip} {n : Nat} {x : VSlot} (h0 : Canon vt m) : Canon vt (Chip.setVslot m n x) := by
  unfold Chip.setVslot
  repeat' first | with_reducible assumption | with_reducible apply Chip.setVault_canon

theorem Chip.formPair_canon {vt : Inv} {m : Chip} (h0 : Canon vt m) : Canon vt (Chip.formPair m) := by
  unfold Chip.formPair
  repeat' first | with_reducible assumption | with_reducible apply Chip.setVslot_canon

theorem Chip.formFixed_canon {vt : Inv} {m : Chip} (h0 : Canon vt m) : Canon vt (Chip.formFixed m) := by
  unfold Chip.formFixed
  repeat' first | with_reducible assumption | with_reducible apply Chip.formPair_canon | with_reducible apply Chip.setVslot_canon | split | with_reducible refine Canon.snd (by assumption) ?_ | with_reducible refine Canon.fst (by assumption) ?_ | with_reducible refine Canon.mid (by assumption) ?_ | with_reducible refine Canon.thd (by assumption) ?_ | dsimp only

theorem Chip.useKey_canon {vt : Inv} {m : Chip} {n : Nat} (h0 : Canon vt m) : Canon vt (Chip.useKey m n) := by
  unfold Chip.useKey
  repeat' first | with_reducible assumption | with_reducible apply Chip.post_canon | with_reducible apply Chip.setVslot_canon | with_reducible apply Canon.ite

theorem Chip.drawGmk_canon {vt : Inv} {m : Chip} {n : Nat} (h0 : Canon vt m) : Canon vt (Chip.drawGmk m n) := by
  unfold Chip.drawGmk
  repeat' first | with_reducible assumption | with_reducible apply Chip.setVslot_canon | with_reducible apply Chip.random_canon | with_reducible apply Canon.ite | split | with_reducible refine Canon.snd (by assumption) ?_ | with_reducible refine Canon.fst (by assumption) ?_ | with_reducible refine Canon.mid (by assumption) ?_ | with_reducible refine Canon.thd (by assumption) ?_ | dsimp only

theorem Chip.vreset_canon {vt : Inv} {m : Chip} (h0 : Canon vt m) : Canon vt (Chip.vreset m) := by
  unfold Chip.vreset
  repeat' first | with_reducible assumption | with_reducible apply Chip.setVault_canon | with_reducible apply Chip.post_canon

theorem Chip.vdone_canon {vt : Inv} {m : Chip} {r : VReq} {code : Half} {len : Nat} (h0 : Canon vt m) : Canon vt (Chip.vdone m r code len) := by
  unfold Chip.vdone
  repeat' first | with_reducible assumption | with_reducible apply Chip.wr_canon | with_reducible apply Chip.endJob_canon | with_reducible apply Canon.ite

theorem Chip.vcheck_canon {vt : Inv} {m : Chip} {r : VReq} {d : VDesc} {healthy : Bool} (h0 : Canon vt m) : Canon vt (Chip.vcheck m r d healthy).2 := by
  unfold Chip.vcheck
  repeat' first | with_reducible assumption | with_reducible apply Chip.post_canon | with_reducible apply Chip.useKey_canon | with_reducible apply Canon.ite | with_reducible apply Canon.iteR | dsimp only

theorem Chip.vgive_canon {vt : Inv} {m : Chip} {l : List Byte} (h0 : Canon vt m) : Canon vt (Chip.vgive m l).2.2 := by
  unfold Chip.vgive
  repeat' first | with_reducible assumption | dsimp only

theorem Chip.vinstall_canon {vt : Inv} {m : Chip} {d : VDesc} {origin : Nat} {key : List Byte} (h0 : Canon vt m) : Canon vt (Chip.vinstall m d origin key) := by
  unfold Chip.vinstall
  repeat' first | with_reducible assumption | with_reducible apply Chip.setVslot_canon

theorem Chip.vGcmEnc_canon {vt : Inv} {m : Chip} {d : VDesc} {i : List Byte} (h0 : Canon vt m) : Canon vt (Chip.vGcmEnc m d i).2.2 := by
  unfold Chip.vGcmEnc
  repeat' first | with_reducible assumption | with_reducible apply Chip.vgive_canon | dsimp only

theorem Chip.vGcmDec_canon {vt : Inv} {m : Chip} {d : VDesc} {i : List Byte} (h0 : Canon vt m) : Canon vt (Chip.vGcmDec m d i).2.2 := by
  unfold Chip.vGcmDec
  repeat' first | with_reducible assumption | with_reducible apply Chip.vgive_canon | split | with_reducible refine Canon.snd (by assumption) ?_ | with_reducible refine Canon.fst (by assumption) ?_ | with_reducible refine Canon.mid (by assumption) ?_ | with_reducible refine Canon.thd (by assumption) ?_ | dsimp only

theorem Chip.vCtr_canon {vt : Inv} {m : Chip} {d : VDesc} {i : List Byte} (h0 : Canon vt m) : Canon vt (Chip.vCtr m d i).2.2 := by
  unfold Chip.vCtr
  repeat' first | with_reducible assumption | with_reducible apply Chip.vgive_canon | dsimp only

theorem Chip.vMac_canon {vt : Inv} {m : Chip} {d : VDesc} {i : List Byte} (h0 : Canon vt m) : Canon vt (Chip.vMac m d i).2.2 := by
  unfold Chip.vMac
  repeat' first | with_reducible assumption | with_reducible apply Chip.vgive_canon | dsimp only

theorem Chip.vMacCheck_canon {vt : Inv} {m : Chip} {d : VDesc} {i : List Byte} (h0 : Canon vt m) : Canon vt (Chip.vMacCheck m d i).2.2 := by
  unfold Chip.vMacCheck
  repeat' first | with_reducible assumption | with_reducible apply Chip.vgive_canon | with_reducible apply Canon.ite | with_reducible apply Canon.iteRR | dsimp only

theorem Chip.vHash_canon {vt : Inv} {m : Chip} {d : VDesc} {i : List Byte} (h0 : Canon vt m) : Canon vt (Chip.vHash m d i).2.2 := by
  unfold Chip.vHash
  repeat' first | with_reducible assumption | with_reducible apply Chip.vgive_canon | with_reducible apply Canon.ite | with_reducible apply Canon.iteRR | dsimp only

theorem Chip.vSign_canon {vt : Inv} {m : Chip} {d : VDesc} {i : List Byte} (h0 : Canon vt m) : Canon vt (Chip.vSign m d i).2.2 := by
  unfold Chip.vSign
  repeat' first | with_reducible assumption | with_reducible apply Chip.vgive_canon | dsimp only

theorem Chip.vVerify_canon {vt : Inv} {m : Chip} {d : VDesc} {i : List Byte} (h0 : Canon vt m) : Canon vt (Chip.vVerify m d i).2.2 := by
  unfold Chip.vVerify
  repeat' first | with_reducible assumption | with_reducible apply Chip.vgive_canon | with_reducible apply Canon.ite | with_reducible apply Canon.iteRR | dsimp only

theorem Chip.vHkdf_canon {vt : Inv} {m : Chip} {d : VDesc} {i : List Byte} (h0 : Canon vt m) : Canon vt (Chip.vHkdf m d i).2.2 := by
  unfold Chip.vHkdf
  repeat' first | with_reducible assumption | with_reducible apply Chip.vinstall_canon | with_reducible apply Chip.vgive_canon | dsimp only

theorem Chip.vKdf108_canon {vt : Inv} {m : Chip} {d : VDesc} {i : List Byte} (h0 : Canon vt m) : Canon vt (Chip.vKdf108 m d i).2.2 := by
  unfold Chip.vKdf108
  repeat' first | with_reducible assumption | with_reducible apply Chip.vinstall_canon | with_reducible apply Chip.vgive_canon | dsimp only

theorem Chip.vWrap_canon {vt : Inv} {m : Chip} {d : VDesc} (h0 : Canon vt m) : Canon vt (Chip.vWrap m d).2.2 := by
  unfold Chip.vWrap
  repeat' first | with_reducible assumption | with_reducible apply Chip.vgive_canon | with_reducible apply Chip.random_canon | split | with_reducible refine Canon.snd (by assumption) ?_ | with_reducible refine Canon.fst (by assumption) ?_ | with_reducible refine Canon.mid (by assumption) ?_ | with_reducible refine Canon.thd (by assumption) ?_ | dsimp only

theorem Chip.vUnwrap_canon {vt : Inv} {m : Chip} {d : VDesc} {i : List Byte} (h0 : Canon vt m) : Canon vt (Chip.vUnwrap m d i).2.2 := by
  unfold Chip.vUnwrap
  repeat' first | with_reducible assumption | with_reducible apply Chip.setVslot_canon | with_reducible apply Chip.vgive_canon | split | with_reducible refine Canon.snd (by assumption) ?_ | with_reducible refine Canon.fst (by assumption) ?_ | with_reducible refine Canon.mid (by assumption) ?_ | with_reducible refine Canon.thd (by assumption) ?_ | dsimp only

theorem Chip.vGenerate_canon {vt : Inv} {m : Chip} {d : VDesc} (h0 : Canon vt m) : Canon vt (Chip.vGenerate m d).2.2 := by
  unfold Chip.vGenerate
  repeat' first | with_reducible assumption | with_reducible apply Chip.vinstall_canon | with_reducible apply Chip.vgive_canon | with_reducible apply Chip.random_canon | with_reducible apply Canon.ite | with_reducible apply Canon.iteRR | split | with_reducible refine Canon.snd (by assumption) ?_ | with_reducible refine Canon.fst (by assumption) ?_ | with_reducible refine Canon.mid (by assumption) ?_ | with_reducible refine Canon.thd (by assumption) ?_ | dsimp only

theorem Chip.vClear_canon {vt : Inv} {m : Chip} {d : VDesc} (h0 : Canon vt m) : Canon vt (Chip.vClear m d).2.2 := by
  unfold Chip.vClear
  repeat' first | with_reducible assumption | with_reducible apply Chip.setVslot_canon | with_reducible apply Chip.vgive_canon | dsimp only

theorem Chip.vRandom_canon {vt : Inv} {m : Chip} {d : VDesc} (h0 : Canon vt m) : Canon vt (Chip.vRandom m d).2.2 := by
  unfold Chip.vRandom
  repeat' first | with_reducible assumption | with_reducible apply Chip.vgive_canon | with_reducible apply Chip.random_canon | split | with_reducible refine Canon.snd (by assumption) ?_ | with_reducible refine Canon.fst (by assumption) ?_ | with_reducible refine Canon.mid (by assumption) ?_ | with_reducible refine Canon.thd (by assumption) ?_ | dsimp only

theorem Chip.vPubkey_canon {vt : Inv} {m : Chip} {d : VDesc} (h0 : Canon vt m) : Canon vt (Chip.vPubkey m d).2.2 := by
  unfold Chip.vPubkey
  repeat' first | with_reducible assumption | with_reducible apply Chip.vgive_canon | dsimp only

theorem Chip.vAttest_canon {vt : Inv} {m : Chip} {d : VDesc} {i : List Byte} (h0 : Canon vt m) : Canon vt (Chip.vAttest m d i).2.2 := by
  unfold Chip.vAttest
  repeat' first | with_reducible assumption | with_reducible apply Chip.vgive_canon | dsimp only

theorem Chip.setVqueue_canon {vt : Inv} {m : Chip} {q : List VReq} (h0 : Canon vt m) : Canon vt (Chip.setVqueue m q) := by
  unfold Chip.setVqueue
  repeat' first | with_reducible assumption | with_reducible apply Chip.setVault_canon | with_reducible apply Chip.put_canon

theorem Chip.vflush_canon {vt : Inv} {m : Chip} {l : List VReq} (h0 : Canon vt m) : Canon vt (m.vflush l) := by
  induction l generalizing m with
  | nil => exact Chip.setVqueue_canon h0
  | cons e r ih => exact Canon.ite (Chip.setVqueue_canon h0) (ih (Chip.vdone_canon h0))

theorem Chip.vault1_canon {vt : Inv} {m : Chip} {op : Nat} {healthy : Bool} {f : Chip → VDesc → List Byte → VRes} (h0 : Canon vt m)
    (hf : ∀ a d i, Canon vt a → Canon vt (f a d i).2.2) : Canon vt (m.vault1 op healthy f) := by
  unfold Chip.vault1
  repeat' first | with_reducible assumption | with_reducible apply Chip.vflush_canon | with_reducible apply Chip.vdone_canon | with_reducible apply Chip.setBytes_canon | with_reducible apply Chip.count_canon | with_reducible apply hf | with_reducible apply Chip.vcheck_canon | with_reducible apply Chip.put_canon | with_reducible apply Chip.setVqueue_canon | with_reducible apply Canon.ite | split | dsimp only

theorem Chip.vaultSubmit_canon {vt : Inv} {m : Chip} {r : VReq} (h0 : Canon vt m) : Canon vt (Chip.vaultSubmit m r).2 := by
  unfold Chip.vaultSubmit
  repeat' first | with_reducible assumption | with_reducible apply Chip.vdone_canon | with_reducible apply Chip.vflush_canon | with_reducible apply Chip.admitJob_canon | with_reducible apply Chip.setVqueue_canon | with_reducible apply Canon.ite | with_reducible apply Canon.iteR | split | with_reducible refine Canon.snd (by assumption) ?_ | with_reducible refine Canon.fst (by assumption) ?_ | with_reducible refine Canon.mid (by assumption) ?_ | with_reducible refine Canon.thd (by assumption) ?_ | dsimp only

theorem Chip.vaultReg_canon {vt : Inv} {m : Chip} {r : Req} {v : Word} (h0 : Canon vt m) : Canon vt (Chip.vaultReg m r v) := by
  unfold Chip.vaultReg
  repeat' first | with_reducible assumption | with_reducible apply Chip.put_canon | with_reducible apply Chip.vaultSubmit_canon | with_reducible apply Chip.setReg_canon | with_reducible apply Chip.heldWord_canon | split | with_reducible refine Canon.snd (by assumption) ?_ | with_reducible refine Canon.fst (by assumption) ?_ | with_reducible refine Canon.mid (by assumption) ?_ | with_reducible refine Canon.thd (by assumption) ?_ | dsimp only

theorem Chip.vaultInstall_canon {vt : Inv} {m : Chip} {entries : List Nat} (h0 : Canon vt m) : Canon vt (Chip.vaultInstall m entries) := by
  unfold Chip.vaultInstall
  repeat' first | with_reducible assumption | with_reducible apply Canon.foldl | intro _ | with_reducible apply Chip.setVslot_canon | with_reducible apply Canon.ite | split | with_reducible refine Canon.snd (by assumption) ?_ | with_reducible refine Canon.fst (by assumption) ?_ | with_reducible refine Canon.mid (by assumption) ?_ | with_reducible refine Canon.thd (by assumption) ?_ | dsimp only

theorem Chip.otpGo_canon {vt : Inv} {m : Chip} {r : Req} {f : Nat} (h0 : Canon vt m) : Canon vt (Chip.otpGo m r f) := by
  unfold Chip.otpGo
  repeat' first | with_reducible assumption | with_reducible apply Chip.setVault_canon | with_reducible apply Chip.put_canon | with_reducible apply Canon.ite

theorem Chip.otpDone_canon {vt : Inv} {m : Chip} (h0 : Canon vt m) : Canon vt (Chip.otpDone m) := by
  unfold Chip.otpDone
  repeat' first | with_reducible assumption | with_reducible apply Chip.setVault_canon | with_reducible apply Chip.put_canon | with_reducible apply Chip.post_canon | split | with_reducible refine Canon.snd (by assumption) ?_ | with_reducible refine Canon.fst (by assumption) ?_ | with_reducible refine Canon.mid (by assumption) ?_ | with_reducible refine Canon.thd (by assumption) ?_ | dsimp only

theorem Chip.otpCut_canon {vt : Inv} {m : Chip} (h0 : Canon vt m) : Canon vt (Chip.otpCut m) := by
  unfold Chip.otpCut
  repeat' first | with_reducible assumption | with_reducible apply Chip.setVault_canon | split | with_reducible refine Canon.snd (by assumption) ?_ | with_reducible refine Canon.fst (by assumption) ?_ | with_reducible refine Canon.mid (by assumption) ?_ | with_reducible refine Canon.thd (by assumption) ?_ | dsimp only

theorem Chip.putWords_canon {vt : Inv} {m : Chip} {f : Nat → FRef} {n : Nat} {l : List Byte} (h0 : Canon vt m) : Canon vt (Chip.putWords m f n l) := by
  unfold Chip.putWords
  repeat' first | with_reducible assumption | with_reducible apply Canon.foldl | intro _ | with_reducible apply Chip.put_canon

theorem Chip.debugChal_canon {vt : Inv} {m : Chip} {r : Req} (h0 : Canon vt m) : Canon vt (Chip.debugChal m r) := by
  unfold Chip.debugChal
  repeat' first | with_reducible assumption | with_reducible apply Chip.setVault_canon | with_reducible apply Chip.putWords_canon | with_reducible apply Chip.random_canon | with_reducible apply Canon.ite | split | with_reducible refine Canon.snd (by assumption) ?_ | with_reducible refine Canon.fst (by assumption) ?_ | with_reducible refine Canon.mid (by assumption) ?_ | with_reducible refine Canon.thd (by assumption) ?_ | dsimp only

theorem Chip.debugState_canon {vt : Inv} {m : Chip} {s : Nat} (h0 : Canon vt m) : Canon vt (Chip.debugState m s) := by
  unfold Chip.debugState
  repeat' first | with_reducible assumption | with_reducible apply Chip.post_canon

theorem Chip.debugOpen_canon {vt : Inv} {m : Chip} {r : Req} (h0 : Canon vt m) : Canon vt (Chip.debugOpen m r) := by
  unfold Chip.debugOpen
  repeat' first | with_reducible assumption | with_reducible apply Chip.count_canon | with_reducible apply Chip.debugState_canon | with_reducible apply Chip.setVault_canon | with_reducible apply Chip.put_canon | with_reducible apply Canon.ite | split | with_reducible refine Canon.snd (by assumption) ?_ | with_reducible refine Canon.fst (by assumption) ?_ | with_reducible refine Canon.mid (by assumption) ?_ | with_reducible refine Canon.thd (by assumption) ?_ | dsimp only

theorem Chip.debugClose_canon {vt : Inv} {m : Chip} (h0 : Canon vt m) : Canon vt (Chip.debugClose m) := by
  unfold Chip.debugClose
  repeat' first | with_reducible assumption | with_reducible apply Chip.setVault_canon | with_reducible apply Chip.put_canon

theorem Chip.vaultStart_canon {vt : Inv} {m : Chip} (h0 : Canon vt m) : Canon vt (Chip.vaultStart m) := by
  unfold Chip.vaultStart
  repeat' first | with_reducible assumption | with_reducible apply Chip.debugState_canon | with_reducible apply Chip.put_canon | with_reducible apply Chip.formFixed_canon | with_reducible apply Chip.vreset_canon | with_reducible apply Chip.setVault_canon | with_reducible apply Canon.ite

theorem Chip.vaultCancel_canon {vt : Inv} {m : Chip} (h0 : Canon vt m) : Canon vt (Chip.vaultCancel m) := by
  unfold Chip.vaultCancel
  repeat' first | with_reducible assumption | with_reducible apply Canon.foldl | intro _ | with_reducible apply Chip.vdone_canon | with_reducible apply Chip.setVqueue_canon

/-! ### LocalTime -/

theorem Chip.setLocal_canon {vt : Inv} {m : Chip} (h0 : Canon vt m) : Canon vt (Chip.setLocal m) := by
  unfold Chip.setLocal
  repeat' first | with_reducible assumption | with_reducible apply Chip.put_canon | with_reducible apply Canon.ite

/-! ### Uplinks -/

theorem Chip.setUpl_canon {vt : Inv} {m : Chip} {u : Upl} (h0 : Canon vt m) : Canon vt (Chip.setUpl m u) := by
  unfold Chip.setUpl
  repeat' first | with_reducible assumption | with_reducible apply Chip.withUpl_canon

theorem Chip.setTrust_canon {vt : Inv} {m : Chip} {v : Bool} {cause : Nat} (h0 : Canon vt m) : Canon vt (Chip.setTrust m v cause) := by
  unfold Chip.setTrust
  repeat' first | with_reducible assumption | with_reducible apply Chip.put_canon | with_reducible apply Chip.post_canon | with_reducible apply Canon.ite

theorem Chip.timeStep_canon {vt : Inv} {m : Chip} {t : Nat} (h0 : Canon vt m) : Canon vt (Chip.timeStep m t) := by
  unfold Chip.timeStep
  repeat' first | with_reducible assumption | with_reducible apply Canon.foldl | intro _ | with_reducible apply Chip.post_canon | with_reducible apply Chip.loopStep_canon | with_reducible apply Chip.anchorStep_canon | with_reducible apply Chip.withClk_canon | with_reducible apply Chip.withMeter_canon

theorem Chip.slew_canon {vt : Inv} {m : Chip} (h0 : Canon vt m) : Canon vt (Chip.slew m) := by
  unfold Chip.slew
  repeat' first | with_reducible assumption | with_reducible apply Chip.withClk_canon | with_reducible apply Chip.fresh_canon | split | with_reducible refine Canon.snd (by assumption) ?_ | with_reducible refine Canon.fst (by assumption) ?_ | with_reducible refine Canon.mid (by assumption) ?_ | with_reducible refine Canon.thd (by assumption) ?_ | dsimp only

theorem Chip.timeSet_canon {vt : Inv} {m : Chip} {r : Req} {hi : Word} (h0 : Canon vt m) : Canon vt (Chip.timeSet m r hi) := by
  unfold Chip.timeSet
  repeat' first | with_reducible assumption | with_reducible apply Chip.timeStep_canon | with_reducible apply Chip.setTrust_canon | with_reducible apply Chip.setReg_canon | with_reducible apply Chip.put_canon | with_reducible apply Chip.heldWord_canon | with_reducible apply Canon.ite | split | with_reducible refine Canon.snd (by assumption) ?_ | with_reducible refine Canon.fst (by assumption) ?_ | with_reducible refine Canon.mid (by assumption) ?_ | with_reducible refine Canon.thd (by assumption) ?_ | dsimp only

theorem Chip.ptpShow_canon {vt : Inv} {m : Chip} (h0 : Canon vt m) : Canon vt (Chip.ptpShow m) := by
  unfold Chip.ptpShow
  repeat' first | with_reducible assumption | with_reducible apply Canon.foldl | intro _ | with_reducible apply Chip.put_canon | split | with_reducible refine Canon.snd (by assumption) ?_ | with_reducible refine Canon.fst (by assumption) ?_ | with_reducible refine Canon.mid (by assumption) ?_ | with_reducible refine Canon.thd (by assumption) ?_ | dsimp only

theorem Chip.setUtc_canon {vt : Inv} {m : Chip} {ofs : Nat} {valid : Bool} {li61 : Bool} {li59 : Bool} (h0 : Canon vt m) : Canon vt (Chip.setUtc m ofs valid li61 li59) := by
  unfold Chip.setUtc
  repeat' first | with_reducible assumption | with_reducible apply Chip.withKeep_canon | with_reducible apply Chip.setLocal_canon | with_reducible apply Chip.put_canon | with_reducible apply Canon.ite

theorem Chip.ownUtc_canon {vt : Inv} {m : Chip} (h0 : Canon vt m) : Canon vt (Chip.ownUtc m) := by
  unfold Chip.ownUtc
  repeat' first | with_reducible assumption | with_reducible apply Chip.setUtc_canon

theorem Chip.ptpSelect_canon {vt : Inv} {m : Chip} {best : Option PtpMaster} (h0 : Canon vt m) : Canon vt (Chip.ptpSelect m best) := by
  unfold Chip.ptpSelect
  repeat' first | with_reducible assumption | with_reducible apply Chip.ownUtc_canon | with_reducible apply Chip.ptpShow_canon | with_reducible apply Chip.post_canon | with_reducible apply Chip.setUpl_canon | with_reducible apply Chip.put_canon | with_reducible apply Canon.ite

theorem Chip.announce_canon {vt : Inv} {m : Chip} {a : PtpAnnounce} (h0 : Canon vt m) : Canon vt (Chip.announce m a) := by
  unfold Chip.announce
  repeat' first | with_reducible assumption | with_reducible apply Chip.setUtc_canon | with_reducible apply Chip.ptpSelect_canon | with_reducible apply Chip.setUpl_canon | with_reducible apply Canon.ite

theorem Chip.announceTimeout_canon {vt : Inv} {m : Chip} (h0 : Canon vt m) : Canon vt (Chip.announceTimeout m) := by
  unfold Chip.announceTimeout
  repeat' first | with_reducible assumption | with_reducible apply Chip.ptpSelect_canon | with_reducible apply Canon.ite | split | with_reducible refine Canon.snd (by assumption) ?_ | with_reducible refine Canon.fst (by assumption) ?_ | with_reducible refine Canon.mid (by assumption) ?_ | with_reducible refine Canon.thd (by assumption) ?_ | dsimp only

theorem Chip.holdover_canon {vt : Inv} {m : Chip} (h0 : Canon vt m) : Canon vt (Chip.holdover m) := by
  unfold Chip.holdover
  repeat' first | with_reducible assumption | with_reducible apply Chip.setTrust_canon | with_reducible apply Canon.ite

theorem Chip.servo_canon {vt : Inv} {m : Chip} {o : Int} (h0 : Canon vt m) : Canon vt (Chip.servo m o) := by
  unfold Chip.servo
  repeat' first | with_reducible assumption | with_reducible apply Chip.put_canon | with_reducible apply Chip.setTrust_canon | with_reducible apply Chip.ptpShow_canon | with_reducible apply Chip.slew_canon | with_reducible apply Chip.timeStep_canon | with_reducible apply Chip.setUpl_canon | with_reducible apply Chip.setReg_canon | with_reducible apply Canon.ite

theorem Chip.sync_canon {vt : Inv} {m : Chip} {u : Nat} {ident : DWord} {sec : Nat} {ns : Nat} {rx : Nat} (h0 : Canon vt m) : Canon vt (Chip.sync m u ident sec ns rx) := by
  unfold Chip.sync
  repeat' first | with_reducible assumption | with_reducible apply Chip.servo_canon | with_reducible apply Canon.ite | split | with_reducible refine Canon.snd (by assumption) ?_ | with_reducible refine Canon.fst (by assumption) ?_ | with_reducible refine Canon.mid (by assumption) ?_ | with_reducible refine Canon.thd (by assumption) ?_ | dsimp only

theorem Chip.delayResp_canon {vt : Inv} {m : Chip} {u : Nat} {d : Nat} (h0 : Canon vt m) : Canon vt (Chip.delayResp m u d) := by
  unfold Chip.delayResp
  repeat' first | with_reducible assumption | with_reducible apply Chip.setUpl_canon | with_reducible apply Canon.ite

theorem Chip.ptpNext_canon {vt : Inv} {m : Chip} {u : Nat} (h0 : Canon vt m) : Canon vt (Chip.ptpNext m u).2 := by
  unfold Chip.ptpNext
  repeat' first | with_reducible assumption | with_reducible apply Chip.setUpl_canon | dsimp only

theorem Chip.syncSend_canon {vt : Inv} {m : Chip} {u : Nat} (h0 : Canon vt m) : Canon vt (Chip.syncSend m u) := by
  unfold Chip.syncSend
  repeat' first | with_reducible assumption | with_reducible apply Chip.emit_canon | with_reducible apply Chip.ptpNext_canon | with_reducible apply Canon.ite | split | with_reducible refine Canon.snd (by assumption) ?_ | with_reducible refine Canon.fst (by assumption) ?_ | with_reducible refine Canon.mid (by assumption) ?_ | with_reducible refine Canon.thd (by assumption) ?_ | dsimp only

theorem Chip.announceSend_canon {vt : Inv} {m : Chip} {u : Nat} (h0 : Canon vt m) : Canon vt (Chip.announceSend m u) := by
  unfold Chip.announceSend
  repeat' first | with_reducible assumption | with_reducible apply Chip.emit_canon | with_reducible apply Chip.ptpNext_canon | with_reducible apply Canon.ite | split | with_reducible refine Canon.snd (by assumption) ?_ | with_reducible refine Canon.fst (by assumption) ?_ | with_reducible refine Canon.mid (by assumption) ?_ | with_reducible refine Canon.thd (by assumption) ?_ | dsimp only

theorem Chip.delayReq_canon {vt : Inv} {m : Chip} {u : Nat} {seq : Nat} {rx : Nat} (h0 : Canon vt m) : Canon vt (Chip.delayReq m u seq rx) := by
  unfold Chip.delayReq
  repeat' first | with_reducible assumption | with_reducible apply Chip.emit_canon | with_reducible apply Canon.ite

theorem Chip.ptpApplied_canon {vt : Inv} {m : Chip} {old : Chip} (h0 : Canon vt m) : Canon vt (Chip.ptpApplied m old) := by
  unfold Chip.ptpApplied
  repeat' first | with_reducible assumption | with_reducible apply Chip.ptpShow_canon | with_reducible apply Chip.ptpSelect_canon | with_reducible apply Chip.setUpl_canon | with_reducible apply Canon.ite | split | with_reducible refine Canon.snd (by assumption) ?_ | with_reducible refine Canon.fst (by assumption) ?_ | with_reducible refine Canon.mid (by assumption) ?_ | with_reducible refine Canon.thd (by assumption) ?_ | dsimp only

theorem Chip.setPeer_canon {vt : Inv} {m : Chip} {i : Nat} {p : Peer} (h0 : Canon vt m) : Canon vt (Chip.setPeer m i p) := by
  unfold Chip.setPeer
  repeat' first | with_reducible assumption | with_reducible apply Chip.setUpl_canon

theorem Chip.peerState_canon {vt : Inv} {m : Chip} {i : Nat} {st : Nat} (h0 : Canon vt m) : Canon vt (Chip.peerState m i st) := by
  unfold Chip.peerState
  repeat' first | with_reducible assumption | with_reducible apply Chip.setPeer_canon | with_reducible apply Chip.post_canon | with_reducible apply Canon.ite

theorem Chip.devConflict_canon {vt : Inv} {m : Chip} {i : Nat} {ident : DWord} {dev : Nat} (h0 : Canon vt m) : Canon vt (Chip.devConflict m i ident dev) := by
  unfold Chip.devConflict
  repeat' first | with_reducible assumption | with_reducible apply Chip.post_canon

theorem Chip.lgAnnounce_canon {vt : Inv} {m : Chip} {f : RxFrame} (h0 : Canon vt m) : Canon vt (Chip.lgAnnounce m f) := by
  unfold Chip.lgAnnounce
  repeat' first | with_reducible assumption | with_reducible apply Chip.setPeer_canon | with_reducible apply Chip.peerState_canon | with_reducible apply Chip.devConflict_canon | with_reducible apply Chip.rx_canon | with_reducible apply Canon.ite | split | with_reducible refine Canon.snd (by assumption) ?_ | with_reducible refine Canon.fst (by assumption) ?_ | with_reducible refine Canon.mid (by assumption) ?_ | with_reducible refine Canon.thd (by assumption) ?_ | dsimp only

theorem Chip.peerLost_canon {vt : Inv} {m : Chip} {i : Nat} (h0 : Canon vt m) : Canon vt (Chip.peerLost m i) := by
  unfold Chip.peerLost
  repeat' first | with_reducible assumption | with_reducible apply Chip.peerState_canon | with_reducible apply Canon.ite

theorem Chip.leagueAnnounce_canon {vt : Inv} {m : Chip} (h0 : Canon vt m) : Canon vt (Chip.leagueAnnounce m) := by
  unfold Chip.leagueAnnounce
  repeat' first | with_reducible assumption | with_reducible apply Canon.foldl | intro _ | with_reducible apply Chip.sendFrame_canon | with_reducible apply Chip.nextSeq_canon | split | with_reducible refine Canon.snd (by assumption) ?_ | with_reducible refine Canon.fst (by assumption) ?_ | with_reducible refine Canon.mid (by assumption) ?_ | with_reducible refine Canon.thd (by assumption) ?_ | dsimp only

theorem Chip.peersApplied_canon {vt : Inv} {m : Chip} {old : Chip} (h0 : Canon vt m) : Canon vt (Chip.peersApplied m old) := by
  unfold Chip.peersApplied
  repeat' first | with_reducible assumption | with_reducible apply Canon.foldl | intro _ | with_reducible apply Chip.peerState_canon | with_reducible apply Chip.setPeer_canon | with_reducible apply Canon.ite

theorem Chip.uplAnswer_canon {vt : Inv} {m : Chip} {u : Nat} {tags : List Nat} {off : Nat} {n : Nat} {addr : Nat} {name : String} {body : List Nat} (h0 : Canon vt m) : Canon vt (Chip.uplAnswer m u tags off n addr name body) := by
  unfold Chip.uplAnswer
  repeat' first | with_reducible assumption | with_reducible apply Chip.emit_canon | with_reducible apply Chip.uplDrop_canon | with_reducible apply Canon.ite

theorem Chip.resolveRetry_canon {vt : Inv} {m : Chip} {answered : List Nat} (h0 : Canon vt m) : Canon vt (Chip.resolveRetry m answered) := by
  unfold Chip.resolveRetry
  repeat' first | with_reducible assumption | with_reducible apply Canon.foldl | intro _ | with_reducible apply Chip.emit_canon | with_reducible apply Chip.setUpl_canon | with_reducible apply Canon.ite

theorem Chip.linkSet_canon {vt : Inv} {m : Chip} {f : FRef} {sub : Nat} {up : Bool} (h0 : Canon vt m) : Canon vt (Chip.linkSet m f sub up) := by
  unfold Chip.linkSet
  repeat' first | with_reducible assumption | with_reducible apply Chip.put_canon | with_reducible apply Chip.post_canon | with_reducible apply Canon.ite

theorem Chip.hostDrop_canon {vt : Inv} {m : Chip} (h0 : Canon vt m) : Canon vt (Chip.hostDrop m) := by
  unfold Chip.hostDrop
  repeat' first | with_reducible assumption | with_reducible apply Chip.setReq_canon

theorem Chip.pcieDown_canon {vt : Inv} {m : Chip} (h0 : Canon vt m) : Canon vt (Chip.pcieDown m) := by
  unfold Chip.pcieDown
  repeat' first | with_reducible assumption | with_reducible apply Chip.linkSet_canon | with_reducible apply Chip.put_canon | with_reducible apply Chip.hostDrop_canon

theorem Chip.linkState_canon {vt : Inv} {m : Chip} {port : Nat} {up : Bool} {speed : Nat} {width : Nat} (h0 : Canon vt m) : Canon vt (Chip.linkState m port up speed width) := by
  unfold Chip.linkState
  repeat' first | with_reducible assumption | with_reducible apply Chip.pcieDown_canon | with_reducible apply Chip.put_canon | with_reducible apply Chip.setUpl_canon | with_reducible apply Chip.linkSet_canon | with_reducible apply Canon.ite

theorem Chip.pcieReset_canon {vt : Inv} {m : Chip} {low : Bool} (h0 : Canon vt m) : Canon vt (Chip.pcieReset m low) := by
  unfold Chip.pcieReset
  repeat' first | with_reducible assumption | with_reducible apply Chip.pcieDown_canon | with_reducible apply Chip.setUpl_canon | with_reducible apply Canon.ite

/-! ### Fields -/

theorem Chip.setEgress_canon {vt : Inv} {m : Chip} {code : Nat} {l : List MFrame} (h0 : Canon vt m) : Canon vt (Chip.setEgress m code l) := by
  unfold Chip.setEgress
  repeat' first | with_reducible assumption | with_reducible apply Chip.withTxn_canon

theorem Chip.emitAll_canon {vt : Inv} {m : Chip} {l : List MFrame} (h0 : Canon vt m) : Canon vt (Chip.emitAll m l) := by
  unfold Chip.emitAll
  repeat' first | with_reducible assumption | with_reducible apply Chip.withOut_canon

theorem Chip.sendBurst_canon {vt : Inv} {m : Chip} {code : Nat} {k : Nat} (h0 : Canon vt m) : Canon vt (Chip.sendBurst m code k).2 := by
  unfold Chip.sendBurst
  repeat' first | with_reducible assumption | with_reducible apply Chip.setEgress_canon | with_reducible apply Chip.emitAll_canon | dsimp only

theorem Chip.plcaCycle_canon {vt : Inv} {m : Chip} {s : Nat} {rx : List Nat} (h0 : Canon vt m) : Canon vt (Chip.plcaCycle m s rx) := by
  unfold Chip.plcaCycle
  repeat' first | with_reducible assumption | with_reducible apply Chip.setSeg_canon | with_reducible apply Chip.put_canon | with_reducible apply Chip.sendBurst_canon | with_reducible apply Canon.ite | split | with_reducible refine Canon.snd (by assumption) ?_ | with_reducible refine Canon.fst (by assumption) ?_ | with_reducible refine Canon.mid (by assumption) ?_ | with_reducible refine Canon.thd (by assumption) ?_ | dsimp only

theorem Chip.segStart_canon {vt : Inv} {m : Chip} {s : Nat} (h0 : Canon vt m) : Canon vt (Chip.segStart m s) := by
  unfold Chip.segStart
  repeat' first | with_reducible assumption | with_reducible apply Chip.setSeg_canon | with_reducible apply Chip.put_canon

theorem Chip.coordConflict_canon {vt : Inv} {m : Chip} {s : Nat} (h0 : Canon vt m) : Canon vt (Chip.coordConflict m s) := by
  unfold Chip.coordConflict
  repeat' first | with_reducible assumption | with_reducible apply Chip.portCancel_canon | with_reducible apply Chip.post_canon | with_reducible apply Chip.setSeg_canon | with_reducible apply Chip.put_canon | with_reducible apply Canon.ite

theorem Chip.qclr_canon {vt : Inv} {m : Chip} {s : Nat} (h0 : Canon vt m) : Canon vt (Chip.qclr m s) := by
  unfold Chip.qclr
  repeat' first | with_reducible assumption | with_reducible apply Chip.put_canon | with_reducible apply Chip.segStart_canon | with_reducible apply Canon.ite

theorem Chip.t1sRxErr_canon {vt : Inv} {m : Chip} {s : Nat} (h0 : Canon vt m) : Canon vt (Chip.t1sRxErr m s) := by
  unfold Chip.t1sRxErr
  repeat' first | with_reducible assumption | with_reducible apply Chip.count_canon

theorem Chip.jabber_canon {vt : Inv} {m : Chip} {s : Nat} (h0 : Canon vt m) : Canon vt (Chip.jabber m s) := by
  unfold Chip.jabber
  repeat' first | with_reducible assumption | with_reducible apply Chip.post_canon | with_reducible apply Chip.setSeg_canon | with_reducible apply Chip.t1sRxErr_canon | with_reducible apply Canon.ite | split | with_reducible refine Canon.snd (by assumption) ?_ | with_reducible refine Canon.fst (by assumption) ?_ | with_reducible refine Canon.mid (by assumption) ?_ | with_reducible refine Canon.thd (by assumption) ?_ | dsimp only

theorem Chip.collision_canon {vt : Inv} {m : Chip} {s : Nat} {k : Nat} (h0 : Canon vt m) : Canon vt (Chip.collision m s k) := by
  unfold Chip.collision
  repeat' first | with_reducible assumption | with_reducible apply Chip.setEgress_canon | with_reducible apply Chip.count_canon | with_reducible apply Canon.ite | split | with_reducible refine Canon.snd (by assumption) ?_ | with_reducible refine Canon.fst (by assumption) ?_ | with_reducible refine Canon.mid (by assumption) ?_ | with_reducible refine Canon.thd (by assumption) ?_ | dsimp only

theorem Chip.segSilent_canon {vt : Inv} {m : Chip} {s : Nat} (h0 : Canon vt m) : Canon vt (Chip.segSilent m s) := by
  unfold Chip.segSilent
  repeat' first | with_reducible assumption | with_reducible apply Chip.put_canon | with_reducible apply Chip.post_canon | with_reducible apply Canon.ite

theorem Chip.setPlc_canon {vt : Inv} {m : Chip} {i : Nat} {x : Plc} (h0 : Canon vt m) : Canon vt (Chip.setPlc m i x) := by
  unfold Chip.setPlc
  repeat' first | with_reducible assumption | with_reducible apply Chip.withPorts_canon

theorem Chip.plcStart_canon {vt : Inv} {m : Chip} {i : Nat} (h0 : Canon vt m) : Canon vt (Chip.plcStart m i) := by
  unfold Chip.plcStart
  repeat' first | with_reducible assumption | with_reducible apply Chip.setPlc_canon | with_reducible apply Chip.put_canon | with_reducible apply Chip.drawGmk_canon | with_reducible apply Canon.ite

theorem Chip.setJoined_canon {vt : Inv} {m : Chip} {i : Nat} {l : List (DWord × Nat)} (h0 : Canon vt m) : Canon vt (Chip.setJoined m i l) := by
  unfold Chip.setJoined
  repeat' first | with_reducible assumption | with_reducible apply Chip.setPlc_canon | with_reducible apply Chip.put_canon

theorem Chip.plcJoin_canon {vt : Inv} {m : Chip} {i : Nat} {eui : DWord} {pass : Bool} {hop : Nat} (h0 : Canon vt m) : Canon vt (Chip.plcJoin m i eui pass hop) := by
  unfold Chip.plcJoin
  repeat' first | with_reducible assumption | with_reducible apply Chip.setJoined_canon | with_reducible apply Chip.setPlc_canon | with_reducible apply Chip.useKey_canon | with_reducible apply Chip.count_canon | with_reducible apply Chip.post_canon | with_reducible apply Canon.ite | split | with_reducible refine Canon.snd (by assumption) ?_ | with_reducible refine Canon.fst (by assumption) ?_ | with_reducible refine Canon.mid (by assumption) ?_ | with_reducible refine Canon.thd (by assumption) ?_ | dsimp only

theorem Chip.afeFault_canon {vt : Inv} {m : Chip} {i : Nat} {on : Bool} (h0 : Canon vt m) : Canon vt (Chip.afeFault m i on) := by
  unfold Chip.afeFault
  repeat' first | with_reducible assumption | with_reducible apply Chip.put_canon | with_reducible apply Chip.post_canon | with_reducible apply Canon.ite

theorem Chip.panConflict_canon {vt : Inv} {m : Chip} {i : Nat} (h0 : Canon vt m) : Canon vt (Chip.panConflict m i) := by
  unfold Chip.panConflict
  repeat' first | with_reducible assumption | with_reducible apply Chip.put_canon | with_reducible apply Chip.post_canon | with_reducible apply Canon.ite

theorem Chip.arqGiveUp_canon {vt : Inv} {m : Chip} {i : Nat} (h0 : Canon vt m) : Canon vt (Chip.arqGiveUp m i) := by
  unfold Chip.arqGiveUp
  repeat' first | with_reducible assumption | with_reducible apply Chip.setEgress_canon | with_reducible apply Chip.count_canon | with_reducible apply Canon.ite | split | with_reducible refine Canon.snd (by assumption) ?_ | with_reducible refine Canon.fst (by assumption) ?_ | with_reducible refine Canon.mid (by assumption) ?_ | with_reducible refine Canon.thd (by assumption) ?_ | dsimp only

theorem Chip.beaconFrame_canon {vt : Inv} {m : Chip} {code : Nat} {hops : Nat} {period : Nat} {cfw : Nat} (h0 : Canon vt m) : Canon vt (Chip.beaconFrame m code hops period cfw).2 := by
  unfold Chip.beaconFrame
  repeat' first | with_reducible assumption | with_reducible apply Chip.nextSeq_canon | split | with_reducible refine Canon.snd (by assumption) ?_ | with_reducible refine Canon.fst (by assumption) ?_ | with_reducible refine Canon.mid (by assumption) ?_ | with_reducible refine Canon.thd (by assumption) ?_ | dsimp only

theorem Chip.beacon_canon {vt : Inv} {m : Chip} {code : Nat} {hops : Nat} {period : Nat} {cfw : Nat} (h0 : Canon vt m) : Canon vt (Chip.beacon m code hops period cfw) := by
  unfold Chip.beacon
  repeat' first | with_reducible assumption | with_reducible apply Chip.emit_canon | with_reducible apply Chip.beaconFrame_canon | split | with_reducible refine Canon.snd (by assumption) ?_ | with_reducible refine Canon.fst (by assumption) ?_ | with_reducible refine Canon.mid (by assumption) ?_ | with_reducible refine Canon.thd (by assumption) ?_ | dsimp only

theorem Chip.canBeacon_canon {vt : Inv} {m : Chip} {n : Nat} (h0 : Canon vt m) : Canon vt (Chip.canBeacon m n) := by
  unfold Chip.canBeacon
  repeat' first | with_reducible assumption | with_reducible apply Chip.setEgress_canon | with_reducible apply Chip.beaconFrame_canon | with_reducible apply Canon.ite | split | with_reducible refine Canon.snd (by assumption) ?_ | with_reducible refine Canon.fst (by assumption) ?_ | with_reducible refine Canon.mid (by assumption) ?_ | with_reducible refine Canon.thd (by assumption) ?_ | dsimp only

theorem Chip.timeBeaconSend_canon {vt : Inv} {m : Chip} {code : Nat} (h0 : Canon vt m) : Canon vt (Chip.timeBeaconSend m code) := by
  unfold Chip.timeBeaconSend
  repeat' first | with_reducible assumption | with_reducible apply Chip.canBeacon_canon | with_reducible apply Chip.beacon_canon | with_reducible apply Canon.ite

theorem Chip.panCopy_canon {vt : Inv} {m : Chip} {i : Nat} (h0 : Canon vt m) : Canon vt (Chip.panCopy m i) := by
  unfold Chip.panCopy
  repeat' first | with_reducible assumption | with_reducible apply Chip.stream_canon | with_reducible apply Chip.random_canon | with_reducible apply Canon.ite | split | with_reducible refine Canon.snd (by assumption) ?_ | with_reducible refine Canon.fst (by assumption) ?_ | with_reducible refine Canon.mid (by assumption) ?_ | with_reducible refine Canon.thd (by assumption) ?_ | dsimp only

theorem Chip.plcBeaconSend_canon {vt : Inv} {m : Chip} {i : Nat} (h0 : Canon vt m) : Canon vt (Chip.plcBeaconSend m i) := by
  unfold Chip.plcBeaconSend
  repeat' first | with_reducible assumption | with_reducible apply Chip.sendBurst_canon | with_reducible apply Chip.panCopy_canon | with_reducible apply Chip.beacon_canon | with_reducible apply Canon.ite

theorem Chip.listenEnd_canon {vt : Inv} {m : Chip} {code : Nat} (h0 : Canon vt m) : Canon vt (Chip.listenEnd m code) := by
  unfold Chip.listenEnd
  repeat' first | with_reducible assumption | with_reducible apply Chip.setPlc_canon | with_reducible apply Chip.put_canon | with_reducible apply Chip.setSeg_canon | with_reducible apply Canon.ite

theorem Chip.fldApplied_canon {vt : Inv} {m : Chip} {old : Chip} (h0 : Canon vt m) : Canon vt (Chip.fldApplied m old) := by
  unfold Chip.fldApplied
  repeat' first | with_reducible assumption | with_reducible apply Canon.foldl | intro _ | with_reducible apply Chip.plcStart_canon | with_reducible apply Chip.segStart_canon | with_reducible apply Canon.ite

theorem Chip.fldStart_canon {vt : Inv} {m : Chip} (h0 : Canon vt m) : Canon vt (Chip.fldStart m) := by
  unfold Chip.fldStart
  repeat' first | with_reducible assumption | with_reducible apply Canon.foldl | intro _ | with_reducible apply Chip.plcStart_canon | with_reducible apply Chip.segStart_canon | with_reducible apply Canon.ite

/-! ### Meter -/

theorem Chip.setMeter_canon {vt : Inv} {m : Chip} {x : Meter} (h0 : Canon vt m) : Canon vt (Chip.setMeter m x) := by
  unfold Chip.setMeter
  repeat' first | with_reducible assumption | with_reducible apply Chip.withMeter_canon

theorem Chip.setTotals_canon {vt : Inv} {m : Chip} {x : Totals} (h0 : Canon vt m) : Canon vt (Chip.setTotals m x) := by
  unfold Chip.setTotals
  repeat' first | with_reducible assumption | with_reducible apply Chip.withTotals_canon

theorem Chip.unitWrite_canon {vt : Inv} {m : Chip} {tag : BitVec 40} {v : DWord} {second : optParam DWord 0} {q : optParam Half 0} (h0 : Canon vt m) : Canon vt (Chip.unitWrite m tag v second q) := by
  unfold Chip.unitWrite
  repeat' first | with_reducible assumption | with_reducible apply Chip.ptWrite_canon

theorem Chip.modFault_canon {vt : Inv} {m : Chip} {c : Nat} {on : Bool} (h0 : Canon vt m) : Canon vt (Chip.modFault m c on) := by
  unfold Chip.modFault
  repeat' first | with_reducible assumption | with_reducible apply Chip.put_canon | with_reducible apply Chip.post_canon | with_reducible apply Canon.ite

theorem Chip.windowEnd_canon {vt : Inv} {m : Chip} {p : Nat} {w : MWindow} (h0 : Canon vt m) : Canon vt (Chip.windowEnd m p w) := by
  unfold Chip.windowEnd
  repeat' first | with_reducible assumption | with_reducible apply Chip.setMeter_canon | with_reducible apply Canon.ite

theorem Chip.voltEnd_canon {vt : Inv} {m : Chip} {p : Nat} {code : Half} {sev : Nat} {e : VoltEv} (h0 : Canon vt m) : Canon vt (Chip.voltEnd m p code sev e) := by
  unfold Chip.voltEnd
  repeat' first | with_reducible assumption | with_reducible apply Chip.post_canon

theorem Chip.halfCycle_canon {vt : Inv} {m : Chip} {p : Nat} {v : List DWord} (h0 : Canon vt m) : Canon vt (Chip.halfCycle m p v) := by
  unfold Chip.halfCycle
  repeat' first | with_reducible assumption | with_reducible apply Canon.foldl | intro _ | with_reducible apply Chip.voltEnd_canon | with_reducible apply Chip.setMeter_canon | with_reducible apply Canon.ite | split | with_reducible refine Canon.snd (by assumption) ?_ | with_reducible refine Canon.fst (by assumption) ?_ | with_reducible refine Canon.mid (by assumption) ?_ | with_reducible refine Canon.thd (by assumption) ?_ | dsimp only

theorem Chip.pulseEdge_canon {vt : Inv} {m : Chip} {p : Nat} {level : Bool} {t : Nat} (h0 : Canon vt m) : Canon vt (Chip.pulseEdge m p level t) := by
  unfold Chip.pulseEdge
  repeat' first | with_reducible assumption | with_reducible apply Chip.post_canon | with_reducible apply Chip.setMeter_canon | with_reducible apply Chip.put_canon | with_reducible apply Canon.ite | split | with_reducible refine Canon.snd (by assumption) ?_ | with_reducible refine Canon.fst (by assumption) ?_ | with_reducible refine Canon.mid (by assumption) ?_ | with_reducible refine Canon.thd (by assumption) ?_ | dsimp only

theorem Chip.meterCount_canon {vt : Inv} {m : Chip} {k : Nat} (h0 : Canon vt m) : Canon vt (Chip.meterCount m k) := by
  unfold Chip.meterCount
  repeat' first | with_reducible assumption | with_reducible apply Chip.count_canon

theorem Chip.vmReport_canon {vt : Inv} {m : Chip} {fixture : Nat} {zone : Nat} {cnt : Nat} {pwr : Nat} {t : Nat} (h0 : Canon vt m) : Canon vt (Chip.vmReport m fixture zone cnt pwr t) := by
  unfold Chip.vmReport
  repeat' first | with_reducible assumption | with_reducible apply Chip.meterCount_canon | with_reducible apply Chip.post_canon | with_reducible apply Chip.setMeter_canon | with_reducible apply Canon.ite | split | with_reducible refine Canon.snd (by assumption) ?_ | with_reducible refine Canon.fst (by assumption) ?_ | with_reducible refine Canon.mid (by assumption) ?_ | with_reducible refine Canon.thd (by assumption) ?_ | dsimp only

theorem Chip.residue_canon {vt : Inv} {m0 : Chip} {l : List Energy} {ovr : List Nat} (h0 : Canon vt m0) : Canon vt (Chip.residue m0 l ovr) := by
  unfold Chip.residue
  repeat' first | with_reducible assumption | with_reducible apply Canon.foldl | intro _ | with_reducible apply Chip.setTotals_canon | with_reducible apply Chip.put_canon | with_reducible apply Canon.ite

theorem Chip.setTot_canon {vt : Inv} {m : Chip} {n : Nat} {r : TotRec} (h0 : Canon vt m) : Canon vt (Chip.setTot m n r) := by
  unfold Chip.setTot
  repeat' first | with_reducible assumption | with_reducible apply Chip.setTotals_canon

theorem Chip.readTot_canon {vt : Inv} {m : Chip} {n : Nat} (h0 : Canon vt m) : Canon vt (Chip.readTot m n).2 := by
  unfold Chip.readTot
  repeat' first | with_reducible assumption | with_reducible apply Chip.setTot_canon | with_reducible apply Chip.meterCount_canon | with_reducible apply Chip.post_canon | with_reducible apply Canon.ite | with_reducible apply Canon.iteR | split | with_reducible refine Canon.snd (by assumption) ?_ | with_reducible refine Canon.fst (by assumption) ?_ | with_reducible refine Canon.mid (by assumption) ?_ | with_reducible refine Canon.thd (by assumption) ?_ | dsimp only

theorem Chip.foldChan_canon {vt : Inv} {m : Chip} {n : Nat} {count : Nat} {interval : Nat} {ended : Nat} {clamped : Bool} {gap : Bool} {skip : Bool} (h0 : Canon vt m) : Canon vt (Chip.foldChan m n count interval ended clamped gap skip) := by
  unfold Chip.foldChan
  repeat' first | with_reducible assumption | with_reducible apply Chip.unitWrite_canon | with_reducible apply Chip.meterCount_canon | with_reducible apply Chip.post_canon | with_reducible apply Chip.setTot_canon | with_reducible apply Chip.readTot_canon | with_reducible apply Canon.ite | split | with_reducible refine Canon.snd (by assumption) ?_ | with_reducible refine Canon.fst (by assumption) ?_ | with_reducible refine Canon.mid (by assumption) ?_ | with_reducible refine Canon.thd (by assumption) ?_ | dsimp only

theorem Chip.totalFold_canon {vt : Inv} {m : Chip} (h0 : Canon vt m) : Canon vt (Chip.totalFold m) := by
  unfold Chip.totalFold
  repeat' first | with_reducible assumption | with_reducible apply Canon.foldl | intro _ | with_reducible apply Chip.setMeter_canon | with_reducible apply Chip.put_canon | with_reducible apply Chip.setTotals_canon | with_reducible apply Chip.foldChan_canon | with_reducible apply Canon.ite

theorem Chip.writeBlock_canon {vt : Inv} {m : Chip} {tag : BitVec 40} {i : Nat} {l : List (Option DWord)} (h0 : Canon vt m) : Canon vt (m.writeBlock tag i l) := by
  induction l generalizing m i with
  | nil => exact h0
  | cons e r ih =>
    cases e with
    | none => exact ih h0
    | some v => exact ih (Chip.unitWrite_canon h0)

theorem Chip.instants_canon {vt : Inv} {m : Chip} (h0 : Canon vt m) : Canon vt (Chip.instants m) := by
  unfold Chip.instants
  repeat' first | with_reducible assumption | with_reducible apply Canon.foldl | intro _ | with_reducible apply Chip.writeBlock_canon | with_reducible apply Canon.ite

theorem Chip.closeNow_canon {vt : Inv} {m0 : Chip} {l : List Energy} (h0 : Canon vt m0) : Canon vt (Chip.closeNow m0 l) := by
  unfold Chip.closeNow
  repeat' first | with_reducible assumption | with_reducible apply Canon.foldl | intro _ | with_reducible apply Chip.setTotals_canon | with_reducible apply Chip.setMeter_canon | with_reducible apply Chip.put_canon | with_reducible apply Chip.totalFold_canon | with_reducible apply Canon.ite

theorem Chip.intervalClose_canon {vt : Inv} {m : Chip} {l : List Energy} {peaks : List (Nat × Nat)} (h0 : Canon vt m) : Canon vt (m.intervalClose l peaks) := by
  unfold Chip.intervalClose
  exact Canon.ite (Canon.foldl (fun _ _ h => Chip.put_canon h) (Chip.instants_canon (Chip.closeNow_canon h0))) h0

theorem Chip.remap_canon {vt : Inv} {m : Chip} (h0 : Canon vt m) : Canon vt (Chip.remap m) := by
  unfold Chip.remap
  repeat' first | with_reducible assumption | with_reducible apply Chip.setTotals_canon | with_reducible apply Chip.put_canon | with_reducible apply Canon.ite

theorem Chip.meterFlush_canon {vt : Inv} {m : Chip} (h0 : Canon vt m) : Canon vt (Chip.meterFlush m) := by
  unfold Chip.meterFlush
  repeat' first | with_reducible assumption | with_reducible apply Chip.setTotals_canon | with_reducible apply Canon.ite

theorem Chip.markLost_canon {vt : Inv} {m : Chip} {start : Nat} {len : Word} {l : List Nat} (h0 : Canon vt m) : Canon vt (Chip.markLost m start len l) := by
  unfold Chip.markLost
  repeat' first | with_reducible assumption | with_reducible apply Canon.foldl | intro _ | with_reducible apply Chip.post_canon | with_reducible apply Chip.put64_canon | with_reducible apply Chip.setReg_canon | with_reducible apply Chip.put_canon | with_reducible apply Chip.setTot_canon | with_reducible apply Chip.readTot_canon | with_reducible apply Canon.ite | split | with_reducible refine Canon.snd (by assumption) ?_ | with_reducible refine Canon.fst (by assumption) ?_ | with_reducible refine Canon.mid (by assumption) ?_ | with_reducible refine Canon.thd (by assumption) ?_ | dsimp only

theorem Chip.recover_canon {vt : Inv} {m : Chip} {pf : Nat} (h0 : Canon vt m) : Canon vt (Chip.recover m pf) := by
  unfold Chip.recover
  repeat' first | with_reducible assumption | with_reducible apply Canon.foldl | intro _ | with_reducible apply Chip.markLost_canon | with_reducible apply Chip.setTotals_canon | with_reducible apply Chip.foldChan_canon | with_reducible apply Chip.setMeter_canon | with_reducible apply Canon.ite | split | with_reducible refine Canon.snd (by assumption) ?_ | with_reducible refine Canon.fst (by assumption) ?_ | with_reducible refine Canon.mid (by assumption) ?_ | with_reducible refine Canon.thd (by assumption) ?_ | dsimp only

theorem Chip.lostClear_canon {vt : Inv} {m : Chip} {v : Word} (h0 : Canon vt m) : Canon vt (Chip.lostClear m v) := by
  unfold Chip.lostClear
  repeat' first | with_reducible assumption | with_reducible apply Chip.put64_canon | with_reducible apply Chip.setReg_canon | with_reducible apply Chip.put_canon | with_reducible apply Canon.ite

theorem Chip.rebase_canon {vt : Inv} {m : Chip} {n : Nat} (h0 : Canon vt m) : Canon vt (Chip.rebase m n) := by
  unfold Chip.rebase
  repeat' first | with_reducible assumption | with_reducible apply Chip.setTot_canon | with_reducible apply Chip.post_canon | with_reducible apply Chip.readTot_canon | split | with_reducible refine Canon.snd (by assumption) ?_ | with_reducible refine Canon.fst (by assumption) ?_ | with_reducible refine Canon.mid (by assumption) ?_ | with_reducible refine Canon.thd (by assumption) ?_ | dsimp only

theorem Chip.vmReset_canon {vt : Inv} {m : Chip} {fixture : Nat} (h0 : Canon vt m) : Canon vt (Chip.vmReset m fixture) := by
  unfold Chip.vmReset
  repeat' first | with_reducible assumption | with_reducible apply Chip.setMeter_canon

theorem Chip.meterDisable_canon {vt : Inv} {m : Chip} {l : List Energy} (h0 : Canon vt m) : Canon vt (Chip.meterDisable m l) := by
  unfold Chip.meterDisable
  repeat' first | with_reducible assumption | with_reducible apply Chip.setTotals_canon | with_reducible apply Chip.setMeter_canon | with_reducible apply Chip.closeNow_canon

theorem Chip.meterEnable_canon {vt : Inv} {m : Chip} (h0 : Canon vt m) : Canon vt (Chip.meterEnable m) := by
  unfold Chip.meterEnable
  repeat' first | with_reducible assumption | with_reducible apply Chip.setTotals_canon | with_reducible apply Chip.post_canon | with_reducible apply Chip.setMeter_canon | split | with_reducible refine Canon.snd (by assumption) ?_ | with_reducible refine Canon.fst (by assumption) ?_ | with_reducible refine Canon.mid (by assumption) ?_ | with_reducible refine Canon.thd (by assumption) ?_ | dsimp only

end Sys2Proof.Machine
end

