-- ==== Sys2Proof/Laws/CanonLamp.lean ====
section
/-! SUPPORT. What changes of single parts keep, through the lighting engine, the planner, the CAN channels and the saddle link (Laws/Canon.lean). -/

namespace Sys2Proof.Machine

open Sys2Proof

/-! ### Lamp -/

theorem Chip.setLamp_canon {vt : Inv} {m : Chip} {x : Lamp} (h0 : Canon vt m) : Canon vt (Chip.setLamp m x) := by
  unfold Chip.setLamp
  repeat' first | with_reducible assumption | with_reducible apply Chip.withLamp_canon

theorem Chip.setFix_canon {vt : Inv} {m : Chip} {a : Nat} {f : Fix} (h0 : Canon vt m) : Canon vt (Chip.setFix m a f) := by
  unfold Chip.setFix
  repeat' first | with_reducible assumption | with_reducible apply Chip.setLamp_canon

theorem Chip.fixPend_canon {vt : Inv} {m : Chip} {a : Nat} {x : LFrame} (h0 : Canon vt m) : Canon vt (Chip.fixPend m a x) := by
  unfold Chip.fixPend
  repeat' first | with_reducible assumption | with_reducible apply Chip.setFix_canon

theorem Chip.lampJob_canon {vt : Inv} {m : Chip} {kind : Nat} {crit : Bool} (h0 : Canon vt m) : Canon vt (Chip.lampJob m kind crit).2 := by
  unfold Chip.lampJob
  repeat' first | with_reducible assumption | with_reducible apply Chip.setLamp_canon | with_reducible apply Chip.endJob_canon | with_reducible apply Chip.fresh_canon | with_reducible apply Chip.admitJob_canon | split | with_reducible refine Canon.snd (by assumption) ?_ | with_reducible refine Canon.fst (by assumption) ?_ | with_reducible refine Canon.mid (by assumption) ?_ | with_reducible refine Canon.thd (by assumption) ?_ | dsimp only

theorem Chip.lampCount_canon {vt : Inv} {m : Chip} {k : Nat} {n : Nat} (h0 : Canon vt m) : Canon vt (Chip.lampCount m k n) := by
  unfold Chip.lampCount
  repeat' first | with_reducible assumption | with_reducible apply Chip.countN_canon

theorem Chip.lampSeq_canon {vt : Inv} {m : Chip} (h0 : Canon vt m) : Canon vt (Chip.lampSeq m).2 := by
  unfold Chip.lampSeq
  repeat' first | with_reducible assumption | with_reducible apply Chip.setLamp_canon | dsimp only

theorem Chip.toFix_canon {vt : Inv} {m : Chip} {a : Nat} {type : Nat} {cls : Nat} {seq : Word} {payload : List Byte} (h0 : Canon vt m) : Canon vt (Chip.toFix m a type cls seq payload) := by
  unfold Chip.toFix
  repeat' first | with_reducible assumption | with_reducible apply Chip.sendFrame_canon

theorem Chip.toGroup_canon {vt : Inv} {m : Chip} {g : Nat} {l : List Nat} {type : Nat} {cls : Nat} {seq : Word} {payload : List Byte} (h0 : Canon vt m) : Canon vt (Chip.toGroup m g l type cls seq payload) := by
  unfold Chip.toGroup
  repeat' first | with_reducible assumption | with_reducible apply Canon.foldl | intro _ | with_reducible apply Chip.sendFrame_canon

theorem Chip.sendTo_canon {vt : Inv} {m : Chip} {x : LFrame} {many : Nat} (h0 : Canon vt m) : Canon vt (Chip.sendTo m x many) := by
  unfold Chip.sendTo
  repeat' first | with_reducible assumption | with_reducible apply Canon.foldl | intro _ | with_reducible apply Chip.toFix_canon | with_reducible apply Chip.toGroup_canon | with_reducible apply Canon.ite

theorem Chip.setFrame_canon {vt : Inv} {m : Chip} {x : LFrame} (h0 : Canon vt m) : Canon vt (Chip.setFrame m x) := by
  unfold Chip.setFrame
  repeat' first | with_reducible assumption | with_reducible apply Chip.setLamp_canon | with_reducible apply Canon.ite

theorem Chip.dropFrame_canon {vt : Inv} {m : Chip} {h : Word} (h0 : Canon vt m) : Canon vt (Chip.dropFrame m h) := by
  unfold Chip.dropFrame
  repeat' first | with_reducible assumption | with_reducible apply Chip.setLamp_canon

theorem Chip.distribute_canon {vt : Inv} {m : Chip} {x : LFrame} {many : Nat} (h0 : Canon vt m) : Canon vt (Chip.distribute m x many) := by
  unfold Chip.distribute
  repeat' first | with_reducible assumption | with_reducible apply Chip.setFrame_canon | with_reducible apply Chip.sendTo_canon | with_reducible apply Chip.lampJob_canon | with_reducible apply Canon.ite | split | with_reducible refine Canon.snd (by assumption) ?_ | with_reducible refine Canon.fst (by assumption) ?_ | with_reducible refine Canon.mid (by assumption) ?_ | with_reducible refine Canon.thd (by assumption) ?_ | dsimp only

theorem Chip.frameEnded_canon {vt : Inv} {m : Chip} {x : LFrame} {code : Half} (h0 : Canon vt m) : Canon vt (Chip.frameEnded m x code) := by
  unfold Chip.frameEnded
  repeat' first | with_reducible assumption | with_reducible apply Chip.post_canon | with_reducible apply Canon.ite

theorem Chip.lampIssue_canon {vt : Inv} {m : Chip} {x : LFrame} (h0 : Canon vt m) : Canon vt (Chip.lampIssue m x) := by
  unfold Chip.lampIssue
  repeat' first | with_reducible assumption | with_reducible apply Chip.setLamp_canon | with_reducible apply Chip.lampSeq_canon | split | with_reducible refine Canon.snd (by assumption) ?_ | with_reducible refine Canon.fst (by assumption) ?_ | with_reducible refine Canon.mid (by assumption) ?_ | with_reducible refine Canon.thd (by assumption) ?_ | dsimp only

theorem Chip.lampSubmit_canon {vt : Inv} {m : Chip} {s : LSub} (h0 : Canon vt m) : Canon vt (Chip.lampSubmit m s).2.2 := by
  unfold Chip.lampSubmit
  repeat' first | with_reducible assumption | with_reducible apply Chip.lampIssue_canon | with_reducible apply Canon.ite | with_reducible apply Canon.iteRR | dsimp only

theorem Chip.lampReg_canon {vt : Inv} {m : Chip} {mask : Nat} {curve : Nat} (h0 : Canon vt m) : Canon vt (Chip.lampReg m mask curve) := by
  unfold Chip.lampReg
  repeat' first | with_reducible assumption | with_reducible apply Chip.setReg_canon | with_reducible apply Chip.put_canon | with_reducible apply Chip.lampSubmit_canon | with_reducible apply Canon.ite | split | with_reducible refine Canon.snd (by assumption) ?_ | with_reducible refine Canon.fst (by assumption) ?_ | with_reducible refine Canon.mid (by assumption) ?_ | with_reducible refine Canon.thd (by assumption) ?_ | dsimp only

theorem Chip.frameCommit_canon {vt : Inv} {m : Chip} (h0 : Canon vt m) : Canon vt (Chip.frameCommit m) := by
  unfold Chip.frameCommit
  repeat' first | with_reducible assumption | with_reducible apply Chip.put_canon | with_reducible apply Chip.setBank_canon | with_reducible apply Chip.goWith_canon | with_reducible apply Chip.setLamp_canon | with_reducible apply Canon.ite | split | with_reducible refine Canon.snd (by assumption) ?_ | with_reducible refine Canon.fst (by assumption) ?_ | with_reducible refine Canon.mid (by assumption) ?_ | with_reducible refine Canon.thd (by assumption) ?_ | dsimp only

theorem Chip.supersede_canon {vt : Inv} {m : Chip} {x : LFrame} (h0 : Canon vt m) : Canon vt (Chip.supersede m x) := by
  unfold Chip.supersede
  repeat' first | with_reducible assumption | with_reducible apply Canon.foldl | intro _ | with_reducible apply Chip.dropFrame_canon | with_reducible apply Chip.frameEnded_canon

theorem Chip.framePend_canon {vt : Inv} {m : Chip} {x : LFrame} (h0 : Canon vt m) : Canon vt (Chip.framePend m x) := by
  unfold Chip.framePend
  repeat' first | with_reducible assumption | with_reducible apply Canon.foldl | intro _ | with_reducible apply Chip.distribute_canon | with_reducible apply Chip.setLamp_canon | with_reducible apply Chip.fixPend_canon | with_reducible apply Chip.supersede_canon | with_reducible apply Canon.ite

theorem Chip.lampApply_canon {vt : Inv} {m : Chip} {handles : List Word} (h0 : Canon vt m) : Canon vt (Chip.lampApply m handles) := by
  unfold Chip.lampApply
  repeat' first | with_reducible assumption | with_reducible apply Canon.foldl | intro _ | with_reducible apply Chip.setLamp_canon | with_reducible apply Chip.framePend_canon

theorem Chip.lampCancelled_canon {vt : Inv} {m : Chip} (h0 : Canon vt m) : Canon vt (Chip.lampCancelled m) := by
  unfold Chip.lampCancelled
  repeat' first | with_reducible assumption | with_reducible apply Canon.foldl | intro _ | with_reducible apply Chip.setLamp_canon | with_reducible apply Chip.frameEnded_canon | with_reducible apply Canon.ite

theorem Chip.frameRetry_canon {vt : Inv} {m : Chip} {h : Word} (h0 : Canon vt m) : Canon vt (Chip.frameRetry m h) := by
  unfold Chip.frameRetry
  repeat' first | with_reducible assumption | with_reducible apply Chip.distribute_canon | with_reducible apply Canon.ite | split | with_reducible refine Canon.snd (by assumption) ?_ | with_reducible refine Canon.fst (by assumption) ?_ | with_reducible refine Canon.mid (by assumption) ?_ | with_reducible refine Canon.thd (by assumption) ?_ | dsimp only

theorem Chip.lateExpiry_canon {vt : Inv} {m : Chip} {h : Word} (h0 : Canon vt m) : Canon vt (Chip.lateExpiry m h) := by
  unfold Chip.lateExpiry
  repeat' first | with_reducible assumption | with_reducible apply Canon.foldl | intro _ | with_reducible apply Chip.lampCount_canon | with_reducible apply Chip.post_canon | with_reducible apply Chip.setFix_canon | with_reducible apply Chip.dropFrame_canon | with_reducible apply Canon.ite | split | with_reducible refine Canon.snd (by assumption) ?_ | with_reducible refine Canon.fst (by assumption) ?_ | with_reducible refine Canon.mid (by assumption) ?_ | with_reducible refine Canon.thd (by assumption) ?_ | dsimp only

theorem Chip.lampAck_canon {vt : Inv} {m : Chip} {f : RxFrame} (h0 : Canon vt m) : Canon vt (Chip.lampAck m f) := by
  unfold Chip.lampAck
  repeat' first | with_reducible assumption | with_reducible apply Canon.foldl | intro _ | with_reducible apply Chip.setLamp_canon | with_reducible apply Chip.lampCount_canon | with_reducible apply Chip.setFix_canon | with_reducible apply Chip.setFrame_canon | with_reducible apply Chip.rx_canon | with_reducible apply Canon.ite | split | with_reducible refine Canon.snd (by assumption) ?_ | with_reducible refine Canon.fst (by assumption) ?_ | with_reducible refine Canon.mid (by assumption) ?_ | with_reducible refine Canon.thd (by assumption) ?_ | dsimp only

theorem Chip.lampReport_canon {vt : Inv} {m : Chip} {f : RxFrame} (h0 : Canon vt m) : Canon vt (Chip.lampReport m f) := by
  unfold Chip.lampReport
  repeat' first | with_reducible assumption | with_reducible apply Chip.setLamp_canon | with_reducible apply Chip.lampCount_canon | with_reducible apply Chip.rx_canon | with_reducible apply Canon.ite | split | with_reducible refine Canon.snd (by assumption) ?_ | with_reducible refine Canon.fst (by assumption) ?_ | with_reducible refine Canon.mid (by assumption) ?_ | with_reducible refine Canon.thd (by assumption) ?_ | dsimp only

theorem Chip.oneReport_canon {vt : Inv} {m : Chip} {a : Nat} {r : LReport} (h0 : Canon vt m) : Canon vt (Chip.oneReport m a r) := by
  unfold Chip.oneReport
  repeat' first | with_reducible assumption | with_reducible apply Chip.lampIssue_canon | with_reducible apply Chip.setFix_canon | with_reducible apply Chip.vmReport_canon | with_reducible apply Canon.ite | split | with_reducible refine Canon.snd (by assumption) ?_ | with_reducible refine Canon.fst (by assumption) ?_ | with_reducible refine Canon.mid (by assumption) ?_ | with_reducible refine Canon.thd (by assumption) ?_ | dsimp only

theorem Chip.reportProcess_canon {vt : Inv} {m : Chip} (h0 : Canon vt m) : Canon vt (Chip.reportProcess m) := by
  unfold Chip.reportProcess
  repeat' first | with_reducible assumption | with_reducible apply Canon.foldl | intro _ | with_reducible apply Chip.setLamp_canon | with_reducible apply Chip.oneReport_canon | with_reducible apply Chip.lampJob_canon | with_reducible apply Canon.ite | split | with_reducible refine Canon.snd (by assumption) ?_ | with_reducible refine Canon.fst (by assumption) ?_ | with_reducible refine Canon.mid (by assumption) ?_ | with_reducible refine Canon.thd (by assumption) ?_ | dsimp only

theorem Chip.fixSilent_canon {vt : Inv} {m : Chip} {a : Nat} (h0 : Canon vt m) : Canon vt (Chip.fixSilent m a) := by
  unfold Chip.fixSilent
  repeat' first | with_reducible assumption | with_reducible apply Chip.setFix_canon | with_reducible apply Canon.ite

theorem Chip.setZone_canon {vt : Inv} {m : Chip} {z : Nat} {x : Zone} (h0 : Canon vt m) : Canon vt (Chip.setZone m z x) := by
  unfold Chip.setZone
  repeat' first | with_reducible assumption | with_reducible apply Chip.setLamp_canon

theorem Chip.lampDay_canon {vt : Inv} {m : Chip} {z : Nat} (h0 : Canon vt m) : Canon vt (Chip.lampDay m z) := by
  unfold Chip.lampDay
  repeat' first | with_reducible assumption | with_reducible apply Chip.post_canon | with_reducible apply Chip.setZone_canon | with_reducible apply Canon.ite

theorem Chip.alloc_canon {vt : Inv} {m : Chip} {e : ZoneEnt} {l : Nat} (h0 : Canon vt m) : Canon vt (Chip.alloc m e l).2 := by
  unfold Chip.alloc
  repeat' first | with_reducible assumption | with_reducible apply Chip.loopRead_canon | with_reducible apply Canon.ite | with_reducible apply Canon.iteR | split | with_reducible refine Canon.snd (by assumption) ?_ | with_reducible refine Canon.fst (by assumption) ?_ | with_reducible refine Canon.mid (by assumption) ?_ | with_reducible refine Canon.thd (by assumption) ?_ | dsimp only

theorem Chip.par_canon {vt : Inv} {m : Chip} {z : Nat} {e : ZoneEnt} {x : Zone} {d : DWord} (h0 : Canon vt m) : Canon vt (m.par z e x d).2.2 := by
  unfold Chip.par
  repeat' first | with_reducible assumption | with_reducible apply Chip.setZone_canon | with_reducible apply Chip.post_canon | with_reducible apply Chip.loopRead_canon | with_reducible apply Canon.iteRR | with_reducible apply Canon.ite | split | dsimp only

theorem Chip.received_canon {vt : Inv} {m : Chip} {e : ZoneEnt} {x : Zone} (h0 : Canon vt m) : Canon vt (Chip.received m e x).2 := by
  unfold Chip.received
  repeat' first | with_reducible assumption | with_reducible apply Chip.loopRead_canon | with_reducible apply Canon.ite | with_reducible apply Canon.iteR | split | with_reducible refine Canon.snd (by assumption) ?_ | with_reducible refine Canon.fst (by assumption) ?_ | with_reducible refine Canon.mid (by assumption) ?_ | with_reducible refine Canon.thd (by assumption) ?_ | dsimp only

theorem Chip.intensity_canon {vt : Inv} {m : Chip} {e : ZoneEnt} {x : Zone} {l : Nat} {h : DWord} (h0 : Canon vt m) : Canon vt (Chip.intensity m e x l h).2 := by
  unfold Chip.intensity
  repeat' first | with_reducible assumption | with_reducible apply Chip.loopRead_canon | with_reducible apply Canon.ite | with_reducible apply Canon.iteR | split | with_reducible refine Canon.snd (by assumption) ?_ | with_reducible refine Canon.fst (by assumption) ?_ | with_reducible refine Canon.mid (by assumption) ?_ | with_reducible refine Canon.thd (by assumption) ?_ | dsimp only

theorem Chip.evaluate_canon {vt : Inv} {m : Chip} {z : Nat} (h0 : Canon vt m) : Canon vt (Chip.evaluate m z) := by
  unfold Chip.evaluate
  repeat' first | with_reducible assumption | with_reducible apply Canon.foldl | intro _ | with_reducible apply Chip.lampIssue_canon | with_reducible apply Chip.setZone_canon | with_reducible apply Chip.post_canon | with_reducible apply Chip.alloc_canon | with_reducible apply Chip.intensity_canon | with_reducible apply Chip.unitWrite_canon | with_reducible apply Chip.par_canon | with_reducible apply Chip.received_canon | with_reducible apply Canon.ite | split | with_reducible refine Canon.snd (by assumption) ?_ | with_reducible refine Canon.fst (by assumption) ?_ | with_reducible refine Canon.mid (by assumption) ?_ | with_reducible refine Canon.thd (by assumption) ?_ | dsimp only

theorem Chip.zoneEval_canon {vt : Inv} {m : Chip} {z : Nat} (h0 : Canon vt m) : Canon vt (Chip.zoneEval m z) := by
  unfold Chip.zoneEval
  repeat' first | with_reducible assumption | with_reducible apply Chip.lampCount_canon | with_reducible apply Chip.evaluate_canon | with_reducible apply Chip.lampJob_canon | with_reducible apply Canon.ite | split | with_reducible refine Canon.snd (by assumption) ?_ | with_reducible refine Canon.fst (by assumption) ?_ | with_reducible refine Canon.mid (by assumption) ?_ | with_reducible refine Canon.thd (by assumption) ?_ | dsimp only

theorem Chip.fwEnd_canon {vt : Inv} {m : Chip} {c : Campaign} {code : Half} (h0 : Canon vt m) : Canon vt (Chip.fwEnd m c code) := by
  unfold Chip.fwEnd
  repeat' first | with_reducible assumption | with_reducible apply Chip.setLamp_canon | with_reducible apply Chip.put_canon | with_reducible apply Chip.post_canon | with_reducible apply Canon.ite

theorem Chip.fwGo_canon {vt : Inv} {m : Chip} {key : Nat} {group : Nat} (h0 : Canon vt m) : Canon vt (Chip.fwGo m key group) := by
  unfold Chip.fwGo
  repeat' first | with_reducible assumption | with_reducible apply Chip.setLamp_canon | with_reducible apply Chip.put_canon | with_reducible apply Canon.ite

theorem Chip.fwAbort_canon {vt : Inv} {m : Chip} (h0 : Canon vt m) : Canon vt (Chip.fwAbort m) := by
  unfold Chip.fwAbort
  repeat' first | with_reducible assumption | with_reducible apply Chip.fwEnd_canon | split | with_reducible refine Canon.snd (by assumption) ?_ | with_reducible refine Canon.fst (by assumption) ?_ | with_reducible refine Canon.mid (by assumption) ?_ | with_reducible refine Canon.thd (by assumption) ?_ | dsimp only

theorem Chip.setFw_canon {vt : Inv} {m : Chip} {c : Campaign} (h0 : Canon vt m) : Canon vt (Chip.setFw m c) := by
  unfold Chip.setFw
  repeat' first | with_reducible assumption | with_reducible apply Chip.setLamp_canon

theorem Chip.fwSend_canon {vt : Inv} {m : Chip} {c : Campaign} {type : Nat} {cls : Nat} {payload : List Byte} (h0 : Canon vt m) : Canon vt (Chip.fwSend m c type cls payload) := by
  unfold Chip.fwSend
  repeat' first | with_reducible assumption | with_reducible apply Chip.toGroup_canon | with_reducible apply Chip.lampSeq_canon | split | with_reducible refine Canon.snd (by assumption) ?_ | with_reducible refine Canon.fst (by assumption) ?_ | with_reducible refine Canon.mid (by assumption) ?_ | with_reducible refine Canon.thd (by assumption) ?_ | dsimp only

theorem Chip.fwVerify_canon {vt : Inv} {m : Chip} {c : Campaign} (h0 : Canon vt m) : Canon vt (Chip.fwVerify m c) := by
  unfold Chip.fwVerify
  repeat' first | with_reducible assumption | with_reducible apply Chip.setFw_canon | with_reducible apply Chip.put_canon | with_reducible apply Chip.fwSend_canon | with_reducible apply Chip.useKey_canon | with_reducible apply Chip.fwEnd_canon | with_reducible apply Canon.ite

theorem Chip.fwBurst_canon {vt : Inv} {m : Chip} {c : Campaign} (h0 : Canon vt m) : Canon vt (Chip.fwBurst m c) := by
  unfold Chip.fwBurst
  repeat' first | with_reducible assumption | with_reducible apply Canon.foldl | intro _ | with_reducible apply Chip.endJob_canon | with_reducible apply Chip.admitJob_canon | with_reducible apply Chip.fwSend_canon | with_reducible apply Chip.setFw_canon | with_reducible apply Chip.put_canon | with_reducible apply Canon.ite | split | with_reducible refine Canon.snd (by assumption) ?_ | with_reducible refine Canon.fst (by assumption) ?_ | with_reducible refine Canon.mid (by assumption) ?_ | with_reducible refine Canon.thd (by assumption) ?_ | dsimp only

theorem Chip.fwStep_canon {vt : Inv} {m : Chip} (h0 : Canon vt m) : Canon vt (Chip.fwStep m) := by
  unfold Chip.fwStep
  repeat' first | with_reducible assumption | with_reducible apply Chip.fwSend_canon | with_reducible apply Chip.fwEnd_canon | with_reducible apply Chip.setFw_canon | with_reducible apply Chip.put_canon | with_reducible apply Chip.fresh_canon | with_reducible apply Chip.fwBurst_canon | with_reducible apply Chip.fwVerify_canon | with_reducible apply Canon.ite | split | with_reducible refine Canon.snd (by assumption) ?_ | with_reducible refine Canon.fst (by assumption) ?_ | with_reducible refine Canon.mid (by assumption) ?_ | with_reducible refine Canon.thd (by assumption) ?_ | dsimp only

theorem Chip.fwRetry_canon {vt : Inv} {m : Chip} (h0 : Canon vt m) : Canon vt (Chip.fwRetry m) := by
  unfold Chip.fwRetry
  repeat' first | with_reducible assumption | with_reducible apply Chip.fwBurst_canon | with_reducible apply Canon.ite | split | with_reducible refine Canon.snd (by assumption) ?_ | with_reducible refine Canon.fst (by assumption) ?_ | with_reducible refine Canon.mid (by assumption) ?_ | with_reducible refine Canon.thd (by assumption) ?_ | dsimp only

theorem Chip.fwMissing_canon {vt : Inv} {m : Chip} {f : RxFrame} (h0 : Canon vt m) : Canon vt (Chip.fwMissing m f) := by
  unfold Chip.fwMissing
  repeat' first | with_reducible assumption | with_reducible apply Chip.setFw_canon | with_reducible apply Chip.rx_canon | with_reducible apply Canon.ite | split | with_reducible refine Canon.snd (by assumption) ?_ | with_reducible refine Canon.fst (by assumption) ?_ | with_reducible refine Canon.mid (by assumption) ?_ | with_reducible refine Canon.thd (by assumption) ?_ | dsimp only

theorem Chip.lampConfig_canon {vt : Inv} {m : Chip} {a : Nat} (h0 : Canon vt m) : Canon vt (Chip.lampConfig m a) := by
  unfold Chip.lampConfig
  repeat' first | with_reducible assumption | with_reducible apply Chip.setFix_canon | with_reducible apply Chip.toFix_canon | with_reducible apply Chip.lampSeq_canon | split | with_reducible refine Canon.snd (by assumption) ?_ | with_reducible refine Canon.fst (by assumption) ?_ | with_reducible refine Canon.mid (by assumption) ?_ | with_reducible refine Canon.thd (by assumption) ?_ | dsimp only

theorem Chip.lampApplied_canon {vt : Inv} {m : Chip} {old : Chip} (h0 : Canon vt m) : Canon vt (Chip.lampApplied m old) := by
  unfold Chip.lampApplied
  repeat' first | with_reducible assumption | with_reducible apply Canon.foldl | intro _ | with_reducible apply Chip.setZone_canon | with_reducible apply Chip.lampConfig_canon

theorem Chip.unconfirm_canon {vt : Inv} {m : Chip} (h0 : Canon vt m) : Canon vt (Chip.unconfirm m) := by
  unfold Chip.unconfirm
  repeat' first | with_reducible assumption | with_reducible apply Canon.foldl | intro _ | with_reducible apply Chip.setFix_canon

theorem Chip.lampDisable_canon {vt : Inv} {m : Chip} (h0 : Canon vt m) : Canon vt (Chip.lampDisable m) := by
  unfold Chip.lampDisable
  repeat' first | with_reducible assumption | with_reducible apply Canon.foldl | intro _ | with_reducible apply Chip.fwAbort_canon | with_reducible apply Chip.put_canon | with_reducible apply Chip.setLamp_canon | with_reducible apply Chip.frameEnded_canon

theorem Chip.lampEnable_canon {vt : Inv} {m : Chip} (h0 : Canon vt m) : Canon vt (Chip.lampEnable m) := by
  unfold Chip.lampEnable
  repeat' first | with_reducible assumption | with_reducible apply Chip.put_canon | with_reducible apply Chip.unconfirm_canon

theorem Chip.lampStart_canon {vt : Inv} {m : Chip} (h0 : Canon vt m) : Canon vt (Chip.lampStart m) := by
  unfold Chip.lampStart
  repeat' first | with_reducible assumption | with_reducible apply Chip.setLamp_canon

/-! ### Model -/

theorem Chip.boundValue_canon {vt : Inv} {m : Chip} {p : Params} {tag : BitVec 40} {nanBad : Bool} (h0 : Canon vt m) : Canon vt (Chip.boundValue m p tag nanBad).2.2.2 := by
  unfold Chip.boundValue
  repeat' first | with_reducible assumption | with_reducible apply Chip.loopRead_canon | with_reducible apply Canon.ite | split | split | with_reducible refine Canon.snd (by assumption) ?_ | with_reducible refine Canon.fst (by assumption) ?_ | with_reducible refine Canon.mid (by assumption) ?_ | with_reducible refine Canon.thd (by assumption) ?_ | dsimp only

theorem Chip.trajValues_canon {vt : Inv} {m : Chip} {b : PBind} {fallback : DWord} {base : Int} {l : List (Nat × Nat)} {p : Params} (h0 : Canon vt m) :
    Canon vt (m.trajValues b fallback base l p).2.2 := by
  induction l generalizing m p with
  | nil => exact h0
  | cons e r ih => simp only [Chip.trajValues]; exact ih (Chip.boundValue_canon h0)

theorem Chip.resolve_canon {vt : Inv} {m : Chip} {steps : List (Nat × Nat)} {p : Params} {b : PBind} (h0 : Canon vt m) : Canon vt (Chip.resolve m steps p b).2 := by
  unfold Chip.resolve
  repeat' first | with_reducible assumption | with_reducible apply Chip.trajValues_canon | with_reducible apply Chip.boundValue_canon | with_reducible apply Canon.ite | with_reducible apply Canon.iteR | split | with_reducible refine Canon.snd (by assumption) ?_ | with_reducible refine Canon.fst (by assumption) ?_ | with_reducible refine Canon.mid (by assumption) ?_ | with_reducible refine Canon.thd (by assumption) ?_ | dsimp only

theorem Chip.resolveAll_canon {vt : Inv} {m : Chip} {steps : List (Nat × Nat)} {l : List PBind} {p : Params} (h0 : Canon vt m) : Canon vt (m.resolveAll steps l p).2 := by
  induction l generalizing m p with
  | nil => exact h0
  | cons e r ih => simp only [Chip.resolveAll]; exact ih (Chip.resolve_canon h0)

/-! ### Planner -/

theorem Chip.setPlan_canon {vt : Inv} {m : Chip} {x : Planner} (h0 : Canon vt m) : Canon vt (Chip.setPlan m x) := by
  unfold Chip.setPlan
  repeat' first | with_reducible assumption | with_reducible apply Chip.withPlan_canon

theorem Chip.setRound_canon {vt : Inv} {m : Chip} {r : Round} (h0 : Canon vt m) : Canon vt (Chip.setRound m r) := by
  unfold Chip.setRound
  repeat' first | with_reducible assumption | with_reducible apply Chip.setPlan_canon

theorem Chip.planPhase_canon {vt : Inv} {m : Chip} {p : Nat} (h0 : Canon vt m) : Canon vt (Chip.planPhase m p) := by
  unfold Chip.planPhase
  repeat' first | with_reducible assumption | with_reducible apply Chip.put_canon

theorem Chip.planSettle_canon {vt : Inv} {m : Chip} {r : Round} {solvedEnd : Bool} (h0 : Canon vt m) : Canon vt (Chip.planSettle m r solvedEnd).2 := by
  unfold Chip.planSettle
  repeat' first | with_reducible assumption | with_reducible apply Chip.setPlan_canon | with_reducible apply Chip.endJob_canon | with_reducible apply Chip.fresh_canon | with_reducible apply Canon.ite | with_reducible apply Canon.iteR | split | with_reducible refine Canon.snd (by assumption) ?_ | with_reducible refine Canon.fst (by assumption) ?_ | with_reducible refine Canon.mid (by assumption) ?_ | with_reducible refine Canon.thd (by assumption) ?_ | dsimp only

theorem Chip.planDiag_canon {vt : Inv} {m : Chip} {r : Round} {col : Option Nat} (h0 : Canon vt m) : Canon vt (Chip.planDiag m r col) := by
  unfold Chip.planDiag
  repeat' first | with_reducible assumption | with_reducible apply Canon.foldl | intro _ | with_reducible apply Chip.unitWrite_canon | with_reducible apply Canon.ite | split | with_reducible refine Canon.snd (by assumption) ?_ | with_reducible refine Canon.fst (by assumption) ?_ | with_reducible refine Canon.mid (by assumption) ?_ | with_reducible refine Canon.thd (by assumption) ?_ | dsimp only

theorem Chip.roundEnd_canon {vt : Inv} {m0 : Chip} {r : Round} {code : Half} {e : PEnd} {cause : Nat} {col : Option Nat} {adopted : Bool} (h0 : Canon vt m0) : Canon vt (Chip.roundEnd m0 r code e cause col adopted) := by
  unfold Chip.roundEnd
  repeat' first | with_reducible assumption | with_reducible apply Chip.planDiag_canon | with_reducible apply Chip.post_canon | with_reducible apply Chip.setPlan_canon | with_reducible apply Chip.put_canon | with_reducible apply Chip.put64_canon | with_reducible apply Chip.setReg_canon | with_reducible apply Chip.planSettle_canon | with_reducible apply Canon.ite | split | with_reducible refine Canon.snd (by assumption) ?_ | with_reducible refine Canon.fst (by assumption) ?_ | with_reducible refine Canon.mid (by assumption) ?_ | with_reducible refine Canon.thd (by assumption) ?_ | dsimp only

theorem Chip.preSolve_canon {vt : Inv} {m : Chip} {r : Round} {code : Half} (h0 : Canon vt m) : Canon vt (Chip.preSolve m r code) := by
  unfold Chip.preSolve
  repeat' first | with_reducible assumption | with_reducible apply Chip.roundEnd_canon

theorem Chip.numericFault_canon {vt : Inv} {m : Chip} {r : Round} {payload : Nat} {col : Nat} {reach : List Nat} (h0 : Canon vt m) : Canon vt (Chip.numericFault m r payload col reach) := by
  unfold Chip.numericFault
  repeat' first | with_reducible assumption | with_reducible apply Chip.post_canon | with_reducible apply Chip.roundEnd_canon | with_reducible apply Canon.ite

theorem Chip.planCancel_canon {vt : Inv} {m : Chip} (h0 : Canon vt m) : Canon vt (Chip.planCancel m) := by
  unfold Chip.planCancel
  repeat' first | with_reducible assumption | with_reducible apply Chip.roundEnd_canon | with_reducible apply Canon.ite | split | with_reducible refine Canon.snd (by assumption) ?_ | with_reducible refine Canon.fst (by assumption) ?_ | with_reducible refine Canon.mid (by assumption) ?_ | with_reducible refine Canon.thd (by assumption) ?_ | dsimp only

theorem Chip.launch_canon {vt : Inv} {m : Chip} {eligible : Bool} (h0 : Canon vt m) : Canon vt (Chip.launch m eligible).2 := by
  unfold Chip.launch
  repeat' first | with_reducible assumption | with_reducible apply Chip.setRound_canon | with_reducible apply Chip.setReg_canon | with_reducible apply Chip.put_canon | with_reducible apply Chip.planPhase_canon | with_reducible apply Chip.admitJob_canon | with_reducible apply Canon.ite | with_reducible apply Canon.iteR | split | with_reducible refine Canon.snd (by assumption) ?_ | with_reducible refine Canon.fst (by assumption) ?_ | with_reducible refine Canon.mid (by assumption) ?_ | with_reducible refine Canon.thd (by assumption) ?_ | dsimp only

theorem Chip.cadence_canon {vt : Inv} {m : Chip} (h0 : Canon vt m) : Canon vt (Chip.cadence m) := by
  unfold Chip.cadence
  repeat' first | with_reducible assumption | with_reducible apply Chip.count_canon | with_reducible apply Chip.post_canon | with_reducible apply Chip.launch_canon | with_reducible apply Chip.setPlan_canon | with_reducible apply Canon.ite | split | with_reducible refine Canon.snd (by assumption) ?_ | with_reducible refine Canon.fst (by assumption) ?_ | with_reducible refine Canon.mid (by assumption) ?_ | with_reducible refine Canon.thd (by assumption) ?_ | dsimp only

theorem Chip.planCmd_canon {vt : Inv} {m : Chip} {cancel : Bool} (h0 : Canon vt m) : Canon vt (Chip.planCmd m cancel) := by
  unfold Chip.planCmd
  repeat' first | with_reducible assumption | with_reducible apply Chip.launch_canon | with_reducible apply Chip.planCancel_canon | with_reducible apply Chip.put_canon | with_reducible apply Canon.ite | split | with_reducible refine Canon.snd (by assumption) ?_ | with_reducible refine Canon.fst (by assumption) ?_ | with_reducible refine Canon.mid (by assumption) ?_ | with_reducible refine Canon.thd (by assumption) ?_ | dsimp only

theorem Chip.startSolve_canon {vt : Inv} {m : Chip} {r : Round} (h0 : Canon vt m) : Canon vt (Chip.startSolve m r) := by
  unfold Chip.startSolve
  repeat' first | with_reducible assumption | with_reducible apply Chip.setRound_canon | with_reducible apply Chip.planPhase_canon | with_reducible apply Chip.preSolve_canon | with_reducible apply Chip.put_canon | with_reducible apply Canon.ite

theorem Chip.assembly_canon {vt : Inv} {m : Chip} (h0 : Canon vt m) : Canon vt (Chip.assembly m) := by
  unfold Chip.assembly
  repeat' first | with_reducible assumption | with_reducible apply Chip.setRound_canon | with_reducible apply Chip.planPhase_canon | with_reducible apply Chip.startSolve_canon | with_reducible apply Chip.post_canon | with_reducible apply Chip.roundEnd_canon | with_reducible apply Chip.put_canon | with_reducible apply Chip.resolveAll_canon | with_reducible apply Chip.preSolve_canon | with_reducible apply Canon.ite | split | with_reducible refine Canon.snd (by assumption) ?_ | with_reducible refine Canon.fst (by assumption) ?_ | with_reducible refine Canon.mid (by assumption) ?_ | with_reducible refine Canon.thd (by assumption) ?_ | dsimp only

theorem Chip.analysed_canon {vt : Inv} {m : Chip} (h0 : Canon vt m) : Canon vt (Chip.analysed m) := by
  unfold Chip.analysed
  repeat' first | with_reducible assumption | with_reducible apply Chip.startSolve_canon | with_reducible apply Chip.setPlan_canon | with_reducible apply Chip.post_canon | with_reducible apply Canon.ite | split | with_reducible refine Canon.snd (by assumption) ?_ | with_reducible refine Canon.fst (by assumption) ?_ | with_reducible refine Canon.mid (by assumption) ?_ | with_reducible refine Canon.thd (by assumption) ?_ | dsimp only

theorem Chip.notAdopted_canon {vt : Inv} {m : Chip} {r : Round} {code : Half} (h0 : Canon vt m) : Canon vt (Chip.notAdopted m r code) := by
  unfold Chip.notAdopted
  repeat' first | with_reducible assumption | with_reducible apply Chip.post_canon | with_reducible apply Chip.roundEnd_canon | with_reducible apply Canon.ite

theorem Chip.planApplied_canon {vt : Inv} {m : Chip} (h0 : Canon vt m) : Canon vt (Chip.planApplied m) := by
  unfold Chip.planApplied
  repeat' first | with_reducible assumption | with_reducible apply Chip.roundEnd_canon | with_reducible apply Chip.setPlan_canon | with_reducible apply Chip.post_canon | with_reducible apply Canon.ite | split | with_reducible refine Canon.snd (by assumption) ?_ | with_reducible refine Canon.fst (by assumption) ?_ | with_reducible refine Canon.mid (by assumption) ?_ | with_reducible refine Canon.thd (by assumption) ?_ | dsimp only

theorem Chip.adopt_canon {vt : Inv} {m : Chip} {r : Round} {outs : List (Nat × DWord)} {x : List DWord} (h0 : Canon vt m) : Canon vt (Chip.adopt m r outs x) := by
  unfold Chip.adopt
  repeat' first | with_reducible assumption | with_reducible apply Chip.planApplied_canon | with_reducible apply Chip.goWith_canon | with_reducible apply Chip.planPhase_canon | with_reducible apply Chip.setBank_canon | with_reducible apply Chip.put_canon | with_reducible apply Chip.put64_canon | with_reducible apply Chip.notAdopted_canon | with_reducible apply Chip.setRound_canon | with_reducible apply Canon.ite | split | with_reducible refine Canon.snd (by assumption) ?_ | with_reducible refine Canon.fst (by assumption) ?_ | with_reducible refine Canon.mid (by assumption) ?_ | with_reducible refine Canon.thd (by assumption) ?_ | dsimp only

theorem Chip.accept_canon {vt : Inv} {m0 : Chip} {r0 : Round} {fin : Nat} (h0 : Canon vt m0) : Canon vt (Chip.accept m0 r0 fin) := by
  unfold Chip.accept
  repeat' first | with_reducible assumption | with_reducible apply Chip.adopt_canon | with_reducible apply Chip.post_canon | with_reducible apply Chip.roundEnd_canon | with_reducible apply Chip.put_canon | with_reducible apply Chip.planSettle_canon | with_reducible apply Canon.ite | split | with_reducible refine Canon.snd (by assumption) ?_ | with_reducible refine Canon.fst (by assumption) ?_ | with_reducible refine Canon.mid (by assumption) ?_ | with_reducible refine Canon.thd (by assumption) ?_ | dsimp only

theorem Chip.planWatch_canon {vt : Inv} {m : Chip} (h0 : Canon vt m) : Canon vt (Chip.planWatch m) := by
  unfold Chip.planWatch
  repeat' first | with_reducible assumption | with_reducible apply Chip.notAdopted_canon | with_reducible apply Canon.ite | split | with_reducible refine Canon.snd (by assumption) ?_ | with_reducible refine Canon.fst (by assumption) ?_ | with_reducible refine Canon.mid (by assumption) ?_ | with_reducible refine Canon.thd (by assumption) ?_ | dsimp only

theorem Chip.exchange_canon {vt : Inv} {m : Chip} {r : Round} (h0 : Canon vt m) : Canon vt (Chip.exchange m r) := by
  unfold Chip.exchange
  repeat' first | with_reducible assumption | with_reducible apply Canon.foldl | intro _ | with_reducible apply Chip.sendPlain_canon | with_reducible apply Chip.setRound_canon | with_reducible apply Chip.put_canon | with_reducible apply Chip.planPhase_canon | split | with_reducible refine Canon.snd (by assumption) ?_ | with_reducible refine Canon.fst (by assumption) ?_ | with_reducible refine Canon.mid (by assumption) ?_ | with_reducible refine Canon.thd (by assumption) ?_ | dsimp only

theorem Chip.coordStop_canon {vt : Inv} {m : Chip} {r : Round} {code : Half} (h0 : Canon vt m) : Canon vt (Chip.coordStop m r code) := by
  unfold Chip.coordStop
  repeat' first | with_reducible assumption | with_reducible apply Chip.post_canon | with_reducible apply Chip.accept_canon | with_reducible apply Chip.roundEnd_canon | with_reducible apply Canon.ite | split | with_reducible refine Canon.snd (by assumption) ?_ | with_reducible refine Canon.fst (by assumption) ?_ | with_reducible refine Canon.mid (by assumption) ?_ | with_reducible refine Canon.thd (by assumption) ?_ | dsimp only

theorem Chip.coordSolve_canon {vt : Inv} {m : Chip} {r : Round} (h0 : Canon vt m) : Canon vt (Chip.coordSolve m r) := by
  unfold Chip.coordSolve
  repeat' first | with_reducible assumption | with_reducible apply Chip.coordStop_canon | with_reducible apply Chip.startSolve_canon | with_reducible apply Chip.admitJob_canon | split | with_reducible refine Canon.snd (by assumption) ?_ | with_reducible refine Canon.fst (by assumption) ?_ | with_reducible refine Canon.mid (by assumption) ?_ | with_reducible refine Canon.thd (by assumption) ?_ | dsimp only

theorem Chip.freeze_canon {vt : Inv} {m : Chip} {r : Round} {t : Tie} {cause : Nat} (h0 : Canon vt m) : Canon vt (Chip.freeze m r t cause).2 := by
  unfold Chip.freeze
  repeat' first | with_reducible assumption | with_reducible apply Chip.post_canon | dsimp only

theorem Chip.freezeAll_canon {vt : Inv} {m : Chip} {r : Round} {l : List Tie} (h0 : Canon vt m) : Canon vt (m.freezeAll r l).2.2 := by
  induction l generalizing m with
  | nil => exact h0
  | cons e q ih =>
    simp only [Chip.freezeAll]
    refine ih ?_
    repeat' first | with_reducible assumption | with_reducible apply Chip.freeze_canon | split | dsimp only

theorem Chip.coordStep_canon {vt : Inv} {m0 : Chip} {r0 : Round} (h0 : Canon vt m0) : Canon vt (Chip.coordStep m0 r0) := by
  unfold Chip.coordStep
  repeat' first | with_reducible assumption | with_reducible apply Canon.foldl | intro _ | with_reducible apply Chip.coordSolve_canon | with_reducible apply Chip.accept_canon | with_reducible apply Chip.freezeAll_canon | with_reducible apply Canon.ite | split | with_reducible refine Canon.snd (by assumption) ?_ | with_reducible refine Canon.fst (by assumption) ?_ | with_reducible refine Canon.mid (by assumption) ?_ | with_reducible refine Canon.thd (by assumption) ?_ | dsimp only

theorem Chip.coordWait_canon {vt : Inv} {m : Chip} (h0 : Canon vt m) : Canon vt (Chip.coordWait m) := by
  unfold Chip.coordWait
  repeat' first | with_reducible assumption | with_reducible apply Chip.coordStep_canon | with_reducible apply Canon.ite | split | with_reducible refine Canon.snd (by assumption) ?_ | with_reducible refine Canon.fst (by assumption) ?_ | with_reducible refine Canon.mid (by assumption) ?_ | with_reducible refine Canon.thd (by assumption) ?_ | dsimp only

theorem Chip.tieMessage_canon {vt : Inv} {m : Chip} {f : RxFrame} (h0 : Canon vt m) : Canon vt (Chip.tieMessage m f) := by
  unfold Chip.tieMessage
  repeat' first | with_reducible assumption | with_reducible apply Chip.coordStep_canon | with_reducible apply Chip.setRound_canon | with_reducible apply Chip.rx_canon | with_reducible apply Canon.ite | split | with_reducible refine Canon.snd (by assumption) ?_ | with_reducible refine Canon.fst (by assumption) ?_ | with_reducible refine Canon.mid (by assumption) ?_ | with_reducible refine Canon.thd (by assumption) ?_ | dsimp only

theorem Chip.solved_canon {vt : Inv} {m0 : Chip} {r : Round} (h0 : Canon vt m0) : Canon vt (Chip.solved m0 r) := by
  unfold Chip.solved
  repeat' first | with_reducible assumption | with_reducible apply Chip.coordStep_canon | with_reducible apply Chip.exchange_canon | with_reducible apply Chip.accept_canon | with_reducible apply Chip.setPlan_canon | with_reducible apply Chip.endJob_canon | with_reducible apply Chip.fresh_canon | with_reducible apply Canon.ite | split | with_reducible refine Canon.snd (by assumption) ?_ | with_reducible refine Canon.fst (by assumption) ?_ | with_reducible refine Canon.mid (by assumption) ?_ | with_reducible refine Canon.thd (by assumption) ?_ | dsimp only

theorem Chip.iteration_canon {vt : Inv} {m : Chip} (h0 : Canon vt m) : Canon vt (Chip.iteration m) := by
  unfold Chip.iteration
  repeat' first | with_reducible assumption | with_reducible apply Chip.roundEnd_canon | with_reducible apply Chip.solved_canon | with_reducible apply Chip.setRound_canon | with_reducible apply Chip.put_canon | with_reducible apply Chip.numericFault_canon | with_reducible apply Canon.ite | split | with_reducible refine Canon.snd (by assumption) ?_ | with_reducible refine Canon.fst (by assumption) ?_ | with_reducible refine Canon.mid (by assumption) ?_ | with_reducible refine Canon.thd (by assumption) ?_ | dsimp only

theorem Chip.planDeadline_canon {vt : Inv} {m : Chip} {factoring : Bool} (h0 : Canon vt m) : Canon vt (Chip.planDeadline m factoring) := by
  unfold Chip.planDeadline
  repeat' first | with_reducible assumption | with_reducible apply Chip.accept_canon | with_reducible apply Chip.roundEnd_canon | with_reducible apply Chip.coordStop_canon | with_reducible apply Chip.preSolve_canon | with_reducible apply Canon.ite | split | with_reducible refine Canon.snd (by assumption) ?_ | with_reducible refine Canon.fst (by assumption) ?_ | with_reducible refine Canon.mid (by assumption) ?_ | with_reducible refine Canon.thd (by assumption) ?_ | dsimp only

theorem Chip.planExpired_canon {vt : Inv} {m : Chip} (h0 : Canon vt m) : Canon vt (Chip.planExpired m) := by
  unfold Chip.planExpired
  repeat' first | with_reducible assumption | with_reducible apply Chip.setPlan_canon | with_reducible apply Chip.post_canon | with_reducible apply Canon.ite | split | with_reducible refine Canon.snd (by assumption) ?_ | with_reducible refine Canon.fst (by assumption) ?_ | with_reducible refine Canon.mid (by assumption) ?_ | with_reducible refine Canon.thd (by assumption) ?_ | dsimp only

theorem Chip.scratchError_canon {vt : Inv} {m : Chip} (h0 : Canon vt m) : Canon vt (Chip.scratchError m) := by
  unfold Chip.scratchError
  repeat' first | with_reducible assumption | with_reducible apply Chip.roundEnd_canon | with_reducible apply Canon.ite | split | with_reducible refine Canon.snd (by assumption) ?_ | with_reducible refine Canon.fst (by assumption) ?_ | with_reducible refine Canon.mid (by assumption) ?_ | with_reducible refine Canon.thd (by assumption) ?_ | dsimp only

theorem Chip.planTouched_canon {vt : Inv} {m : Chip} {old : Chip} {touched : Bool} (h0 : Canon vt m) : Canon vt (Chip.planTouched m old touched) := by
  unfold Chip.planTouched
  repeat' first | with_reducible assumption | with_reducible apply Chip.setRound_canon | with_reducible apply Chip.setPlan_canon | with_reducible apply Canon.ite | split | with_reducible refine Canon.snd (by assumption) ?_ | with_reducible refine Canon.fst (by assumption) ?_ | with_reducible refine Canon.mid (by assumption) ?_ | with_reducible refine Canon.thd (by assumption) ?_ | dsimp only

theorem Chip.planProfile_canon {vt : Inv} {m : Chip} (h0 : Canon vt m) : Canon vt (Chip.planProfile m) := by
  unfold Chip.planProfile
  repeat' first | with_reducible assumption | with_reducible apply Chip.setPlan_canon

theorem Chip.planStart_canon {vt : Inv} {m : Chip} (h0 : Canon vt m) : Canon vt (Chip.planStart m) := by
  unfold Chip.planStart
  repeat' first | with_reducible assumption | with_reducible apply Chip.setPlan_canon

/-! ### Can -/

theorem Chip.setCan_canon {vt : Inv} {m : Chip} {n : Nat} {x : Can} (h0 : Canon vt m) : Canon vt (Chip.setCan m n x) := by
  unfold Chip.setCan
  repeat' first | with_reducible assumption | with_reducible apply Chip.withPorts_canon

theorem Chip.setCanState_canon {vt : Inv} {m : Chip} {n : Nat} {s : Nat} (h0 : Canon vt m) : Canon vt (Chip.setCanState m n s) := by
  unfold Chip.setCanState
  repeat' first | with_reducible assumption | with_reducible apply Chip.put_canon

theorem Chip.canCount_canon {vt : Inv} {m : Chip} {n : Nat} {k : Nat} {times : Nat} (h0 : Canon vt m) : Canon vt (Chip.canCount m n k times) := by
  unfold Chip.canCount
  repeat' first | with_reducible assumption | with_reducible apply Chip.countN_canon

theorem Chip.canStartTx_canon {vt : Inv} {m : Chip} {n : Nat} (h0 : Canon vt m) : Canon vt (Chip.canStartTx m n) := by
  unfold Chip.canStartTx
  repeat' first | with_reducible assumption | with_reducible apply Chip.put_canon | with_reducible apply Chip.setCan_canon | with_reducible apply Canon.ite | split | with_reducible refine Canon.snd (by assumption) ?_ | with_reducible refine Canon.fst (by assumption) ?_ | with_reducible refine Canon.mid (by assumption) ?_ | with_reducible refine Canon.thd (by assumption) ?_ | dsimp only

theorem Chip.canEmit_canon {vt : Inv} {m : Chip} {n : Nat} {xtd : Bool} {id : Nat} {fdf : Bool} {brs : Bool} {l : List Byte} (h0 : Canon vt m) : Canon vt (Chip.canEmit m n xtd id fdf brs l) := by
  unfold Chip.canEmit
  repeat' first | with_reducible assumption | with_reducible apply Chip.emit_canon

theorem Chip.bufEnd_canon {vt : Inv} {m : Chip} {n : Nat} {b : Nat} {code : Half} {aborted : Bool} {lost : Bool} (h0 : Canon vt m) : Canon vt (Chip.bufEnd m n b code aborted lost) := by
  unfold Chip.bufEnd
  repeat' first | with_reducible assumption | with_reducible apply Chip.setCan_canon | with_reducible apply Chip.put_canon

theorem Chip.setCounters_canon {vt : Inv} {m : Chip} {n : Nat} {tec : Nat} {rec_ : Nat} (h0 : Canon vt m) : Canon vt (Chip.setCounters m n tec rec_) := by
  unfold Chip.setCounters
  repeat' first | with_reducible assumption | with_reducible apply Chip.setCanState_canon | with_reducible apply Chip.post_canon | with_reducible apply Chip.put_canon | with_reducible apply Chip.setCan_canon | with_reducible apply Canon.ite

theorem Chip.txGood_canon {vt : Inv} {m : Chip} {n : Nat} (h0 : Canon vt m) : Canon vt (Chip.txGood m n) := by
  unfold Chip.txGood
  repeat' first | with_reducible assumption | with_reducible apply Chip.setCounters_canon

theorem Chip.rxGood_canon {vt : Inv} {m : Chip} {n : Nat} (h0 : Canon vt m) : Canon vt (Chip.rxGood m n) := by
  unfold Chip.rxGood
  repeat' first | with_reducible assumption | with_reducible apply Chip.setCounters_canon | with_reducible apply Canon.ite

theorem Chip.canTxDone_canon {vt : Inv} {m : Chip} {n : Nat} {how : Nat} (h0 : Canon vt m) : Canon vt (Chip.canTxDone m n how) := by
  unfold Chip.canTxDone
  repeat' first | with_reducible assumption | with_reducible apply Chip.canStartTx_canon | with_reducible apply Chip.setCanState_canon | with_reducible apply Chip.put_canon | with_reducible apply Chip.bufEnd_canon | with_reducible apply Chip.setEgress_canon | with_reducible apply Chip.canEmit_canon | with_reducible apply Chip.txGood_canon | with_reducible apply Chip.setCan_canon | with_reducible apply Canon.ite | split | with_reducible refine Canon.snd (by assumption) ?_ | with_reducible refine Canon.fst (by assumption) ?_ | with_reducible refine Canon.mid (by assumption) ?_ | with_reducible refine Canon.thd (by assumption) ?_ | dsimp only

theorem Chip.txbReq_canon {vt : Inv} {m : Chip} {n : Nat} {b : Nat} (h0 : Canon vt m) : Canon vt (Chip.txbReq m n b) := by
  unfold Chip.txbReq
  repeat' first | with_reducible assumption | with_reducible apply Chip.setReg_canon | with_reducible apply Chip.put_canon | with_reducible apply Chip.bufEnd_canon | with_reducible apply Canon.ite

theorem Chip.txbAbort_canon {vt : Inv} {m : Chip} {n : Nat} {b : Nat} (h0 : Canon vt m) : Canon vt (Chip.txbAbort m n b) := by
  unfold Chip.txbAbort
  repeat' first | with_reducible assumption | with_reducible apply Chip.bufEnd_canon | with_reducible apply Chip.setCan_canon | with_reducible apply Canon.ite

theorem Chip.canFrame_canon {vt : Inv} {m : Chip} {n : Nat} {f : CanFrame} (h0 : Canon vt m) : Canon vt (Chip.canFrame m n f) := by
  unfold Chip.canFrame
  repeat' first | with_reducible assumption | with_reducible apply Canon.foldl | intro _ | with_reducible apply Chip.put_canon | with_reducible apply Chip.put64_canon | with_reducible apply Chip.setReg_canon | with_reducible apply Chip.canCount_canon | with_reducible apply Chip.rxGood_canon | with_reducible apply Canon.ite | split | with_reducible refine Canon.snd (by assumption) ?_ | with_reducible refine Canon.fst (by assumption) ?_ | with_reducible refine Canon.mid (by assumption) ?_ | with_reducible refine Canon.thd (by assumption) ?_ | dsimp only

theorem Chip.deliver_canon {vt : Inv} {m : Chip} {type : Nat} {f : RxFrame} (h0 : Canon vt m) : Canon vt (Chip.deliver m type f) := by
  unfold Chip.deliver
  repeat' first | with_reducible assumption | with_reducible apply Chip.txnCount_canon | with_reducible apply Chip.lgAnnounce_canon | with_reducible apply Chip.tieMessage_canon | with_reducible apply Chip.lgSubscribe_canon | with_reducible apply Chip.lgUpdate_canon | with_reducible apply Chip.lgResp_canon | with_reducible apply Chip.lgWrite_canon | with_reducible apply Chip.lgRead_canon | with_reducible apply Chip.quenchAck_canon | with_reducible apply Chip.hello_canon | with_reducible apply Chip.ioAck_canon | with_reducible apply Chip.ioReport_canon | with_reducible apply Chip.fwMissing_canon | with_reducible apply Chip.lampReport_canon | with_reducible apply Chip.timeBeacon_canon | with_reducible apply Chip.lampAck_canon | with_reducible apply Canon.ite | split | with_reducible refine Canon.snd (by assumption) ?_ | with_reducible refine Canon.fst (by assumption) ?_ | with_reducible refine Canon.mid (by assumption) ?_ | with_reducible refine Canon.thd (by assumption) ?_ | dsimp only

theorem Chip.setReasm_canon {vt : Inv} {m : Chip} {n : Nat} {l : List Reasm} (h0 : Canon vt m) : Canon vt (Chip.setReasm m n l) := by
  unfold Chip.setReasm
  repeat' first | with_reducible assumption | with_reducible apply Chip.setCan_canon | with_reducible apply Chip.put_canon

theorem Chip.canWhole_canon {vt : Inv} {m : Chip} {n : Nat} {sender : Nat} {bytes : List Byte} {last : Nat} {occ : Nat} {deep : Nat} (h0 : Canon vt m) : Canon vt (Chip.canWhole m n sender bytes last occ deep) := by
  unfold Chip.canWhole
  repeat' first | with_reducible assumption | with_reducible apply Chip.deliver_canon | with_reducible apply Chip.withSadl_canon | with_reducible apply Chip.canCount_canon | with_reducible apply Canon.ite | split | with_reducible refine Canon.snd (by assumption) ?_ | with_reducible refine Canon.fst (by assumption) ?_ | with_reducible refine Canon.mid (by assumption) ?_ | with_reducible refine Canon.thd (by assumption) ?_ | dsimp only

theorem Chip.canSegment_canon {vt : Inv} {m : Chip} {n : Nat} {f : CanFrame} {occ : Nat} {deep : Nat} (h0 : Canon vt m) : Canon vt (Chip.canSegment m n f occ deep) := by
  unfold Chip.canSegment
  repeat' first | with_reducible assumption | with_reducible apply Chip.canWhole_canon | with_reducible apply Chip.setReasm_canon | with_reducible apply Chip.canCount_canon | with_reducible apply Chip.rxGood_canon | with_reducible apply Canon.ite | split | with_reducible refine Canon.snd (by assumption) ?_ | with_reducible refine Canon.fst (by assumption) ?_ | with_reducible refine Canon.mid (by assumption) ?_ | with_reducible refine Canon.thd (by assumption) ?_ | dsimp only

theorem Chip.reasmTimeout_canon {vt : Inv} {m : Chip} {n : Nat} (h0 : Canon vt m) : Canon vt (Chip.reasmTimeout m n) := by
  unfold Chip.reasmTimeout
  repeat' first | with_reducible assumption | with_reducible apply Chip.setReasm_canon | with_reducible apply Chip.canCount_canon | with_reducible apply Canon.ite

theorem Chip.canFlush_canon {vt : Inv} {m : Chip} {n : Nat} (h0 : Canon vt m) : Canon vt (Chip.canFlush m n) := by
  unfold Chip.canFlush
  repeat' first | with_reducible assumption | with_reducible apply Canon.foldl | intro _ | with_reducible apply Chip.bufEnd_canon | with_reducible apply Chip.setEgress_canon | with_reducible apply Chip.setCan_canon | with_reducible apply Canon.ite

theorem Chip.canBusOff_canon {vt : Inv} {m : Chip} {n : Nat} {code : Nat} {phase : Nat} (h0 : Canon vt m) : Canon vt (Chip.canBusOff m n code phase) := by
  unfold Chip.canBusOff
  repeat' first | with_reducible assumption | with_reducible apply Chip.portCancel_canon | with_reducible apply Chip.post_canon | with_reducible apply Chip.setCan_canon | with_reducible apply Chip.setCanState_canon | with_reducible apply Chip.canFlush_canon

theorem Chip.canError_canon {vt : Inv} {m : Chip} {n : Nat} {code : Nat} {data : Bool} {how : Nat} (h0 : Canon vt m) : Canon vt (Chip.canError m n code data how) := by
  unfold Chip.canError
  repeat' first | with_reducible assumption | with_reducible apply Chip.canBusOff_canon | with_reducible apply Chip.setCounters_canon | with_reducible apply Chip.put_canon | with_reducible apply Canon.ite | split | with_reducible refine Canon.snd (by assumption) ?_ | with_reducible refine Canon.fst (by assumption) ?_ | with_reducible refine Canon.mid (by assumption) ?_ | with_reducible refine Canon.thd (by assumption) ?_ | dsimp only

theorem Chip.canRecover_canon {vt : Inv} {m : Chip} {n : Nat} (h0 : Canon vt m) : Canon vt (Chip.canRecover m n) := by
  unfold Chip.canRecover
  repeat' first | with_reducible assumption | with_reducible apply Chip.setCanState_canon | with_reducible apply Canon.ite

theorem Chip.canRecovered_canon {vt : Inv} {m : Chip} {n : Nat} (h0 : Canon vt m) : Canon vt (Chip.canRecovered m n) := by
  unfold Chip.canRecovered
  repeat' first | with_reducible assumption | with_reducible apply Chip.post_canon | with_reducible apply Chip.setCanState_canon | with_reducible apply Chip.setCounters_canon | with_reducible apply Canon.ite

theorem Chip.canIntegrated_canon {vt : Inv} {m : Chip} {n : Nat} {exception : Bool} (h0 : Canon vt m) : Canon vt (Chip.canIntegrated m n exception) := by
  unfold Chip.canIntegrated
  repeat' first | with_reducible assumption | with_reducible apply Chip.canStartTx_canon | with_reducible apply Chip.canCount_canon | with_reducible apply Chip.setCanState_canon | with_reducible apply Canon.ite

theorem Chip.canStart_canon {vt : Inv} {m : Chip} {n : Nat} (h0 : Canon vt m) : Canon vt (Chip.canStart m n) := by
  unfold Chip.canStart
  repeat' first | with_reducible assumption | with_reducible apply Chip.setCan_canon | with_reducible apply Chip.setCounters_canon | with_reducible apply Chip.put_canon | with_reducible apply Chip.setCanState_canon

theorem Chip.canDisable_canon {vt : Inv} {m : Chip} {n : Nat} (h0 : Canon vt m) : Canon vt (Chip.canDisable m n) := by
  unfold Chip.canDisable
  repeat' first | with_reducible assumption | with_reducible apply Chip.canFlush_canon | with_reducible apply Chip.setCanState_canon | with_reducible apply Chip.put_canon

theorem Chip.canApplied_canon {vt : Inv} {m : Chip} {old : Chip} (h0 : Canon vt m) : Canon vt (Chip.canApplied m old) := by
  unfold Chip.canApplied
  repeat' first | with_reducible assumption | with_reducible apply Canon.foldl | intro _ | with_reducible apply Chip.setCanState_canon | with_reducible apply Chip.setCan_canon | with_reducible apply Chip.canStart_canon | with_reducible apply Canon.ite

theorem Chip.canPower_canon {vt : Inv} {m : Chip} (h0 : Canon vt m) : Canon vt (Chip.canPower m) := by
  unfold Chip.canPower
  repeat' first | with_reducible assumption | with_reducible apply Canon.foldl | intro _ | with_reducible apply Chip.canStart_canon | with_reducible apply Canon.ite

/-! ### Saddle -/

theorem Chip.setSadl_canon {vt : Inv} {m : Chip} {x : Saddle} (h0 : Canon vt m) : Canon vt (Chip.setSadl m x) := by
  unfold Chip.setSadl
  repeat' first | with_reducible assumption | with_reducible apply Chip.withSadl_canon

theorem Chip.sadlCount_canon {vt : Inv} {m : Chip} {k : Nat} (h0 : Canon vt m) : Canon vt (Chip.sadlCount m k) := by
  unfold Chip.sadlCount
  repeat' first | with_reducible assumption | with_reducible apply Chip.count_canon

theorem Chip.fieldRoles_canon {vt : Inv} {m : Chip} (h0 : Canon vt m) : Canon vt (Chip.fieldRoles m) := by
  unfold Chip.fieldRoles
  repeat' first | with_reducible assumption | with_reducible apply Canon.foldl | intro _ | with_reducible apply Chip.put_canon | with_reducible apply Canon.ite

theorem Chip.setSync_canon {vt : Inv} {m : Chip} {v : Nat} (h0 : Canon vt m) : Canon vt (Chip.setSync m v) := by
  unfold Chip.setSync
  repeat' first | with_reducible assumption | with_reducible apply Chip.put_canon | with_reducible apply Chip.post_canon | with_reducible apply Canon.ite

theorem Chip.setRole_canon {vt : Inv} {m : Chip} {v : Nat} {cause : Nat} (h0 : Canon vt m) : Canon vt (Chip.setRole m v cause) := by
  unfold Chip.setRole
  repeat' first | with_reducible assumption | with_reducible apply Chip.put_canon | with_reducible apply Chip.post_canon | with_reducible apply Chip.fieldRoles_canon | with_reducible apply Canon.ite

theorem Chip.resync_canon {vt : Inv} {m : Chip} (h0 : Canon vt m) : Canon vt (Chip.resync m) := by
  unfold Chip.resync
  repeat' first | with_reducible assumption | with_reducible apply Chip.setSadl_canon | with_reducible apply Chip.sadlCount_canon | with_reducible apply Chip.setSync_canon

theorem Chip.suspect_canon {vt : Inv} {m : Chip} (h0 : Canon vt m) : Canon vt (Chip.suspect m) := by
  unfold Chip.suspect
  repeat' first | with_reducible assumption | with_reducible apply Chip.put_canon | with_reducible apply Chip.resync_canon | with_reducible apply Canon.ite

theorem Chip.unpair_canon {vt : Inv} {m : Chip} (h0 : Canon vt m) : Canon vt (Chip.unpair m) := by
  unfold Chip.unpair
  repeat' first | with_reducible assumption | with_reducible apply Chip.setSync_canon | with_reducible apply Chip.setSadl_canon | with_reducible apply Canon.ite

theorem Chip.pairRetry_canon {vt : Inv} {m : Chip} (h0 : Canon vt m) : Canon vt (Chip.pairRetry m) := by
  unfold Chip.pairRetry
  repeat' first | with_reducible assumption | with_reducible apply Chip.emit_canon | with_reducible apply Chip.domainOn_canon | with_reducible apply Canon.ite

theorem Chip.sadlHello_canon {vt : Inv} {m : Chip} {en : Bool} {units : Nat} {capIo : Nat} {capMem : Nat} {dev : Nat} {ident : DWord} {pref : Bool} {active : Bool} {mac : Bool} (h0 : Canon vt m) : Canon vt (Chip.sadlHello m en units capIo capMem dev ident pref active mac) := by
  unfold Chip.sadlHello
  repeat' first | with_reducible assumption | with_reducible apply Chip.setRole_canon | with_reducible apply Chip.put_canon | with_reducible apply Chip.resync_canon | with_reducible apply Chip.setSadl_canon | with_reducible apply Chip.put64_canon | with_reducible apply Chip.post_canon | with_reducible apply Canon.ite | split | with_reducible refine Canon.snd (by assumption) ?_ | with_reducible refine Canon.fst (by assumption) ?_ | with_reducible refine Canon.mid (by assumption) ?_ | with_reducible refine Canon.thd (by assumption) ?_ | dsimp only

theorem Chip.pairTimeout_canon {vt : Inv} {m : Chip} {hb : Bool} (h0 : Canon vt m) : Canon vt (Chip.pairTimeout m hb) := by
  unfold Chip.pairTimeout
  repeat' first | with_reducible assumption | with_reducible apply Chip.setRole_canon | with_reducible apply Chip.setSync_canon | with_reducible apply Chip.setSadl_canon | with_reducible apply Chip.put_canon | with_reducible apply Canon.ite | split | with_reducible refine Canon.snd (by assumption) ?_ | with_reducible refine Canon.fst (by assumption) ?_ | with_reducible refine Canon.mid (by assumption) ?_ | with_reducible refine Canon.thd (by assumption) ?_ | dsimp only

theorem Chip.sadlApplied_canon {vt : Inv} {m : Chip} {old : Chip} (h0 : Canon vt m) : Canon vt (Chip.sadlApplied m old) := by
  unfold Chip.sadlApplied
  repeat' first | with_reducible assumption | with_reducible apply Chip.setRole_canon | with_reducible apply Chip.setSadl_canon | with_reducible apply Chip.setSync_canon | with_reducible apply Chip.domainOn_canon | with_reducible apply Canon.ite

theorem Chip.healthShow_canon {vt : Inv} {m : Chip} {w : Word} (h0 : Canon vt m) : Canon vt (Chip.healthShow m w) := by
  unfold Chip.healthShow
  repeat' first | with_reducible assumption | with_reducible apply Chip.post_canon | with_reducible apply Chip.setSadl_canon | with_reducible apply Canon.ite

theorem Chip.healthPoint_canon {vt : Inv} {m : Chip} {w : Word} (h0 : Canon vt m) : Canon vt (Chip.healthPoint m w) := by
  unfold Chip.healthPoint
  repeat' first | with_reducible assumption | with_reducible apply Chip.ptWrite_canon | with_reducible apply Canon.ite

theorem Chip.healthReport_canon {vt : Inv} {m : Chip} {ecc : Bool} (h0 : Canon vt m) : Canon vt (Chip.healthReport m ecc) := by
  unfold Chip.healthReport
  repeat' first | with_reducible assumption | with_reducible apply Chip.setReg_canon | with_reducible apply Chip.healthShow_canon | with_reducible apply Chip.emit_canon | with_reducible apply Canon.ite

theorem Chip.healthTake_canon {vt : Inv} {m : Chip} {w : Word} (h0 : Canon vt m) : Canon vt (Chip.healthTake m w) := by
  unfold Chip.healthTake
  repeat' first | with_reducible assumption | with_reducible apply Chip.setReg_canon | with_reducible apply Chip.setSadl_canon | with_reducible apply Chip.healthShow_canon | with_reducible apply Chip.healthPoint_canon | with_reducible apply Canon.ite

theorem Chip.healthMissing_canon {vt : Inv} {m : Chip} (h0 : Canon vt m) : Canon vt (Chip.healthMissing m) := by
  unfold Chip.healthMissing
  repeat' first | with_reducible assumption | with_reducible apply Chip.healthShow_canon | with_reducible apply Chip.healthPoint_canon | with_reducible apply Canon.ite

theorem Chip.selfTest_canon {vt : Inv} {m : Chip} {pass : Bool} (h0 : Canon vt m) : Canon vt (Chip.selfTest m pass) := by
  unfold Chip.selfTest
  repeat' first | with_reducible assumption | with_reducible apply Chip.setSadl_canon | with_reducible apply Chip.suspect_canon | with_reducible apply Canon.ite

theorem Chip.mismatch_canon {vt : Inv} {m : Chip} {loop : Bool} {sub : Nat} {object : Nat} {idx : Nat} {again : Bool} (h0 : Canon vt m) : Canon vt (Chip.mismatch m loop sub object idx again) := by
  unfold Chip.mismatch
  repeat' first | with_reducible assumption | with_reducible apply Chip.suspect_canon | with_reducible apply Chip.setSadl_canon | with_reducible apply Chip.sadlCount_canon | with_reducible apply Chip.post_canon | with_reducible apply Canon.ite

theorem Chip.timeFrame_canon {vt : Inv} {m : Chip} {t : DWord} {trusted : Bool} {locked : Bool} {utc : Word} {rtt : Nat} (h0 : Canon vt m) : Canon vt (Chip.timeFrame m t trusted locked utc rtt) := by
  unfold Chip.timeFrame
  repeat' first | with_reducible assumption | with_reducible apply Chip.put_canon | with_reducible apply Chip.setTrust_canon | with_reducible apply Chip.setUtc_canon | with_reducible apply Chip.slew_canon | with_reducible apply Chip.timeStep_canon | with_reducible apply Chip.setSadl_canon | with_reducible apply Canon.ite

theorem Chip.timeFrameLost_canon {vt : Inv} {m : Chip} (h0 : Canon vt m) : Canon vt (Chip.timeFrameLost m) := by
  unfold Chip.timeFrameLost
  repeat' first | with_reducible assumption | with_reducible apply Chip.setTrust_canon | with_reducible apply Canon.ite

theorem Chip.frameFrame_canon {vt : Inv} {m : Chip} {f : MFrame} (h0 : Canon vt m) : Canon vt (Chip.frameFrame m f) := by
  unfold Chip.frameFrame
  repeat' first | with_reducible assumption | with_reducible apply Chip.sendCopy_canon | with_reducible apply Canon.ite

theorem Chip.pointFrame_canon {vt : Inv} {m : Chip} {i : Nat} {r : PointRec} (h0 : Canon vt m) : Canon vt (Chip.pointFrame m i r) := by
  unfold Chip.pointFrame
  repeat' first | with_reducible assumption | with_reducible apply Chip.setRec_canon | with_reducible apply Canon.ite

theorem Chip.panFrame_canon {vt : Inv} {m : Chip} {i : Nat} {joined : List (DWord × Nat)} {routes : List (Nat × Nat)} {seq : Word} {gmk : List Byte} (h0 : Canon vt m) : Canon vt (Chip.panFrame m i joined routes seq gmk) := by
  unfold Chip.panFrame
  repeat' first | with_reducible assumption | with_reducible apply Chip.setVslot_canon | with_reducible apply Chip.setSadl_canon | with_reducible apply Chip.setPlc_canon | with_reducible apply Chip.setJoined_canon | with_reducible apply Canon.ite | split | with_reducible refine Canon.snd (by assumption) ?_ | with_reducible refine Canon.fst (by assumption) ?_ | with_reducible refine Canon.mid (by assumption) ?_ | with_reducible refine Canon.thd (by assumption) ?_ | dsimp only

theorem Chip.loopFrame_canon {vt : Inv} {m : Chip} {x : LoopRec} (h0 : Canon vt m) : Canon vt (Chip.loopFrame m x) := by
  unfold Chip.loopFrame
  repeat' first | with_reducible assumption | with_reducible apply Chip.mismatch_canon | with_reducible apply Chip.setLoopSt_canon | with_reducible apply Chip.put_canon | with_reducible apply Canon.ite

theorem Chip.imageFrame_canon {vt : Inv} {m : Chip} {x : SadImage} (h0 : Canon vt m) : Canon vt (Chip.imageFrame m x) := by
  unfold Chip.imageFrame
  repeat' first | with_reducible assumption | with_reducible apply Chip.setSadl_canon | with_reducible apply Canon.ite

theorem Chip.deltaFrame_canon {vt : Inv} {m : Chip} {x : SadDelta} (h0 : Canon vt m) : Canon vt (Chip.deltaFrame m x) := by
  unfold Chip.deltaFrame
  repeat' first | with_reducible assumption | with_reducible apply Chip.resync_canon | with_reducible apply Chip.setSadl_canon | with_reducible apply Canon.ite

theorem Chip.bulkFrame_canon {vt : Inv} {m : Chip} {x : SadBulk} (h0 : Canon vt m) : Canon vt (Chip.bulkFrame m x) := by
  unfold Chip.bulkFrame
  repeat' first | with_reducible assumption | with_reducible apply Chip.setSta_canon | with_reducible apply Chip.setPlc_canon | with_reducible apply Chip.setJoined_canon | with_reducible apply Chip.setLoopSt_canon | with_reducible apply Chip.setSlot_canon | with_reducible apply Chip.loadData_canon | with_reducible apply Chip.setTask_canon | with_reducible apply Chip.setBytes_canon | with_reducible apply Chip.setReg_canon | with_reducible apply Chip.setRec_canon | with_reducible apply Canon.ite | split | with_reducible refine Canon.snd (by assumption) ?_ | with_reducible refine Canon.fst (by assumption) ?_ | with_reducible refine Canon.mid (by assumption) ?_ | with_reducible refine Canon.thd (by assumption) ?_ | dsimp only

theorem Chip.resyncDone_canon {vt : Inv} {m : Chip} (h0 : Canon vt m) : Canon vt (Chip.resyncDone m) := by
  unfold Chip.resyncDone
  repeat' first | with_reducible assumption | with_reducible apply Chip.setSadl_canon | with_reducible apply Chip.put_canon | with_reducible apply Chip.setSync_canon | with_reducible apply Canon.ite

theorem Chip.backlog_canon {vt : Inv} {m : Chip} {kib : Nat} {late : Bool} (h0 : Canon vt m) : Canon vt (Chip.backlog m kib late) := by
  unfold Chip.backlog
  repeat' first | with_reducible assumption | with_reducible apply Chip.post_canon | with_reducible apply Chip.resync_canon | with_reducible apply Chip.put_canon | with_reducible apply Canon.ite

theorem Chip.landFrame_canon {vt : Inv} {m : Chip} {type : Nat} {f : RxFrame} (h0 : Canon vt m) : Canon vt (Chip.landFrame m type f) := by
  unfold Chip.landFrame
  repeat' first | with_reducible assumption | with_reducible apply Chip.lgAnnounce_canon | with_reducible apply Chip.tieMessage_canon | with_reducible apply Chip.lgSubscribe_canon | with_reducible apply Chip.lgUpdate_canon | with_reducible apply Chip.lgResp_canon | with_reducible apply Chip.lgWrite_canon | with_reducible apply Chip.lgRead_canon | with_reducible apply Chip.quenchAck_canon | with_reducible apply Chip.hello_canon | with_reducible apply Chip.ioAck_canon | with_reducible apply Chip.ioReport_canon | with_reducible apply Chip.fwMissing_canon | with_reducible apply Chip.lampReport_canon | with_reducible apply Chip.lampAck_canon | split | with_reducible refine Canon.snd (by assumption) ?_ | with_reducible refine Canon.fst (by assumption) ?_ | with_reducible refine Canon.mid (by assumption) ?_ | with_reducible refine Canon.thd (by assumption) ?_ | dsimp only

theorem Chip.adoptCycle_canon {vt : Inv} {m : Chip} {x : SadImage} (h0 : Canon vt m) : Canon vt (Chip.adoptCycle m x) := by
  unfold Chip.adoptCycle
  repeat' first | with_reducible assumption | with_reducible apply Chip.markBoundary_canon | with_reducible apply Chip.setTState_canon | with_reducible apply Chip.setTask_canon | with_reducible apply Chip.setBytes_canon | with_reducible apply Chip.put_canon

theorem Chip.ownAddresses_canon {vt : Inv} {m : Chip} {u : Nat} (h0 : Canon vt m) : Canon vt (Chip.ownAddresses m u) := by
  unfold Chip.ownAddresses
  repeat' first | with_reducible assumption | with_reducible apply Chip.emit_canon | with_reducible apply Canon.ite

theorem Chip.takeOver_canon {vt : Inv} {m : Chip} {cause : Nat} (h0 : Canon vt m) : Canon vt (Chip.takeOver m cause) := by
  unfold Chip.takeOver
  repeat' first | with_reducible assumption | with_reducible apply Canon.foldl | intro _ | with_reducible apply Chip.setFix_canon | with_reducible apply Chip.setUpl_canon | with_reducible apply Chip.ptpShow_canon | with_reducible apply Chip.ownAddresses_canon | with_reducible apply Chip.loopAnchor_canon | with_reducible apply Chip.setLoopSt_canon | with_reducible apply Chip.adoptCycle_canon | with_reducible apply Chip.anchor_canon | with_reducible apply Chip.landFrame_canon | with_reducible apply Chip.setSadl_canon | with_reducible apply Chip.setRole_canon | with_reducible apply Chip.setSync_canon | with_reducible apply Chip.sadlCount_canon

theorem Chip.sadlDecide_canon {vt : Inv} {m : Chip} (h0 : Canon vt m) : Canon vt (Chip.sadlDecide m) := by
  unfold Chip.sadlDecide
  repeat' first | with_reducible assumption | with_reducible apply Chip.takeOver_canon | with_reducible apply Chip.unpair_canon | with_reducible apply Chip.post_canon | with_reducible apply Canon.ite

theorem Chip.laneUp_canon {vt : Inv} {m : Chip} {lane : Nat} (h0 : Canon vt m) : Canon vt (Chip.laneUp m lane) := by
  unfold Chip.laneUp
  repeat' first | with_reducible assumption | with_reducible apply Chip.put_canon | with_reducible apply Chip.post_canon | with_reducible apply Canon.ite

theorem Chip.laneDrop_canon {vt : Inv} {m : Chip} {lane : Nat} (h0 : Canon vt m) : Canon vt (Chip.laneDrop m lane) := by
  unfold Chip.laneDrop
  repeat' first | with_reducible assumption | with_reducible apply Chip.unpair_canon | with_reducible apply Chip.setSadl_canon | with_reducible apply Chip.put_canon | with_reducible apply Chip.post_canon | with_reducible apply Canon.ite

theorem Chip.laneDown_canon {vt : Inv} {m : Chip} {lane : Nat} (h0 : Canon vt m) : Canon vt (Chip.laneDown m lane) := by
  unfold Chip.laneDown
  repeat' first | with_reducible assumption | with_reducible apply Chip.laneDrop_canon | with_reducible apply Chip.sadlDecide_canon

theorem Chip.heartbeatLost_canon {vt : Inv} {m : Chip} (h0 : Canon vt m) : Canon vt (Chip.heartbeatLost m) := by
  unfold Chip.heartbeatLost
  repeat' first | with_reducible assumption | with_reducible apply Chip.sadlDecide_canon | with_reducible apply Chip.post_canon | with_reducible apply Chip.put_canon | with_reducible apply Canon.ite

theorem Chip.tmoPassed_canon {vt : Inv} {m : Chip} {hb : Bool} (h0 : Canon vt m) : Canon vt (Chip.tmoPassed m hb) := by
  unfold Chip.tmoPassed
  repeat' first | with_reducible assumption | with_reducible apply Chip.put_canon | with_reducible apply Chip.sadlDecide_canon | with_reducible apply Canon.ite

theorem Chip.sadlRes_canon {vt : Inv} {m : Chip} {code : Half} (h0 : Canon vt m) : Canon vt (Chip.sadlRes m code) := by
  unfold Chip.sadlRes
  repeat' first | with_reducible assumption | with_reducible apply Chip.put_canon

theorem Chip.sadlSwitch_canon {vt : Inv} {m : Chip} (h0 : Canon vt m) : Canon vt (Chip.sadlSwitch m) := by
  unfold Chip.sadlSwitch
  repeat' first | with_reducible assumption | with_reducible apply Chip.setSadl_canon | with_reducible apply Chip.emit_canon | with_reducible apply Chip.sadlRes_canon | with_reducible apply Canon.ite

theorem Chip.switchInstant_canon {vt : Inv} {m : Chip} (h0 : Canon vt m) : Canon vt (Chip.switchInstant m) := by
  unfold Chip.switchInstant
  repeat' first | with_reducible assumption | with_reducible apply Canon.foldl | intro _ | with_reducible apply Chip.loopStep_canon | with_reducible apply Chip.anchorStep_canon | with_reducible apply Chip.sadlRes_canon | with_reducible apply Chip.setRole_canon | with_reducible apply Chip.setSadl_canon | with_reducible apply Canon.ite | split | with_reducible refine Canon.snd (by assumption) ?_ | with_reducible refine Canon.fst (by assumption) ?_ | with_reducible refine Canon.mid (by assumption) ?_ | with_reducible refine Canon.thd (by assumption) ?_ | dsimp only

theorem Chip.sadlTake_canon {vt : Inv} {m : Chip} {hb : Bool} (h0 : Canon vt m) : Canon vt (Chip.sadlTake m hb) := by
  unfold Chip.sadlTake
  repeat' first | with_reducible assumption | with_reducible apply Chip.takeOver_canon | with_reducible apply Chip.sadlRes_canon | with_reducible apply Chip.put_canon | with_reducible apply Canon.ite

theorem Chip.sadlLeave_canon {vt : Inv} {m : Chip} (h0 : Canon vt m) : Canon vt (Chip.sadlLeave m) := by
  unfold Chip.sadlLeave
  repeat' first | with_reducible assumption | with_reducible apply Chip.emit_canon | with_reducible apply Chip.unpair_canon | with_reducible apply Chip.sadlRes_canon | with_reducible apply Canon.ite

theorem Chip.sadlResync_canon {vt : Inv} {m : Chip} (h0 : Canon vt m) : Canon vt (Chip.sadlResync m) := by
  unfold Chip.sadlResync
  repeat' first | with_reducible assumption | with_reducible apply Chip.resync_canon | with_reducible apply Chip.sadlRes_canon | with_reducible apply Canon.ite

theorem Chip.ctrlFrame_canon {vt : Inv} {m : Chip} {x : SadCtrl} (h0 : Canon vt m) : Canon vt (Chip.ctrlFrame m x) := by
  unfold Chip.ctrlFrame
  repeat' first | with_reducible assumption | with_reducible apply Chip.unpair_canon | with_reducible apply Chip.setSadl_canon | with_reducible apply Chip.healthTake_canon | with_reducible apply Chip.sadlHello_canon | with_reducible apply Canon.ite | split | with_reducible refine Canon.snd (by assumption) ?_ | with_reducible refine Canon.fst (by assumption) ?_ | with_reducible refine Canon.mid (by assumption) ?_ | with_reducible refine Canon.thd (by assumption) ?_ | dsimp only

theorem Chip.sadlDisable_canon {vt : Inv} {m : Chip} (h0 : Canon vt m) : Canon vt (Chip.sadlDisable m) := by
  unfold Chip.sadlDisable
  repeat' first | with_reducible assumption | with_reducible apply Chip.laneDrop_canon | with_reducible apply Chip.unpair_canon | with_reducible apply Chip.setSadl_canon

end Sys2Proof.Machine
end

