-- ==== Sys2Proof/Laws/CanonKeep.lean ====
section
/-! SUPPORT. What changes of single parts keep, through the guard, the panel, the keeper, the governor, commits, power, the boot and the control space (Laws/Canon.lean). -/

namespace Sys2Proof.Machine

open Sys2Proof

/-! ### Guard -/

theorem Chip.setGuard_canon {vt : InvT} {m : Chip} {g : Guard} (h0 : Canon vt.toInv m) (hg : g.table = m.guard.table) : Canon vt.toInv (m.setGuard g) :=
  Chip.withGuard_canon h0 hg

/-- The same where the table changes. -/
theorem Chip.setGuard_free {vt : InvG} {m : Chip} {g : Guard} (h0 : Canon vt.toInv m) : Canon vt.toInv (m.setGuard g) := vt.guard' h0

theorem Chip.guardCount_canon {vt : Inv} {m : Chip} {k : Nat} (h0 : Canon vt m) : Canon vt (Chip.guardCount m k) := by
  unfold Chip.guardCount
  repeat' first | with_reducible assumption | with_reducible apply Chip.count_canon

theorem Chip.guardTell_canon {vt : InvT} {m : Chip} {k : Nat} {e : Event} (h0 : Canon vt.toInv m) : Canon vt.toInv (Chip.guardTell m k e) := by
  unfold Chip.guardTell
  repeat' first | with_reducible assumption | with_reducible apply Chip.guardCount_canon | with_reducible apply Chip.post_canon | with_reducible refine Chip.setGuard_canon ?_ ?_ | rfl | (simp; done) | with_reducible apply Canon.ite

theorem Chip.guardStart_canon {vt : InvG} {m : Chip} (h0 : Canon vt.toInv m) : Canon vt.toInv (Chip.guardStart m) := by
  unfold Chip.guardStart
  repeat' first | with_reducible assumption | with_reducible apply Chip.setGuard_free

theorem Chip.guardHold_canon {vt : InvG} {m : Chip} {power : Bool} (h0 : Canon vt.toInv m) : Canon vt.toInv (Chip.guardHold m power) := by
  unfold Chip.guardHold
  repeat' first | with_reducible assumption | with_reducible apply Chip.setGuard_free

theorem Chip.guardLoad_canon {vt : InvT} {m : Chip} (h0 : Canon vt.toInv m) : Canon vt.toInv (Chip.guardLoad m) := by
  unfold Chip.guardLoad
  repeat' first | with_reducible assumption | with_reducible refine Chip.setGuard_canon ?_ ?_ | rfl | (simp; done)

theorem Chip.guardTable_canon {vt : InvG} {m : Chip} {agree : Bool} (h0 : Canon vt.toInv m) : Canon vt.toInv (Chip.guardTable m agree) := by
  unfold Chip.guardTable
  repeat' first | with_reducible assumption | with_reducible apply Canon.foldl | intro _ | with_reducible apply Chip.setReg_canon | with_reducible apply Chip.put_canon | with_reducible apply Chip.post_canon | with_reducible apply Chip.setGuard_free | with_reducible apply Canon.ite | split | with_reducible refine Canon.snd (by assumption) ?_ | with_reducible refine Canon.fst (by assumption) ?_ | with_reducible refine Canon.mid (by assumption) ?_ | with_reducible refine Canon.thd (by assumption) ?_ | dsimp only

theorem Chip.outFault_canon {vt : InvT} {m : Chip} {o : Nat} {code : Nat} (h0 : Canon vt.toInv m) : Canon vt.toInv (Chip.outFault m o code) := by
  unfold Chip.outFault
  repeat' first | with_reducible assumption | with_reducible apply Chip.guardTell_canon | with_reducible refine Chip.setGuard_canon ?_ ?_ | rfl | (simp; done) | with_reducible apply Canon.ite

theorem Chip.trips_canon {vt : InvT} {m : Chip} {before : Nat} (h0 : Canon vt.toInv m) : Canon vt.toInv (Chip.trips m before) := by
  unfold Chip.trips
  repeat' first | with_reducible assumption | with_reducible apply Canon.foldl | intro _ | with_reducible apply Chip.guardTell_canon | with_reducible refine Chip.setGuard_canon ?_ ?_ | rfl | (simp; done) | with_reducible apply Canon.ite

theorem Chip.guardEval_canon {vt : InvT} {m : Chip} {samples : List (BitVec 16 × BitVec 16)} {rb : Nat} (h0 : Canon vt.toInv m) : Canon vt.toInv (Chip.guardEval m samples rb) := by
  unfold Chip.guardEval
  repeat' first | with_reducible assumption | with_reducible apply Canon.foldl | intro _ | with_reducible apply Chip.trips_canon | with_reducible refine Chip.setGuard_canon ?_ ?_ | rfl | (simp; done) | with_reducible apply Canon.ite | split | with_reducible refine Canon.snd (by assumption) ?_ | with_reducible refine Canon.fst (by assumption) ?_ | with_reducible refine Canon.mid (by assumption) ?_ | with_reducible refine Canon.thd (by assumption) ?_ | dsimp only

theorem Chip.offPulse_canon {vt : InvT} {m : Chip} {o : Nat} {ok : Bool} (h0 : Canon vt.toInv m) : Canon vt.toInv (Chip.offPulse m o ok) := by
  unfold Chip.offPulse
  repeat' first | with_reducible assumption | with_reducible apply Chip.outFault_canon | with_reducible apply Chip.emit_canon | with_reducible refine Chip.setGuard_canon ?_ ?_ | rfl | (simp; done) | with_reducible apply Canon.ite | split | with_reducible refine Canon.snd (by assumption) ?_ | with_reducible refine Canon.fst (by assumption) ?_ | with_reducible refine Canon.mid (by assumption) ?_ | with_reducible refine Canon.thd (by assumption) ?_ | dsimp only

theorem Chip.readback_canon {vt : InvT} {m : Chip} {o : Nat} (h0 : Canon vt.toInv m) : Canon vt.toInv (Chip.readback m o) := by
  unfold Chip.readback
  repeat' first | with_reducible assumption | with_reducible apply Chip.outFault_canon | with_reducible refine Chip.setGuard_canon ?_ ?_ | rfl | (simp; done) | with_reducible apply Canon.ite

theorem Chip.discrepancy_canon {vt : InvT} {m : Chip} {i : Nat} (h0 : Canon vt.toInv m) : Canon vt.toInv (Chip.discrepancy m i) := by
  unfold Chip.discrepancy
  repeat' first | with_reducible assumption | with_reducible apply Chip.trips_canon | with_reducible apply Chip.guardTell_canon | with_reducible refine Chip.setGuard_canon ?_ ?_ | rfl | (simp; done) | with_reducible apply Canon.ite | split | with_reducible refine Canon.snd (by assumption) ?_ | with_reducible refine Canon.fst (by assumption) ?_ | with_reducible refine Canon.mid (by assumption) ?_ | with_reducible refine Canon.thd (by assumption) ?_ | dsimp only

theorem Chip.disagree_canon {vt : InvT} {m : Chip} {o : Nat} (h0 : Canon vt.toInv m) : Canon vt.toInv (Chip.disagree m o) := by
  unfold Chip.disagree
  repeat' first | with_reducible assumption | with_reducible apply Chip.outFault_canon | with_reducible apply Chip.guardTell_canon | with_reducible apply Canon.ite | split | with_reducible refine Canon.snd (by assumption) ?_ | with_reducible refine Canon.fst (by assumption) ?_ | with_reducible refine Canon.mid (by assumption) ?_ | with_reducible refine Canon.thd (by assumption) ?_ | dsimp only

theorem Chip.guardShow_canon {vt : Inv} {m : Chip} (h0 : Canon vt m) : Canon vt (Chip.guardShow m) := by
  unfold Chip.guardShow
  repeat' first | with_reducible assumption | with_reducible apply Canon.foldl | intro _ | with_reducible apply Chip.put_canon | with_reducible apply Chip.setReg_canon

theorem Chip.guardRequests_canon {vt : Inv} {m : Chip} (h0 : Canon vt m) : Canon vt m.guardRequests.2 := by
  unfold Chip.guardRequests
  generalize m.guard.outs = l
  generalize 0 = n
  induction l generalizing m n with
  | nil => exact h0
  | cons e r ih =>
    simp only [List.foldl_cons]
    split
    · exact ih h0 _
    · exact ih (Chip.ptRead_canon h0) _

theorem Chip.coreFrame_canon {vt : InvT} {m : Chip} (h0 : Canon vt.toInv m) : Canon vt.toInv (Chip.coreFrame m) := by
  unfold Chip.coreFrame
  repeat' first | with_reducible assumption | with_reducible apply Canon.foldl | intro _ | with_reducible apply Chip.guardShow_canon | with_reducible apply Chip.guardCount_canon | with_reducible apply Chip.post_canon | with_reducible apply Chip.emit_canon | with_reducible apply Chip.guardRequests_canon | with_reducible refine Chip.setGuard_canon ?_ ?_ | rfl | (simp; done) | with_reducible apply Canon.ite | split | with_reducible refine Canon.snd (by assumption) ?_ | with_reducible refine Canon.fst (by assumption) ?_ | with_reducible refine Canon.mid (by assumption) ?_ | with_reducible refine Canon.thd (by assumption) ?_ | dsimp only

theorem Chip.linkFrame_canon {vt : InvT} {m : Chip} {permits : Byte} {requests : Byte} {seq : Word} {ok : Bool} (h0 : Canon vt.toInv m) : Canon vt.toInv (Chip.linkFrame m permits requests seq ok) := by
  unfold Chip.linkFrame
  repeat' first | with_reducible assumption | with_reducible apply Chip.trips_canon | with_reducible refine Chip.setGuard_canon ?_ ?_ | rfl | (simp; done) | with_reducible apply Canon.ite | split | with_reducible refine Canon.snd (by assumption) ?_ | with_reducible refine Canon.fst (by assumption) ?_ | with_reducible refine Canon.mid (by assumption) ?_ | with_reducible refine Canon.thd (by assumption) ?_ | dsimp only

theorem Chip.linkLost_canon {vt : InvT} {m : Chip} (h0 : Canon vt.toInv m) : Canon vt.toInv (Chip.linkLost m) := by
  unfold Chip.linkLost
  repeat' first | with_reducible assumption | with_reducible apply Canon.foldl | intro _ | with_reducible apply Chip.put_canon | with_reducible apply Chip.guardTell_canon | with_reducible refine Chip.setGuard_canon ?_ ?_ | rfl | (simp; done)

theorem Chip.linkTimeout_canon {vt : InvT} {m : Chip} (h0 : Canon vt.toInv m) : Canon vt.toInv (Chip.linkTimeout m) := by
  unfold Chip.linkTimeout
  repeat' first | with_reducible assumption | with_reducible apply Chip.linkLost_canon | with_reducible apply Canon.ite

theorem Chip.lockstep_canon {vt : InvT} {m : Chip} (h0 : Canon vt.toInv m) : Canon vt.toInv (Chip.lockstep m) := by
  unfold Chip.lockstep
  repeat' first | with_reducible assumption | with_reducible apply Canon.foldl | intro _ | with_reducible apply Chip.put_canon | with_reducible apply Chip.post_canon | with_reducible refine Chip.setGuard_canon ?_ ?_ | rfl | (simp; done) | with_reducible apply Canon.ite

theorem Chip.guardSupply_canon {vt : InvG} {m : Chip} {back : Bool} (h0 : Canon vt.toInv m) : Canon vt.toInv (Chip.guardSupply m back) := by
  unfold Chip.guardSupply
  repeat' first | with_reducible assumption | with_reducible apply Chip.linkLost_canon | with_reducible apply Chip.guardHold_canon | with_reducible apply Canon.ite

/-! ### Panel -/

theorem Chip.setPanel_canon {vt : Inv} {m : Chip} {x : Panel} (h0 : Canon vt m) : Canon vt (Chip.setPanel m x) := by
  unfold Chip.setPanel
  repeat' first | with_reducible assumption | with_reducible apply Chip.withPanel_canon

theorem Chip.panelDone_canon {vt : Inv} {m : Chip} {code : Half} (h0 : Canon vt m) : Canon vt (Chip.panelDone m code) := by
  unfold Chip.panelDone
  repeat' first | with_reducible assumption | with_reducible apply Chip.put_canon

theorem Chip.panelRecord_canon {vt : Inv} {m : Chip} {started : Bool} {gen : Nat} {row : Nat} (h0 : Canon vt m) : Canon vt (Chip.panelRecord m started gen row) := by
  unfold Chip.panelRecord
  repeat' first | with_reducible assumption | with_reducible apply Chip.setPanel_canon | with_reducible apply Chip.put_canon

theorem Chip.passEnd_canon {vt : Inv} {m : Chip} {r : PanelReq} {code : Half} (h0 : Canon vt m) : Canon vt (Chip.passEnd m r code) := by
  unfold Chip.passEnd
  repeat' first | with_reducible assumption | with_reducible apply Chip.setPanel_canon | with_reducible apply Chip.put_canon | with_reducible apply Chip.panelDone_canon | with_reducible apply Chip.panelRecord_canon | with_reducible apply Canon.ite

theorem Chip.passStart_canon {vt : Inv} {m : Chip} {r : PanelReq} (h0 : Canon vt m) : Canon vt (Chip.passStart m r) := by
  unfold Chip.passStart
  repeat' first | with_reducible assumption | with_reducible apply Chip.put_canon | with_reducible apply Chip.passEnd_canon | with_reducible apply Chip.setPanel_canon | with_reducible apply Chip.panelRecord_canon | with_reducible apply Canon.ite

theorem Chip.panelUpdate_canon {vt : Inv} {m : Chip} {w : Word} (h0 : Canon vt m) : Canon vt (Chip.panelUpdate m w) := by
  unfold Chip.panelUpdate
  repeat' first | with_reducible assumption | with_reducible apply Chip.setPanel_canon | with_reducible apply Chip.passStart_canon | with_reducible apply Chip.panelDone_canon | with_reducible apply Chip.put_canon | with_reducible apply Canon.ite | split | with_reducible refine Canon.snd (by assumption) ?_ | with_reducible refine Canon.fst (by assumption) ?_ | with_reducible refine Canon.mid (by assumption) ?_ | with_reducible refine Canon.thd (by assumption) ?_ | dsimp only

theorem Chip.panelLine_canon {vt : Inv} {m : Chip} (h0 : Canon vt m) : Canon vt (Chip.panelLine m) := by
  unfold Chip.panelLine
  repeat' first | with_reducible assumption | with_reducible apply Chip.panelDone_canon | with_reducible apply Chip.passStart_canon | with_reducible apply Chip.put_canon | with_reducible apply Chip.passEnd_canon | with_reducible apply Chip.setPanel_canon | with_reducible apply Chip.panelRecord_canon | with_reducible apply Chip.emit_canon | with_reducible apply Canon.ite | split | with_reducible refine Canon.snd (by assumption) ?_ | with_reducible refine Canon.fst (by assumption) ?_ | with_reducible refine Canon.mid (by assumption) ?_ | with_reducible refine Canon.thd (by assumption) ?_ | dsimp only

theorem Chip.panelStop_canon {vt : Inv} {m : Chip} {code : Half} (h0 : Canon vt m) : Canon vt (Chip.panelStop m code) := by
  unfold Chip.panelStop
  repeat' first | with_reducible assumption | with_reducible apply Chip.setPanel_canon | split | with_reducible refine Canon.snd (by assumption) ?_ | with_reducible refine Canon.fst (by assumption) ?_ | with_reducible refine Canon.mid (by assumption) ?_ | with_reducible refine Canon.thd (by assumption) ?_ | dsimp only

theorem Chip.panelCrack_canon {vt : Inv} {m : Chip} (h0 : Canon vt m) : Canon vt (Chip.panelCrack m) := by
  unfold Chip.panelCrack
  repeat' first | with_reducible assumption | with_reducible apply Chip.put_canon | with_reducible apply Chip.post_canon | with_reducible apply Chip.panelStop_canon | with_reducible apply Canon.ite

theorem Chip.crackClear_canon {vt : Inv} {m : Chip} {edges : Bool} (h0 : Canon vt m) : Canon vt (Chip.crackClear m edges) := by
  unfold Chip.crackClear
  repeat' first | with_reducible assumption | with_reducible apply Chip.put_canon | with_reducible apply Chip.post_canon | with_reducible apply Canon.ite

theorem Chip.markClear_canon {vt : Inv} {m : Chip} (h0 : Canon vt m) : Canon vt (Chip.markClear m) := by
  unfold Chip.markClear
  repeat' first | with_reducible assumption | with_reducible apply Chip.put_canon | with_reducible apply Chip.setPanel_canon | with_reducible apply Canon.ite

theorem Chip.panelCancel_canon {vt : Inv} {m : Chip} (h0 : Canon vt m) : Canon vt (Chip.panelCancel m) := by
  unfold Chip.panelCancel
  repeat' first | with_reducible assumption | with_reducible apply Chip.setPanel_canon | with_reducible apply Chip.put_canon | with_reducible apply Chip.panelDone_canon | with_reducible apply Chip.passEnd_canon | with_reducible apply Canon.ite | split | with_reducible refine Canon.snd (by assumption) ?_ | with_reducible refine Canon.fst (by assumption) ?_ | with_reducible refine Canon.mid (by assumption) ?_ | with_reducible refine Canon.thd (by assumption) ?_ | dsimp only

theorem Chip.panelStart_canon {vt : Inv} {m : Chip} (h0 : Canon vt m) : Canon vt (Chip.panelStart m) := by
  unfold Chip.panelStart
  repeat' first | with_reducible assumption | with_reducible apply Chip.post_canon | with_reducible apply Chip.put_canon | with_reducible apply Chip.setPanel_canon | with_reducible apply Canon.ite

/-! ### Units -/

theorem Chip.disabledBit_canon {vt : Inv} {m : Chip} {u : Nat} {v : Bool} (h0 : Canon vt m) : Canon vt (Chip.disabledBit m u v) := by
  unfold Chip.disabledBit
  repeat' first | with_reducible assumption | with_reducible apply Chip.put_canon | with_reducible apply Canon.ite

theorem Chip.drainStart_canon {vt : Inv} {m : Chip} {u : Nat} (h0 : Canon vt m) : Canon vt (Chip.drainStart m u) := by
  unfold Chip.drainStart
  repeat' first | with_reducible assumption | with_reducible apply Canon.foldl | intro _ | with_reducible apply Chip.setEgress_canon | with_reducible apply Chip.panelStop_canon | with_reducible apply Chip.setTState_canon | with_reducible apply Canon.ite

theorem Chip.unitDisable_canon {vt : Inv} {m : Chip} {u : Nat} (h0 : Canon vt m) : Canon vt (Chip.unitDisable m u) := by
  unfold Chip.unitDisable
  repeat' first | with_reducible assumption | with_reducible apply Chip.setUnitRun_canon | with_reducible apply Chip.drainStart_canon | with_reducible apply Canon.ite

theorem Chip.drainCancel_canon {vt : Inv} {m : Chip} {u : Nat} (h0 : Canon vt m) : Canon vt (Chip.drainCancel m u) := by
  unfold Chip.drainCancel
  repeat' first | with_reducible assumption | with_reducible apply Canon.foldl | intro _ | with_reducible apply Chip.panelCancel_canon | with_reducible apply Chip.setCan_canon | with_reducible apply Chip.vaultCancel_canon | with_reducible apply Chip.planCancel_canon | with_reducible apply Chip.setCore_canon | with_reducible apply Chip.abandonTask_canon | with_reducible apply Chip.settleTask_canon | with_reducible apply Canon.ite

theorem Chip.drainLimit_canon {vt : Inv} {m : Chip} {u : Nat} (h0 : Canon vt m) : Canon vt (Chip.drainLimit m u) := by
  unfold Chip.drainLimit
  repeat' first | with_reducible assumption | with_reducible apply Chip.drainCancel_canon | with_reducible apply Canon.ite

theorem Chip.drainEnd_canon {vt : Inv} {m : Chip} {u : Nat} {l : List Energy} (h0 : Canon vt m) : Canon vt (Chip.drainEnd m u l) := by
  unfold Chip.drainEnd
  repeat' first | with_reducible assumption | with_reducible apply Canon.foldl | intro _ | with_reducible apply Chip.canDisable_canon | with_reducible apply Chip.setPlc_canon | with_reducible apply Chip.put_canon | with_reducible apply Chip.setSeg_canon | with_reducible apply Chip.pcieDown_canon | with_reducible apply Chip.portCancel_canon | with_reducible apply Chip.staCancel_canon | with_reducible apply Chip.ptpSelect_canon | with_reducible apply Chip.setUpl_canon | with_reducible apply Chip.linkSet_canon | with_reducible apply Chip.panelCancel_canon | with_reducible apply Chip.sadlDisable_canon | with_reducible apply Chip.meterDisable_canon | with_reducible apply Chip.loopDisable_canon | with_reducible apply Chip.lampDisable_canon | with_reducible apply Canon.ite

theorem Chip.postDisabled_canon {vt : Inv} {m : Chip} {u : Nat} (h0 : Canon vt m) : Canon vt (Chip.postDisabled m u) := by
  unfold Chip.postDisabled
  repeat' first | with_reducible assumption | with_reducible apply Chip.post_canon | with_reducible apply Chip.fresh_canon | split | with_reducible refine Canon.snd (by assumption) ?_ | with_reducible refine Canon.fst (by assumption) ?_ | with_reducible refine Canon.mid (by assumption) ?_ | with_reducible refine Canon.thd (by assumption) ?_ | dsimp only

theorem Chip.domainDark_canon {vt : Inv} {m : Chip} {d : Nat} (h0 : Canon vt m) : Canon vt (Chip.domainDark m d) := by
  unfold Chip.domainDark
  repeat' first | with_reducible assumption | with_reducible apply Chip.withLoop_canon | with_reducible apply Chip.stepVcore_canon | with_reducible apply Chip.put_canon | with_reducible apply Chip.domainOff_canon | with_reducible apply Canon.ite

theorem Chip.drainDone_canon {vt : Inv} {m : Chip} {u : Nat} {l : List Energy} (h0 : Canon vt m) : Canon vt (Chip.drainDone m u l) := by
  unfold Chip.drainDone
  repeat' first | with_reducible assumption | with_reducible apply Chip.domainDark_canon | with_reducible apply Chip.setUnitRun_canon | with_reducible apply Chip.disabledBit_canon | with_reducible apply Chip.postDisabled_canon | with_reducible apply Chip.drainEnd_canon | with_reducible apply Canon.ite

theorem Chip.unitStart_canon {vt : Inv} {m : Chip} {u : Nat} (h0 : Canon vt m) : Canon vt (Chip.unitStart m u) := by
  unfold Chip.unitStart
  repeat' first | with_reducible assumption | with_reducible apply Canon.foldl | intro _ | with_reducible apply Chip.ptpShow_canon | with_reducible apply Chip.canStart_canon | with_reducible apply Chip.plcStart_canon | with_reducible apply Chip.segStart_canon | with_reducible apply Chip.meterEnable_canon | with_reducible apply Chip.loopEnable_canon | with_reducible apply Chip.lampEnable_canon | with_reducible apply Chip.anchor_canon | with_reducible apply Chip.setTState_canon | with_reducible apply Canon.ite

theorem Chip.enableNow_canon {vt : Inv} {m : Chip} {u : Nat} (h0 : Canon vt m) : Canon vt (Chip.enableNow m u) := by
  unfold Chip.enableNow
  repeat' first | with_reducible assumption | with_reducible apply Chip.domainOn_canon | with_reducible apply Chip.unitStart_canon | with_reducible apply Chip.setUnitRun_canon | with_reducible apply Chip.disabledBit_canon | with_reducible apply Canon.ite

theorem Chip.unitEnable_canon {vt : Inv} {m : Chip} {u : Nat} (h0 : Canon vt m) : Canon vt (Chip.unitEnable m u) := by
  unfold Chip.unitEnable
  repeat' first | with_reducible assumption | with_reducible apply Chip.enableNow_canon | with_reducible apply Chip.setUnitRun_canon | with_reducible apply Canon.ite

theorem Chip.heldEnables_canon {vt : Inv} {m : Chip} (h0 : Canon vt m) : Canon vt (Chip.heldEnables m) := by
  unfold Chip.heldEnables
  repeat' first | with_reducible assumption | with_reducible apply Canon.foldl | intro _ | with_reducible apply Chip.enableNow_canon

/-! ### Keeper -/

theorem Chip.setKeep_canon {vt : Inv} {m : Chip} {k : Keep} (h0 : Canon vt m) : Canon vt (Chip.setKeep m k) := by
  unfold Chip.setKeep
  repeat' first | with_reducible assumption | with_reducible apply Chip.withKeep_canon

theorem Chip.supplySwitch_canon {vt : Inv} {m : Chip} {mv : Nat} {held : Bool} (h0 : Canon vt m) : Canon vt (Chip.supplySwitch m mv held) := by
  unfold Chip.supplySwitch
  repeat' first | with_reducible assumption | with_reducible apply Chip.setKeep_canon | with_reducible apply Canon.ite

theorem Chip.vbat_canon {vt : Inv} {m : Chip} {v : Nat} (h0 : Canon vt m) : Canon vt (Chip.vbat m v) := by
  unfold Chip.vbat
  repeat' first | with_reducible assumption | with_reducible apply Chip.setKeep_canon | with_reducible apply Chip.post_canon | with_reducible apply Chip.put_canon | with_reducible apply Canon.ite

theorem Chip.backupLoss_canon {vt : Inv} {m : Chip} (h0 : Canon vt m) : Canon vt (Chip.backupLoss m) := by
  unfold Chip.backupLoss
  repeat' first | with_reducible assumption | with_reducible apply Canon.foldl | intro _ | with_reducible apply Chip.setKeep_canon | with_reducible apply Chip.fresh_canon | with_reducible apply Chip.wr_canon

theorem Chip.setAlarm_canon {vt : Inv} {m : Chip} {a : Nat} {x : Alarm} (h0 : Canon vt m) : Canon vt (Chip.setAlarm m a x) := by
  unfold Chip.setAlarm
  repeat' first | with_reducible assumption | with_reducible apply Chip.setKeep_canon

theorem Chip.alarmStep_canon {vt : Inv} {m : Chip} {old : Nat} {new : Nat} {a : Nat} (h0 : Canon vt m) : Canon vt (Chip.alarmStep m old new a) := by
  unfold Chip.alarmStep
  repeat' first | with_reducible assumption | with_reducible apply Chip.put_canon | with_reducible apply Chip.setAlarm_canon | with_reducible apply Canon.ite | split | with_reducible refine Canon.snd (by assumption) ?_ | with_reducible refine Canon.fst (by assumption) ?_ | with_reducible refine Canon.mid (by assumption) ?_ | with_reducible refine Canon.thd (by assumption) ?_ | dsimp only

theorem Chip.setRtc_canon {vt : Inv} {m : Chip} {sec : Nat} {sub : Nat} (h0 : Canon vt m) : Canon vt (Chip.setRtc m sec sub) := by
  unfold Chip.setRtc
  repeat' first | with_reducible assumption | with_reducible apply Canon.foldl | intro _ | with_reducible apply Chip.setKeep_canon | with_reducible apply Chip.setLocal_canon | with_reducible apply Chip.alarmStep_canon

theorem Chip.rtcSet_canon {vt : Inv} {m : Chip} {r : Req} {v : Word} (h0 : Canon vt m) : Canon vt (Chip.rtcSet m r v) := by
  unfold Chip.rtcSet
  repeat' first | with_reducible assumption | with_reducible apply Chip.setRtc_canon | with_reducible apply Chip.put_canon | with_reducible apply Chip.setReg_canon | with_reducible apply Chip.heldWord_canon | split | with_reducible refine Canon.snd (by assumption) ?_ | with_reducible refine Canon.fst (by assumption) ?_ | with_reducible refine Canon.mid (by assumption) ?_ | with_reducible refine Canon.thd (by assumption) ?_ | dsimp only

theorem Chip.rtcFollow_canon {vt : Inv} {m : Chip} (h0 : Canon vt m) : Canon vt (Chip.rtcFollow m) := by
  unfold Chip.rtcFollow
  repeat' first | with_reducible assumption | with_reducible apply Chip.post_canon | with_reducible apply Chip.setRtc_canon | with_reducible apply Chip.put_canon | with_reducible apply Canon.ite

theorem Chip.compensate_canon {vt : Inv} {m : Chip} {t : BitVec 8} (h0 : Canon vt m) : Canon vt (Chip.compensate m t) := by
  unfold Chip.compensate
  repeat' first | with_reducible assumption | with_reducible apply Chip.setKeep_canon | with_reducible apply Chip.put_canon | with_reducible apply Canon.ite

theorem Chip.tscap_canon {vt : Inv} {m : Chip} (h0 : Canon vt m) : Canon vt (Chip.tscap m) := by
  unfold Chip.tscap
  repeat' first | with_reducible assumption | with_reducible apply Chip.put64_canon | with_reducible apply Chip.put_canon | with_reducible apply Chip.setReg_canon

theorem Chip.dstChange_canon {vt : Inv} {m : Chip} (h0 : Canon vt m) : Canon vt (Chip.dstChange m) := by
  unfold Chip.dstChange
  repeat' first | with_reducible assumption | with_reducible apply Chip.setLocal_canon | with_reducible apply Chip.post_canon | with_reducible apply Canon.ite

theorem Chip.leapSecond_canon {vt : Inv} {m : Chip} (h0 : Canon vt m) : Canon vt (Chip.leapSecond m) := by
  unfold Chip.leapSecond
  repeat' first | with_reducible assumption | with_reducible apply Chip.setKeep_canon | with_reducible apply Chip.setLocal_canon | with_reducible apply Canon.ite

theorem Chip.fire_canon {vt : Inv} {m : Chip} {a : Nat} {due : Nat} {flags : Nat} {skip : Nat} (h0 : Canon vt m) : Canon vt (Chip.fire m a due flags skip) := by
  unfold Chip.fire
  repeat' first | with_reducible assumption | with_reducible apply Chip.post_canon | with_reducible apply Chip.setKeep_canon | with_reducible apply Chip.put_canon | with_reducible apply Canon.ite

theorem Chip.alarmFire_canon {vt : Inv} {m : Chip} {a : Nat} (h0 : Canon vt m) : Canon vt (Chip.alarmFire m a) := by
  unfold Chip.alarmFire
  repeat' first | with_reducible assumption | with_reducible apply Chip.setAlarm_canon | with_reducible apply Chip.fire_canon | split | with_reducible refine Canon.snd (by assumption) ?_ | with_reducible refine Canon.fst (by assumption) ?_ | with_reducible refine Canon.mid (by assumption) ?_ | with_reducible refine Canon.thd (by assumption) ?_ | dsimp only

theorem Chip.alarmWrite_canon {vt : Inv} {m : Chip} {a : Nat} {time : Bool} {v : Word} (h0 : Canon vt m) : Canon vt (Chip.alarmWrite m a time v) := by
  unfold Chip.alarmWrite
  repeat' first | with_reducible assumption | with_reducible apply Chip.setAlarm_canon | with_reducible apply Chip.setReg_canon | with_reducible apply Canon.ite

theorem Chip.rtcCount_canon {vt : Inv} {m : Chip} {q : Nat} (h0 : Canon vt m) : Canon vt (Chip.rtcCount m q) := by
  unfold Chip.rtcCount
  repeat' first | with_reducible assumption | with_reducible apply Chip.setKeep_canon

/-! ### Clock -/

theorem Chip.edge_canon {vt : Inv} {m : Chip} (h0 : Canon vt m) : Canon vt (Chip.edge m) := by
  unfold Chip.edge
  repeat' first | with_reducible assumption | with_reducible apply Chip.withClk_canon

theorem Chip.timeStream_canon {vt : Inv} {m : Chip} {before : Nat} (h0 : Canon vt m) : Canon vt (Chip.timeStream m before) := by
  unfold Chip.timeStream
  repeat' first | with_reducible assumption | with_reducible apply Chip.stream_canon | with_reducible apply Canon.ite

theorem Chip.tick_canon {vt : Inv} {m : Chip} (h0 : Canon vt m) : Canon vt (Chip.tick m) := by
  unfold Chip.tick
  repeat' first | with_reducible assumption | with_reducible apply Chip.edge_canon | with_reducible apply Chip.timeStream_canon | with_reducible apply Chip.heldEnables_canon | with_reducible apply Chip.rtcCount_canon | with_reducible apply Canon.ite

/-! ### Governor -/

theorem Chip.changeStep_canon {vt : Inv} {m : Chip} (h0 : Canon vt m) : Canon vt (Chip.changeStep m) := by
  unfold Chip.changeStep
  repeat' first | with_reducible assumption | with_reducible apply Canon.foldl | intro _ | with_reducible apply Chip.unitDisable_canon | with_reducible apply Canon.ite | split | with_reducible refine Canon.snd (by assumption) ?_ | with_reducible refine Canon.fst (by assumption) ?_ | with_reducible refine Canon.mid (by assumption) ?_ | with_reducible refine Canon.thd (by assumption) ?_ | dsimp only

theorem Chip.beginTarget_canon {vt : Inv} {m : Chip} {v : Nat} (h0 : Canon vt m) : Canon vt (Chip.beginTarget m v) := by
  unfold Chip.beginTarget
  repeat' first | with_reducible assumption | with_reducible apply Canon.foldl | intro _ | with_reducible apply Chip.changeStep_canon | with_reducible apply Chip.domainOn_canon | with_reducible apply Chip.unitEnable_canon | with_reducible apply Chip.stepVcore_canon | with_reducible apply Chip.put_canon | with_reducible apply Chip.withRidge_canon | with_reducible apply Canon.ite

theorem Chip.endUpgrades_canon {vt : Inv} {m : Chip} (h0 : Canon vt m) : Canon vt (Chip.endUpgrades m) := by
  unfold Chip.endUpgrades
  repeat' first | with_reducible assumption | with_reducible apply Chip.setJobs_canon

theorem Chip.retuneClocks_canon {vt : Inv} {m : Chip} (h0 : Canon vt m) : Canon vt (Chip.retuneClocks m) := by
  unfold Chip.retuneClocks
  repeat' first | with_reducible assumption | with_reducible apply Canon.foldl | intro _ | with_reducible apply Chip.setClock_canon | with_reducible apply Canon.ite

theorem Chip.changeEnd_canon {vt : Inv} {m : Chip} {st : Nat} (h0 : Canon vt m) : Canon vt (Chip.changeEnd m st) := by
  unfold Chip.changeEnd
  repeat' first | with_reducible assumption | with_reducible apply Chip.beginTarget_canon | with_reducible apply Chip.showBurst_canon | with_reducible apply Chip.retuneClocks_canon | with_reducible apply Chip.stepVcore_canon | with_reducible apply Chip.withRidge_canon | with_reducible apply Chip.put_canon | with_reducible apply Chip.setState_canon | split | with_reducible refine Canon.snd (by assumption) ?_ | with_reducible refine Canon.fst (by assumption) ?_ | with_reducible refine Canon.mid (by assumption) ?_ | with_reducible refine Canon.thd (by assumption) ?_ | dsimp only

theorem Chip.changeDone_canon {vt : Inv} {m : Chip} (h0 : Canon vt m) : Canon vt (Chip.changeDone m) := by
  unfold Chip.changeDone
  repeat' first | with_reducible assumption | with_reducible apply Chip.changeStep_canon | with_reducible apply Chip.endUpgrades_canon | with_reducible apply Chip.withClk_canon | with_reducible apply Chip.changeEnd_canon | with_reducible apply Canon.ite | split | with_reducible refine Canon.snd (by assumption) ?_ | with_reducible refine Canon.fst (by assumption) ?_ | with_reducible refine Canon.mid (by assumption) ?_ | with_reducible refine Canon.thd (by assumption) ?_ | dsimp only

theorem Chip.ridgeApplied_canon {vt : Inv} {m : Chip} {old : Chip} (h0 : Canon vt m) : Canon vt (Chip.ridgeApplied m old) := by
  unfold Chip.ridgeApplied
  repeat' first | with_reducible assumption | with_reducible apply Chip.retuneClocks_canon | with_reducible apply Chip.beginTarget_canon | with_reducible apply Canon.ite

theorem Chip.bootDomains_canon {vt : Inv} {m : Chip} (h0 : Canon vt m) : Canon vt (Chip.bootDomains m) := by
  unfold Chip.bootDomains
  repeat' first | with_reducible assumption | with_reducible apply Canon.foldl | intro _ | with_reducible apply Chip.domainOn_canon | with_reducible apply Chip.beginTarget_canon | with_reducible apply Canon.ite

theorem Chip.domainReady_canon {vt : Inv} {m : Chip} {d : Nat} (h0 : Canon vt m) : Canon vt (Chip.domainReady m d) := by
  unfold Chip.domainReady
  repeat' first | with_reducible assumption | with_reducible apply Canon.foldl | intro _ | with_reducible apply Chip.loopStart_canon | with_reducible apply Chip.fldStart_canon | with_reducible apply Chip.canPower_canon | with_reducible apply Chip.setClock_canon | with_reducible apply Chip.setPdOn_canon | with_reducible apply Chip.withRidge_canon | with_reducible apply Chip.setPdReady_canon | with_reducible apply Canon.ite | split | with_reducible refine Canon.snd (by assumption) ?_ | with_reducible refine Canon.fst (by assumption) ?_ | with_reducible refine Canon.mid (by assumption) ?_ | with_reducible refine Canon.thd (by assumption) ?_ | dsimp only

theorem Chip.idleGate_canon {vt : Inv} {m : Chip} {d : Nat} (h0 : Canon vt m) : Canon vt (Chip.idleGate m d) := by
  unfold Chip.idleGate
  repeat' first | with_reducible assumption | with_reducible apply Chip.domainOff_canon | with_reducible apply Chip.stepVcore_canon | with_reducible apply Canon.ite

theorem Chip.zoneChange_canon {vt : Inv} {m : Chip} {z : Nat} {t : Int} (h0 : Canon vt m) : Canon vt (Chip.zoneChange m z t) := by
  unfold Chip.zoneChange
  repeat' first | with_reducible assumption | with_reducible apply Canon.foldl | intro _ | with_reducible apply Chip.retuneClocks_canon | with_reducible apply Chip.unitEnable_canon | with_reducible apply Chip.unitDisable_canon | with_reducible apply Chip.jobCancelled_canon | with_reducible apply Chip.put_canon | with_reducible apply Chip.post_canon | with_reducible apply Canon.ite

theorem Chip.supplyProfile_canon {vt : Inv} {m : Chip} (h0 : Canon vt m) : Canon vt (Chip.supplyProfile m).2.2 := by
  unfold Chip.supplyProfile
  repeat' first | with_reducible assumption | with_reducible apply Chip.ptRead_canon | with_reducible apply Canon.ite | with_reducible apply Canon.iteRR | split | with_reducible refine Canon.snd (by assumption) ?_ | with_reducible refine Canon.fst (by assumption) ?_ | with_reducible refine Canon.mid (by assumption) ?_ | with_reducible refine Canon.thd (by assumption) ?_ | dsimp only

theorem Chip.profileChange_canon {vt : Inv} {m : Chip} {p : Nat} {unk : Bool} (h0 : Canon vt m) : Canon vt (Chip.profileChange m p unk) := by
  unfold Chip.profileChange
  repeat' first | with_reducible assumption | with_reducible apply Canon.foldl | intro _ | with_reducible apply Chip.post_canon | with_reducible apply Chip.beginTarget_canon | with_reducible apply Chip.unitEnable_canon | with_reducible apply Chip.jobCancelled_canon | with_reducible apply Chip.unitDisable_canon | with_reducible apply Chip.revokeWhile_canon | with_reducible apply Chip.planProfile_canon | with_reducible apply Chip.setJobs_canon | with_reducible apply Chip.put_canon | with_reducible apply Canon.ite

theorem Chip.upgrade_canon {vt : Inv} {m : Chip} {c : Nat} (h0 : Canon vt m) : Canon vt (Chip.upgrade m c) := by
  unfold Chip.upgrade
  repeat' first | with_reducible assumption | with_reducible apply Chip.setClock_canon | with_reducible apply Chip.admitJob_canon | with_reducible apply Chip.withRidge_canon | with_reducible apply Canon.ite | split | with_reducible refine Canon.snd (by assumption) ?_ | with_reducible refine Canon.fst (by assumption) ?_ | with_reducible refine Canon.mid (by assumption) ?_ | with_reducible refine Canon.thd (by assumption) ?_ | dsimp only

theorem Chip.takeReading_canon {vt : Inv} {m : Chip} {p : Nat} {mw : Nat} (h0 : Canon vt m) : Canon vt (Chip.takeReading m p mw) := by
  unfold Chip.takeReading
  repeat' first | with_reducible assumption | with_reducible apply Chip.withRidge_canon

theorem Chip.refill_canon {vt : Inv} {m : Chip} {z : Nat} {t : Int} (h0 : Canon vt m) : Canon vt (Chip.refill m z t) := by
  unfold Chip.refill
  repeat' first | with_reducible assumption | with_reducible apply Chip.put_canon | with_reducible apply Chip.setLevel_canon | with_reducible apply Canon.ite

theorem Chip.shedLast_canon {vt : Inv} {m : Chip} {z : Nat} (h0 : Canon vt m) : Canon vt (Chip.shedLast m z) := by
  unfold Chip.shedLast
  repeat' first | with_reducible assumption | with_reducible apply Chip.revoke_canon | with_reducible apply Canon.ite | split | with_reducible refine Canon.snd (by assumption) ?_ | with_reducible refine Canon.fst (by assumption) ?_ | with_reducible refine Canon.mid (by assumption) ?_ | with_reducible refine Canon.thd (by assumption) ?_ | dsimp only

theorem Chip.evaluatePower_canon {vt : Inv} {m : Chip} {t : Int} {mw : Nat} (h0 : Canon vt m) : Canon vt (Chip.evaluatePower m t mw) := by
  unfold Chip.evaluatePower
  repeat' first | with_reducible assumption | with_reducible apply Chip.zoneChange_canon | with_reducible apply Chip.refill_canon | with_reducible apply Chip.shedLast_canon | with_reducible apply Chip.changeStep_canon | with_reducible apply Chip.upgrade_canon | with_reducible apply Chip.profileChange_canon | with_reducible apply Chip.takeReading_canon | with_reducible apply Chip.supplyProfile_canon | with_reducible apply Chip.put_canon

/-! ### Rules -/

theorem Chip.withSet_canon {vt : Inv} {m : Chip} {b : Bank} (h0 : Canon vt m) : Canon vt (Chip.withSet m b) := by
  unfold Chip.withSet
  repeat' first | with_reducible assumption | with_reducible apply Canon.foldl | intro _ | with_reducible apply Chip.setReg_canon | with_reducible apply Chip.withSwap_canon

/-! ### Apply -/

theorem Chip.commitWatch_canon {vt : Inv} {m : Chip} (h0 : Canon vt m) : Canon vt (Chip.commitWatch m) := by
  unfold Chip.commitWatch
  repeat' first | with_reducible assumption | with_reducible apply Chip.planWatch_canon | with_reducible apply Chip.lampCancelled_canon

theorem Chip.dropCommit_canon {vt : Inv} {m : Chip} {k : Nat} {aborted : Bool} (h0 : Canon vt m) : Canon vt (Chip.dropCommit m k aborted) := by
  unfold Chip.dropCommit
  repeat' first | with_reducible assumption | with_reducible apply Chip.cancelCommit_canon | with_reducible apply Chip.commitWatch_canon | with_reducible apply Chip.stream_canon | with_reducible apply Canon.ite | split | with_reducible refine Canon.snd (by assumption) ?_ | with_reducible refine Canon.fst (by assumption) ?_ | with_reducible refine Canon.mid (by assumption) ?_ | with_reducible refine Canon.thd (by assumption) ?_ | dsimp only

theorem Chip.commitGo_canon {vt : Inv} {m : Chip} {k : Nat} {boot : Bool} (h0 : Canon vt m) : Canon vt (Chip.commitGo m k boot) := by
  unfold Chip.commitGo
  repeat' first | with_reducible assumption | with_reducible apply Chip.sendSet_canon | with_reducible apply Chip.setPend_canon | with_reducible apply Chip.result_canon | with_reducible apply Chip.goWith_canon | with_reducible apply Canon.ite | split | with_reducible refine Canon.snd (by assumption) ?_ | with_reducible refine Canon.fst (by assumption) ?_ | with_reducible refine Canon.mid (by assumption) ?_ | with_reducible refine Canon.thd (by assumption) ?_ | dsimp only

theorem Chip.commitCtl_canon {vt : Inv} {m : Chip} {k : Nat} {w : Word} (h0 : Canon vt m) : Canon vt (Chip.commitCtl m k w) := by
  unfold Chip.commitCtl
  repeat' first | with_reducible assumption | with_reducible apply Chip.commitGo_canon | with_reducible apply Chip.dropCommit_canon | with_reducible apply Chip.discard_canon | with_reducible apply Canon.ite

theorem Chip.swapRefused_canon {vt : Inv} {m : Chip} {x : Option (Nat × Nat × Half)} (h0 : Canon vt m) : Canon vt (Chip.swapRefused m x) := by
  unfold Chip.swapRefused
  repeat' first | with_reducible assumption | with_reducible apply Chip.put_canon | split | with_reducible refine Canon.snd (by assumption) ?_ | with_reducible refine Canon.fst (by assumption) ?_ | with_reducible refine Canon.mid (by assumption) ?_ | with_reducible refine Canon.thd (by assumption) ?_ | dsimp only

theorem Chip.commitRules_canon {vt : Inv} {m : Chip} {k : Nat} (h0 : Canon vt m) : Canon vt (Chip.commitRules m k) := by
  unfold Chip.commitRules
  repeat' first | with_reducible assumption | with_reducible apply Chip.swapRefused_canon | with_reducible apply Chip.rulesDone_canon | with_reducible apply Chip.commitWatch_canon | with_reducible apply Canon.ite | split | with_reducible refine Canon.snd (by assumption) ?_ | with_reducible refine Canon.fst (by assumption) ?_ | with_reducible refine Canon.mid (by assumption) ?_ | with_reducible refine Canon.thd (by assumption) ?_ | dsimp only

theorem Chip.twinRefused_canon {vt : Inv} {m : Chip} (h0 : Canon vt m) : Canon vt (Chip.twinRefused m) := by
  unfold Chip.twinRefused
  repeat' first | with_reducible assumption | with_reducible apply Chip.setPend_canon | with_reducible apply Chip.withSet_canon | split | with_reducible refine Canon.snd (by assumption) ?_ | with_reducible refine Canon.fst (by assumption) ?_ | with_reducible refine Canon.mid (by assumption) ?_ | with_reducible refine Canon.thd (by assumption) ?_ | dsimp only

theorem Chip.swapVerdict_canon {vt : Inv} {m : Chip} {pass : Bool} (h0 : Canon vt m) : Canon vt (Chip.swapVerdict m pass) := by
  unfold Chip.swapVerdict
  repeat' first | with_reducible assumption | with_reducible apply Chip.twinRefused_canon | with_reducible apply Chip.setPend_canon | with_reducible apply Canon.ite | split | with_reducible refine Canon.snd (by assumption) ?_ | with_reducible refine Canon.fst (by assumption) ?_ | with_reducible refine Canon.mid (by assumption) ?_ | with_reducible refine Canon.thd (by assumption) ?_ | dsimp only

theorem Chip.swapTimeout_canon {vt : Inv} {m : Chip} (h0 : Canon vt m) : Canon vt (Chip.swapTimeout m) := by
  unfold Chip.swapTimeout
  repeat' first | with_reducible assumption | with_reducible apply Chip.twinRefused_canon | with_reducible apply Chip.setPend_canon | with_reducible apply Canon.ite | split | with_reducible refine Canon.snd (by assumption) ?_ | with_reducible refine Canon.fst (by assumption) ?_ | with_reducible refine Canon.mid (by assumption) ?_ | with_reducible refine Canon.thd (by assumption) ?_ | dsimp only

theorem Chip.taskOff_canon {vt : Inv} {m : Chip} {t : Nat} (h0 : Canon vt m) : Canon vt (Chip.taskOff m t) := by
  unfold Chip.taskOff
  repeat' first | with_reducible assumption | with_reducible apply Chip.setTState_canon | with_reducible apply Chip.setTask_canon | with_reducible apply Chip.clearSlots_canon | with_reducible apply Chip.setRun_canon | with_reducible apply Canon.ite

theorem Chip.taskOn_canon {vt : Inv} {m : Chip} {t : Nat} {base : Nat} (h0 : Canon vt m) : Canon vt (Chip.taskOn m t base) := by
  unfold Chip.taskOn
  repeat' first | with_reducible assumption | with_reducible apply Chip.setTask_canon | with_reducible apply Chip.setTState_canon | with_reducible apply Chip.coldLoad_canon | with_reducible apply Chip.anchor_canon | split | with_reducible refine Canon.snd (by assumption) ?_ | with_reducible refine Canon.fst (by assumption) ?_ | with_reducible refine Canon.mid (by assumption) ?_ | with_reducible refine Canon.thd (by assumption) ?_ | dsimp only

theorem Chip.taskSwap_canon {vt : Inv} {m : Chip} {t : Nat} {base : Nat} {cold : Bool} (h0 : Canon vt m) : Canon vt (Chip.taskSwap m t base cold) := by
  unfold Chip.taskSwap
  repeat' first | with_reducible assumption | with_reducible apply Chip.colSwitch_canon | with_reducible apply Chip.setTask_canon | with_reducible apply Chip.put_canon | with_reducible apply Canon.ite | split | with_reducible refine Canon.snd (by assumption) ?_ | with_reducible refine Canon.fst (by assumption) ?_ | with_reducible refine Canon.mid (by assumption) ?_ | with_reducible refine Canon.thd (by assumption) ?_ | dsimp only

theorem Chip.scanApplied_canon {vt : Inv} {m : Chip} {old : Chip} {b : Bank} (h0 : Canon vt m) : Canon vt (Chip.scanApplied m old b) := by
  unfold Chip.scanApplied
  repeat' first | with_reducible assumption | with_reducible apply Canon.foldl | intro _ | with_reducible apply Chip.setReg_canon | with_reducible apply Chip.anchor_canon | with_reducible apply Chip.taskSwap_canon | with_reducible apply Chip.taskOn_canon | with_reducible apply Chip.taskOff_canon | with_reducible apply Canon.ite | split | with_reducible refine Canon.snd (by assumption) ?_ | with_reducible refine Canon.fst (by assumption) ?_ | with_reducible refine Canon.mid (by assumption) ?_ | with_reducible refine Canon.thd (by assumption) ?_ | dsimp only

theorem Chip.autostart_canon {vt : Inv} {m : Chip} (h0 : Canon vt m) : Canon vt (Chip.autostart m) := by
  unfold Chip.autostart
  repeat' first | with_reducible assumption | with_reducible apply Canon.foldl | intro _ | with_reducible apply Chip.startTask_canon

theorem Chip.pointsApplied_canon {vt : Inv} {m : Chip} {old : Chip} {b : Bank} (h0 : Canon vt m) : Canon vt (Chip.pointsApplied m old b) := by
  unfold Chip.pointsApplied
  repeat' first | with_reducible assumption | with_reducible apply Canon.foldl | intro _ | with_reducible apply Chip.bindPoint_canon | with_reducible apply Canon.ite

theorem Chip.stationsApplied_canon {vt : Inv} {m : Chip} {old : Chip} {b : Bank} (h0 : Canon vt m) : Canon vt (Chip.stationsApplied m old b) := by
  unfold Chip.stationsApplied
  repeat' first | with_reducible assumption | with_reducible apply Canon.foldl | intro _ | with_reducible apply Chip.setSta_canon

theorem Chip.portsApplied_canon {vt : Inv} {m : Chip} {old : Chip} (h0 : Canon vt m) : Canon vt (Chip.portsApplied m old) := by
  unfold Chip.portsApplied
  repeat' first | with_reducible assumption | with_reducible apply Canon.foldl | intro _ | with_reducible apply Chip.unitEnable_canon | with_reducible apply Chip.unitDisable_canon | with_reducible apply Canon.ite

theorem Chip.uplApplied_canon {vt : Inv} {m : Chip} {old : Chip} {b : Bank} (h0 : Canon vt m) : Canon vt (Chip.uplApplied m old b) := by
  unfold Chip.uplApplied
  repeat' first | with_reducible assumption | with_reducible apply Chip.ptpApplied_canon | with_reducible apply Chip.peersApplied_canon | with_reducible apply Chip.ownUtc_canon | with_reducible apply Chip.put_canon | with_reducible apply Chip.setUpl_canon | with_reducible apply Canon.ite

theorem Chip.meterApplied_canon {vt : Inv} {m : Chip} {b : Bank} (h0 : Canon vt m) : Canon vt (Chip.meterApplied m b) := by
  unfold Chip.meterApplied
  repeat' first | with_reducible assumption | with_reducible apply Canon.foldl | intro _ | with_reducible apply Chip.rebase_canon | with_reducible apply Chip.remap_canon | with_reducible apply Canon.ite

theorem Chip.keepApplied_canon {vt : Inv} {m : Chip} {old : Chip} {b : Bank} (h0 : Canon vt m) : Canon vt (Chip.keepApplied m old b) := by
  unfold Chip.keepApplied
  repeat' first | with_reducible assumption | with_reducible apply Chip.formPair_canon | with_reducible apply Chip.setLocal_canon | with_reducible apply Canon.ite

theorem Chip.unitsApplied_canon {vt : InvT} {m : Chip} {old : Chip} {b : Bank} (h0 : Canon vt.toInv m) : Canon vt.toInv (Chip.unitsApplied m old b) := by
  unfold Chip.unitsApplied
  repeat' first | with_reducible assumption | with_reducible apply Chip.scanApplied_canon | with_reducible apply Chip.vaultInstall_canon | with_reducible apply Chip.sadlApplied_canon | with_reducible apply Chip.planTouched_canon | with_reducible apply Chip.meterApplied_canon | with_reducible apply Chip.loopApplied_canon | with_reducible apply Chip.lampApplied_canon | with_reducible apply Chip.canApplied_canon | with_reducible apply Chip.fldApplied_canon | with_reducible apply Chip.uplApplied_canon | with_reducible apply Chip.ridgeApplied_canon | with_reducible apply Chip.guardLoad_canon | with_reducible apply Chip.portsApplied_canon | with_reducible apply Chip.keepApplied_canon | with_reducible apply Chip.pointsApplied_canon | with_reducible apply Chip.stationsApplied_canon | with_reducible apply Canon.ite

theorem Chip.applyPoints_canon {vt : Inv} {m : Chip} {l : List PtWrite} (h0 : Canon vt m) : Canon vt (m.applyPoints l).2 := by
  induction l generalizing m with
  | nil => exact h0
  | cons e r ih => simp only [Chip.applyPoints]; exact ih (Chip.planWrite_canon h0)

theorem Chip.applySet_canon {vt : InvT} {m : Chip} {k : Nat} {b : Bank} (h0 : Canon vt.toInv m) : Canon vt.toInv (Chip.applySet m k b).2 := by
  unfold Chip.applySet
  repeat' first | with_reducible assumption | with_reducible apply Canon.foldl | intro _ | with_reducible apply Chip.withSwap_canon | with_reducible apply Chip.swapApply_canon | with_reducible apply Chip.lampApply_canon | with_reducible apply Chip.planApplied_canon | with_reducible apply Chip.withSet_canon | with_reducible apply Chip.unitsApplied_canon | with_reducible apply Chip.applyPoints_canon | with_reducible apply Chip.dropCommit_canon | with_reducible apply Canon.ite | with_reducible apply Canon.iteR | split | with_reducible refine Canon.snd (by assumption) ?_ | with_reducible refine Canon.fst (by assumption) ?_ | with_reducible refine Canon.mid (by assumption) ?_ | with_reducible refine Canon.thd (by assumption) ?_ | dsimp only

theorem Chip.applied_canon {vt : Inv} {m : Chip} {k : Nat} {rej : Bool} {instant : DWord} (h0 : Canon vt m) : Canon vt (Chip.applied m k rej instant) := by
  unfold Chip.applied
  repeat' first | with_reducible assumption | with_reducible apply Chip.finish_canon | with_reducible apply Chip.stream_canon | with_reducible apply Chip.put64_canon | with_reducible apply Chip.put_canon

theorem Chip.dropReplica_canon {vt : Inv} {m : Chip} {k : Nat} (h0 : Canon vt m) : Canon vt (Chip.dropReplica m k) := by
  unfold Chip.dropReplica
  repeat' first | with_reducible assumption | with_reducible apply Chip.withCom_canon

theorem Chip.planReplica_canon {vt : Inv} {m : Chip} {b : Bank} {instant : DWord} (h0 : Canon vt m) : Canon vt (Chip.planReplica m b instant) := by
  unfold Chip.planReplica
  repeat' first | with_reducible assumption | with_reducible apply Canon.foldl | intro _ | with_reducible apply Chip.setPlan_canon | with_reducible apply Canon.ite | split | with_reducible refine Canon.snd (by assumption) ?_ | with_reducible refine Canon.fst (by assumption) ?_ | with_reducible refine Canon.mid (by assumption) ?_ | with_reducible refine Canon.thd (by assumption) ?_ | dsimp only

theorem Chip.replicaApply_canon {vt : InvT} {m : Chip} {k : Nat} {instant : DWord} (h0 : Canon vt.toInv m) : Canon vt.toInv (Chip.replicaApply m k instant) := by
  unfold Chip.replicaApply
  repeat' first | with_reducible assumption | with_reducible apply Chip.put64_canon | with_reducible apply Chip.put_canon | with_reducible apply Chip.applySet_canon | with_reducible apply Chip.planReplica_canon | with_reducible apply Chip.dropReplica_canon | with_reducible apply Canon.ite | split | with_reducible refine Canon.snd (by assumption) ?_ | with_reducible refine Canon.fst (by assumption) ?_ | with_reducible refine Canon.mid (by assumption) ?_ | with_reducible refine Canon.thd (by assumption) ?_ | dsimp only

theorem Chip.commitFrame_canon {vt : InvT} {m : Chip} {k : Nat} {x : SadCommit} (h0 : Canon vt.toInv m) : Canon vt.toInv (Chip.commitFrame m k x) := by
  unfold Chip.commitFrame
  repeat' first | with_reducible assumption | with_reducible apply Chip.dropReplica_canon | with_reducible apply Chip.replicaApply_canon | with_reducible apply Chip.setLamp_canon | with_reducible apply Chip.withCom_canon | with_reducible apply Chip.suspect_canon | with_reducible apply Chip.emit_canon | with_reducible apply Canon.ite | split | with_reducible refine Canon.snd (by assumption) ?_ | with_reducible refine Canon.fst (by assumption) ?_ | with_reducible refine Canon.mid (by assumption) ?_ | with_reducible refine Canon.thd (by assumption) ?_ | dsimp only

theorem Chip.commitApply_canon {vt : InvT} {m : Chip} {k : Nat} (h0 : Canon vt.toInv m) : Canon vt.toInv (Chip.commitApply m k) := by
  unfold Chip.commitApply
  repeat' first | with_reducible assumption | with_reducible apply Chip.replicaApply_canon | with_reducible apply Chip.applied_canon | with_reducible apply Chip.applySet_canon | with_reducible apply Chip.setPhase_canon | with_reducible apply Canon.ite | split | with_reducible refine Canon.snd (by assumption) ?_ | with_reducible refine Canon.fst (by assumption) ?_ | with_reducible refine Canon.mid (by assumption) ?_ | with_reducible refine Canon.thd (by assumption) ?_ | dsimp only

/-! ### Power -/

theorem Chip.dark_canon {vt : Inv} {m : Chip} (h0 : Canon vt m) : Canon vt m.dark := by
  exact vt.dark h0

theorem Chip.shutRecord_canon {vt : Inv} {m : Chip} {cause : Nat} {pf : Nat} (h0 : Canon vt m) : Canon vt (Chip.shutRecord m cause pf) := by
  unfold Chip.shutRecord
  repeat' first | with_reducible assumption | with_reducible apply Chip.setKeep_canon | with_reducible apply Chip.put64_canon

theorem Chip.enterHold_canon {vt : Inv} {m : Chip} (h0 : Canon vt m) : Canon vt (Chip.enterHold m) := by
  unfold Chip.enterHold
  repeat' first | with_reducible assumption | with_reducible apply Chip.changeDone_canon | with_reducible apply Chip.setKeep_canon | with_reducible apply Chip.shutRecord_canon | with_reducible apply Chip.dark_canon | with_reducible apply Canon.ite

theorem Chip.armWake_canon {vt : Inv} {m : Chip} (h0 : Canon vt m) : Canon vt (Chip.armWake m) := by
  unfold Chip.armWake
  repeat' first | with_reducible assumption | with_reducible apply Chip.put_canon | with_reducible apply Chip.setAlarm_canon | with_reducible apply Chip.setReg_canon | with_reducible apply Canon.ite

theorem Chip.thermalTrip_canon {vt : Inv} {m : Chip} (h0 : Canon vt m) : Canon vt (Chip.thermalTrip m) := by
  unfold Chip.thermalTrip
  repeat' first | with_reducible assumption | with_reducible apply Chip.setKeep_canon | with_reducible apply Chip.otpCut_canon | with_reducible apply Chip.shutRecord_canon | with_reducible apply Chip.dark_canon | with_reducible apply Chip.armWake_canon

theorem Chip.wakePin_canon {vt : Inv} {m : Chip} (h0 : Canon vt m) : Canon vt (Chip.wakePin m) := by
  unfold Chip.wakePin
  repeat' first | with_reducible assumption | with_reducible apply Chip.setKeep_canon | with_reducible apply Canon.ite

theorem Chip.panelCut_canon {vt : Inv} {m : Chip} (h0 : Canon vt m) : Canon vt (Chip.panelCut m) := by
  unfold Chip.panelCut
  repeat' first | with_reducible assumption | with_reducible apply Chip.emit_canon | with_reducible apply Chip.panelRecord_canon | with_reducible apply Canon.ite | split | with_reducible refine Canon.snd (by assumption) ?_ | with_reducible refine Canon.fst (by assumption) ?_ | with_reducible refine Canon.mid (by assumption) ?_ | with_reducible refine Canon.thd (by assumption) ?_ | dsimp only

theorem Chip.pfOn_canon {vt : Inv} {m : Chip} (h0 : Canon vt m) : Canon vt (Chip.pfOn m) := by
  unfold Chip.pfOn
  repeat' first | with_reducible assumption | with_reducible apply Chip.setKeep_canon | with_reducible apply Chip.dark_canon | with_reducible apply Chip.meterFlush_canon | with_reducible apply Chip.count_canon | with_reducible apply Chip.otpCut_canon | with_reducible apply Chip.shutRecord_canon | with_reducible apply Chip.panelCut_canon

theorem Chip.pfOff_canon {vt : Inv} {m : Chip} (h0 : Canon vt m) : Canon vt (Chip.pfOff m) := by
  unfold Chip.pfOff
  repeat' first | with_reducible assumption | with_reducible apply Chip.setKeep_canon | with_reducible apply Chip.count_canon | with_reducible apply Chip.shutRecord_canon | with_reducible apply Canon.ite

theorem Chip.powerFail_canon {vt : Inv} {m : Chip} (h0 : Canon vt m) : Canon vt (Chip.powerFail m) := by
  unfold Chip.powerFail
  repeat' first | with_reducible assumption | with_reducible apply Chip.pfOff_canon | with_reducible apply Chip.pfOn_canon | with_reducible apply Canon.ite

theorem Chip.lineBoundary_canon {vt : Inv} {m : Chip} (h0 : Canon vt m) : Canon vt (Chip.lineBoundary m) := by
  unfold Chip.lineBoundary
  repeat' first | with_reducible assumption | with_reducible apply Chip.setKeep_canon | with_reducible apply Canon.ite

theorem Chip.pgFail_canon {vt : Inv} {m : Chip} (h0 : Canon vt m) : Canon vt (Chip.pgFail m) := by
  unfold Chip.pgFail
  repeat' first | with_reducible assumption | with_reducible apply Chip.powerFail_canon | with_reducible apply Canon.ite

theorem Chip.supplyValid_canon {vt : Inv} {m : Chip} (h0 : Canon vt m) : Canon vt (Chip.supplyValid m) := by
  unfold Chip.supplyValid
  repeat' first | with_reducible assumption | with_reducible apply Chip.setKeep_canon | with_reducible apply Canon.ite

theorem Chip.seqStep_canon {vt : Inv} {m : Chip} (h0 : Canon vt m) : Canon vt (Chip.seqStep m) := by
  unfold Chip.seqStep
  repeat' first | with_reducible assumption | with_reducible apply Chip.setKeep_canon | with_reducible apply Canon.ite

theorem Chip.seqAbort_canon {vt : Inv} {m : Chip} (h0 : Canon vt m) : Canon vt (Chip.seqAbort m) := by
  unfold Chip.seqAbort
  repeat' first | with_reducible assumption | with_reducible apply Chip.setKeep_canon | with_reducible apply Canon.ite

theorem Chip.keepReset_canon {vt : Inv} {m : Chip} (h0 : Canon vt m) : Canon vt (Chip.keepReset m) := by
  unfold Chip.keepReset
  repeat' first | with_reducible assumption | with_reducible apply Canon.foldl | intro _ | with_reducible apply Chip.put_canon | with_reducible apply Chip.setReg_canon

theorem Chip.coldStart_canon {vt : Inv} {m : Chip} {k : Nat} (h0 : Canon vt m) : Canon vt (Chip.coldStart m k) := by
  unfold Chip.coldStart
  repeat' first | with_reducible assumption | with_reducible apply Canon.foldl | intro _ | with_reducible apply Chip.put_canon | with_reducible apply Chip.post_canon | with_reducible apply Chip.withTotals_canon | with_reducible apply Chip.withVault_canon | with_reducible apply Chip.withRings_canon | with_reducible apply Chip.setKeep_canon | with_reducible apply Chip.setReg_canon | with_reducible apply Chip.clearSpace_canon | with_reducible apply Chip.wr_canon

theorem Chip.reportLoss_canon {vt : Inv} {m : Chip} (h0 : Canon vt m) : Canon vt (Chip.reportLoss m) := by
  unfold Chip.reportLoss
  repeat' first | with_reducible assumption | with_reducible apply Chip.count_canon | with_reducible apply Chip.post_canon | with_reducible apply Canon.ite

theorem Chip.sysReset_canon {vt : Inv} {m : Chip} {o : Nat} (h0 : Canon vt m) : Canon vt (Chip.sysReset m o) := by
  unfold Chip.sysReset
  repeat' first | with_reducible assumption | with_reducible apply Canon.foldl | intro _ | with_reducible apply Chip.withPanel_canon | with_reducible apply Chip.setTotals_canon | with_reducible apply Chip.shutRecord_canon | with_reducible apply Chip.put_canon | with_reducible apply Chip.setKeep_canon | with_reducible apply Chip.setReg_canon | split | with_reducible refine Canon.snd (by assumption) ?_ | with_reducible refine Canon.fst (by assumption) ?_ | with_reducible refine Canon.mid (by assumption) ?_ | with_reducible refine Canon.thd (by assumption) ?_ | dsimp only

theorem Chip.sysReport_canon {vt : Inv} {m : Chip} {l : List Nat} (h0 : Canon vt m) : Canon vt (Chip.sysReport m l) := by
  unfold Chip.sysReport
  repeat' first | with_reducible assumption | with_reducible apply Canon.foldl | intro _ | with_reducible apply Chip.post_canon

theorem Chip.pd2Start_canon {vt : InvG} {m : Chip} (h0 : Canon vt.toInv m) : Canon vt.toInv (Chip.pd2Start m) := by
  unfold Chip.pd2Start
  repeat' first | with_reducible assumption | with_reducible apply Canon.foldl | intro _ | with_reducible apply Chip.vaultStart_canon | with_reducible apply Chip.panelStart_canon | with_reducible apply Chip.guardTell_canon | with_reducible apply Chip.setLocal_canon | with_reducible apply Chip.post_canon | with_reducible apply Chip.reportLoss_canon | with_reducible apply Chip.coldStart_canon | with_reducible apply Chip.sysReport_canon | with_reducible apply Chip.withRings_canon | with_reducible apply Chip.setReg_canon | with_reducible apply Chip.put_canon | with_reducible apply Chip.withPd2_canon | with_reducible apply Chip.withClk_canon | with_reducible apply Chip.setKeep_canon | with_reducible apply Chip.keepReset_canon | with_reducible apply Chip.guardStart_canon | with_reducible apply Chip.sysReset_canon | with_reducible refine Chip.setGuard_canon ?_ ?_ | rfl | (simp; done) | with_reducible apply Canon.ite | split | with_reducible refine Canon.snd (by assumption) ?_ | with_reducible refine Canon.fst (by assumption) ?_ | with_reducible refine Canon.mid (by assumption) ?_ | with_reducible refine Canon.thd (by assumption) ?_ | dsimp only

/-! ### Boot -/

theorem Chip.setBoot_canon {vt : Inv} {m : Chip} {b : Boot} (h0 : Canon vt m) : Canon vt (Chip.setBoot m b) := by
  unfold Chip.setBoot
  repeat' first | with_reducible assumption | with_reducible apply Chip.withBoot_canon

theorem Chip.bootDone_canon {vt : Inv} {m : Chip} (h0 : Canon vt m) : Canon vt (Chip.bootDone m) := by
  unfold Chip.bootDone
  repeat' first | with_reducible assumption | with_reducible apply Chip.post_canon | with_reducible apply Chip.bootDomains_canon | with_reducible apply Chip.setBoot_canon | with_reducible apply Chip.put_canon | with_reducible apply Chip.setReg_canon | with_reducible apply Chip.autostart_canon | with_reducible apply Canon.ite

theorem Chip.unconfigured_canon {vt : Inv} {m : Chip} {reason : Nat} {code : Half} (h0 : Canon vt m) : Canon vt (Chip.unconfigured m reason code) := by
  unfold Chip.unconfigured
  repeat' first | with_reducible assumption | with_reducible apply Chip.setBoot_canon | with_reducible apply Chip.put_canon | with_reducible apply Chip.post_canon | with_reducible apply Chip.bootDomains_canon

theorem Chip.bootFail_canon {vt : Inv} {m : Chip} {code : Half} (h0 : Canon vt m) : Canon vt (Chip.bootFail m code) := by
  unfold Chip.bootFail
  repeat' first | with_reducible assumption | with_reducible apply Chip.setKeep_canon | with_reducible apply Chip.withBoot_canon | with_reducible apply Chip.otpCut_canon | with_reducible apply Chip.shutRecord_canon | with_reducible apply Chip.dark_canon

theorem Chip.bootGo_canon {vt : Inv} {m : Chip} {g : Bank} {chk : Nat} (h0 : Canon vt m) : Canon vt (Chip.bootGo m g chk) := by
  unfold Chip.bootGo
  repeat' first | with_reducible assumption | with_reducible apply Chip.setReg_canon | with_reducible apply Chip.setBank_canon | with_reducible apply Chip.put_canon | with_reducible apply Chip.commitGo_canon

theorem Chip.bootNext_canon {vt : Inv} {m : Chip} {l : List (Bank × Nat)} (h0 : Canon vt m) : Canon vt (m.bootNext l) := by
  induction l generalizing m with
  | nil => exact Chip.bootDone_canon h0
  | cons e r ih =>
    obtain ⟨g, chk⟩ := e
    unfold Chip.bootNext
    have h1 : Canon vt (m.bootGo g chk) := Chip.bootGo_canon h0
    exact Canon.ite (Chip.setBoot_canon h0) (Canon.ite (Chip.setBoot_canon h1) (Canon.ite (ih h1) (Chip.bootFail_canon h1)))

theorem Chip.bootStep_canon {vt : Inv} {m : Chip} (h0 : Canon vt m) : Canon vt (Chip.bootStep m) := by
  unfold Chip.bootStep
  repeat' first | with_reducible assumption | with_reducible apply Chip.bootNext_canon | with_reducible apply Chip.bootFail_canon | with_reducible apply Canon.ite

/-! ### Control -/

theorem Chip.setPage_canon {vt : Inv} {m : Chip} {r : Req} {i : Nat} {v : Nat} (h0 : Canon vt m) : Canon vt (Chip.setPage m r i v) := by
  unfold Chip.setPage
  repeat' first | with_reducible assumption | with_reducible apply Chip.setReq_canon

theorem Chip.ownWord_canon {vt : Inv} {m : Chip} {a : Nat} (h0 : Canon vt m) : Canon vt (Chip.ownWord m a).2 := by
  unfold Chip.ownWord
  repeat' first | with_reducible assumption | with_reducible apply Chip.put_canon | with_reducible apply Chip.fresh_canon | with_reducible apply Canon.ite | with_reducible apply Canon.iteR | split | with_reducible refine Canon.snd (by assumption) ?_ | with_reducible refine Canon.fst (by assumption) ?_ | with_reducible refine Canon.mid (by assumption) ?_ | with_reducible refine Canon.thd (by assumption) ?_ | dsimp only

theorem Chip.regWord_canon {vt : Inv} {m : Chip} {r : Req} {a : Nat} (h0 : Canon vt m) : Canon vt (Chip.regWord m r a).2 := by
  unfold Chip.regWord
  repeat' first | with_reducible assumption | with_reducible apply Chip.ownWord_canon | with_reducible apply Canon.ite | with_reducible apply Canon.iteR | split | with_reducible refine Canon.snd (by assumption) ?_ | with_reducible refine Canon.fst (by assumption) ?_ | with_reducible refine Canon.mid (by assumption) ?_ | with_reducible refine Canon.thd (by assumption) ?_ | dsimp only

theorem Chip.readClear_canon {vt : Inv} {m : Chip} {a : Nat} (h0 : Canon vt m) : Canon vt (Chip.readClear m a) := by
  unfold Chip.readClear
  repeat' first | with_reducible assumption | with_reducible apply Chip.setReg_canon | with_reducible apply Canon.ite | split | with_reducible refine Canon.snd (by assumption) ?_ | with_reducible refine Canon.fst (by assumption) ?_ | with_reducible refine Canon.mid (by assumption) ?_ | with_reducible refine Canon.thd (by assumption) ?_ | dsimp only

theorem Chip.ctlRead_canon {vt : Inv} {m : Chip} {r : Req} {off : Nat} (h0 : Canon vt m) : Canon vt (Chip.ctlRead m r off).2 := by
  unfold Chip.ctlRead
  repeat' first | with_reducible assumption | with_reducible apply Chip.readClear_canon | with_reducible apply Chip.regWord_canon | with_reducible apply Chip.setReq_canon | with_reducible apply Canon.ite | with_reducible apply Canon.iteR | split | with_reducible refine Canon.snd (by assumption) ?_ | with_reducible refine Canon.fst (by assumption) ?_ | with_reducible refine Canon.mid (by assumption) ?_ | with_reducible refine Canon.thd (by assumption) ?_ | dsimp only

theorem Chip.openRings_canon {vt : Inv} {m : Chip} (h0 : Canon vt m) : Canon vt (Chip.openRings m) := by
  unfold Chip.openRings
  repeat' first | with_reducible assumption | with_reducible apply Canon.foldl | intro _ | with_reducible apply Chip.withRings_canon | with_reducible apply Chip.judge_canon | with_reducible apply Canon.ite

theorem Chip.evrCfg_canon {vt : Inv} {m : Chip} {n : Nat} {w : Word} (h0 : Canon vt m) : Canon vt (Chip.evrCfg m n w) := by
  unfold Chip.evrCfg
  repeat' first | with_reducible assumption | with_reducible apply Chip.withRings_canon | with_reducible apply Chip.openRings_canon | with_reducible apply Chip.put_canon | with_reducible apply Canon.ite

theorem Chip.evrTail_canon {vt : Inv} {m : Chip} {n : Nat} {w : Word} (h0 : Canon vt m) : Canon vt (Chip.evrTail m n w) := by
  unfold Chip.evrTail
  repeat' first | with_reducible assumption | with_reducible apply Chip.put_canon | with_reducible apply Canon.ite

theorem Chip.floorWrite_canon {vt : Inv} {m : Chip} {w : Word} (h0 : Canon vt m) : Canon vt (Chip.floorWrite m w) := by
  unfold Chip.floorWrite
  repeat' first | with_reducible assumption | with_reducible apply Chip.setReg_canon | with_reducible apply Canon.ite

theorem Chip.flashCmd_canon {vt : Inv} {m : Chip} {op : Nat} {len : Nat} (h0 : Canon vt m) : Canon vt (Chip.flashCmd m op len) := by
  unfold Chip.flashCmd
  repeat' first | with_reducible assumption | with_reducible apply Chip.withBoot_canon | with_reducible apply Chip.put_canon | with_reducible apply Canon.ite | split | with_reducible refine Canon.snd (by assumption) ?_ | with_reducible refine Canon.fst (by assumption) ?_ | with_reducible refine Canon.mid (by assumption) ?_ | with_reducible refine Canon.thd (by assumption) ?_ | dsimp only

theorem Chip.flashDone_canon {vt : Inv} {m : Chip} (h0 : Canon vt m) : Canon vt (Chip.flashDone m) := by
  unfold Chip.flashDone
  repeat' first | with_reducible assumption | with_reducible apply Chip.withBoot_canon | with_reducible apply Chip.put_canon | with_reducible apply Chip.setBytes_canon | with_reducible apply Chip.putWords_canon | split | with_reducible refine Canon.snd (by assumption) ?_ | with_reducible refine Canon.fst (by assumption) ?_ | with_reducible refine Canon.mid (by assumption) ?_ | with_reducible refine Canon.thd (by assumption) ?_ | dsimp only

theorem Chip.putFields_canon {vt : Inv} {m : Chip} {a : Nat} {w : Word} (h0 : Canon vt m) : Canon vt (Chip.putFields m a w) := by
  unfold Chip.putFields
  repeat' first | with_reducible assumption | with_reducible apply Chip.setReg_canon | with_reducible apply Canon.ite | split | with_reducible refine Canon.snd (by assumption) ?_ | with_reducible refine Canon.fst (by assumption) ?_ | with_reducible refine Canon.mid (by assumption) ?_ | with_reducible refine Canon.thd (by assumption) ?_ | dsimp only

theorem Chip.genWrite_canon {vt : Inv} {m : Chip} {r : Req} {a : Nat} {w : Word} (h0 : Canon vt m) : Canon vt (Chip.genWrite m r a w) := by
  unfold Chip.genWrite
  repeat' first | with_reducible assumption | with_reducible apply Chip.putFields_canon | with_reducible apply Chip.evrTail_canon | with_reducible apply Chip.evrCfg_canon | with_reducible apply Chip.setPage_canon | with_reducible apply Canon.ite | split | with_reducible refine Canon.snd (by assumption) ?_ | with_reducible refine Canon.fst (by assumption) ?_ | with_reducible refine Canon.mid (by assumption) ?_ | with_reducible refine Canon.thd (by assumption) ?_ | dsimp only

theorem Chip.keepWrite_canon {vt : Inv} {m : Chip} {r : Req} {a : Nat} {w : Word} (h0 : Canon vt m) : Canon vt (Chip.keepWrite m r a w) := by
  unfold Chip.keepWrite
  repeat' first | with_reducible assumption | with_reducible apply Chip.putFields_canon | with_reducible apply Chip.alarmWrite_canon | with_reducible apply Chip.tscap_canon | with_reducible apply Chip.rtcSet_canon | with_reducible apply Chip.setReq_canon | with_reducible apply Canon.ite | split | with_reducible refine Canon.snd (by assumption) ?_ | with_reducible refine Canon.fst (by assumption) ?_ | with_reducible refine Canon.mid (by assumption) ?_ | with_reducible refine Canon.thd (by assumption) ?_ | dsimp only

theorem Chip.loopRegs_canon {vt : Inv} {m : Chip} {a : Nat} {w : Word} (h0 : Canon vt m) : Canon vt (Chip.loopRegs m a w) := by
  unfold Chip.loopRegs
  repeat' first | with_reducible assumption | with_reducible apply Chip.loopCtl_canon | with_reducible apply Chip.testGo_canon | with_reducible apply Chip.testEnd_canon | with_reducible apply Chip.capEnd_canon | with_reducible apply Chip.capArm_canon | with_reducible apply Chip.swapGo_canon | with_reducible apply Chip.putFields_canon | with_reducible apply Canon.ite | split | with_reducible refine Canon.snd (by assumption) ?_ | with_reducible refine Canon.fst (by assumption) ?_ | with_reducible refine Canon.mid (by assumption) ?_ | with_reducible refine Canon.thd (by assumption) ?_ | dsimp only

theorem Chip.canWrite_canon {vt : Inv} {m : Chip} {a : Nat} {w : Word} (h0 : Canon vt m) : Canon vt (Chip.canWrite m a w) := by
  unfold Chip.canWrite
  repeat' first | with_reducible assumption | with_reducible apply Chip.putFields_canon | with_reducible apply Chip.txbReq_canon | with_reducible apply Chip.txbAbort_canon | with_reducible apply Chip.canRecover_canon | with_reducible apply Canon.ite

theorem Chip.sadlWrite_canon {vt : Inv} {m : Chip} {a : Nat} {w : Word} (h0 : Canon vt m) : Canon vt (Chip.sadlWrite m a w) := by
  unfold Chip.sadlWrite
  repeat' first | with_reducible assumption | with_reducible apply Chip.sadlRes_canon | with_reducible apply Chip.sadlResync_canon | with_reducible apply Chip.sadlLeave_canon | with_reducible apply Chip.sadlTake_canon | with_reducible apply Chip.sadlSwitch_canon | with_reducible apply Chip.putFields_canon | with_reducible apply Canon.ite | split | with_reducible refine Canon.snd (by assumption) ?_ | with_reducible refine Canon.fst (by assumption) ?_ | with_reducible refine Canon.mid (by assumption) ?_ | with_reducible refine Canon.thd (by assumption) ?_ | dsimp only

theorem Chip.vaultWrite_canon {vt : Inv} {m : Chip} {r : Req} {a : Nat} {w : Word} (h0 : Canon vt m) : Canon vt (Chip.vaultWrite m r a w) := by
  unfold Chip.vaultWrite
  repeat' first | with_reducible assumption | with_reducible apply Chip.putFields_canon | with_reducible apply Chip.debugClose_canon | with_reducible apply Chip.debugOpen_canon | with_reducible apply Chip.debugChal_canon | with_reducible apply Chip.otpGo_canon | with_reducible apply Chip.vaultReg_canon | with_reducible apply Chip.vreset_canon | with_reducible apply Canon.ite

theorem Chip.panelWrite_canon {vt : Inv} {m : Chip} {a : Nat} {w : Word} (h0 : Canon vt m) : Canon vt (Chip.panelWrite m a w) := by
  unfold Chip.panelWrite
  repeat' first | with_reducible assumption | with_reducible apply Chip.putFields_canon | with_reducible apply Chip.panelUpdate_canon | with_reducible apply Chip.crackClear_canon | with_reducible apply Chip.fresh_canon | with_reducible apply Chip.markClear_canon | with_reducible apply Canon.ite | split | with_reducible refine Canon.snd (by assumption) ?_ | with_reducible refine Canon.fst (by assumption) ?_ | with_reducible refine Canon.mid (by assumption) ?_ | with_reducible refine Canon.thd (by assumption) ?_ | dsimp only

theorem Chip.regWrite_canon {vt : Inv} {m : Chip} {r : Req} {a : Nat} {w : Word} (h0 : Canon vt m) : Canon vt (Chip.regWrite m r a w) := by
  unfold Chip.regWrite
  repeat' first | with_reducible assumption | with_reducible apply Chip.flashCmd_canon | with_reducible apply Chip.floorWrite_canon | with_reducible apply Chip.panelWrite_canon | with_reducible apply Chip.vaultWrite_canon | with_reducible apply Chip.sadlWrite_canon | with_reducible apply Chip.lostClear_canon | with_reducible apply Chip.loopRegs_canon | with_reducible apply Chip.fwGo_canon | with_reducible apply Chip.fwAbort_canon | with_reducible apply Chip.lampReg_canon | with_reducible apply Chip.planCmd_canon | with_reducible apply Chip.canWrite_canon | with_reducible apply Chip.qclr_canon | with_reducible apply Chip.timeSet_canon | with_reducible apply Chip.quenchGo_canon | with_reducible apply Chip.accCmd_canon | with_reducible apply Chip.setReg_canon | with_reducible apply Chip.tcmd_canon | with_reducible apply Chip.keepWrite_canon | with_reducible apply Chip.putFields_canon | with_reducible apply Chip.commitCtl_canon | with_reducible apply Chip.bootStep_canon | with_reducible apply Chip.genWrite_canon | with_reducible apply Canon.ite | split | with_reducible refine Canon.snd (by assumption) ?_ | with_reducible refine Canon.fst (by assumption) ?_ | with_reducible refine Canon.mid (by assumption) ?_ | with_reducible refine Canon.thd (by assumption) ?_ | dsimp only

theorem Chip.putReg_canon {vt : Inv} {m : Chip} {r : Req} {a : Nat} {w : Word} (h0 : Canon vt m) : Canon vt (Chip.putReg m r a w) := by
  unfold Chip.putReg
  repeat' first | with_reducible assumption | with_reducible apply Chip.regWrite_canon | with_reducible apply Chip.stageReg_canon | with_reducible apply Canon.ite | split | with_reducible refine Canon.snd (by assumption) ?_ | with_reducible refine Canon.fst (by assumption) ?_ | with_reducible refine Canon.mid (by assumption) ?_ | with_reducible refine Canon.thd (by assumption) ?_ | dsimp only

theorem Chip.pairBroken_canon {vt : Inv} {m : Chip} {a : Nat} (h0 : Canon vt m) : Canon vt (Chip.pairBroken m a) := by
  unfold Chip.pairBroken
  repeat' first | with_reducible assumption | with_reducible apply Chip.post_canon | with_reducible apply Chip.fresh_canon | split | with_reducible refine Canon.snd (by assumption) ?_ | with_reducible refine Canon.fst (by assumption) ?_ | with_reducible refine Canon.mid (by assumption) ?_ | with_reducible refine Canon.thd (by assumption) ?_ | dsimp only

theorem Chip.pairWrite_canon {vt : Inv} {m : Chip} {r : Req} {a : Nat} {w : Word} (h0 : Canon vt m) : Canon vt (Chip.pairWrite m r a w) := by
  unfold Chip.pairWrite
  repeat' first | with_reducible assumption | with_reducible apply Chip.pairBroken_canon | with_reducible apply Chip.putReg_canon | with_reducible apply Chip.setReq_canon | with_reducible apply Canon.ite | split | with_reducible refine Canon.snd (by assumption) ?_ | with_reducible refine Canon.fst (by assumption) ?_ | with_reducible refine Canon.mid (by assumption) ?_ | with_reducible refine Canon.thd (by assumption) ?_ | dsimp only

theorem Chip.wideWrite_canon {vt : Inv} {m : Chip} {r : Req} {a : Nat} {w : Word} (h0 : Canon vt m) : Canon vt (Chip.wideWrite m r a w) := by
  unfold Chip.wideWrite
  repeat' first | with_reducible assumption | with_reducible apply Chip.setReq_canon | with_reducible apply Chip.putReg_canon | with_reducible apply Canon.ite | split | with_reducible refine Canon.snd (by assumption) ?_ | with_reducible refine Canon.fst (by assumption) ?_ | with_reducible refine Canon.mid (by assumption) ?_ | with_reducible refine Canon.thd (by assumption) ?_ | dsimp only

theorem Chip.counterWrite_canon {vt : Inv} {m : Chip} {a : Nat} {sat : Option (Nat × Nat)} {w : Word} (h0 : Canon vt m) : Canon vt (Chip.counterWrite m a sat w) := by
  unfold Chip.counterWrite
  repeat' first | with_reducible assumption | with_reducible apply Chip.put_canon | with_reducible apply Chip.setReg_canon | with_reducible apply Canon.ite | split | with_reducible refine Canon.snd (by assumption) ?_ | with_reducible refine Canon.fst (by assumption) ?_ | with_reducible refine Canon.mid (by assumption) ?_ | with_reducible refine Canon.thd (by assumption) ?_ | dsimp only

theorem Chip.winWrite_canon {vt : Inv} {m : Chip} {r : Req} {a : Nat} {v : Word} (h0 : Canon vt m) : Canon vt (Chip.winWrite m r a v) := by
  unfold Chip.winWrite
  repeat' first | with_reducible assumption | with_reducible apply Chip.editWrite_canon | with_reducible apply Chip.singleWrite_canon | with_reducible apply Chip.stageBytes_canon | with_reducible apply Chip.wr_canon | with_reducible apply Canon.ite | split | with_reducible refine Canon.snd (by assumption) ?_ | with_reducible refine Canon.fst (by assumption) ?_ | with_reducible refine Canon.mid (by assumption) ?_ | with_reducible refine Canon.thd (by assumption) ?_ | dsimp only

theorem Chip.ctlWrite_canon {vt : Inv} {m : Chip} {r : Req} {off : Nat} {w : Word} (h0 : Canon vt m) : Canon vt (Chip.ctlWrite m r off w) := by
  unfold Chip.ctlWrite
  repeat' first | with_reducible assumption | with_reducible apply Chip.pairWrite_canon | with_reducible apply Chip.putReg_canon | with_reducible apply Chip.wideWrite_canon | with_reducible apply Chip.setReq_canon | with_reducible apply Chip.counterWrite_canon | with_reducible apply Chip.winWrite_canon | with_reducible apply Chip.wr_canon | with_reducible apply Canon.ite | split | with_reducible refine Canon.snd (by assumption) ?_ | with_reducible refine Canon.fst (by assumption) ?_ | with_reducible refine Canon.mid (by assumption) ?_ | with_reducible refine Canon.thd (by assumption) ?_ | dsimp only

theorem Chip.uartAnswer_canon {vt : Inv} {m : Chip} {op : Nat} {code : Half} {data : Word} (h0 : Canon vt m) : Canon vt (Chip.uartAnswer m op code data) := by
  unfold Chip.uartAnswer
  repeat' first | with_reducible assumption | with_reducible apply Chip.emit_canon

theorem Chip.uartAt_canon {vt : Inv} {m : Chip} {n : Nat} (h0 : Canon vt m) : Canon vt (Chip.uartAt m n) := by
  unfold Chip.uartAt
  repeat' first | with_reducible assumption | with_reducible apply Chip.setUpl_canon

theorem Chip.uartRead_canon {vt : Inv} {m : Chip} {a : Word} (h0 : Canon vt m) : Canon vt (Chip.uartRead m a) := by
  unfold Chip.uartRead
  repeat' first | with_reducible assumption | with_reducible apply Chip.ctlRead_canon | with_reducible apply Chip.uartAt_canon | with_reducible apply Chip.uartAnswer_canon | with_reducible apply Canon.ite | split | with_reducible refine Canon.snd (by assumption) ?_ | with_reducible refine Canon.fst (by assumption) ?_ | with_reducible refine Canon.mid (by assumption) ?_ | with_reducible refine Canon.thd (by assumption) ?_ | dsimp only

theorem Chip.uartWrite_canon {vt : Inv} {m : Chip} {a : Word} {v : Word} (h0 : Canon vt m) : Canon vt (Chip.uartWrite m a v) := by
  unfold Chip.uartWrite
  repeat' first | with_reducible assumption | with_reducible apply Chip.ctlWrite_canon | with_reducible apply Chip.uartAt_canon | with_reducible apply Chip.uartAnswer_canon | with_reducible apply Canon.ite

theorem Chip.uartBad_canon {vt : Inv} {m : Chip} (h0 : Canon vt m) : Canon vt (Chip.uartBad m) := by
  unfold Chip.uartBad
  repeat' first | with_reducible assumption | with_reducible apply Chip.uartAt_canon | with_reducible apply Chip.put_canon | with_reducible apply Canon.ite

/-! ### Cairn -/

theorem Chip.discover_canon {vt : Inv} {m : Chip} {sfdp : Option (List (Nat × Bool × Nat) × Bool)} (h0 : Canon vt m) : Canon vt (Chip.discover m sfdp) := by
  unfold Chip.discover
  repeat' first | with_reducible assumption | with_reducible apply Chip.put_canon | split | with_reducible refine Canon.snd (by assumption) ?_ | with_reducible refine Canon.fst (by assumption) ?_ | with_reducible refine Canon.mid (by assumption) ?_ | with_reducible refine Canon.thd (by assumption) ?_ | dsimp only

theorem Chip.romWrite_canon {vt : Inv} {m : Chip} {a : Nat} {v : Nat} (h0 : Canon vt m) : Canon vt (Chip.romWrite m a v) := by
  unfold Chip.romWrite
  repeat' first | with_reducible assumption | with_reducible apply Chip.ctlWrite_canon

theorem Chip.romTable_canon {vt : Inv} {m : Chip} {target : Nat} {b : List Byte} (h0 : Canon vt m) : Canon vt (Chip.romTable m target b) := by
  unfold Chip.romTable
  repeat' first | with_reducible assumption | with_reducible apply Chip.stageBytes_canon | with_reducible apply Chip.setBytes_canon | with_reducible apply Canon.ite | split | with_reducible refine Canon.snd (by assumption) ?_ | with_reducible refine Canon.fst (by assumption) ?_ | with_reducible refine Canon.mid (by assumption) ?_ | with_reducible refine Canon.thd (by assumption) ?_ | dsimp only

theorem Chip.romRec_canon {vt : Inv} {m : Chip} {r : CRec} (h0 : Canon vt m) : Canon vt (Chip.romRec m r) := by
  unfold Chip.romRec
  repeat' first | with_reducible assumption | with_reducible apply Canon.foldl | intro _ | with_reducible apply Chip.stageBytes_canon | with_reducible apply Chip.stagePoint_canon | with_reducible apply Chip.romTable_canon | with_reducible apply Chip.romWrite_canon | with_reducible apply Canon.ite | split | with_reducible refine Canon.snd (by assumption) ?_ | with_reducible refine Canon.fst (by assumption) ?_ | with_reducible refine Canon.mid (by assumption) ?_ | with_reducible refine Canon.thd (by assumption) ?_ | dsimp only

theorem Chip.romLoad_canon {vt : Inv} {m : Chip} {l : List CRec} (h0 : Canon vt m) : Canon vt (m.romLoad l).1 := by
  induction l generalizing m with
  | nil => exact h0
  | cons e r ih =>
    simp only [Chip.romLoad]
    split
    · exact ih (Chip.setBank_canon h0)
    · exact ih (Chip.romRec_canon h0)

theorem Chip.bootSet_canon {vt : Inv} {m : Chip} {s : Nat} {gen : Word} {l : List CRec} (h0 : Canon vt m) : Canon vt (Chip.bootSet m s gen l) := by
  unfold Chip.bootSet
  repeat' first | with_reducible assumption | with_reducible apply Chip.bootStep_canon | with_reducible apply Chip.bootFail_canon | with_reducible apply Chip.setBoot_canon | with_reducible apply Chip.setBank_canon | with_reducible apply Chip.romLoad_canon | split | with_reducible refine Canon.snd (by assumption) ?_ | with_reducible refine Canon.fst (by assumption) ?_ | with_reducible refine Canon.mid (by assumption) ?_ | with_reducible refine Canon.thd (by assumption) ?_ | dsimp only

theorem Chip.showFallback_canon {vt : Inv} {m : Chip} (h0 : Canon vt m) : Canon vt (Chip.showFallback m) := by
  unfold Chip.showFallback
  repeat' first | with_reducible assumption | with_reducible apply Chip.put_canon | split | with_reducible refine Canon.snd (by assumption) ?_ | with_reducible refine Canon.fst (by assumption) ?_ | with_reducible refine Canon.mid (by assumption) ?_ | with_reducible refine Canon.thd (by assumption) ?_ | dsimp only

theorem Chip.bootStart_canon {vt : Inv} {m : Chip} {sfdp : Option (List (Nat × Bool × Nat) × Bool)} (h0 : Canon vt m) : Canon vt (Chip.bootStart m sfdp) := by
  unfold Chip.bootStart
  repeat' first | with_reducible assumption | with_reducible apply Chip.bootSet_canon | with_reducible apply Chip.setBoot_canon | with_reducible apply Chip.put_canon | with_reducible apply Chip.unconfigured_canon | with_reducible apply Chip.discover_canon | with_reducible apply Chip.showFallback_canon | with_reducible apply Canon.ite | split | with_reducible refine Canon.snd (by assumption) ?_ | with_reducible refine Canon.fst (by assumption) ?_ | with_reducible refine Canon.mid (by assumption) ?_ | with_reducible refine Canon.thd (by assumption) ?_ | dsimp only

end Sys2Proof.Machine
end

