-- ==== Sys2Proof/Laws/CanonWasa.lean ====
section
/-! SUPPORT. What changes of single parts keep, through the Wasa cores, their instructions and the echo (Laws/Canon.lean). -/

namespace Sys2Proof.Machine

open Sys2Proof

/-! ### Operands -/

theorem Chip.save_canon {vt : Inv} {m : Chip} {o : Op} {k : Core} {a : Nat} {n : Nat} {v : Nat} (h0 : Canon vt m) : Canon vt (Chip.save m o k a n v) := by
  unfold Chip.save
  repeat' first | with_reducible assumption | with_reducible apply Chip.wr_canon

theorem Chip.corrected_canon {vt : Inv} {m : Chip} {c : Nat} {k : Core} {l : List Upset} (h0 : Canon vt m) : Canon vt (Chip.corrected m c k l) := by
  unfold Chip.corrected
  repeat' first | with_reducible assumption | with_reducible apply Canon.foldl | intro _ | with_reducible apply Chip.withScan_canon | with_reducible apply Chip.post_canon | with_reducible apply Canon.ite

theorem Chip.ecc_canon {vt : Inv} {m : Chip} {c : Nat} {k : Core} {code : Bool} {l : List (Nat × Nat)} (h0 : Canon vt m) : Canon vt (Chip.ecc m c k code l).2 := by
  unfold Chip.ecc
  repeat' first | with_reducible assumption | with_reducible apply Chip.corrected_canon | with_reducible apply Chip.withScan_canon | with_reducible apply Canon.ite | with_reducible apply Canon.iteR | dsimp only

theorem Chip.ownFirst_canon {vt : Inv} {m : Chip} {c : Nat} {k : Core} {tag : BitVec 40} (h0 : Canon vt m) : Canon vt (Chip.ownFirst m c k tag).1 := by
  unfold Chip.ownFirst
  repeat' first | with_reducible assumption | with_reducible apply Chip.drainStores_canon | with_reducible apply Canon.ite | split | dsimp only

theorem Chip.fetchPoint_canon {vt : Inv} {m : Chip} {c : Nat} {k : Core} {tag : BitVec 40} (h0 : Canon vt m) : Canon vt (Chip.fetchPoint m c k tag).2.2.1 := by
  unfold Chip.fetchPoint
  repeat' first | with_reducible assumption | with_reducible apply Chip.ptRead_canon | with_reducible apply Chip.ownFirst_canon | split | with_reducible refine Canon.snd (by assumption) ?_ | with_reducible refine Canon.fst (by assumption) ?_ | with_reducible refine Canon.mid (by assumption) ?_ | with_reducible refine Canon.thd (by assumption) ?_ | dsimp only

theorem Chip.pointLoad_canon {vt : Inv} {m : Chip} {o : Op} {k : Core} {t : DWord} {pair : Bool} {qual : Bool} {f : PointRec → Core → Core} (h0 : Canon vt m) : Canon vt (Chip.pointLoad m o k t pair qual f).chip := by
  unfold Chip.pointLoad
  repeat' first | with_reducible assumption | with_reducible apply Chip.fetchPoint_canon | with_reducible apply Canon.go | with_reducible apply Canon.trap | with_reducible apply Canon.stop | with_reducible apply Canon.iteD | with_reducible apply Canon.ite | split | split | with_reducible refine Canon.snd (by assumption) ?_ | with_reducible refine Canon.fst (by assumption) ?_ | with_reducible refine Canon.mid (by assumption) ?_ | with_reducible refine Canon.thd (by assumption) ?_ | dsimp only

theorem Chip.storeCheck_canon {vt : Inv} {m m1 : Chip} {o : Op} {k : Core} {tag : BitVec 40} {tr : Trap}
    (e : m.storeCheck o k tag = some (tr, m1)) (h0 : Canon vt m) : Canon vt m1 := by
  unfold Chip.storeCheck at e
  repeat' split at e
  all_goals simp only [Option.some.injEq, Prod.mk.injEq, reduceCtorEq] at e
  all_goals first | exact e.2 ▸ h0 | exact e.2 ▸ Chip.rangeFault_canon h0

theorem Chip.pointStore_canon {vt : Inv} {m : Chip} {o : Op} {k : Core} {t : DWord} {v : DWord} (h0 : Canon vt m) : Canon vt (Chip.pointStore m o k t v).chip := by
  unfold Chip.pointStore
  repeat' first | with_reducible assumption | with_reducible apply Chip.drainStores_canon | with_reducible refine Chip.storeCheck_canon (by assumption) ?_ | with_reducible apply Canon.go | with_reducible apply Canon.trap | with_reducible apply Canon.stop | with_reducible apply Canon.iteD | with_reducible apply Canon.ite | split | split | with_reducible refine Canon.snd (by assumption) ?_ | with_reducible refine Canon.fst (by assumption) ?_ | with_reducible refine Canon.mid (by assumption) ?_ | with_reducible refine Canon.thd (by assumption) ?_ | dsimp only

theorem Chip.pairStore_canon {vt : Inv} {m : Chip} {o : Op} {k : Core} {t : DWord} {v : DWord} {c : DWord} (h0 : Canon vt m) : Canon vt (Chip.pairStore m o k t v c).chip := by
  unfold Chip.pairStore
  repeat' first | with_reducible assumption | with_reducible apply Chip.ptWrite_canon | with_reducible apply Chip.drainStores_canon | with_reducible refine Chip.storeCheck_canon (by assumption) ?_ | with_reducible apply Canon.go | with_reducible apply Canon.trap | with_reducible apply Canon.stop | with_reducible apply Canon.iteD | with_reducible apply Canon.ite | split | split | with_reducible refine Canon.snd (by assumption) ?_ | with_reducible refine Canon.fst (by assumption) ?_ | with_reducible refine Canon.mid (by assumption) ?_ | with_reducible refine Canon.thd (by assumption) ?_ | dsimp only

theorem Chip.pointClear_canon {vt : Inv} {m : Chip} {o : Op} {k : Core} {t : DWord} (h0 : Canon vt m) : Canon vt (Chip.pointClear m o k t).chip := by
  unfold Chip.pointClear
  repeat' first | with_reducible assumption | with_reducible apply Chip.clearChg_canon | with_reducible apply Chip.crcCheck_canon | with_reducible apply Chip.fold_canon | with_reducible apply Chip.touch_canon | with_reducible apply Chip.ownFirst_canon | with_reducible refine Chip.storeCheck_canon (by assumption) ?_ | with_reducible apply Canon.go | with_reducible apply Canon.trap | with_reducible apply Canon.stop | with_reducible apply Canon.iteD | with_reducible apply Canon.ite | split | split | with_reducible refine Canon.snd (by assumption) ?_ | with_reducible refine Canon.fst (by assumption) ?_ | with_reducible refine Canon.mid (by assumption) ?_ | with_reducible refine Canon.thd (by assumption) ?_ | dsimp only

/-! ### Wasa -/

theorem Chip.trapEvent_canon {vt : Inv} {m : Chip} {c : Nat} {k : Core} {cycle : DWord} {ending : Nat} (h0 : Canon vt m) : Canon vt (Chip.trapEvent m c k cycle ending) := by
  unfold Chip.trapEvent
  repeat' first | with_reducible assumption | with_reducible apply Chip.post_canon | with_reducible apply Canon.ite

theorem Chip.finishCore_canon {vt : Inv} {m : Chip} {c : Nat} {k : Core} {good : Bool} (h0 : Canon vt m) : Canon vt (Chip.finishCore m c k good) := by
  unfold Chip.finishCore
  repeat' first | with_reducible assumption | with_reducible apply Chip.checkTrapped_canon | with_reducible apply Chip.checkEnded_canon | with_reducible apply Chip.commitWatch_canon | with_reducible apply Chip.bootStep_canon | with_reducible apply Chip.setCore_canon | with_reducible apply Chip.abandonTask_canon | with_reducible apply Chip.stream_canon | with_reducible apply Chip.post_canon | with_reducible apply Chip.endCycle_canon | with_reducible apply Chip.drainStores_canon | with_reducible apply Canon.ite | split | with_reducible refine Canon.snd (by assumption) ?_ | with_reducible refine Canon.fst (by assumption) ?_ | with_reducible refine Canon.mid (by assumption) ?_ | with_reducible refine Canon.thd (by assumption) ?_ | dsimp only

theorem Chip.takeTrap_canon {vt : Inv} {m : Chip} {o : Op} {k : Core} {t : Trap} (h0 : Canon vt m) : Canon vt (Chip.takeTrap m o k t).1 := by
  unfold Chip.takeTrap
  repeat' first | with_reducible assumption | with_reducible apply Chip.trapEvent_canon | with_reducible apply Canon.ite | split | split | with_reducible refine Canon.snd (by assumption) ?_ | with_reducible refine Canon.fst (by assumption) ?_ | with_reducible refine Canon.mid (by assumption) ?_ | with_reducible refine Canon.thd (by assumption) ?_ | dsimp only

theorem Chip.turn_canon {vt : Inv} {m : Chip} {o : Op} {k : Core} {i : Insn} (h0 : Canon vt m) (hi : ∀ o m k, Canon vt m → Canon vt (i.run o m k).chip) :
    Canon vt (m.turn o k i).1 := by
  have hm : ∀ x, Canon vt (m.withClk x) := fun _ => vt.clk' h0
  unfold Chip.turn
  dsimp only
  split
  · exact Chip.takeTrap_canon (Chip.ecc_canon (hm _))
  · split
    · exact Chip.takeTrap_canon (Chip.ecc_canon (hm _))
    · split
      · exact Chip.takeTrap_canon (Chip.ecc_canon (Chip.ecc_canon (hm _)))
      · split <;> rename_i e <;> have h := congrArg Done.chip e <;> simp only [Done.chip] at h
        · exact h ▸ hi _ _ _ (Chip.ecc_canon (Chip.ecc_canon (hm _)))
        · exact Chip.takeTrap_canon (h ▸ hi _ _ _ (Chip.ecc_canon (Chip.ecc_canon (hm _))))
        · exact h ▸ hi _ _ _ (Chip.ecc_canon (Chip.ecc_canon (hm _)))

theorem Chip.settleCore_canon {vt : Inv} {c : Nat} {r : Chip × Core × Option Bool} (h0 : Canon vt r.1) : Canon vt (Chip.settleCore c r) := by
  unfold Chip.settleCore
  split
  · exact Chip.setCore_canon h0
  · exact Chip.finishCore_canon h0

theorem Chip.issue_canon {vt : Inv} {m : Chip} {c : Nat} {w : Word} {x : Option Word} {i : Insn} (h0 : Canon vt m)
    (hi : ∀ o m k, Canon vt m → Canon vt (i.run o m k).chip) : Canon vt (m.issue c w x i) := by
  unfold Chip.issue
  exact Canon.ite h0 (Canon.ite (Chip.settleCore_canon (Chip.takeTrap_canon h0)) (Chip.settleCore_canon (Chip.turn_canon h0 hi)))

theorem Chip.overrun_canon {vt : Inv} {m : Chip} {c : Nat} (h0 : Canon vt m) : Canon vt (m.overrun c) := by
  unfold Chip.overrun
  exact Canon.ite h0 (Chip.settleCore_canon (Chip.takeTrap_canon h0))

theorem Insn.alu_canon {vt : Inv} {f : Op → Core → Core} {o : Op} {m : Chip} {k : Core} (h0 : Canon vt m) : Canon vt (Insn.alu f o m k).chip := by
  unfold Insn.alu
  repeat' first | with_reducible assumption | with_reducible apply Canon.go | with_reducible apply Canon.trap | with_reducible apply Canon.stop | with_reducible apply Canon.iteD | dsimp only

theorem Insn.none__canon {vt : Inv}  : ∀ o m k, Canon vt m → Canon vt (((Insn.none_ ) : Insn).run o m k).chip := by
  intro o m k h0
  unfold Insn.none_
  repeat' first | with_reducible assumption | with_reducible apply Canon.go | with_reducible apply Canon.trap | with_reducible apply Canon.stop | with_reducible apply Canon.iteD | intro _ | dsimp only

/-! ### WasaBit -/

theorem Insn.bitRead_canon {vt : Inv} {f : Bool → Bool → Bool} : ∀ o m k, Canon vt m → Canon vt (((Insn.bitRead f) : Insn).run o m k).chip := by
  intro o m k h0
  unfold Insn.bitRead
  repeat' first | with_reducible assumption | with_reducible apply Canon.go | with_reducible apply Canon.trap | with_reducible apply Canon.stop | with_reducible apply Canon.iteD | intro _ | split | with_reducible refine Canon.snd (by assumption) ?_ | with_reducible refine Canon.fst (by assumption) ?_ | with_reducible refine Canon.mid (by assumption) ?_ | with_reducible refine Canon.thd (by assumption) ?_ | dsimp only

theorem Insn.bitWrite_canon {vt : Inv} {f : Bool → Bool → Option Bool} : ∀ o m k, Canon vt m → Canon vt (((Insn.bitWrite f) : Insn).run o m k).chip := by
  intro o m k h0
  unfold Insn.bitWrite
  repeat' first | with_reducible assumption | with_reducible apply Chip.setDataBit_canon | with_reducible apply Canon.go | with_reducible apply Canon.trap | with_reducible apply Canon.stop | with_reducible apply Canon.iteD | intro _ | with_reducible apply Canon.ite | split | split | with_reducible refine Canon.snd (by assumption) ?_ | with_reducible refine Canon.fst (by assumption) ?_ | with_reducible refine Canon.mid (by assumption) ?_ | with_reducible refine Canon.thd (by assumption) ?_ | dsimp only

theorem Insn.bitAlone_canon {vt : Inv} {f : Bool → Bool} : ∀ o m k, Canon vt m → Canon vt (((Insn.bitAlone f) : Insn).run o m k).chip := by
  intro o m k h0
  unfold Insn.bitAlone
  repeat' first | with_reducible assumption | with_reducible apply Insn.alu_canon | with_reducible apply Canon.go | with_reducible apply Canon.trap | with_reducible apply Canon.stop | with_reducible apply Canon.iteD | intro _ | dsimp only

theorem Insn.ld_canon {vt : Inv}  : ∀ o m k, Canon vt m → Canon vt (((Insn.ld ) : Insn).run o m k).chip := by
  intro o m k h0
  unfold Insn.ld
  repeat' first | with_reducible assumption | with_reducible apply Insn.bitRead_canon | with_reducible apply Canon.go | with_reducible apply Canon.trap | with_reducible apply Canon.stop | with_reducible apply Canon.iteD | intro _ | dsimp only

theorem Insn.ldn_canon {vt : Inv}  : ∀ o m k, Canon vt m → Canon vt (((Insn.ldn ) : Insn).run o m k).chip := by
  intro o m k h0
  unfold Insn.ldn
  repeat' first | with_reducible assumption | with_reducible apply Insn.bitRead_canon | with_reducible apply Canon.go | with_reducible apply Canon.trap | with_reducible apply Canon.stop | with_reducible apply Canon.iteD | intro _ | dsimp only

theorem Insn.and_canon {vt : Inv}  : ∀ o m k, Canon vt m → Canon vt (((Insn.and ) : Insn).run o m k).chip := by
  intro o m k h0
  unfold Insn.and
  repeat' first | with_reducible assumption | with_reducible apply Insn.bitRead_canon | with_reducible apply Canon.go | with_reducible apply Canon.trap | with_reducible apply Canon.stop | with_reducible apply Canon.iteD | intro _ | dsimp only

theorem Insn.andn_canon {vt : Inv}  : ∀ o m k, Canon vt m → Canon vt (((Insn.andn ) : Insn).run o m k).chip := by
  intro o m k h0
  unfold Insn.andn
  repeat' first | with_reducible assumption | with_reducible apply Insn.bitRead_canon | with_reducible apply Canon.go | with_reducible apply Canon.trap | with_reducible apply Canon.stop | with_reducible apply Canon.iteD | intro _ | dsimp only

theorem Insn.or_canon {vt : Inv}  : ∀ o m k, Canon vt m → Canon vt (((Insn.or ) : Insn).run o m k).chip := by
  intro o m k h0
  unfold Insn.or
  repeat' first | with_reducible assumption | with_reducible apply Insn.bitRead_canon | with_reducible apply Canon.go | with_reducible apply Canon.trap | with_reducible apply Canon.stop | with_reducible apply Canon.iteD | intro _ | dsimp only

theorem Insn.orn_canon {vt : Inv}  : ∀ o m k, Canon vt m → Canon vt (((Insn.orn ) : Insn).run o m k).chip := by
  intro o m k h0
  unfold Insn.orn
  repeat' first | with_reducible assumption | with_reducible apply Insn.bitRead_canon | with_reducible apply Canon.go | with_reducible apply Canon.trap | with_reducible apply Canon.stop | with_reducible apply Canon.iteD | intro _ | dsimp only

theorem Insn.xor_canon {vt : Inv}  : ∀ o m k, Canon vt m → Canon vt (((Insn.xor ) : Insn).run o m k).chip := by
  intro o m k h0
  unfold Insn.xor
  repeat' first | with_reducible assumption | with_reducible apply Insn.bitRead_canon | with_reducible apply Canon.go | with_reducible apply Canon.trap | with_reducible apply Canon.stop | with_reducible apply Canon.iteD | intro _ | dsimp only

theorem Insn.xorn_canon {vt : Inv}  : ∀ o m k, Canon vt m → Canon vt (((Insn.xorn ) : Insn).run o m k).chip := by
  intro o m k h0
  unfold Insn.xorn
  repeat' first | with_reducible assumption | with_reducible apply Insn.bitRead_canon | with_reducible apply Canon.go | with_reducible apply Canon.trap | with_reducible apply Canon.stop | with_reducible apply Canon.iteD | intro _ | dsimp only

theorem Insn.st_canon {vt : Inv}  : ∀ o m k, Canon vt m → Canon vt (((Insn.st ) : Insn).run o m k).chip := by
  intro o m k h0
  unfold Insn.st
  repeat' first | with_reducible assumption | with_reducible apply Insn.bitWrite_canon | with_reducible apply Canon.go | with_reducible apply Canon.trap | with_reducible apply Canon.stop | with_reducible apply Canon.iteD | intro _ | dsimp only

theorem Insn.stn_canon {vt : Inv}  : ∀ o m k, Canon vt m → Canon vt (((Insn.stn ) : Insn).run o m k).chip := by
  intro o m k h0
  unfold Insn.stn
  repeat' first | with_reducible assumption | with_reducible apply Insn.bitWrite_canon | with_reducible apply Canon.go | with_reducible apply Canon.trap | with_reducible apply Canon.stop | with_reducible apply Canon.iteD | intro _ | dsimp only

theorem Insn.setb_canon {vt : Inv}  : ∀ o m k, Canon vt m → Canon vt (((Insn.setb ) : Insn).run o m k).chip := by
  intro o m k h0
  unfold Insn.setb
  repeat' first | with_reducible assumption | with_reducible apply Insn.bitWrite_canon | with_reducible apply Canon.go | with_reducible apply Canon.trap | with_reducible apply Canon.stop | with_reducible apply Canon.iteD | intro _ | with_reducible apply Canon.ite | split | dsimp only

theorem Insn.rstb_canon {vt : Inv}  : ∀ o m k, Canon vt m → Canon vt (((Insn.rstb ) : Insn).run o m k).chip := by
  intro o m k h0
  unfold Insn.rstb
  repeat' first | with_reducible assumption | with_reducible apply Insn.bitWrite_canon | with_reducible apply Canon.go | with_reducible apply Canon.trap | with_reducible apply Canon.stop | with_reducible apply Canon.iteD | intro _ | with_reducible apply Canon.ite | split | dsimp only

theorem Insn.tglb_canon {vt : Inv}  : ∀ o m k, Canon vt m → Canon vt (((Insn.tglb ) : Insn).run o m k).chip := by
  intro o m k h0
  unfold Insn.tglb
  repeat' first | with_reducible assumption | with_reducible apply Insn.bitWrite_canon | with_reducible apply Canon.go | with_reducible apply Canon.trap | with_reducible apply Canon.stop | with_reducible apply Canon.iteD | intro _ | with_reducible apply Canon.ite | split | dsimp only

theorem Insn.notba_canon {vt : Inv}  : ∀ o m k, Canon vt m → Canon vt (((Insn.notba ) : Insn).run o m k).chip := by
  intro o m k h0
  unfold Insn.notba
  repeat' first | with_reducible assumption | with_reducible apply Insn.bitAlone_canon | with_reducible apply Canon.go | with_reducible apply Canon.trap | with_reducible apply Canon.stop | with_reducible apply Canon.iteD | intro _ | dsimp only

theorem Insn.setba_canon {vt : Inv}  : ∀ o m k, Canon vt m → Canon vt (((Insn.setba ) : Insn).run o m k).chip := by
  intro o m k h0
  unfold Insn.setba
  repeat' first | with_reducible assumption | with_reducible apply Insn.bitAlone_canon | with_reducible apply Canon.go | with_reducible apply Canon.trap | with_reducible apply Canon.stop | with_reducible apply Canon.iteD | intro _ | dsimp only

theorem Insn.clrba_canon {vt : Inv}  : ∀ o m k, Canon vt m → Canon vt (((Insn.clrba ) : Insn).run o m k).chip := by
  intro o m k h0
  unfold Insn.clrba
  repeat' first | with_reducible assumption | with_reducible apply Insn.bitAlone_canon | with_reducible apply Canon.go | with_reducible apply Canon.trap | with_reducible apply Canon.stop | with_reducible apply Canon.iteD | intro _ | dsimp only

theorem Insn.condba_canon {vt : Inv}  : ∀ o m k, Canon vt m → Canon vt (((Insn.condba ) : Insn).run o m k).chip := by
  intro o m k h0
  unfold Insn.condba
  repeat' first | with_reducible assumption | with_reducible apply Insn.alu_canon | with_reducible apply Canon.go | with_reducible apply Canon.trap | with_reducible apply Canon.stop | with_reducible apply Canon.iteD | intro _ | dsimp only

theorem Insn.goTo_canon {vt : Inv} {m : Chip} {k : Core} {target : Int} (h0 : Canon vt m) : Canon vt (Insn.goTo m k target).chip := by
  unfold Insn.goTo
  repeat' first | with_reducible assumption | with_reducible apply Canon.go | with_reducible apply Canon.trap | with_reducible apply Canon.stop | with_reducible apply Canon.iteD | with_reducible apply Canon.ite | split | dsimp only

theorem Insn.jmp_canon {vt : Inv}  : ∀ o m k, Canon vt m → Canon vt (((Insn.jmp ) : Insn).run o m k).chip := by
  intro o m k h0
  unfold Insn.jmp
  repeat' first | with_reducible assumption | with_reducible apply Insn.goTo_canon | with_reducible apply Canon.go | with_reducible apply Canon.trap | with_reducible apply Canon.stop | with_reducible apply Canon.iteD | intro _ | dsimp only

theorem Insn.bcond_canon {vt : Inv}  : ∀ o m k, Canon vt m → Canon vt (((Insn.bcond ) : Insn).run o m k).chip := by
  intro o m k h0
  unfold Insn.bcond
  repeat' first | with_reducible assumption | with_reducible apply Insn.goTo_canon | with_reducible apply Canon.go | with_reducible apply Canon.trap | with_reducible apply Canon.stop | with_reducible apply Canon.iteD | intro _ | with_reducible apply Canon.ite | split | dsimp only

theorem Insn.call_canon {vt : Inv} : ∀ o m k, Canon vt m → Canon vt (Insn.call.run o m k).chip := by
  intro o m k h0
  unfold Insn.call
  dsimp only
  split
  · rename_i m1 k1 e
    have h := congrArg Done.chip e
    exact (show _ = m1 from h) ▸ Insn.goTo_canon h0
  · exact Insn.goTo_canon h0

theorem Insn.ret_canon {vt : Inv}  : ∀ o m k, Canon vt m → Canon vt (((Insn.ret ) : Insn).run o m k).chip := by
  intro o m k h0
  unfold Insn.ret
  repeat' first | with_reducible assumption | with_reducible apply Insn.goTo_canon | with_reducible apply Canon.go | with_reducible apply Canon.trap | with_reducible apply Canon.stop | with_reducible apply Canon.iteD | intro _ | with_reducible apply Canon.ite | split | dsimp only

theorem Insn.push_canon {vt : Inv}  : ∀ o m k, Canon vt m → Canon vt (((Insn.push ) : Insn).run o m k).chip := by
  intro o m k h0
  unfold Insn.push
  repeat' first | with_reducible assumption | with_reducible apply Canon.go | with_reducible apply Canon.trap | with_reducible apply Canon.stop | with_reducible apply Canon.iteD | intro _ | with_reducible apply Canon.ite | split | dsimp only

theorem Insn.pop_canon {vt : Inv} {f : Bool → Bool → Bool} : ∀ o m k, Canon vt m → Canon vt (((Insn.pop f) : Insn).run o m k).chip := by
  intro o m k h0
  unfold Insn.pop
  repeat' first | with_reducible assumption | with_reducible apply Canon.go | with_reducible apply Canon.trap | with_reducible apply Canon.stop | with_reducible apply Canon.iteD | intro _ | split | with_reducible refine Canon.snd (by assumption) ?_ | with_reducible refine Canon.fst (by assumption) ?_ | with_reducible refine Canon.mid (by assumption) ?_ | with_reducible refine Canon.thd (by assumption) ?_ | dsimp only

theorem Insn.popAnd_canon {vt : Inv}  : ∀ o m k, Canon vt m → Canon vt (((Insn.popAnd ) : Insn).run o m k).chip := by
  intro o m k h0
  unfold Insn.popAnd
  repeat' first | with_reducible assumption | with_reducible apply Insn.pop_canon | with_reducible apply Canon.go | with_reducible apply Canon.trap | with_reducible apply Canon.stop | with_reducible apply Canon.iteD | intro _ | dsimp only

theorem Insn.popOr_canon {vt : Inv}  : ∀ o m k, Canon vt m → Canon vt (((Insn.popOr ) : Insn).run o m k).chip := by
  intro o m k h0
  unfold Insn.popOr
  repeat' first | with_reducible assumption | with_reducible apply Insn.pop_canon | with_reducible apply Canon.go | with_reducible apply Canon.trap | with_reducible apply Canon.stop | with_reducible apply Canon.iteD | intro _ | dsimp only

theorem Insn.popXor_canon {vt : Inv}  : ∀ o m k, Canon vt m → Canon vt (((Insn.popXor ) : Insn).run o m k).chip := by
  intro o m k h0
  unfold Insn.popXor
  repeat' first | with_reducible assumption | with_reducible apply Insn.pop_canon | with_reducible apply Canon.go | with_reducible apply Canon.trap | with_reducible apply Canon.stop | with_reducible apply Canon.iteD | intro _ | dsimp only

theorem Insn.popAndn_canon {vt : Inv}  : ∀ o m k, Canon vt m → Canon vt (((Insn.popAndn ) : Insn).run o m k).chip := by
  intro o m k h0
  unfold Insn.popAndn
  repeat' first | with_reducible assumption | with_reducible apply Insn.pop_canon | with_reducible apply Canon.go | with_reducible apply Canon.trap | with_reducible apply Canon.stop | with_reducible apply Canon.iteD | intro _ | dsimp only

theorem Insn.popLd_canon {vt : Inv}  : ∀ o m k, Canon vt m → Canon vt (((Insn.popLd ) : Insn).run o m k).chip := by
  intro o m k h0
  unfold Insn.popLd
  repeat' first | with_reducible assumption | with_reducible apply Insn.pop_canon | with_reducible apply Canon.go | with_reducible apply Canon.trap | with_reducible apply Canon.stop | with_reducible apply Canon.iteD | intro _ | dsimp only

theorem Insn.drop_canon {vt : Inv}  : ∀ o m k, Canon vt m → Canon vt (((Insn.drop ) : Insn).run o m k).chip := by
  intro o m k h0
  unfold Insn.drop
  repeat' first | with_reducible assumption | with_reducible apply Insn.pop_canon | with_reducible apply Canon.go | with_reducible apply Canon.trap | with_reducible apply Canon.stop | with_reducible apply Canon.iteD | intro _ | dsimp only

theorem Insn.edge_canon {vt : Inv} {f : Bool → Bool → Bool} : ∀ o m k, Canon vt m → Canon vt (((Insn.edge f) : Insn).run o m k).chip := by
  intro o m k h0
  unfold Insn.edge
  repeat' first | with_reducible assumption | with_reducible apply Chip.setDataBit_canon | with_reducible apply Canon.go | with_reducible apply Canon.trap | with_reducible apply Canon.stop | with_reducible apply Canon.iteD | intro _ | split | with_reducible refine Canon.snd (by assumption) ?_ | with_reducible refine Canon.fst (by assumption) ?_ | with_reducible refine Canon.mid (by assumption) ?_ | with_reducible refine Canon.thd (by assumption) ?_ | dsimp only

theorem Insn.edgr_canon {vt : Inv}  : ∀ o m k, Canon vt m → Canon vt (((Insn.edgr ) : Insn).run o m k).chip := by
  intro o m k h0
  unfold Insn.edgr
  repeat' first | with_reducible assumption | with_reducible apply Insn.edge_canon | with_reducible apply Canon.go | with_reducible apply Canon.trap | with_reducible apply Canon.stop | with_reducible apply Canon.iteD | intro _ | dsimp only

theorem Insn.edgf_canon {vt : Inv}  : ∀ o m k, Canon vt m → Canon vt (((Insn.edgf ) : Insn).run o m k).chip := by
  intro o m k h0
  unfold Insn.edgf
  repeat' first | with_reducible assumption | with_reducible apply Insn.edge_canon | with_reducible apply Canon.go | with_reducible apply Canon.trap | with_reducible apply Canon.stop | with_reducible apply Canon.iteD | intro _ | dsimp only

theorem Insn.edgb_canon {vt : Inv}  : ∀ o m k, Canon vt m → Canon vt (((Insn.edgb ) : Insn).run o m k).chip := by
  intro o m k h0
  unfold Insn.edgb
  repeat' first | with_reducible assumption | with_reducible apply Insn.edge_canon | with_reducible apply Canon.go | with_reducible apply Canon.trap | with_reducible apply Canon.stop | with_reducible apply Canon.iteD | intro _ | dsimp only

/-! ### WasaWord -/

theorem Insn.wld_canon {vt : Inv}  : ∀ o m k, Canon vt m → Canon vt (((Insn.wld ) : Insn).run o m k).chip := by
  intro o m k h0
  unfold Insn.wld
  repeat' first | with_reducible assumption | with_reducible apply Canon.go | with_reducible apply Canon.trap | with_reducible apply Canon.stop | with_reducible apply Canon.iteD | intro _ | split | with_reducible refine Canon.snd (by assumption) ?_ | with_reducible refine Canon.fst (by assumption) ?_ | with_reducible refine Canon.mid (by assumption) ?_ | with_reducible refine Canon.thd (by assumption) ?_ | dsimp only

theorem Insn.wst_canon {vt : Inv}  : ∀ o m k, Canon vt m → Canon vt (((Insn.wst ) : Insn).run o m k).chip := by
  intro o m k h0
  unfold Insn.wst
  repeat' first | with_reducible assumption | with_reducible apply Chip.save_canon | with_reducible apply Canon.go | with_reducible apply Canon.trap | with_reducible apply Canon.stop | with_reducible apply Canon.iteD | intro _ | split | with_reducible refine Canon.snd (by assumption) ?_ | with_reducible refine Canon.fst (by assumption) ?_ | with_reducible refine Canon.mid (by assumption) ?_ | with_reducible refine Canon.thd (by assumption) ?_ | dsimp only

theorem Insn.wli_canon {vt : Inv}  : ∀ o m k, Canon vt m → Canon vt (((Insn.wli ) : Insn).run o m k).chip := by
  intro o m k h0
  unfold Insn.wli
  repeat' first | with_reducible assumption | with_reducible apply Insn.alu_canon | with_reducible apply Canon.go | with_reducible apply Canon.trap | with_reducible apply Canon.stop | with_reducible apply Canon.iteD | intro _ | dsimp only

theorem Insn.wop_canon {vt : Inv} {clocks : Nat} {f : DWord → DWord → IntRes} : ∀ o m k, Canon vt m → Canon vt (((Insn.wop clocks f) : Insn).run o m k).chip := by
  intro o m k h0
  unfold Insn.wop
  repeat' first | with_reducible assumption | with_reducible apply Insn.alu_canon | with_reducible apply Canon.go | with_reducible apply Canon.trap | with_reducible apply Canon.stop | with_reducible apply Canon.iteD | intro _ | dsimp only

theorem Insn.wadd_canon {vt : Inv}  : ∀ o m k, Canon vt m → Canon vt (((Insn.wadd ) : Insn).run o m k).chip := by
  intro o m k h0
  unfold Insn.wadd
  repeat' first | with_reducible assumption | with_reducible apply Insn.wop_canon | with_reducible apply Canon.go | with_reducible apply Canon.trap | with_reducible apply Canon.stop | with_reducible apply Canon.iteD | intro _ | dsimp only

theorem Insn.wsub_canon {vt : Inv}  : ∀ o m k, Canon vt m → Canon vt (((Insn.wsub ) : Insn).run o m k).chip := by
  intro o m k h0
  unfold Insn.wsub
  repeat' first | with_reducible assumption | with_reducible apply Insn.wop_canon | with_reducible apply Canon.go | with_reducible apply Canon.trap | with_reducible apply Canon.stop | with_reducible apply Canon.iteD | intro _ | dsimp only

theorem Insn.wmul_canon {vt : Inv}  : ∀ o m k, Canon vt m → Canon vt (((Insn.wmul ) : Insn).run o m k).chip := by
  intro o m k h0
  unfold Insn.wmul
  repeat' first | with_reducible assumption | with_reducible apply Insn.wop_canon | with_reducible apply Canon.go | with_reducible apply Canon.trap | with_reducible apply Canon.stop | with_reducible apply Canon.iteD | intro _ | dsimp only

theorem Insn.wdiv_canon {vt : Inv}  : ∀ o m k, Canon vt m → Canon vt (((Insn.wdiv ) : Insn).run o m k).chip := by
  intro o m k h0
  unfold Insn.wdiv
  repeat' first | with_reducible assumption | with_reducible apply Insn.wop_canon | with_reducible apply Canon.go | with_reducible apply Canon.trap | with_reducible apply Canon.stop | with_reducible apply Canon.iteD | intro _ | dsimp only

theorem Insn.wrem_canon {vt : Inv}  : ∀ o m k, Canon vt m → Canon vt (((Insn.wrem ) : Insn).run o m k).chip := by
  intro o m k h0
  unfold Insn.wrem
  repeat' first | with_reducible assumption | with_reducible apply Insn.wop_canon | with_reducible apply Canon.go | with_reducible apply Canon.trap | with_reducible apply Canon.stop | with_reducible apply Canon.iteD | intro _ | dsimp only

theorem Insn.wand_canon {vt : Inv}  : ∀ o m k, Canon vt m → Canon vt (((Insn.wand ) : Insn).run o m k).chip := by
  intro o m k h0
  unfold Insn.wand
  repeat' first | with_reducible assumption | with_reducible apply Insn.wop_canon | with_reducible apply Canon.go | with_reducible apply Canon.trap | with_reducible apply Canon.stop | with_reducible apply Canon.iteD | intro _ | dsimp only

theorem Insn.wor_canon {vt : Inv}  : ∀ o m k, Canon vt m → Canon vt (((Insn.wor ) : Insn).run o m k).chip := by
  intro o m k h0
  unfold Insn.wor
  repeat' first | with_reducible assumption | with_reducible apply Insn.wop_canon | with_reducible apply Canon.go | with_reducible apply Canon.trap | with_reducible apply Canon.stop | with_reducible apply Canon.iteD | intro _ | dsimp only

theorem Insn.wxor_canon {vt : Inv}  : ∀ o m k, Canon vt m → Canon vt (((Insn.wxor ) : Insn).run o m k).chip := by
  intro o m k h0
  unfold Insn.wxor
  repeat' first | with_reducible assumption | with_reducible apply Insn.wop_canon | with_reducible apply Canon.go | with_reducible apply Canon.trap | with_reducible apply Canon.stop | with_reducible apply Canon.iteD | intro _ | dsimp only

theorem Insn.wnot_canon {vt : Inv}  : ∀ o m k, Canon vt m → Canon vt (((Insn.wnot ) : Insn).run o m k).chip := by
  intro o m k h0
  unfold Insn.wnot
  repeat' first | with_reducible assumption | with_reducible apply Insn.wop_canon | with_reducible apply Canon.go | with_reducible apply Canon.trap | with_reducible apply Canon.stop | with_reducible apply Canon.iteD | intro _ | dsimp only

theorem Insn.wneg_canon {vt : Inv}  : ∀ o m k, Canon vt m → Canon vt (((Insn.wneg ) : Insn).run o m k).chip := by
  intro o m k h0
  unfold Insn.wneg
  repeat' first | with_reducible assumption | with_reducible apply Insn.wop_canon | with_reducible apply Canon.go | with_reducible apply Canon.trap | with_reducible apply Canon.stop | with_reducible apply Canon.iteD | intro _ | dsimp only

theorem Insn.wshl_canon {vt : Inv}  : ∀ o m k, Canon vt m → Canon vt (((Insn.wshl ) : Insn).run o m k).chip := by
  intro o m k h0
  unfold Insn.wshl
  repeat' first | with_reducible assumption | with_reducible apply Insn.wop_canon | with_reducible apply Canon.go | with_reducible apply Canon.trap | with_reducible apply Canon.stop | with_reducible apply Canon.iteD | intro _ | dsimp only

theorem Insn.wshr_canon {vt : Inv}  : ∀ o m k, Canon vt m → Canon vt (((Insn.wshr ) : Insn).run o m k).chip := by
  intro o m k h0
  unfold Insn.wshr
  repeat' first | with_reducible assumption | with_reducible apply Insn.wop_canon | with_reducible apply Canon.go | with_reducible apply Canon.trap | with_reducible apply Canon.stop | with_reducible apply Canon.iteD | intro _ | dsimp only

theorem Insn.wsar_canon {vt : Inv}  : ∀ o m k, Canon vt m → Canon vt (((Insn.wsar ) : Insn).run o m k).chip := by
  intro o m k h0
  unfold Insn.wsar
  repeat' first | with_reducible assumption | with_reducible apply Insn.wop_canon | with_reducible apply Canon.go | with_reducible apply Canon.trap | with_reducible apply Canon.stop | with_reducible apply Canon.iteD | intro _ | dsimp only

theorem Insn.wcmp_canon {vt : Inv}  : ∀ o m k, Canon vt m → Canon vt (((Insn.wcmp ) : Insn).run o m k).chip := by
  intro o m k h0
  unfold Insn.wcmp
  repeat' first | with_reducible assumption | with_reducible apply Insn.alu_canon | with_reducible apply Canon.go | with_reducible apply Canon.trap | with_reducible apply Canon.stop | with_reducible apply Canon.iteD | intro _ | dsimp only

theorem Insn.wswap_canon {vt : Inv}  : ∀ o m k, Canon vt m → Canon vt (((Insn.wswap ) : Insn).run o m k).chip := by
  intro o m k h0
  unfold Insn.wswap
  repeat' first | with_reducible assumption | with_reducible apply Insn.alu_canon | with_reducible apply Canon.go | with_reducible apply Canon.trap | with_reducible apply Canon.stop | with_reducible apply Canon.iteD | intro _ | dsimp only

theorem Insn.wcopy_canon {vt : Inv}  : ∀ o m k, Canon vt m → Canon vt (((Insn.wcopy ) : Insn).run o m k).chip := by
  intro o m k h0
  unfold Insn.wcopy
  repeat' first | with_reducible assumption | with_reducible apply Insn.alu_canon | with_reducible apply Canon.go | with_reducible apply Canon.trap | with_reducible apply Canon.stop | with_reducible apply Canon.iteD | intro _ | dsimp only

theorem Insn.wmovg_canon {vt : Inv}  : ∀ o m k, Canon vt m → Canon vt (((Insn.wmovg ) : Insn).run o m k).chip := by
  intro o m k h0
  unfold Insn.wmovg
  repeat' first | with_reducible assumption | with_reducible apply Insn.alu_canon | with_reducible apply Canon.go | with_reducible apply Canon.trap | with_reducible apply Canon.stop | with_reducible apply Canon.iteD | intro _ | dsimp only

theorem Insn.gmovw_canon {vt : Inv}  : ∀ o m k, Canon vt m → Canon vt (((Insn.gmovw ) : Insn).run o m k).chip := by
  intro o m k h0
  unfold Insn.gmovw
  repeat' first | with_reducible assumption | with_reducible apply Insn.alu_canon | with_reducible apply Canon.go | with_reducible apply Canon.trap | with_reducible apply Canon.stop | with_reducible apply Canon.iteD | intro _ | dsimp only

/-! ### WasaInt -/

theorem Insn.int_canon {vt : Inv} {clocks : Nat} {f : DWord → DWord → IntRes} : ∀ o m k, Canon vt m → Canon vt (((Insn.int clocks f) : Insn).run o m k).chip := by
  intro o m k h0
  unfold Insn.int
  repeat' first | with_reducible assumption | with_reducible apply Insn.alu_canon | with_reducible apply Canon.go | with_reducible apply Canon.trap | with_reducible apply Canon.stop | with_reducible apply Canon.iteD | intro _ | dsimp only

theorem Insn.add_canon {vt : Inv}  : ∀ o m k, Canon vt m → Canon vt (((Insn.add ) : Insn).run o m k).chip := by
  intro o m k h0
  unfold Insn.add
  repeat' first | with_reducible assumption | with_reducible apply Insn.int_canon | with_reducible apply Canon.go | with_reducible apply Canon.trap | with_reducible apply Canon.stop | with_reducible apply Canon.iteD | intro _ | dsimp only

theorem Insn.sub_canon {vt : Inv}  : ∀ o m k, Canon vt m → Canon vt (((Insn.sub ) : Insn).run o m k).chip := by
  intro o m k h0
  unfold Insn.sub
  repeat' first | with_reducible assumption | with_reducible apply Insn.int_canon | with_reducible apply Canon.go | with_reducible apply Canon.trap | with_reducible apply Canon.stop | with_reducible apply Canon.iteD | intro _ | dsimp only

theorem Insn.andReg_canon {vt : Inv}  : ∀ o m k, Canon vt m → Canon vt (((Insn.andReg ) : Insn).run o m k).chip := by
  intro o m k h0
  unfold Insn.andReg
  repeat' first | with_reducible assumption | with_reducible apply Insn.int_canon | with_reducible apply Canon.go | with_reducible apply Canon.trap | with_reducible apply Canon.stop | with_reducible apply Canon.iteD | intro _ | dsimp only

theorem Insn.orReg_canon {vt : Inv}  : ∀ o m k, Canon vt m → Canon vt (((Insn.orReg ) : Insn).run o m k).chip := by
  intro o m k h0
  unfold Insn.orReg
  repeat' first | with_reducible assumption | with_reducible apply Insn.int_canon | with_reducible apply Canon.go | with_reducible apply Canon.trap | with_reducible apply Canon.stop | with_reducible apply Canon.iteD | intro _ | dsimp only

theorem Insn.xorReg_canon {vt : Inv}  : ∀ o m k, Canon vt m → Canon vt (((Insn.xorReg ) : Insn).run o m k).chip := by
  intro o m k h0
  unfold Insn.xorReg
  repeat' first | with_reducible assumption | with_reducible apply Insn.int_canon | with_reducible apply Canon.go | with_reducible apply Canon.trap | with_reducible apply Canon.stop | with_reducible apply Canon.iteD | intro _ | dsimp only

theorem Insn.andng_canon {vt : Inv}  : ∀ o m k, Canon vt m → Canon vt (((Insn.andng ) : Insn).run o m k).chip := by
  intro o m k h0
  unfold Insn.andng
  repeat' first | with_reducible assumption | with_reducible apply Insn.int_canon | with_reducible apply Canon.go | with_reducible apply Canon.trap | with_reducible apply Canon.stop | with_reducible apply Canon.iteD | intro _ | dsimp only

theorem Insn.shl_canon {vt : Inv}  : ∀ o m k, Canon vt m → Canon vt (((Insn.shl ) : Insn).run o m k).chip := by
  intro o m k h0
  unfold Insn.shl
  repeat' first | with_reducible assumption | with_reducible apply Insn.int_canon | with_reducible apply Canon.go | with_reducible apply Canon.trap | with_reducible apply Canon.stop | with_reducible apply Canon.iteD | intro _ | dsimp only

theorem Insn.shr_canon {vt : Inv}  : ∀ o m k, Canon vt m → Canon vt (((Insn.shr ) : Insn).run o m k).chip := by
  intro o m k h0
  unfold Insn.shr
  repeat' first | with_reducible assumption | with_reducible apply Insn.int_canon | with_reducible apply Canon.go | with_reducible apply Canon.trap | with_reducible apply Canon.stop | with_reducible apply Canon.iteD | intro _ | dsimp only

theorem Insn.sar_canon {vt : Inv}  : ∀ o m k, Canon vt m → Canon vt (((Insn.sar ) : Insn).run o m k).chip := by
  intro o m k h0
  unfold Insn.sar
  repeat' first | with_reducible assumption | with_reducible apply Insn.int_canon | with_reducible apply Canon.go | with_reducible apply Canon.trap | with_reducible apply Canon.stop | with_reducible apply Canon.iteD | intro _ | dsimp only

theorem Insn.rol_canon {vt : Inv}  : ∀ o m k, Canon vt m → Canon vt (((Insn.rol ) : Insn).run o m k).chip := by
  intro o m k h0
  unfold Insn.rol
  repeat' first | with_reducible assumption | with_reducible apply Insn.int_canon | with_reducible apply Canon.go | with_reducible apply Canon.trap | with_reducible apply Canon.stop | with_reducible apply Canon.iteD | intro _ | dsimp only

theorem Insn.mul_canon {vt : Inv}  : ∀ o m k, Canon vt m → Canon vt (((Insn.mul ) : Insn).run o m k).chip := by
  intro o m k h0
  unfold Insn.mul
  repeat' first | with_reducible assumption | with_reducible apply Insn.int_canon | with_reducible apply Canon.go | with_reducible apply Canon.trap | with_reducible apply Canon.stop | with_reducible apply Canon.iteD | intro _ | dsimp only

theorem Insn.mulhs_canon {vt : Inv}  : ∀ o m k, Canon vt m → Canon vt (((Insn.mulhs ) : Insn).run o m k).chip := by
  intro o m k h0
  unfold Insn.mulhs
  repeat' first | with_reducible assumption | with_reducible apply Insn.int_canon | with_reducible apply Canon.go | with_reducible apply Canon.trap | with_reducible apply Canon.stop | with_reducible apply Canon.iteD | intro _ | dsimp only

theorem Insn.mulhu_canon {vt : Inv}  : ∀ o m k, Canon vt m → Canon vt (((Insn.mulhu ) : Insn).run o m k).chip := by
  intro o m k h0
  unfold Insn.mulhu
  repeat' first | with_reducible assumption | with_reducible apply Insn.int_canon | with_reducible apply Canon.go | with_reducible apply Canon.trap | with_reducible apply Canon.stop | with_reducible apply Canon.iteD | intro _ | dsimp only

theorem Insn.div_canon {vt : Inv}  : ∀ o m k, Canon vt m → Canon vt (((Insn.div ) : Insn).run o m k).chip := by
  intro o m k h0
  unfold Insn.div
  repeat' first | with_reducible assumption | with_reducible apply Insn.int_canon | with_reducible apply Canon.go | with_reducible apply Canon.trap | with_reducible apply Canon.stop | with_reducible apply Canon.iteD | intro _ | dsimp only

theorem Insn.divu_canon {vt : Inv}  : ∀ o m k, Canon vt m → Canon vt (((Insn.divu ) : Insn).run o m k).chip := by
  intro o m k h0
  unfold Insn.divu
  repeat' first | with_reducible assumption | with_reducible apply Insn.int_canon | with_reducible apply Canon.go | with_reducible apply Canon.trap | with_reducible apply Canon.stop | with_reducible apply Canon.iteD | intro _ | dsimp only

theorem Insn.rem_canon {vt : Inv}  : ∀ o m k, Canon vt m → Canon vt (((Insn.rem ) : Insn).run o m k).chip := by
  intro o m k h0
  unfold Insn.rem
  repeat' first | with_reducible assumption | with_reducible apply Insn.int_canon | with_reducible apply Canon.go | with_reducible apply Canon.trap | with_reducible apply Canon.stop | with_reducible apply Canon.iteD | intro _ | dsimp only

theorem Insn.remu_canon {vt : Inv}  : ∀ o m k, Canon vt m → Canon vt (((Insn.remu ) : Insn).run o m k).chip := by
  intro o m k h0
  unfold Insn.remu
  repeat' first | with_reducible assumption | with_reducible apply Insn.int_canon | with_reducible apply Canon.go | with_reducible apply Canon.trap | with_reducible apply Canon.stop | with_reducible apply Canon.iteD | intro _ | dsimp only

theorem Insn.min_canon {vt : Inv}  : ∀ o m k, Canon vt m → Canon vt (((Insn.min ) : Insn).run o m k).chip := by
  intro o m k h0
  unfold Insn.min
  repeat' first | with_reducible assumption | with_reducible apply Insn.int_canon | with_reducible apply Canon.go | with_reducible apply Canon.trap | with_reducible apply Canon.stop | with_reducible apply Canon.iteD | intro _ | dsimp only

theorem Insn.max_canon {vt : Inv}  : ∀ o m k, Canon vt m → Canon vt (((Insn.max ) : Insn).run o m k).chip := by
  intro o m k h0
  unfold Insn.max
  repeat' first | with_reducible assumption | with_reducible apply Insn.int_canon | with_reducible apply Canon.go | with_reducible apply Canon.trap | with_reducible apply Canon.stop | with_reducible apply Canon.iteD | intro _ | dsimp only

theorem Insn.minu_canon {vt : Inv}  : ∀ o m k, Canon vt m → Canon vt (((Insn.minu ) : Insn).run o m k).chip := by
  intro o m k h0
  unfold Insn.minu
  repeat' first | with_reducible assumption | with_reducible apply Insn.int_canon | with_reducible apply Canon.go | with_reducible apply Canon.trap | with_reducible apply Canon.stop | with_reducible apply Canon.iteD | intro _ | dsimp only

theorem Insn.maxu_canon {vt : Inv}  : ∀ o m k, Canon vt m → Canon vt (((Insn.maxu ) : Insn).run o m k).chip := by
  intro o m k h0
  unfold Insn.maxu
  repeat' first | with_reducible assumption | with_reducible apply Insn.int_canon | with_reducible apply Canon.go | with_reducible apply Canon.trap | with_reducible apply Canon.stop | with_reducible apply Canon.iteD | intro _ | dsimp only

theorem Insn.cmp_canon {vt : Inv}  : ∀ o m k, Canon vt m → Canon vt (((Insn.cmp ) : Insn).run o m k).chip := by
  intro o m k h0
  unfold Insn.cmp
  repeat' first | with_reducible assumption | with_reducible apply Insn.alu_canon | with_reducible apply Canon.go | with_reducible apply Canon.trap | with_reducible apply Canon.stop | with_reducible apply Canon.iteD | intro _ | dsimp only

theorem Insn.tst_canon {vt : Inv}  : ∀ o m k, Canon vt m → Canon vt (((Insn.tst ) : Insn).run o m k).chip := by
  intro o m k h0
  unfold Insn.tst
  repeat' first | with_reducible assumption | with_reducible apply Insn.alu_canon | with_reducible apply Canon.go | with_reducible apply Canon.trap | with_reducible apply Canon.stop | with_reducible apply Canon.iteD | intro _ | dsimp only

theorem Insn.sel_canon {vt : Inv}  : ∀ o m k, Canon vt m → Canon vt (((Insn.sel ) : Insn).run o m k).chip := by
  intro o m k h0
  unfold Insn.sel
  repeat' first | with_reducible assumption | with_reducible apply Insn.alu_canon | with_reducible apply Canon.go | with_reducible apply Canon.trap | with_reducible apply Canon.stop | with_reducible apply Canon.iteD | intro _ | with_reducible apply Canon.ite | split | dsimp only

theorem Insn.mov_canon {vt : Inv}  : ∀ o m k, Canon vt m → Canon vt (((Insn.mov ) : Insn).run o m k).chip := by
  intro o m k h0
  unfold Insn.mov
  repeat' first | with_reducible assumption | with_reducible apply Insn.alu_canon | with_reducible apply Canon.go | with_reducible apply Canon.trap | with_reducible apply Canon.stop | with_reducible apply Canon.iteD | intro _ | dsimp only

theorem Insn.not_canon {vt : Inv}  : ∀ o m k, Canon vt m → Canon vt (((Insn.not ) : Insn).run o m k).chip := by
  intro o m k h0
  unfold Insn.not
  repeat' first | with_reducible assumption | with_reducible apply Insn.alu_canon | with_reducible apply Canon.go | with_reducible apply Canon.trap | with_reducible apply Canon.stop | with_reducible apply Canon.iteD | intro _ | dsimp only

theorem Insn.neg_canon {vt : Inv}  : ∀ o m k, Canon vt m → Canon vt (((Insn.neg ) : Insn).run o m k).chip := by
  intro o m k h0
  unfold Insn.neg
  repeat' first | with_reducible assumption | with_reducible apply Insn.alu_canon | with_reducible apply Canon.go | with_reducible apply Canon.trap | with_reducible apply Canon.stop | with_reducible apply Canon.iteD | intro _ | dsimp only

theorem Insn.setc_canon {vt : Inv}  : ∀ o m k, Canon vt m → Canon vt (((Insn.setc ) : Insn).run o m k).chip := by
  intro o m k h0
  unfold Insn.setc
  repeat' first | with_reducible assumption | with_reducible apply Insn.alu_canon | with_reducible apply Canon.go | with_reducible apply Canon.trap | with_reducible apply Canon.stop | with_reducible apply Canon.iteD | intro _ | with_reducible apply Canon.ite | split | dsimp only

theorem Insn.addi_canon {vt : Inv}  : ∀ o m k, Canon vt m → Canon vt (((Insn.addi ) : Insn).run o m k).chip := by
  intro o m k h0
  unfold Insn.addi
  repeat' first | with_reducible assumption | with_reducible apply Insn.alu_canon | with_reducible apply Canon.go | with_reducible apply Canon.trap | with_reducible apply Canon.stop | with_reducible apply Canon.iteD | intro _ | dsimp only

theorem Insn.lih_canon {vt : Inv}  : ∀ o m k, Canon vt m → Canon vt (((Insn.lih ) : Insn).run o m k).chip := by
  intro o m k h0
  unfold Insn.lih
  repeat' first | with_reducible assumption | with_reducible apply Insn.alu_canon | with_reducible apply Canon.go | with_reducible apply Canon.trap | with_reducible apply Canon.stop | with_reducible apply Canon.iteD | intro _ | dsimp only

theorem Insn.loadG_canon {vt : Inv} {n : Nat} {signed : Bool} : ∀ o m k, Canon vt m → Canon vt (((Insn.loadG n signed) : Insn).run o m k).chip := by
  intro o m k h0
  unfold Insn.loadG
  repeat' first | with_reducible assumption | with_reducible apply Canon.go | with_reducible apply Canon.trap | with_reducible apply Canon.stop | with_reducible apply Canon.iteD | intro _ | split | with_reducible refine Canon.snd (by assumption) ?_ | with_reducible refine Canon.fst (by assumption) ?_ | with_reducible refine Canon.mid (by assumption) ?_ | with_reducible refine Canon.thd (by assumption) ?_ | dsimp only

theorem Insn.storeG_canon {vt : Inv} {n : Nat} : ∀ o m k, Canon vt m → Canon vt (((Insn.storeG n) : Insn).run o m k).chip := by
  intro o m k h0
  unfold Insn.storeG
  repeat' first | with_reducible assumption | with_reducible apply Chip.save_canon | with_reducible apply Canon.go | with_reducible apply Canon.trap | with_reducible apply Canon.stop | with_reducible apply Canon.iteD | intro _ | split | with_reducible refine Canon.snd (by assumption) ?_ | with_reducible refine Canon.fst (by assumption) ?_ | with_reducible refine Canon.mid (by assumption) ?_ | with_reducible refine Canon.thd (by assumption) ?_ | dsimp only

theorem Insn.lb_canon {vt : Inv}  : ∀ o m k, Canon vt m → Canon vt (((Insn.lb ) : Insn).run o m k).chip := by
  intro o m k h0
  unfold Insn.lb
  repeat' first | with_reducible assumption | with_reducible apply Insn.loadG_canon | with_reducible apply Canon.go | with_reducible apply Canon.trap | with_reducible apply Canon.stop | with_reducible apply Canon.iteD | intro _ | dsimp only

theorem Insn.lbu_canon {vt : Inv}  : ∀ o m k, Canon vt m → Canon vt (((Insn.lbu ) : Insn).run o m k).chip := by
  intro o m k h0
  unfold Insn.lbu
  repeat' first | with_reducible assumption | with_reducible apply Insn.loadG_canon | with_reducible apply Canon.go | with_reducible apply Canon.trap | with_reducible apply Canon.stop | with_reducible apply Canon.iteD | intro _ | dsimp only

theorem Insn.lh_canon {vt : Inv}  : ∀ o m k, Canon vt m → Canon vt (((Insn.lh ) : Insn).run o m k).chip := by
  intro o m k h0
  unfold Insn.lh
  repeat' first | with_reducible assumption | with_reducible apply Insn.loadG_canon | with_reducible apply Canon.go | with_reducible apply Canon.trap | with_reducible apply Canon.stop | with_reducible apply Canon.iteD | intro _ | dsimp only

theorem Insn.lhu_canon {vt : Inv}  : ∀ o m k, Canon vt m → Canon vt (((Insn.lhu ) : Insn).run o m k).chip := by
  intro o m k h0
  unfold Insn.lhu
  repeat' first | with_reducible assumption | with_reducible apply Insn.loadG_canon | with_reducible apply Canon.go | with_reducible apply Canon.trap | with_reducible apply Canon.stop | with_reducible apply Canon.iteD | intro _ | dsimp only

theorem Insn.lw_canon {vt : Inv}  : ∀ o m k, Canon vt m → Canon vt (((Insn.lw ) : Insn).run o m k).chip := by
  intro o m k h0
  unfold Insn.lw
  repeat' first | with_reducible assumption | with_reducible apply Insn.loadG_canon | with_reducible apply Canon.go | with_reducible apply Canon.trap | with_reducible apply Canon.stop | with_reducible apply Canon.iteD | intro _ | dsimp only

theorem Insn.lwu_canon {vt : Inv}  : ∀ o m k, Canon vt m → Canon vt (((Insn.lwu ) : Insn).run o m k).chip := by
  intro o m k h0
  unfold Insn.lwu
  repeat' first | with_reducible assumption | with_reducible apply Insn.loadG_canon | with_reducible apply Canon.go | with_reducible apply Canon.trap | with_reducible apply Canon.stop | with_reducible apply Canon.iteD | intro _ | dsimp only

theorem Insn.ldw_canon {vt : Inv}  : ∀ o m k, Canon vt m → Canon vt (((Insn.ldw ) : Insn).run o m k).chip := by
  intro o m k h0
  unfold Insn.ldw
  repeat' first | with_reducible assumption | with_reducible apply Insn.loadG_canon | with_reducible apply Canon.go | with_reducible apply Canon.trap | with_reducible apply Canon.stop | with_reducible apply Canon.iteD | intro _ | dsimp only

theorem Insn.sb_canon {vt : Inv}  : ∀ o m k, Canon vt m → Canon vt (((Insn.sb ) : Insn).run o m k).chip := by
  intro o m k h0
  unfold Insn.sb
  repeat' first | with_reducible assumption | with_reducible apply Insn.storeG_canon | with_reducible apply Canon.go | with_reducible apply Canon.trap | with_reducible apply Canon.stop | with_reducible apply Canon.iteD | intro _ | dsimp only

theorem Insn.sh_canon {vt : Inv}  : ∀ o m k, Canon vt m → Canon vt (((Insn.sh ) : Insn).run o m k).chip := by
  intro o m k h0
  unfold Insn.sh
  repeat' first | with_reducible assumption | with_reducible apply Insn.storeG_canon | with_reducible apply Canon.go | with_reducible apply Canon.trap | with_reducible apply Canon.stop | with_reducible apply Canon.iteD | intro _ | dsimp only

theorem Insn.sw_canon {vt : Inv}  : ∀ o m k, Canon vt m → Canon vt (((Insn.sw ) : Insn).run o m k).chip := by
  intro o m k h0
  unfold Insn.sw
  repeat' first | with_reducible assumption | with_reducible apply Insn.storeG_canon | with_reducible apply Canon.go | with_reducible apply Canon.trap | with_reducible apply Canon.stop | with_reducible apply Canon.iteD | intro _ | dsimp only

theorem Insn.sdw_canon {vt : Inv}  : ∀ o m k, Canon vt m → Canon vt (((Insn.sdw ) : Insn).run o m k).chip := by
  intro o m k h0
  unfold Insn.sdw
  repeat' first | with_reducible assumption | with_reducible apply Insn.storeG_canon | with_reducible apply Canon.go | with_reducible apply Canon.trap | with_reducible apply Canon.stop | with_reducible apply Canon.iteD | intro _ | dsimp only

/-! ### WasaFp -/

theorem Insn.fpDone_canon {vt : Inv} {o : Op} {m : Chip} {k : Core} {flags : Nat} {f : Core → Core} (h0 : Canon vt m) : Canon vt (Insn.fpDone o m k flags f).chip := by
  unfold Insn.fpDone
  repeat' first | with_reducible assumption | with_reducible apply Canon.go | with_reducible apply Canon.trap | with_reducible apply Canon.stop | with_reducible apply Canon.iteD | with_reducible apply Canon.ite | split | dsimp only

theorem Insn.fpOp_canon {vt : Inv} {clocks : Nat} {zs : Nat} {f : BitVec 2 → DWord → DWord → DWord → Fp.Res} : ∀ o m k, Canon vt m → Canon vt (((Insn.fpOp clocks zs f) : Insn).run o m k).chip := by
  intro o m k h0
  unfold Insn.fpOp
  repeat' first | with_reducible assumption | with_reducible apply Insn.fpDone_canon | with_reducible apply Canon.go | with_reducible apply Canon.trap | with_reducible apply Canon.stop | with_reducible apply Canon.iteD | intro _ | dsimp only

theorem Insn.fadd_canon {vt : Inv}  : ∀ o m k, Canon vt m → Canon vt (((Insn.fadd ) : Insn).run o m k).chip := by
  intro o m k h0
  unfold Insn.fadd
  repeat' first | with_reducible assumption | with_reducible apply Insn.fpOp_canon | with_reducible apply Canon.go | with_reducible apply Canon.trap | with_reducible apply Canon.stop | with_reducible apply Canon.iteD | intro _ | dsimp only

theorem Insn.fsub_canon {vt : Inv}  : ∀ o m k, Canon vt m → Canon vt (((Insn.fsub ) : Insn).run o m k).chip := by
  intro o m k h0
  unfold Insn.fsub
  repeat' first | with_reducible assumption | with_reducible apply Insn.fpOp_canon | with_reducible apply Canon.go | with_reducible apply Canon.trap | with_reducible apply Canon.stop | with_reducible apply Canon.iteD | intro _ | dsimp only

theorem Insn.fmul_canon {vt : Inv}  : ∀ o m k, Canon vt m → Canon vt (((Insn.fmul ) : Insn).run o m k).chip := by
  intro o m k h0
  unfold Insn.fmul
  repeat' first | with_reducible assumption | with_reducible apply Insn.fpOp_canon | with_reducible apply Canon.go | with_reducible apply Canon.trap | with_reducible apply Canon.stop | with_reducible apply Canon.iteD | intro _ | dsimp only

theorem Insn.fdiv_canon {vt : Inv}  : ∀ o m k, Canon vt m → Canon vt (((Insn.fdiv ) : Insn).run o m k).chip := by
  intro o m k h0
  unfold Insn.fdiv
  repeat' first | with_reducible assumption | with_reducible apply Insn.fpOp_canon | with_reducible apply Canon.go | with_reducible apply Canon.trap | with_reducible apply Canon.stop | with_reducible apply Canon.iteD | intro _ | dsimp only

theorem Insn.fsqrt_canon {vt : Inv}  : ∀ o m k, Canon vt m → Canon vt (((Insn.fsqrt ) : Insn).run o m k).chip := by
  intro o m k h0
  unfold Insn.fsqrt
  repeat' first | with_reducible assumption | with_reducible apply Insn.fpOp_canon | with_reducible apply Canon.go | with_reducible apply Canon.trap | with_reducible apply Canon.stop | with_reducible apply Canon.iteD | intro _ | dsimp only

theorem Insn.fmin_canon {vt : Inv}  : ∀ o m k, Canon vt m → Canon vt (((Insn.fmin ) : Insn).run o m k).chip := by
  intro o m k h0
  unfold Insn.fmin
  repeat' first | with_reducible assumption | with_reducible apply Insn.fpOp_canon | with_reducible apply Canon.go | with_reducible apply Canon.trap | with_reducible apply Canon.stop | with_reducible apply Canon.iteD | intro _ | dsimp only

theorem Insn.fmax_canon {vt : Inv}  : ∀ o m k, Canon vt m → Canon vt (((Insn.fmax ) : Insn).run o m k).chip := by
  intro o m k h0
  unfold Insn.fmax
  repeat' first | with_reducible assumption | with_reducible apply Insn.fpOp_canon | with_reducible apply Canon.go | with_reducible apply Canon.trap | with_reducible apply Canon.stop | with_reducible apply Canon.iteD | intro _ | dsimp only

theorem Insn.fabs_canon {vt : Inv}  : ∀ o m k, Canon vt m → Canon vt (((Insn.fabs ) : Insn).run o m k).chip := by
  intro o m k h0
  unfold Insn.fabs
  repeat' first | with_reducible assumption | with_reducible apply Insn.fpOp_canon | with_reducible apply Canon.go | with_reducible apply Canon.trap | with_reducible apply Canon.stop | with_reducible apply Canon.iteD | intro _ | dsimp only

theorem Insn.fneg_canon {vt : Inv}  : ∀ o m k, Canon vt m → Canon vt (((Insn.fneg ) : Insn).run o m k).chip := by
  intro o m k h0
  unfold Insn.fneg
  repeat' first | with_reducible assumption | with_reducible apply Insn.fpOp_canon | with_reducible apply Canon.go | with_reducible apply Canon.trap | with_reducible apply Canon.stop | with_reducible apply Canon.iteD | intro _ | dsimp only

theorem Insn.fmov_canon {vt : Inv}  : ∀ o m k, Canon vt m → Canon vt (((Insn.fmov ) : Insn).run o m k).chip := by
  intro o m k h0
  unfold Insn.fmov
  repeat' first | with_reducible assumption | with_reducible apply Insn.fpOp_canon | with_reducible apply Canon.go | with_reducible apply Canon.trap | with_reducible apply Canon.stop | with_reducible apply Canon.iteD | intro _ | dsimp only

theorem Insn.fmadd_canon {vt : Inv}  : ∀ o m k, Canon vt m → Canon vt (((Insn.fmadd ) : Insn).run o m k).chip := by
  intro o m k h0
  unfold Insn.fmadd
  repeat' first | with_reducible assumption | with_reducible apply Insn.fpOp_canon | with_reducible apply Canon.go | with_reducible apply Canon.trap | with_reducible apply Canon.stop | with_reducible apply Canon.iteD | intro _ | dsimp only

theorem Insn.fmsub_canon {vt : Inv}  : ∀ o m k, Canon vt m → Canon vt (((Insn.fmsub ) : Insn).run o m k).chip := by
  intro o m k h0
  unfold Insn.fmsub
  repeat' first | with_reducible assumption | with_reducible apply Insn.fpOp_canon | with_reducible apply Canon.go | with_reducible apply Canon.trap | with_reducible apply Canon.stop | with_reducible apply Canon.iteD | intro _ | dsimp only

theorem Insn.fnmadd_canon {vt : Inv}  : ∀ o m k, Canon vt m → Canon vt (((Insn.fnmadd ) : Insn).run o m k).chip := by
  intro o m k h0
  unfold Insn.fnmadd
  repeat' first | with_reducible assumption | with_reducible apply Insn.fpOp_canon | with_reducible apply Canon.go | with_reducible apply Canon.trap | with_reducible apply Canon.stop | with_reducible apply Canon.iteD | intro _ | dsimp only

theorem Insn.frnd_canon {vt : Inv}  : ∀ o m k, Canon vt m → Canon vt (((Insn.frnd ) : Insn).run o m k).chip := by
  intro o m k h0
  unfold Insn.frnd
  repeat' first | with_reducible assumption | with_reducible apply Insn.fpOp_canon | with_reducible apply Canon.go | with_reducible apply Canon.trap | with_reducible apply Canon.stop | with_reducible apply Canon.iteD | intro _ | dsimp only

theorem Insn.fsel_canon {vt : Inv}  : ∀ o m k, Canon vt m → Canon vt (((Insn.fsel ) : Insn).run o m k).chip := by
  intro o m k h0
  unfold Insn.fsel
  repeat' first | with_reducible assumption | with_reducible apply Insn.alu_canon | with_reducible apply Canon.go | with_reducible apply Canon.trap | with_reducible apply Canon.stop | with_reducible apply Canon.iteD | intro _ | with_reducible apply Canon.ite | split | dsimp only

theorem Insn.fcmp_canon {vt : Inv}  : ∀ o m k, Canon vt m → Canon vt (((Insn.fcmp ) : Insn).run o m k).chip := by
  intro o m k h0
  unfold Insn.fcmp
  repeat' first | with_reducible assumption | with_reducible apply Insn.fpDone_canon | with_reducible apply Canon.go | with_reducible apply Canon.trap | with_reducible apply Canon.stop | with_reducible apply Canon.iteD | intro _ | with_reducible apply Canon.ite | split | dsimp only

theorem Insn.fpToG_canon {vt : Inv} {f : BitVec 2 → DWord → DWord × Nat} : ∀ o m k, Canon vt m → Canon vt (((Insn.fpToG f) : Insn).run o m k).chip := by
  intro o m k h0
  unfold Insn.fpToG
  repeat' first | with_reducible assumption | with_reducible apply Insn.fpDone_canon | with_reducible apply Canon.go | with_reducible apply Canon.trap | with_reducible apply Canon.stop | with_reducible apply Canon.iteD | intro _ | dsimp only

theorem Insn.gToFp_canon {vt : Inv} {f : BitVec 2 → DWord → Fp.Res} : ∀ o m k, Canon vt m → Canon vt (((Insn.gToFp f) : Insn).run o m k).chip := by
  intro o m k h0
  unfold Insn.gToFp
  repeat' first | with_reducible assumption | with_reducible apply Insn.fpDone_canon | with_reducible apply Canon.go | with_reducible apply Canon.trap | with_reducible apply Canon.stop | with_reducible apply Canon.iteD | intro _ | dsimp only

theorem Insn.fcvti_canon {vt : Inv}  : ∀ o m k, Canon vt m → Canon vt (((Insn.fcvti ) : Insn).run o m k).chip := by
  intro o m k h0
  unfold Insn.fcvti
  repeat' first | with_reducible assumption | with_reducible apply Insn.fpToG_canon | with_reducible apply Canon.go | with_reducible apply Canon.trap | with_reducible apply Canon.stop | with_reducible apply Canon.iteD | intro _ | dsimp only

theorem Insn.fcvtu_canon {vt : Inv}  : ∀ o m k, Canon vt m → Canon vt (((Insn.fcvtu ) : Insn).run o m k).chip := by
  intro o m k h0
  unfold Insn.fcvtu
  repeat' first | with_reducible assumption | with_reducible apply Insn.fpToG_canon | with_reducible apply Canon.go | with_reducible apply Canon.trap | with_reducible apply Canon.stop | with_reducible apply Canon.iteD | intro _ | dsimp only

theorem Insn.icvtf_canon {vt : Inv}  : ∀ o m k, Canon vt m → Canon vt (((Insn.icvtf ) : Insn).run o m k).chip := by
  intro o m k h0
  unfold Insn.icvtf
  repeat' first | with_reducible assumption | with_reducible apply Insn.gToFp_canon | with_reducible apply Canon.go | with_reducible apply Canon.trap | with_reducible apply Canon.stop | with_reducible apply Canon.iteD | intro _ | dsimp only

theorem Insn.ucvtf_canon {vt : Inv}  : ∀ o m k, Canon vt m → Canon vt (((Insn.ucvtf ) : Insn).run o m k).chip := by
  intro o m k h0
  unfold Insn.ucvtf
  repeat' first | with_reducible assumption | with_reducible apply Insn.gToFp_canon | with_reducible apply Canon.go | with_reducible apply Canon.trap | with_reducible apply Canon.stop | with_reducible apply Canon.iteD | intro _ | dsimp only

theorem Insn.fmvg_canon {vt : Inv}  : ∀ o m k, Canon vt m → Canon vt (((Insn.fmvg ) : Insn).run o m k).chip := by
  intro o m k h0
  unfold Insn.fmvg
  repeat' first | with_reducible assumption | with_reducible apply Insn.fpToG_canon | with_reducible apply Canon.go | with_reducible apply Canon.trap | with_reducible apply Canon.stop | with_reducible apply Canon.iteD | intro _ | dsimp only

theorem Insn.gmvf_canon {vt : Inv}  : ∀ o m k, Canon vt m → Canon vt (((Insn.gmvf ) : Insn).run o m k).chip := by
  intro o m k h0
  unfold Insn.gmvf
  repeat' first | with_reducible assumption | with_reducible apply Insn.gToFp_canon | with_reducible apply Canon.go | with_reducible apply Canon.trap | with_reducible apply Canon.stop | with_reducible apply Canon.iteD | intro _ | dsimp only

theorem Insn.fclass_canon {vt : Inv}  : ∀ o m k, Canon vt m → Canon vt (((Insn.fclass ) : Insn).run o m k).chip := by
  intro o m k h0
  unfold Insn.fclass
  repeat' first | with_reducible assumption | with_reducible apply Insn.fpToG_canon | with_reducible apply Canon.go | with_reducible apply Canon.trap | with_reducible apply Canon.stop | with_reducible apply Canon.iteD | intro _ | dsimp only

theorem Insn.fld_canon {vt : Inv}  : ∀ o m k, Canon vt m → Canon vt (((Insn.fld ) : Insn).run o m k).chip := by
  intro o m k h0
  unfold Insn.fld
  repeat' first | with_reducible assumption | with_reducible apply Canon.go | with_reducible apply Canon.trap | with_reducible apply Canon.stop | with_reducible apply Canon.iteD | intro _ | split | with_reducible refine Canon.snd (by assumption) ?_ | with_reducible refine Canon.fst (by assumption) ?_ | with_reducible refine Canon.mid (by assumption) ?_ | with_reducible refine Canon.thd (by assumption) ?_ | dsimp only

theorem Insn.fst_canon {vt : Inv}  : ∀ o m k, Canon vt m → Canon vt (((Insn.fst ) : Insn).run o m k).chip := by
  intro o m k h0
  unfold Insn.fst
  repeat' first | with_reducible assumption | with_reducible apply Chip.save_canon | with_reducible apply Canon.go | with_reducible apply Canon.trap | with_reducible apply Canon.stop | with_reducible apply Canon.iteD | intro _ | split | with_reducible refine Canon.snd (by assumption) ?_ | with_reducible refine Canon.fst (by assumption) ?_ | with_reducible refine Canon.mid (by assumption) ?_ | with_reducible refine Canon.thd (by assumption) ?_ | dsimp only

/-! ### WasaPoint -/

theorem Insn.pointRead_canon {vt : Inv} {zs : Nat} {qual : Bool} {f : Op → PointRec → Core → Core} : ∀ o m k, Canon vt m → Canon vt (((Insn.pointRead zs qual f) : Insn).run o m k).chip := by
  intro o m k h0
  unfold Insn.pointRead
  repeat' first | with_reducible assumption | with_reducible apply Chip.pointLoad_canon | with_reducible apply Canon.go | with_reducible apply Canon.trap | with_reducible apply Canon.stop | with_reducible apply Canon.iteD | intro _ | dsimp only

theorem Insn.pointWrite_canon {vt : Inv} {zs : Nat} {f : Op → Core → DWord} : ∀ o m k, Canon vt m → Canon vt (((Insn.pointWrite zs f) : Insn).run o m k).chip := by
  intro o m k h0
  unfold Insn.pointWrite
  repeat' first | with_reducible assumption | with_reducible apply Chip.pointStore_canon | with_reducible apply Canon.go | with_reducible apply Canon.trap | with_reducible apply Canon.stop | with_reducible apply Canon.iteD | intro _ | dsimp only

theorem Insn.pld_canon {vt : Inv}  : ∀ o m k, Canon vt m → Canon vt (((Insn.pld ) : Insn).run o m k).chip := by
  intro o m k h0
  unfold Insn.pld
  repeat' first | with_reducible assumption | with_reducible apply Insn.pointRead_canon | with_reducible apply Canon.go | with_reducible apply Canon.trap | with_reducible apply Canon.stop | with_reducible apply Canon.iteD | intro _ | dsimp only

theorem Insn.pldf_canon {vt : Inv}  : ∀ o m k, Canon vt m → Canon vt (((Insn.pldf ) : Insn).run o m k).chip := by
  intro o m k h0
  unfold Insn.pldf
  repeat' first | with_reducible assumption | with_reducible apply Insn.pointRead_canon | with_reducible apply Canon.go | with_reducible apply Canon.trap | with_reducible apply Canon.stop | with_reducible apply Canon.iteD | intro _ | dsimp only

theorem Insn.plds_canon {vt : Inv}  : ∀ o m k, Canon vt m → Canon vt (((Insn.plds ) : Insn).run o m k).chip := by
  intro o m k h0
  unfold Insn.plds
  repeat' first | with_reducible assumption | with_reducible apply Insn.pointRead_canon | with_reducible apply Canon.go | with_reducible apply Canon.trap | with_reducible apply Canon.stop | with_reducible apply Canon.iteD | intro _ | dsimp only

theorem Insn.pldt_canon {vt : Inv}  : ∀ o m k, Canon vt m → Canon vt (((Insn.pldt ) : Insn).run o m k).chip := by
  intro o m k h0
  unfold Insn.pldt
  repeat' first | with_reducible assumption | with_reducible apply Insn.pointRead_canon | with_reducible apply Canon.go | with_reducible apply Canon.trap | with_reducible apply Canon.stop | with_reducible apply Canon.iteD | intro _ | dsimp only

theorem Insn.pldq_canon {vt : Inv}  : ∀ o m k, Canon vt m → Canon vt (((Insn.pldq ) : Insn).run o m k).chip := by
  intro o m k h0
  unfold Insn.pldq
  repeat' first | with_reducible assumption | with_reducible apply Insn.pointRead_canon | with_reducible apply Canon.go | with_reducible apply Canon.trap | with_reducible apply Canon.stop | with_reducible apply Canon.iteD | intro _ | dsimp only

theorem Insn.pldb_canon {vt : Inv}  : ∀ o m k, Canon vt m → Canon vt (((Insn.pldb ) : Insn).run o m k).chip := by
  intro o m k h0
  unfold Insn.pldb
  repeat' first | with_reducible assumption | with_reducible apply Insn.pointRead_canon | with_reducible apply Canon.go | with_reducible apply Canon.trap | with_reducible apply Canon.stop | with_reducible apply Canon.iteD | intro _ | dsimp only

theorem Insn.pst_canon {vt : Inv}  : ∀ o m k, Canon vt m → Canon vt (((Insn.pst ) : Insn).run o m k).chip := by
  intro o m k h0
  unfold Insn.pst
  repeat' first | with_reducible assumption | with_reducible apply Insn.pointWrite_canon | with_reducible apply Canon.go | with_reducible apply Canon.trap | with_reducible apply Canon.stop | with_reducible apply Canon.iteD | intro _ | dsimp only

theorem Insn.pstf_canon {vt : Inv}  : ∀ o m k, Canon vt m → Canon vt (((Insn.pstf ) : Insn).run o m k).chip := by
  intro o m k h0
  unfold Insn.pstf
  repeat' first | with_reducible assumption | with_reducible apply Insn.pointWrite_canon | with_reducible apply Canon.go | with_reducible apply Canon.trap | with_reducible apply Canon.stop | with_reducible apply Canon.iteD | intro _ | dsimp only

theorem Insn.pstb_canon {vt : Inv}  : ∀ o m k, Canon vt m → Canon vt (((Insn.pstb ) : Insn).run o m k).chip := by
  intro o m k h0
  unfold Insn.pstb
  repeat' first | with_reducible assumption | with_reducible apply Insn.pointWrite_canon | with_reducible apply Canon.go | with_reducible apply Canon.trap | with_reducible apply Canon.stop | with_reducible apply Canon.iteD | intro _ | with_reducible apply Canon.ite | split | dsimp only

theorem Insn.pclrchg_canon {vt : Inv}  : ∀ o m k, Canon vt m → Canon vt (((Insn.pclrchg ) : Insn).run o m k).chip := by
  intro o m k h0
  unfold Insn.pclrchg
  repeat' first | with_reducible assumption | with_reducible apply Chip.pointClear_canon | with_reducible apply Canon.go | with_reducible apply Canon.trap | with_reducible apply Canon.stop | with_reducible apply Canon.iteD | intro _ | dsimp only

theorem Insn.byTag_canon {vt : Inv} {clocks : Nat} {f : Op → Chip → Core → DWord → Done} (hf : ∀ o a k y, Canon vt a → Canon vt (f o a k y).chip) : ∀ o m k, Canon vt m → Canon vt (((Insn.byTag clocks f) : Insn).run o m k).chip := by
  intro o m k h0
  unfold Insn.byTag
  repeat' first | with_reducible assumption | with_reducible apply Canon.go | with_reducible apply Canon.trap | with_reducible apply Canon.stop | with_reducible apply Canon.iteD | with_reducible apply hf | intro _ | split | with_reducible refine Canon.snd (by assumption) ?_ | with_reducible refine Canon.fst (by assumption) ?_ | with_reducible refine Canon.mid (by assumption) ?_ | with_reducible refine Canon.thd (by assumption) ?_ | dsimp only

theorem Insn.plwa_canon {vt : Inv}  : ∀ o m k, Canon vt m → Canon vt (((Insn.plwa ) : Insn).run o m k).chip := by
  intro o m k h0
  unfold Insn.plwa
  repeat' first | with_reducible assumption | with_reducible apply Chip.pointLoad_canon | with_reducible apply Insn.byTag_canon | with_reducible apply Canon.go | with_reducible apply Canon.trap | with_reducible apply Canon.stop | with_reducible apply Canon.iteD | intro _ | dsimp only

theorem Insn.pswa_canon {vt : Inv}  : ∀ o m k, Canon vt m → Canon vt (((Insn.pswa ) : Insn).run o m k).chip := by
  intro o m k h0
  unfold Insn.pswa
  repeat' first | with_reducible assumption | with_reducible apply Chip.pointStore_canon | with_reducible apply Insn.byTag_canon | with_reducible apply Canon.go | with_reducible apply Canon.trap | with_reducible apply Canon.stop | with_reducible apply Canon.iteD | intro _ | dsimp only

theorem Insn.plba_canon {vt : Inv}  : ∀ o m k, Canon vt m → Canon vt (((Insn.plba ) : Insn).run o m k).chip := by
  intro o m k h0
  unfold Insn.plba
  repeat' first | with_reducible assumption | with_reducible apply Chip.pointLoad_canon | with_reducible apply Insn.byTag_canon | with_reducible apply Canon.go | with_reducible apply Canon.trap | with_reducible apply Canon.stop | with_reducible apply Canon.iteD | intro _ | dsimp only

theorem Insn.psba_canon {vt : Inv}  : ∀ o m k, Canon vt m → Canon vt (((Insn.psba ) : Insn).run o m k).chip := by
  intro o m k h0
  unfold Insn.psba
  repeat' first | with_reducible assumption | with_reducible apply Chip.pointStore_canon | with_reducible apply Insn.byTag_canon | with_reducible apply Canon.go | with_reducible apply Canon.trap | with_reducible apply Canon.stop | with_reducible apply Canon.iteD | intro _ | with_reducible apply Canon.ite | split | dsimp only

theorem Insn.plwb_canon {vt : Inv}  : ∀ o m k, Canon vt m → Canon vt (((Insn.plwb ) : Insn).run o m k).chip := by
  intro o m k h0
  unfold Insn.plwb
  repeat' first | with_reducible assumption | with_reducible apply Chip.pointLoad_canon | with_reducible apply Insn.byTag_canon | with_reducible apply Canon.go | with_reducible apply Canon.trap | with_reducible apply Canon.stop | with_reducible apply Canon.iteD | intro _ | dsimp only

theorem Insn.pswb_canon {vt : Inv}  : ∀ o m k, Canon vt m → Canon vt (((Insn.pswb ) : Insn).run o m k).chip := by
  intro o m k h0
  unfold Insn.pswb
  repeat' first | with_reducible assumption | with_reducible apply Chip.pointStore_canon | with_reducible apply Insn.byTag_canon | with_reducible apply Canon.go | with_reducible apply Canon.trap | with_reducible apply Canon.stop | with_reducible apply Canon.iteD | intro _ | dsimp only

theorem Insn.even_canon {vt : Inv} {regs : Op → List Nat} {f : Op → Chip → Core → Done} {o : Op} {m : Chip} {k : Core}
    (h0 : Canon vt m) (hf : ∀ o a k, Canon vt a → Canon vt (f o a k).chip) : Canon vt (Insn.even regs f o m k).chip := by
  unfold Insn.even
  exact Canon.iteD (Canon.trap h0) (hf _ _ _ h0)

theorem Insn.pairRead_canon {vt : Inv} {f : Op → PointRec → Core → Core} : ∀ o m k, Canon vt m → Canon vt (((Insn.pairRead f) : Insn).run o m k).chip := by
  intro o m k h0
  unfold Insn.pairRead
  repeat' first | with_reducible assumption | with_reducible apply Chip.pointLoad_canon | with_reducible apply Insn.even_canon | with_reducible apply Canon.go | with_reducible apply Canon.trap | with_reducible apply Canon.stop | with_reducible apply Canon.iteD | intro _ | dsimp only

theorem Insn.pairWrite_canon {vt : Inv} {r : Core → Nat → DWord} : ∀ o m k, Canon vt m → Canon vt (((Insn.pairWrite r) : Insn).run o m k).chip := by
  intro o m k h0
  unfold Insn.pairWrite
  repeat' first | with_reducible assumption | with_reducible apply Chip.pairStore_canon | with_reducible apply Insn.even_canon | with_reducible apply Canon.go | with_reducible apply Canon.trap | with_reducible apply Canon.stop | with_reducible apply Canon.iteD | intro _ | dsimp only

theorem Insn.memRead_canon {vt : Inv} {f : Core → Nat → DWord → DWord → Core} : ∀ o m k, Canon vt m → Canon vt (((Insn.memRead f) : Insn).run o m k).chip := by
  intro o m k h0
  unfold Insn.memRead
  repeat' first | with_reducible assumption | with_reducible apply Insn.even_canon | with_reducible apply Canon.go | with_reducible apply Canon.trap | with_reducible apply Canon.stop | with_reducible apply Canon.iteD | intro _ | with_reducible apply Canon.ite | split | split | with_reducible refine Canon.snd (by assumption) ?_ | with_reducible refine Canon.fst (by assumption) ?_ | with_reducible refine Canon.mid (by assumption) ?_ | with_reducible refine Canon.thd (by assumption) ?_ | dsimp only

theorem Insn.memWrite_canon {vt : Inv} {r : Core → Nat → DWord} : ∀ o m k, Canon vt m → Canon vt (((Insn.memWrite r) : Insn).run o m k).chip := by
  intro o m k h0
  unfold Insn.memWrite
  repeat' first | with_reducible assumption | with_reducible apply Chip.save_canon | with_reducible apply Insn.even_canon | with_reducible apply Canon.go | with_reducible apply Canon.trap | with_reducible apply Canon.stop | with_reducible apply Canon.iteD | intro _ | with_reducible apply Canon.ite | split | split | with_reducible refine Canon.snd (by assumption) ?_ | with_reducible refine Canon.fst (by assumption) ?_ | with_reducible refine Canon.mid (by assumption) ?_ | with_reducible refine Canon.thd (by assumption) ?_ | dsimp only

theorem Insn.pairMove_canon {vt : Inv} {r : Core → Nat → DWord} {f : Core → Nat → DWord → DWord → Core} : ∀ o m k, Canon vt m → Canon vt (((Insn.pairMove r f) : Insn).run o m k).chip := by
  intro o m k h0
  unfold Insn.pairMove
  repeat' first | with_reducible assumption | with_reducible apply Insn.even_canon | with_reducible apply Canon.go | with_reducible apply Canon.trap | with_reducible apply Canon.stop | with_reducible apply Canon.iteD | intro _ | with_reducible apply Canon.ite | split | dsimp only

theorem Insn.ppld_canon {vt : Inv}  : ∀ o m k, Canon vt m → Canon vt (((Insn.ppld ) : Insn).run o m k).chip := by
  intro o m k h0
  unfold Insn.ppld
  repeat' first | with_reducible assumption | with_reducible apply Insn.pairRead_canon | with_reducible apply Canon.go | with_reducible apply Canon.trap | with_reducible apply Canon.stop | with_reducible apply Canon.iteD | intro _ | dsimp only

theorem Insn.ppldf_canon {vt : Inv}  : ∀ o m k, Canon vt m → Canon vt (((Insn.ppldf ) : Insn).run o m k).chip := by
  intro o m k h0
  unfold Insn.ppldf
  repeat' first | with_reducible assumption | with_reducible apply Insn.pairRead_canon | with_reducible apply Canon.go | with_reducible apply Canon.trap | with_reducible apply Canon.stop | with_reducible apply Canon.iteD | intro _ | dsimp only

theorem Insn.ppst_canon {vt : Inv}  : ∀ o m k, Canon vt m → Canon vt (((Insn.ppst ) : Insn).run o m k).chip := by
  intro o m k h0
  unfold Insn.ppst
  repeat' first | with_reducible assumption | with_reducible apply Insn.pairWrite_canon | with_reducible apply Canon.go | with_reducible apply Canon.trap | with_reducible apply Canon.stop | with_reducible apply Canon.iteD | intro _ | dsimp only

theorem Insn.ppstf_canon {vt : Inv}  : ∀ o m k, Canon vt m → Canon vt (((Insn.ppstf ) : Insn).run o m k).chip := by
  intro o m k h0
  unfold Insn.ppstf
  repeat' first | with_reducible assumption | with_reducible apply Insn.pairWrite_canon | with_reducible apply Canon.go | with_reducible apply Canon.trap | with_reducible apply Canon.stop | with_reducible apply Canon.iteD | intro _ | dsimp only

theorem Insn.mpld_canon {vt : Inv}  : ∀ o m k, Canon vt m → Canon vt (((Insn.mpld ) : Insn).run o m k).chip := by
  intro o m k h0
  unfold Insn.mpld
  repeat' first | with_reducible assumption | with_reducible apply Insn.memRead_canon | with_reducible apply Canon.go | with_reducible apply Canon.trap | with_reducible apply Canon.stop | with_reducible apply Canon.iteD | intro _ | dsimp only

theorem Insn.mpldf_canon {vt : Inv}  : ∀ o m k, Canon vt m → Canon vt (((Insn.mpldf ) : Insn).run o m k).chip := by
  intro o m k h0
  unfold Insn.mpldf
  repeat' first | with_reducible assumption | with_reducible apply Insn.memRead_canon | with_reducible apply Canon.go | with_reducible apply Canon.trap | with_reducible apply Canon.stop | with_reducible apply Canon.iteD | intro _ | dsimp only

theorem Insn.mpst_canon {vt : Inv}  : ∀ o m k, Canon vt m → Canon vt (((Insn.mpst ) : Insn).run o m k).chip := by
  intro o m k h0
  unfold Insn.mpst
  repeat' first | with_reducible assumption | with_reducible apply Insn.memWrite_canon | with_reducible apply Canon.go | with_reducible apply Canon.trap | with_reducible apply Canon.stop | with_reducible apply Canon.iteD | intro _ | dsimp only

theorem Insn.mpstf_canon {vt : Inv}  : ∀ o m k, Canon vt m → Canon vt (((Insn.mpstf ) : Insn).run o m k).chip := by
  intro o m k h0
  unfold Insn.mpstf
  repeat' first | with_reducible assumption | with_reducible apply Insn.memWrite_canon | with_reducible apply Canon.go | with_reducible apply Canon.trap | with_reducible apply Canon.stop | with_reducible apply Canon.iteD | intro _ | dsimp only

theorem Insn.pmov_canon {vt : Inv}  : ∀ o m k, Canon vt m → Canon vt (((Insn.pmov ) : Insn).run o m k).chip := by
  intro o m k h0
  unfold Insn.pmov
  repeat' first | with_reducible assumption | with_reducible apply Insn.pairMove_canon | with_reducible apply Canon.go | with_reducible apply Canon.trap | with_reducible apply Canon.stop | with_reducible apply Canon.iteD | intro _ | dsimp only

theorem Insn.pmovf_canon {vt : Inv}  : ∀ o m k, Canon vt m → Canon vt (((Insn.pmovf ) : Insn).run o m k).chip := by
  intro o m k h0
  unfold Insn.pmovf
  repeat' first | with_reducible assumption | with_reducible apply Insn.pairMove_canon | with_reducible apply Canon.go | with_reducible apply Canon.trap | with_reducible apply Canon.stop | with_reducible apply Canon.iteD | intro _ | dsimp only

theorem Insn.pcpl_canon {vt : Inv}  : ∀ o m k, Canon vt m → Canon vt (((Insn.pcpl ) : Insn).run o m k).chip := by
  intro o m k h0
  unfold Insn.pcpl
  repeat' first | with_reducible assumption | with_reducible apply Insn.even_canon | with_reducible apply Canon.go | with_reducible apply Canon.trap | with_reducible apply Canon.stop | with_reducible apply Canon.iteD | intro _ | dsimp only

theorem Insn.pcplf_canon {vt : Inv}  : ∀ o m k, Canon vt m → Canon vt (((Insn.pcplf ) : Insn).run o m k).chip := by
  intro o m k h0
  unfold Insn.pcplf
  repeat' first | with_reducible assumption | with_reducible apply Insn.even_canon | with_reducible apply Canon.go | with_reducible apply Canon.trap | with_reducible apply Canon.stop | with_reducible apply Canon.iteD | intro _ | dsimp only

theorem Insn.ptst_canon {vt : Inv}  : ∀ o m k, Canon vt m → Canon vt (((Insn.ptst ) : Insn).run o m k).chip := by
  intro o m k h0
  unfold Insn.ptst
  repeat' first | with_reducible assumption | with_reducible apply Insn.even_canon | with_reducible apply Canon.go | with_reducible apply Canon.trap | with_reducible apply Canon.stop | with_reducible apply Canon.iteD | intro _ | dsimp only

/-! ### WasaTimer -/

theorem Insn.timer_canon {vt : Inv} {mask : Nat} {f : Op →   Core → Nat → Slot → Slot × Core} : ∀ o m k, Canon vt m → Canon vt (((Insn.timer mask f) : Insn).run o m k).chip := by
  intro o m k h0
  unfold Insn.timer
  repeat' first | with_reducible assumption | with_reducible apply Chip.setSlot_canon | with_reducible apply Canon.go | with_reducible apply Canon.trap | with_reducible apply Canon.stop | with_reducible apply Canon.iteD | intro _ | with_reducible apply Canon.ite | split | dsimp only

theorem Insn.drive_canon {vt : Inv} {f : Bool → Nat → Slot → Slot} : ∀ o m k, Canon vt m → Canon vt (((Insn.drive f) : Insn).run o m k).chip := by
  intro o m k h0
  unfold Insn.drive
  repeat' first | with_reducible assumption | with_reducible apply Insn.timer_canon | with_reducible apply Canon.go | with_reducible apply Canon.trap | with_reducible apply Canon.stop | with_reducible apply Canon.iteD | intro _ | dsimp only

theorem Insn.ton_canon {vt : Inv}  : ∀ o m k, Canon vt m → Canon vt (((Insn.ton ) : Insn).run o m k).chip := by
  intro o m k h0
  unfold Insn.ton
  repeat' first | with_reducible assumption | with_reducible apply Insn.drive_canon | with_reducible apply Canon.go | with_reducible apply Canon.trap | with_reducible apply Canon.stop | with_reducible apply Canon.iteD | intro _ | dsimp only

theorem Insn.tof_canon {vt : Inv}  : ∀ o m k, Canon vt m → Canon vt (((Insn.tof ) : Insn).run o m k).chip := by
  intro o m k h0
  unfold Insn.tof
  repeat' first | with_reducible assumption | with_reducible apply Insn.drive_canon | with_reducible apply Canon.go | with_reducible apply Canon.trap | with_reducible apply Canon.stop | with_reducible apply Canon.iteD | intro _ | dsimp only

theorem Insn.tp_canon {vt : Inv}  : ∀ o m k, Canon vt m → Canon vt (((Insn.tp ) : Insn).run o m k).chip := by
  intro o m k h0
  unfold Insn.tp
  repeat' first | with_reducible assumption | with_reducible apply Insn.drive_canon | with_reducible apply Canon.go | with_reducible apply Canon.trap | with_reducible apply Canon.stop | with_reducible apply Canon.iteD | intro _ | dsimp only

theorem Insn.tpre_canon {vt : Inv}  : ∀ o m k, Canon vt m → Canon vt (((Insn.tpre ) : Insn).run o m k).chip := by
  intro o m k h0
  unfold Insn.tpre
  repeat' first | with_reducible assumption | with_reducible apply Insn.timer_canon | with_reducible apply Canon.go | with_reducible apply Canon.trap | with_reducible apply Canon.stop | with_reducible apply Canon.iteD | intro _ | dsimp only

theorem Insn.trd_canon {vt : Inv}  : ∀ o m k, Canon vt m → Canon vt (((Insn.trd ) : Insn).run o m k).chip := by
  intro o m k h0
  unfold Insn.trd
  repeat' first | with_reducible assumption | with_reducible apply Insn.timer_canon | with_reducible apply Canon.go | with_reducible apply Canon.trap | with_reducible apply Canon.stop | with_reducible apply Canon.iteD | intro _ | with_reducible apply Canon.ite | split | dsimp only

theorem Insn.trst_canon {vt : Inv}  : ∀ o m k, Canon vt m → Canon vt (((Insn.trst ) : Insn).run o m k).chip := by
  intro o m k h0
  unfold Insn.trst
  repeat' first | with_reducible assumption | with_reducible apply Insn.timer_canon | with_reducible apply Canon.go | with_reducible apply Canon.trap | with_reducible apply Canon.stop | with_reducible apply Canon.iteD | intro _ | dsimp only

theorem Insn.tstat_canon {vt : Inv}  : ∀ o m k, Canon vt m → Canon vt (((Insn.tstat ) : Insn).run o m k).chip := by
  intro o m k h0
  unfold Insn.tstat
  repeat' first | with_reducible assumption | with_reducible apply Insn.timer_canon | with_reducible apply Canon.go | with_reducible apply Canon.trap | with_reducible apply Canon.stop | with_reducible apply Canon.iteD | intro _ | dsimp only

/-! ### WasaSys -/

theorem Insn.csrr_canon {vt : Inv}  : ∀ o m k, Canon vt m → Canon vt (((Insn.csrr ) : Insn).run o m k).chip := by
  intro o m k h0
  unfold Insn.csrr
  repeat' first | with_reducible assumption | with_reducible apply Chip.ctlRead_canon | with_reducible apply Canon.go | with_reducible apply Canon.trap | with_reducible apply Canon.stop | with_reducible apply Canon.iteD | intro _ | split | with_reducible refine Canon.snd (by assumption) ?_ | with_reducible refine Canon.fst (by assumption) ?_ | with_reducible refine Canon.mid (by assumption) ?_ | with_reducible refine Canon.thd (by assumption) ?_ | dsimp only

theorem Insn.csrw_canon {vt : Inv}  : ∀ o m k, Canon vt m → Canon vt (((Insn.csrw ) : Insn).run o m k).chip := by
  intro o m k h0
  unfold Insn.csrw
  repeat' first | with_reducible assumption | with_reducible apply Chip.ctlWrite_canon | with_reducible apply Canon.go | with_reducible apply Canon.trap | with_reducible apply Canon.stop | with_reducible apply Canon.iteD | intro _ | split | with_reducible refine Canon.snd (by assumption) ?_ | with_reducible refine Canon.fst (by assumption) ?_ | with_reducible refine Canon.mid (by assumption) ?_ | with_reducible refine Canon.thd (by assumption) ?_ | dsimp only

theorem Insn.mfs_canon {vt : Inv}  : ∀ o m k, Canon vt m → Canon vt (((Insn.mfs ) : Insn).run o m k).chip := by
  intro o m k h0
  unfold Insn.mfs
  repeat' first | with_reducible assumption | with_reducible apply Canon.go | with_reducible apply Canon.trap | with_reducible apply Canon.stop | with_reducible apply Canon.iteD | intro _ | with_reducible apply Canon.ite | split | dsimp only

theorem Insn.mts_canon {vt : Inv}  : ∀ o m k, Canon vt m → Canon vt (((Insn.mts ) : Insn).run o m k).chip := by
  intro o m k h0
  unfold Insn.mts
  repeat' first | with_reducible assumption | with_reducible apply Canon.go | with_reducible apply Canon.trap | with_reducible apply Canon.stop | with_reducible apply Canon.iteD | intro _ | split | with_reducible refine Canon.snd (by assumption) ?_ | with_reducible refine Canon.fst (by assumption) ?_ | with_reducible refine Canon.mid (by assumption) ?_ | with_reducible refine Canon.thd (by assumption) ?_ | dsimp only

theorem Insn.fence_canon {vt : Inv}  : ∀ o m k, Canon vt m → Canon vt (((Insn.fence ) : Insn).run o m k).chip := by
  intro o m k h0
  unfold Insn.fence
  repeat' first | with_reducible assumption | with_reducible apply Chip.drainStores_canon | with_reducible apply Canon.go | with_reducible apply Canon.trap | with_reducible apply Canon.stop | with_reducible apply Canon.iteD | intro _ | split | with_reducible refine Canon.snd (by assumption) ?_ | with_reducible refine Canon.fst (by assumption) ?_ | with_reducible refine Canon.mid (by assumption) ?_ | with_reducible refine Canon.thd (by assumption) ?_ | dsimp only

theorem Insn.nop_canon {vt : Inv}  : ∀ o m k, Canon vt m → Canon vt (((Insn.nop ) : Insn).run o m k).chip := by
  intro o m k h0
  unfold Insn.nop
  repeat' first | with_reducible assumption | with_reducible apply Insn.alu_canon | with_reducible apply Canon.go | with_reducible apply Canon.trap | with_reducible apply Canon.stop | with_reducible apply Canon.iteD | intro _ | dsimp only

theorem Insn.end__canon {vt : Inv}  : ∀ o m k, Canon vt m → Canon vt (((Insn.end_ ) : Insn).run o m k).chip := by
  intro o m k h0
  unfold Insn.end_
  repeat' first | with_reducible assumption | with_reducible apply Chip.trapEvent_canon | with_reducible apply Chip.drainStores_canon | with_reducible apply Canon.go | with_reducible apply Canon.trap | with_reducible apply Canon.stop | with_reducible apply Canon.iteD | intro _ | split | with_reducible refine Canon.snd (by assumption) ?_ | with_reducible refine Canon.fst (by assumption) ?_ | with_reducible refine Canon.mid (by assumption) ?_ | with_reducible refine Canon.thd (by assumption) ?_ | dsimp only

theorem Insn.ending_canon {vt : Inv} {ok : Nat → Bool} {f : Op →   Chip → Core → TrapCtx → Done} (hf : ∀ o a k y, Canon vt a → Canon vt (f o a k y).chip) : ∀ o m k, Canon vt m → Canon vt (((Insn.ending ok f) : Insn).run o m k).chip := by
  intro o m k h0
  unfold Insn.ending
  repeat' first | with_reducible assumption | with_reducible apply Canon.go | with_reducible apply Canon.trap | with_reducible apply Canon.stop | with_reducible apply Canon.iteD | with_reducible apply hf | intro _ | with_reducible apply Canon.ite | split | split | with_reducible refine Canon.snd (by assumption) ?_ | with_reducible refine Canon.fst (by assumption) ?_ | with_reducible refine Canon.mid (by assumption) ?_ | with_reducible refine Canon.thd (by assumption) ?_ | dsimp only

theorem Insn.skip_canon {vt : Inv}  : ∀ o m k, Canon vt m → Canon vt (((Insn.skip ) : Insn).run o m k).chip := by
  intro o m k h0
  unfold Insn.skip
  repeat' first | with_reducible assumption | with_reducible apply Chip.trapEvent_canon | with_reducible apply Insn.ending_canon | with_reducible apply Canon.go | with_reducible apply Canon.trap | with_reducible apply Canon.stop | with_reducible apply Canon.iteD | intro _ | with_reducible apply Canon.ite | split | dsimp only

theorem Insn.retry_canon {vt : Inv}  : ∀ o m k, Canon vt m → Canon vt (((Insn.retry ) : Insn).run o m k).chip := by
  intro o m k h0
  unfold Insn.retry
  repeat' first | with_reducible assumption | with_reducible apply Chip.trapEvent_canon | with_reducible apply Insn.ending_canon | with_reducible apply Canon.go | with_reducible apply Canon.trap | with_reducible apply Canon.stop | with_reducible apply Canon.iteD | intro _ | dsimp only

theorem Insn.abandon_canon {vt : Inv}  : ∀ o m k, Canon vt m → Canon vt (((Insn.abandon ) : Insn).run o m k).chip := by
  intro o m k h0
  unfold Insn.abandon
  repeat' first | with_reducible assumption | with_reducible apply Chip.trapEvent_canon | with_reducible apply Insn.ending_canon | with_reducible apply Canon.go | with_reducible apply Canon.trap | with_reducible apply Canon.stop | with_reducible apply Canon.iteD | intro _ | dsimp only

/-! ### UCalls -/

theorem Chip.callUnit_canon {vt : Inv} {m : Chip} {o : Op} {k : Core} {unit : Nat} {fn : Nat} {a : Nat} (h0 : Canon vt m) : Canon vt (Chip.callUnit m o k unit fn a).2 := by
  unfold Chip.callUnit
  repeat' first | with_reducible assumption | with_reducible apply Chip.vaultSubmit_canon | with_reducible apply Chip.quench_canon | with_reducible apply Chip.lampSubmit_canon | with_reducible apply Chip.ridgeRelease_canon | with_reducible apply Chip.ridgeSubmit_canon | with_reducible apply Chip.planCancel_canon | with_reducible apply Chip.launch_canon | with_reducible apply Canon.ite | with_reducible apply Canon.iteR | split | with_reducible refine Canon.snd (by assumption) ?_ | with_reducible refine Canon.fst (by assumption) ?_ | with_reducible refine Canon.mid (by assumption) ?_ | with_reducible refine Canon.thd (by assumption) ?_ | dsimp only

theorem Insn.unitCall_canon {vt : Inv} {sel : Op → Nat × Nat} : ∀ o m k, Canon vt m → Canon vt (((Insn.unitCall sel) : Insn).run o m k).chip := by
  intro o m k h0
  unfold Insn.unitCall
  repeat' first | with_reducible assumption | with_reducible apply Chip.callUnit_canon | with_reducible apply Canon.go | with_reducible apply Canon.trap | with_reducible apply Canon.stop | with_reducible apply Canon.iteD | intro _ | with_reducible apply Canon.ite | split | split | with_reducible refine Canon.snd (by assumption) ?_ | with_reducible refine Canon.fst (by assumption) ?_ | with_reducible refine Canon.mid (by assumption) ?_ | with_reducible refine Canon.thd (by assumption) ?_ | dsimp only

theorem Insn.ucall_canon {vt : Inv}  : ∀ o m k, Canon vt m → Canon vt (((Insn.ucall ) : Insn).run o m k).chip := by
  intro o m k h0
  unfold Insn.ucall
  repeat' first | with_reducible assumption | with_reducible apply Insn.unitCall_canon | with_reducible apply Canon.go | with_reducible apply Canon.trap | with_reducible apply Canon.stop | with_reducible apply Canon.iteD | intro _ | dsimp only

theorem Insn.planLaunch_canon {vt : Inv}  : ∀ o m k, Canon vt m → Canon vt (((Insn.planLaunch ) : Insn).run o m k).chip := by
  intro o m k h0
  unfold Insn.planLaunch
  repeat' first | with_reducible assumption | with_reducible apply Insn.unitCall_canon | with_reducible apply Canon.go | with_reducible apply Canon.trap | with_reducible apply Canon.stop | with_reducible apply Canon.iteD | intro _ | dsimp only

theorem Insn.planCancel_canon {vt : Inv}  : ∀ o m k, Canon vt m → Canon vt (((Insn.planCancel ) : Insn).run o m k).chip := by
  intro o m k h0
  unfold Insn.planCancel
  repeat' first | with_reducible assumption | with_reducible apply Insn.unitCall_canon | with_reducible apply Canon.go | with_reducible apply Canon.trap | with_reducible apply Canon.stop | with_reducible apply Canon.iteD | intro _ | dsimp only

theorem Insn.ridgeSubmit_canon {vt : Inv}  : ∀ o m k, Canon vt m → Canon vt (((Insn.ridgeSubmit ) : Insn).run o m k).chip := by
  intro o m k h0
  unfold Insn.ridgeSubmit
  repeat' first | with_reducible assumption | with_reducible apply Insn.unitCall_canon | with_reducible apply Canon.go | with_reducible apply Canon.trap | with_reducible apply Canon.stop | with_reducible apply Canon.iteD | intro _ | dsimp only

theorem Insn.ridgeRelease_canon {vt : Inv}  : ∀ o m k, Canon vt m → Canon vt (((Insn.ridgeRelease ) : Insn).run o m k).chip := by
  intro o m k h0
  unfold Insn.ridgeRelease
  repeat' first | with_reducible assumption | with_reducible apply Insn.unitCall_canon | with_reducible apply Canon.go | with_reducible apply Canon.trap | with_reducible apply Canon.stop | with_reducible apply Canon.iteD | intro _ | dsimp only

theorem Insn.lampSubmit_canon {vt : Inv}  : ∀ o m k, Canon vt m → Canon vt (((Insn.lampSubmit ) : Insn).run o m k).chip := by
  intro o m k h0
  unfold Insn.lampSubmit
  repeat' first | with_reducible assumption | with_reducible apply Insn.unitCall_canon | with_reducible apply Canon.go | with_reducible apply Canon.trap | with_reducible apply Canon.stop | with_reducible apply Canon.iteD | intro _ | dsimp only

theorem Insn.quench_canon {vt : Inv}  : ∀ o m k, Canon vt m → Canon vt (((Insn.quench ) : Insn).run o m k).chip := by
  intro o m k h0
  unfold Insn.quench
  repeat' first | with_reducible assumption | with_reducible apply Insn.unitCall_canon | with_reducible apply Canon.go | with_reducible apply Canon.trap | with_reducible apply Canon.stop | with_reducible apply Canon.iteD | intro _ | dsimp only

theorem Insn.vaultSubmit_canon {vt : Inv}  : ∀ o m k, Canon vt m → Canon vt (((Insn.vaultSubmit ) : Insn).run o m k).chip := by
  intro o m k h0
  unfold Insn.vaultSubmit
  repeat' first | with_reducible assumption | with_reducible apply Insn.unitCall_canon | with_reducible apply Canon.go | with_reducible apply Canon.trap | with_reducible apply Canon.stop | with_reducible apply Canon.iteD | intro _ | dsimp only

/-! ### Echo -/

theorem pick_nil_canon {vt : Inv} (n : Nat) : ∀ o m k, Canon vt m → Canon vt ((pick [] n).run o m k).chip :=
  fun _ _ _ h => h
theorem pick_canon {vt : Inv} {i : Insn} {l : List Insn} (hi : ∀ o m k, Canon vt m → Canon vt (i.run o m k).chip)
    (hl : ∀ n o m k, Canon vt m → Canon vt ((pick l n).run o m k).chip) (n : Nat) :
    ∀ o m k, Canon vt m → Canon vt ((pick (i :: l) n).run o m k).chip := by
  cases n with
  | zero => exact hi
  | succ n => exact hl n

theorem insnOf_canon {vt : Inv} {w x : Word} : ∀ o m k, Canon vt m → Canon vt ((insnOf w x).run o m k).chip := by
  unfold insnOf
  dsimp only
  split
  · exact pick_canon Insn.ld_canon (pick_canon Insn.ldn_canon (pick_canon Insn.and_canon (pick_canon Insn.andn_canon (pick_canon Insn.or_canon (pick_canon Insn.orn_canon (pick_canon Insn.xor_canon (pick_canon Insn.xorn_canon pick_nil_canon))))))) _
  · exact pick_canon Insn.st_canon (pick_canon Insn.stn_canon (pick_canon Insn.setb_canon (pick_canon Insn.rstb_canon (pick_canon Insn.tglb_canon pick_nil_canon)))) _
  · exact pick_canon Insn.notba_canon (pick_canon Insn.setba_canon (pick_canon Insn.clrba_canon (pick_canon Insn.condba_canon pick_nil_canon))) _
  · exact Insn.jmp_canon
  · split
    · exact Insn.bcond_canon
    · split
      · exact Insn.none__canon
      · split
        · exact pick_canon Insn.call_canon (pick_canon Insn.ret_canon pick_nil_canon) _
        · exact pick_canon Insn.push_canon (pick_canon Insn.popAnd_canon (pick_canon Insn.popOr_canon (pick_canon Insn.popXor_canon (pick_canon Insn.popAndn_canon (pick_canon Insn.popLd_canon (pick_canon Insn.drop_canon pick_nil_canon)))))) _
  · exact pick_canon Insn.wld_canon (pick_canon Insn.wst_canon (pick_canon Insn.wli_canon pick_nil_canon)) _
  · exact pick_canon Insn.wadd_canon (pick_canon Insn.wsub_canon (pick_canon Insn.wmul_canon (pick_canon Insn.wdiv_canon (pick_canon Insn.wrem_canon (pick_canon Insn.wand_canon (pick_canon Insn.wor_canon (pick_canon Insn.wxor_canon (pick_canon Insn.wnot_canon (pick_canon Insn.wneg_canon (pick_canon Insn.wshl_canon (pick_canon Insn.wshr_canon (pick_canon Insn.wsar_canon (pick_canon Insn.wcmp_canon (pick_canon Insn.wswap_canon (pick_canon Insn.wmovg_canon (pick_canon Insn.gmovw_canon (pick_canon Insn.wcopy_canon pick_nil_canon))))))))))))))))) _
  · split
    · exact pick_canon Insn.add_canon (pick_canon Insn.sub_canon (pick_canon Insn.andReg_canon (pick_canon Insn.orReg_canon (pick_canon Insn.xorReg_canon (pick_canon Insn.andng_canon (pick_canon Insn.shl_canon (pick_canon Insn.shr_canon (pick_canon Insn.sar_canon (pick_canon Insn.rol_canon (pick_canon Insn.mul_canon (pick_canon Insn.mulhs_canon (pick_canon Insn.mulhu_canon (pick_canon Insn.div_canon (pick_canon Insn.divu_canon (pick_canon Insn.rem_canon (pick_canon Insn.remu_canon (pick_canon Insn.min_canon (pick_canon Insn.max_canon (pick_canon Insn.minu_canon (pick_canon Insn.maxu_canon pick_nil_canon)))))))))))))))))))) _
    · exact pick_canon Insn.cmp_canon (pick_canon Insn.tst_canon (pick_canon Insn.sel_canon (pick_canon Insn.mov_canon (pick_canon Insn.not_canon (pick_canon Insn.neg_canon (pick_canon Insn.setc_canon pick_nil_canon)))))) _
  · exact Insn.addi_canon
  · split
    · exact pick_canon Insn.lb_canon (pick_canon Insn.lbu_canon (pick_canon Insn.lh_canon (pick_canon Insn.lhu_canon (pick_canon Insn.lw_canon (pick_canon Insn.lwu_canon (pick_canon Insn.ldw_canon pick_nil_canon)))))) _
    · exact pick_canon Insn.sb_canon (pick_canon Insn.sh_canon (pick_canon Insn.sw_canon (pick_canon Insn.sdw_canon pick_nil_canon))) _
  · exact Insn.lih_canon
  · exact pick_canon Insn.fadd_canon (pick_canon Insn.fsub_canon (pick_canon Insn.fmul_canon (pick_canon Insn.fdiv_canon (pick_canon Insn.fsqrt_canon (pick_canon Insn.fmin_canon (pick_canon Insn.fmax_canon (pick_canon Insn.fabs_canon (pick_canon Insn.fneg_canon (pick_canon Insn.fmov_canon (pick_canon Insn.fcmp_canon (pick_canon Insn.fsel_canon pick_nil_canon))))))))))) _
  · exact pick_canon Insn.fmadd_canon (pick_canon Insn.fmsub_canon (pick_canon Insn.fnmadd_canon pick_nil_canon)) _
  · exact pick_canon Insn.fcvti_canon (pick_canon Insn.fcvtu_canon (pick_canon Insn.icvtf_canon (pick_canon Insn.ucvtf_canon (pick_canon Insn.fmvg_canon (pick_canon Insn.gmvf_canon (pick_canon Insn.fclass_canon (pick_canon Insn.frnd_canon pick_nil_canon))))))) _
  · exact pick_canon Insn.fld_canon (pick_canon Insn.fst_canon pick_nil_canon) _
  · split
    · exact pick_canon Insn.pld_canon (pick_canon Insn.pldf_canon (pick_canon Insn.plds_canon (pick_canon Insn.pldt_canon (pick_canon Insn.pldq_canon (pick_canon Insn.pldb_canon pick_nil_canon))))) _
    · split
      · exact pick_canon Insn.pst_canon (pick_canon Insn.pstf_canon (pick_canon Insn.pstb_canon pick_nil_canon)) _
      · exact pick_canon Insn.pclrchg_canon pick_nil_canon _
  · exact pick_canon Insn.plwa_canon (pick_canon Insn.pswa_canon (pick_canon Insn.plba_canon (pick_canon Insn.psba_canon (pick_canon Insn.plwb_canon (pick_canon Insn.pswb_canon pick_nil_canon))))) _
  · split
    · exact pick_canon Insn.ppld_canon (pick_canon Insn.ppldf_canon (pick_canon Insn.ppst_canon (pick_canon Insn.ppstf_canon pick_nil_canon))) _
    · split
      · exact pick_canon Insn.mpld_canon (pick_canon Insn.mpldf_canon (pick_canon Insn.mpst_canon (pick_canon Insn.mpstf_canon pick_nil_canon))) _
      · exact pick_canon Insn.pmov_canon (pick_canon Insn.pmovf_canon (pick_canon Insn.pcpl_canon (pick_canon Insn.pcplf_canon (pick_canon Insn.ptst_canon pick_nil_canon)))) _
  · exact pick_canon Insn.ton_canon (pick_canon Insn.tof_canon (pick_canon Insn.tp_canon (pick_canon Insn.tpre_canon (pick_canon Insn.trd_canon (pick_canon Insn.trst_canon (pick_canon Insn.tstat_canon pick_nil_canon)))))) _
  · exact pick_canon Insn.edgr_canon (pick_canon Insn.edgf_canon (pick_canon Insn.edgb_canon pick_nil_canon)) _
  · exact Insn.ucall_canon
  · exact pick_canon Insn.csrr_canon (pick_canon Insn.csrw_canon (pick_canon Insn.mfs_canon (pick_canon Insn.mts_canon pick_nil_canon))) _
  · split
    · exact pick_canon Insn.end__canon (pick_canon Insn.skip_canon (pick_canon Insn.retry_canon (pick_canon Insn.abandon_canon pick_nil_canon))) _
    · exact pick_canon Insn.fence_canon (pick_canon Insn.nop_canon pick_nil_canon) _
  · exact Insn.none__canon

theorem echoRun_canon {vt : Inv} {c : Nat} {stop : Option (Word × Nat)} {n : Nat} {m : Chip} {k : Core} (h0 : Canon vt m) : Canon vt (echoRun c stop n m k).1 := by
  induction n generalizing m k with
  | zero => exact h0
  | succ n ih =>
    unfold echoRun
    dsimp only
    split
    · exact h0
    · split
      · exact Chip.takeTrap_canon h0
      · split
        · rename_i m1 k1 e
          exact ih (Canon.fst e (Chip.turn_canon h0 insnOf_canon))
        · exact Chip.turn_canon h0 insnOf_canon

theorem Chip.applyDelta_canon {vt : Inv} {m : Chip} {x : SadDelta} (h0 : Canon vt m) : Canon vt (Chip.applyDelta m x) := by
  unfold Chip.applyDelta
  repeat' first | with_reducible assumption | with_reducible apply Canon.foldl | intro _ | with_reducible apply Chip.setSta_canon | with_reducible apply Chip.setTask_canon | with_reducible apply Chip.put_canon | with_reducible apply Chip.setSlot_canon | with_reducible apply Chip.setBytes_canon

theorem Chip.secondCopies_canon {vt : Inv} {m : Chip} {x : SadDelta} (h0 : Canon vt m) : Canon vt (Chip.secondCopies m x) := by
  unfold Chip.secondCopies
  repeat' first | with_reducible assumption | with_reducible apply Canon.foldl | intro _ | with_reducible apply Chip.sendCopy_canon

theorem Chip.echo1_canon {vt : Inv} {m0 : Chip} {i : SadImage} {x : SadDelta} (h0 : Canon vt m0) : Canon vt (Chip.echo1 m0 i x) := by
  unfold Chip.echo1
  repeat' first | with_reducible assumption | with_reducible apply Chip.applyDelta_canon | with_reducible apply Chip.mismatch_canon | with_reducible apply Chip.secondCopies_canon | with_reducible apply Chip.setSadl_canon | with_reducible apply Chip.corrected_canon | with_reducible apply echoRun_canon | with_reducible apply Chip.setBytes_canon | with_reducible apply Chip.colSwitch_canon | with_reducible apply Canon.ite | split | with_reducible refine Canon.snd (by assumption) ?_ | with_reducible refine Canon.fst (by assumption) ?_ | with_reducible refine Canon.mid (by assumption) ?_ | with_reducible refine Canon.thd (by assumption) ?_ | dsimp only

theorem Chip.echo_canon {vt : Inv} {m : Chip} {t : Nat} (h0 : Canon vt m) : Canon vt (Chip.echo m t) := by
  unfold Chip.echo
  repeat' first | with_reducible assumption | with_reducible apply Chip.echo1_canon | with_reducible apply Canon.ite | split | with_reducible refine Canon.snd (by assumption) ?_ | with_reducible refine Canon.fst (by assumption) ?_ | with_reducible refine Canon.mid (by assumption) ?_ | with_reducible refine Canon.thd (by assumption) ?_ | dsimp only

end Sys2Proof.Machine
end

