-- ==== Sys2Proof/Laws/Events.lean ====
section
/-! SUPPORT. What counting and posting an event leave alone: everything but the counter and its SAT flag; everything but the event rings' registers,
their DRAM, the ring bookkeeping and what leaves the block. -/

namespace Sys2Proof.Machine

open Sys2Proof

/-- Whether an address is a register of an event ring. -/
def evrAddr (a : Nat) : Bool := decide (0x1000 ≤ a ∧ a < 0x1200)

/-! ### Counting -/

/-- A diagnostic counter below its largest value goes up by one (R22). -/
theorem Chip.get_count (m : Chip) {c : FRef} (sat : Option FRef) (h0 : c.lo = 0) (h1 : c.hi = 31) (hs : ∀ f, sat = some f → f.addr ≠ c.addr)
    (h : m.get c < 0xFFFFFFFF) : (m.count c sat).get c = m.get c + 1 := by
  have e : (m.put c (m.get c + 1)).get c = m.get c + 1 := by
    rw [Chip.get_put_same _ (by omega) (by omega), h0, h1, Nat.mod_eq_of_lt (by omega)]
  unfold Chip.count
  simp only [h, if_true]
  cases sat with
  | none => exact e
  | some f =>
    dsimp only
    split
    · rw [Chip.get_put_other _ (hs f rfl).symm, e]
    · exact e

/-- Counting changes no register but the counter and the one that holds its SAT flag. -/
theorem Chip.reg_count_other (m : Chip) {c : FRef} {sat : Option FRef} {a : Nat} (h : a ≠ c.addr) (hs : ∀ f, sat = some f → a ≠ f.addr) :
    (m.count c sat).reg a = m.reg a := by
  have e : (if m.get c < 0xFFFFFFFF then m.put c (m.get c + 1) else m).reg a = m.reg a := by
    split
    · exact Chip.reg_put_other _ h _
    · rfl
  unfold Chip.count
  cases sat with
  | none => exact e
  | some f =>
    dsimp only
    split
    · rw [Chip.reg_put_other _ (hs f rfl), e]
    · exact e

/-- Counting changes registers only. -/
theorem Chip.count_regs_only (m : Chip) (c : FRef) (sat : Option FRef) : ∃ r, m.count c sat = { m with regs := r } := by
  unfold Chip.count
  cases sat <;> (dsimp only; repeat' split) <;> exact ⟨_, rfl⟩

@[simp] theorem Chip.count_variant (m : Chip) (c : FRef) (sat : Option FRef) : (m.count c sat).variant = m.variant := by
  obtain ⟨r, e⟩ := m.count_regs_only c sat; rw [e]
@[simp] theorem Chip.count_pd2 (m : Chip) (c : FRef) (sat : Option FRef) : (m.count c sat).pd2 = m.pd2 := by
  obtain ⟨r, e⟩ := m.count_regs_only c sat; rw [e]
@[simp] theorem Chip.count_clk (m : Chip) (c : FRef) (sat : Option FRef) : (m.count c sat).clk = m.clk := by
  obtain ⟨r, e⟩ := m.count_regs_only c sat; rw [e]
@[simp] theorem Chip.count_reqs (m : Chip) (c : FRef) (sat : Option FRef) : (m.count c sat).reqs = m.reqs := by
  obtain ⟨r, e⟩ := m.count_regs_only c sat; rw [e]
@[simp] theorem Chip.count_units (m : Chip) (c : FRef) (sat : Option FRef) : (m.count c sat).units = m.units := by
  obtain ⟨r, e⟩ := m.count_regs_only c sat; rw [e]
@[simp] theorem Chip.count_pts (m : Chip) (c : FRef) (sat : Option FRef) : (m.count c sat).pts = m.pts := by
  obtain ⟨r, e⟩ := m.count_regs_only c sat; rw [e]
@[simp] theorem Chip.count_com (m : Chip) (c : FRef) (sat : Option FRef) : (m.count c sat).com = m.com := by
  obtain ⟨r, e⟩ := m.count_regs_only c sat; rw [e]
@[simp] theorem Chip.count_boot (m : Chip) (c : FRef) (sat : Option FRef) : (m.count c sat).boot = m.boot := by
  obtain ⟨r, e⟩ := m.count_regs_only c sat; rw [e]
@[simp] theorem Chip.count_scan (m : Chip) (c : FRef) (sat : Option FRef) : (m.count c sat).scan = m.scan := by
  obtain ⟨r, e⟩ := m.count_regs_only c sat; rw [e]
@[simp] theorem Chip.count_txn (m : Chip) (c : FRef) (sat : Option FRef) : (m.count c sat).txn = m.txn := by
  obtain ⟨r, e⟩ := m.count_regs_only c sat; rw [e]
@[simp] theorem Chip.count_upl (m : Chip) (c : FRef) (sat : Option FRef) : (m.count c sat).upl = m.upl := by
  obtain ⟨r, e⟩ := m.count_regs_only c sat; rw [e]
@[simp] theorem Chip.count_sadl (m : Chip) (c : FRef) (sat : Option FRef) : (m.count c sat).sadl = m.sadl := by
  obtain ⟨r, e⟩ := m.count_regs_only c sat; rw [e]
@[simp] theorem Chip.count_ridge (m : Chip) (c : FRef) (sat : Option FRef) : (m.count c sat).ridge = m.ridge := by
  obtain ⟨r, e⟩ := m.count_regs_only c sat; rw [e]
@[simp] theorem Chip.count_keep (m : Chip) (c : FRef) (sat : Option FRef) : (m.count c sat).keep = m.keep := by
  obtain ⟨r, e⟩ := m.count_regs_only c sat; rw [e]
@[simp] theorem Chip.count_totals (m : Chip) (c : FRef) (sat : Option FRef) : (m.count c sat).totals = m.totals := by
  obtain ⟨r, e⟩ := m.count_regs_only c sat; rw [e]
@[simp] theorem Chip.count_meter (m : Chip) (c : FRef) (sat : Option FRef) : (m.count c sat).meter = m.meter := by
  obtain ⟨r, e⟩ := m.count_regs_only c sat; rw [e]
@[simp] theorem Chip.count_vault (m : Chip) (c : FRef) (sat : Option FRef) : (m.count c sat).vault = m.vault := by
  obtain ⟨r, e⟩ := m.count_regs_only c sat; rw [e]
@[simp] theorem Chip.count_loop (m : Chip) (c : FRef) (sat : Option FRef) : (m.count c sat).loop = m.loop := by
  obtain ⟨r, e⟩ := m.count_regs_only c sat; rw [e]
@[simp] theorem Chip.count_ports (m : Chip) (c : FRef) (sat : Option FRef) : (m.count c sat).ports = m.ports := by
  obtain ⟨r, e⟩ := m.count_regs_only c sat; rw [e]
@[simp] theorem Chip.count_lamp (m : Chip) (c : FRef) (sat : Option FRef) : (m.count c sat).lamp = m.lamp := by
  obtain ⟨r, e⟩ := m.count_regs_only c sat; rw [e]
@[simp] theorem Chip.count_plan (m : Chip) (c : FRef) (sat : Option FRef) : (m.count c sat).plan = m.plan := by
  obtain ⟨r, e⟩ := m.count_regs_only c sat; rw [e]
@[simp] theorem Chip.count_guard (m : Chip) (c : FRef) (sat : Option FRef) : (m.count c sat).guard = m.guard := by
  obtain ⟨r, e⟩ := m.count_regs_only c sat; rw [e]
@[simp] theorem Chip.count_panel (m : Chip) (c : FRef) (sat : Option FRef) : (m.count c sat).panel = m.panel := by
  obtain ⟨r, e⟩ := m.count_regs_only c sat; rw [e]
@[simp] theorem Chip.count_mem (m : Chip) (c : FRef) (sat : Option FRef) : (m.count c sat).mem = m.mem := by
  obtain ⟨r, e⟩ := m.count_regs_only c sat; rw [e]
@[simp] theorem Chip.count_rings (m : Chip) (c : FRef) (sat : Option FRef) : (m.count c sat).rings = m.rings := by
  obtain ⟨r, e⟩ := m.count_regs_only c sat; rw [e]
@[simp] theorem Chip.count_out (m : Chip) (c : FRef) (sat : Option FRef) : (m.count c sat).out = m.out := by
  obtain ⟨r, e⟩ := m.count_regs_only c sat; rw [e]

/-! ### Posting -/

/-- Writing bytes changes memory only. -/
theorem Chip.setBytes_mem_only (m : Chip) (sp : Space) (i : Nat) (l : List Byte) : ∃ x, m.setBytes sp i l = { m with mem := x } := by
  induction l generalizing m i with
  | nil => exact ⟨_, rfl⟩
  | cons b t ih => obtain ⟨x, e⟩ := ih (m.setByte sp i b) (i + 1); exact ⟨x, e⟩

/-- What posting can change: registers, memory, ring bookkeeping, what leaves the block. -/
theorem Chip.arise_only (m : Chip) (e : Event) : ∃ r x g o, m.arise e = { m with regs := r, mem := x, rings := g, out := o } := by
  have lose : ∀ n, ∃ r x g o, m.ringLose n = { m with regs := r, mem := x, rings := g, out := o } := by
    intro n
    obtain ⟨r, h⟩ := m.count_regs_only (R.GEN_EVR_LOST n) (some (R.GEN_EVR_CFG_LOST_SAT n))
    unfold Chip.ringLose
    rw [h]
    exact ⟨_, _, _, _, rfl⟩
  have write : ∀ n, ∃ r x g o, m.ringWrite n e = { m with regs := r, mem := x, rings := g, out := o } := by
    intro n
    unfold Chip.ringWrite
    dsimp only
    generalize m.ringBase n + 64 * (m.get (R.GEN_EVR_HEAD n) % m.ringLen n) = off
    generalize e.body _ _ ++ _ = l
    obtain ⟨x, h⟩ := m.setBytes_mem_only .dram off l
    rw [h]
    split
    · exact ⟨_, _, _, _, rfl⟩
    · exact ⟨_, _, _, _, rfl⟩
  unfold Chip.arise Chip.judge
  dsimp only
  repeat' split
  all_goals first | exact lose _ | exact write _ | exact ⟨_, _, _, _, rfl⟩

@[simp] theorem Chip.post_variant (m : Chip) (e : Event) : (m.post e).variant = m.variant := by
  obtain ⟨r, x, g, o, h⟩ := m.arise_only { e with time := m.stamp, untrusted := !m.trusted }; rw [Chip.post, h]
@[simp] theorem Chip.postAt_variant (m : Chip) (t : DWord) (e : Event) : (m.postAt t e).variant = m.variant := by
  obtain ⟨r, x, g, o, h⟩ := m.arise_only { e with time := t, untrusted := !m.trusted }; rw [Chip.postAt, h]
@[simp] theorem Chip.post_pd2 (m : Chip) (e : Event) : (m.post e).pd2 = m.pd2 := by
  obtain ⟨r, x, g, o, h⟩ := m.arise_only { e with time := m.stamp, untrusted := !m.trusted }; rw [Chip.post, h]
@[simp] theorem Chip.postAt_pd2 (m : Chip) (t : DWord) (e : Event) : (m.postAt t e).pd2 = m.pd2 := by
  obtain ⟨r, x, g, o, h⟩ := m.arise_only { e with time := t, untrusted := !m.trusted }; rw [Chip.postAt, h]
@[simp] theorem Chip.post_clk (m : Chip) (e : Event) : (m.post e).clk = m.clk := by
  obtain ⟨r, x, g, o, h⟩ := m.arise_only { e with time := m.stamp, untrusted := !m.trusted }; rw [Chip.post, h]
@[simp] theorem Chip.postAt_clk (m : Chip) (t : DWord) (e : Event) : (m.postAt t e).clk = m.clk := by
  obtain ⟨r, x, g, o, h⟩ := m.arise_only { e with time := t, untrusted := !m.trusted }; rw [Chip.postAt, h]
@[simp] theorem Chip.post_reqs (m : Chip) (e : Event) : (m.post e).reqs = m.reqs := by
  obtain ⟨r, x, g, o, h⟩ := m.arise_only { e with time := m.stamp, untrusted := !m.trusted }; rw [Chip.post, h]
@[simp] theorem Chip.postAt_reqs (m : Chip) (t : DWord) (e : Event) : (m.postAt t e).reqs = m.reqs := by
  obtain ⟨r, x, g, o, h⟩ := m.arise_only { e with time := t, untrusted := !m.trusted }; rw [Chip.postAt, h]
@[simp] theorem Chip.post_units (m : Chip) (e : Event) : (m.post e).units = m.units := by
  obtain ⟨r, x, g, o, h⟩ := m.arise_only { e with time := m.stamp, untrusted := !m.trusted }; rw [Chip.post, h]
@[simp] theorem Chip.postAt_units (m : Chip) (t : DWord) (e : Event) : (m.postAt t e).units = m.units := by
  obtain ⟨r, x, g, o, h⟩ := m.arise_only { e with time := t, untrusted := !m.trusted }; rw [Chip.postAt, h]
@[simp] theorem Chip.post_pts (m : Chip) (e : Event) : (m.post e).pts = m.pts := by
  obtain ⟨r, x, g, o, h⟩ := m.arise_only { e with time := m.stamp, untrusted := !m.trusted }; rw [Chip.post, h]
@[simp] theorem Chip.postAt_pts (m : Chip) (t : DWord) (e : Event) : (m.postAt t e).pts = m.pts := by
  obtain ⟨r, x, g, o, h⟩ := m.arise_only { e with time := t, untrusted := !m.trusted }; rw [Chip.postAt, h]
@[simp] theorem Chip.post_com (m : Chip) (e : Event) : (m.post e).com = m.com := by
  obtain ⟨r, x, g, o, h⟩ := m.arise_only { e with time := m.stamp, untrusted := !m.trusted }; rw [Chip.post, h]
@[simp] theorem Chip.postAt_com (m : Chip) (t : DWord) (e : Event) : (m.postAt t e).com = m.com := by
  obtain ⟨r, x, g, o, h⟩ := m.arise_only { e with time := t, untrusted := !m.trusted }; rw [Chip.postAt, h]
@[simp] theorem Chip.post_boot (m : Chip) (e : Event) : (m.post e).boot = m.boot := by
  obtain ⟨r, x, g, o, h⟩ := m.arise_only { e with time := m.stamp, untrusted := !m.trusted }; rw [Chip.post, h]
@[simp] theorem Chip.postAt_boot (m : Chip) (t : DWord) (e : Event) : (m.postAt t e).boot = m.boot := by
  obtain ⟨r, x, g, o, h⟩ := m.arise_only { e with time := t, untrusted := !m.trusted }; rw [Chip.postAt, h]
@[simp] theorem Chip.post_scan (m : Chip) (e : Event) : (m.post e).scan = m.scan := by
  obtain ⟨r, x, g, o, h⟩ := m.arise_only { e with time := m.stamp, untrusted := !m.trusted }; rw [Chip.post, h]
@[simp] theorem Chip.postAt_scan (m : Chip) (t : DWord) (e : Event) : (m.postAt t e).scan = m.scan := by
  obtain ⟨r, x, g, o, h⟩ := m.arise_only { e with time := t, untrusted := !m.trusted }; rw [Chip.postAt, h]
@[simp] theorem Chip.post_txn (m : Chip) (e : Event) : (m.post e).txn = m.txn := by
  obtain ⟨r, x, g, o, h⟩ := m.arise_only { e with time := m.stamp, untrusted := !m.trusted }; rw [Chip.post, h]
@[simp] theorem Chip.postAt_txn (m : Chip) (t : DWord) (e : Event) : (m.postAt t e).txn = m.txn := by
  obtain ⟨r, x, g, o, h⟩ := m.arise_only { e with time := t, untrusted := !m.trusted }; rw [Chip.postAt, h]
@[simp] theorem Chip.post_upl (m : Chip) (e : Event) : (m.post e).upl = m.upl := by
  obtain ⟨r, x, g, o, h⟩ := m.arise_only { e with time := m.stamp, untrusted := !m.trusted }; rw [Chip.post, h]
@[simp] theorem Chip.postAt_upl (m : Chip) (t : DWord) (e : Event) : (m.postAt t e).upl = m.upl := by
  obtain ⟨r, x, g, o, h⟩ := m.arise_only { e with time := t, untrusted := !m.trusted }; rw [Chip.postAt, h]
@[simp] theorem Chip.post_sadl (m : Chip) (e : Event) : (m.post e).sadl = m.sadl := by
  obtain ⟨r, x, g, o, h⟩ := m.arise_only { e with time := m.stamp, untrusted := !m.trusted }; rw [Chip.post, h]
@[simp] theorem Chip.postAt_sadl (m : Chip) (t : DWord) (e : Event) : (m.postAt t e).sadl = m.sadl := by
  obtain ⟨r, x, g, o, h⟩ := m.arise_only { e with time := t, untrusted := !m.trusted }; rw [Chip.postAt, h]
@[simp] theorem Chip.post_ridge (m : Chip) (e : Event) : (m.post e).ridge = m.ridge := by
  obtain ⟨r, x, g, o, h⟩ := m.arise_only { e with time := m.stamp, untrusted := !m.trusted }; rw [Chip.post, h]
@[simp] theorem Chip.postAt_ridge (m : Chip) (t : DWord) (e : Event) : (m.postAt t e).ridge = m.ridge := by
  obtain ⟨r, x, g, o, h⟩ := m.arise_only { e with time := t, untrusted := !m.trusted }; rw [Chip.postAt, h]
@[simp] theorem Chip.post_keep (m : Chip) (e : Event) : (m.post e).keep = m.keep := by
  obtain ⟨r, x, g, o, h⟩ := m.arise_only { e with time := m.stamp, untrusted := !m.trusted }; rw [Chip.post, h]
@[simp] theorem Chip.postAt_keep (m : Chip) (t : DWord) (e : Event) : (m.postAt t e).keep = m.keep := by
  obtain ⟨r, x, g, o, h⟩ := m.arise_only { e with time := t, untrusted := !m.trusted }; rw [Chip.postAt, h]
@[simp] theorem Chip.post_totals (m : Chip) (e : Event) : (m.post e).totals = m.totals := by
  obtain ⟨r, x, g, o, h⟩ := m.arise_only { e with time := m.stamp, untrusted := !m.trusted }; rw [Chip.post, h]
@[simp] theorem Chip.postAt_totals (m : Chip) (t : DWord) (e : Event) : (m.postAt t e).totals = m.totals := by
  obtain ⟨r, x, g, o, h⟩ := m.arise_only { e with time := t, untrusted := !m.trusted }; rw [Chip.postAt, h]
@[simp] theorem Chip.post_meter (m : Chip) (e : Event) : (m.post e).meter = m.meter := by
  obtain ⟨r, x, g, o, h⟩ := m.arise_only { e with time := m.stamp, untrusted := !m.trusted }; rw [Chip.post, h]
@[simp] theorem Chip.postAt_meter (m : Chip) (t : DWord) (e : Event) : (m.postAt t e).meter = m.meter := by
  obtain ⟨r, x, g, o, h⟩ := m.arise_only { e with time := t, untrusted := !m.trusted }; rw [Chip.postAt, h]
@[simp] theorem Chip.post_vault (m : Chip) (e : Event) : (m.post e).vault = m.vault := by
  obtain ⟨r, x, g, o, h⟩ := m.arise_only { e with time := m.stamp, untrusted := !m.trusted }; rw [Chip.post, h]
@[simp] theorem Chip.postAt_vault (m : Chip) (t : DWord) (e : Event) : (m.postAt t e).vault = m.vault := by
  obtain ⟨r, x, g, o, h⟩ := m.arise_only { e with time := t, untrusted := !m.trusted }; rw [Chip.postAt, h]
@[simp] theorem Chip.post_loop (m : Chip) (e : Event) : (m.post e).loop = m.loop := by
  obtain ⟨r, x, g, o, h⟩ := m.arise_only { e with time := m.stamp, untrusted := !m.trusted }; rw [Chip.post, h]
@[simp] theorem Chip.postAt_loop (m : Chip) (t : DWord) (e : Event) : (m.postAt t e).loop = m.loop := by
  obtain ⟨r, x, g, o, h⟩ := m.arise_only { e with time := t, untrusted := !m.trusted }; rw [Chip.postAt, h]
@[simp] theorem Chip.post_ports (m : Chip) (e : Event) : (m.post e).ports = m.ports := by
  obtain ⟨r, x, g, o, h⟩ := m.arise_only { e with time := m.stamp, untrusted := !m.trusted }; rw [Chip.post, h]
@[simp] theorem Chip.postAt_ports (m : Chip) (t : DWord) (e : Event) : (m.postAt t e).ports = m.ports := by
  obtain ⟨r, x, g, o, h⟩ := m.arise_only { e with time := t, untrusted := !m.trusted }; rw [Chip.postAt, h]
@[simp] theorem Chip.post_lamp (m : Chip) (e : Event) : (m.post e).lamp = m.lamp := by
  obtain ⟨r, x, g, o, h⟩ := m.arise_only { e with time := m.stamp, untrusted := !m.trusted }; rw [Chip.post, h]
@[simp] theorem Chip.postAt_lamp (m : Chip) (t : DWord) (e : Event) : (m.postAt t e).lamp = m.lamp := by
  obtain ⟨r, x, g, o, h⟩ := m.arise_only { e with time := t, untrusted := !m.trusted }; rw [Chip.postAt, h]
@[simp] theorem Chip.post_plan (m : Chip) (e : Event) : (m.post e).plan = m.plan := by
  obtain ⟨r, x, g, o, h⟩ := m.arise_only { e with time := m.stamp, untrusted := !m.trusted }; rw [Chip.post, h]
@[simp] theorem Chip.postAt_plan (m : Chip) (t : DWord) (e : Event) : (m.postAt t e).plan = m.plan := by
  obtain ⟨r, x, g, o, h⟩ := m.arise_only { e with time := t, untrusted := !m.trusted }; rw [Chip.postAt, h]
@[simp] theorem Chip.post_guard (m : Chip) (e : Event) : (m.post e).guard = m.guard := by
  obtain ⟨r, x, g, o, h⟩ := m.arise_only { e with time := m.stamp, untrusted := !m.trusted }; rw [Chip.post, h]
@[simp] theorem Chip.postAt_guard (m : Chip) (t : DWord) (e : Event) : (m.postAt t e).guard = m.guard := by
  obtain ⟨r, x, g, o, h⟩ := m.arise_only { e with time := t, untrusted := !m.trusted }; rw [Chip.postAt, h]
@[simp] theorem Chip.post_panel (m : Chip) (e : Event) : (m.post e).panel = m.panel := by
  obtain ⟨r, x, g, o, h⟩ := m.arise_only { e with time := m.stamp, untrusted := !m.trusted }; rw [Chip.post, h]
@[simp] theorem Chip.postAt_panel (m : Chip) (t : DWord) (e : Event) : (m.postAt t e).panel = m.panel := by
  obtain ⟨r, x, g, o, h⟩ := m.arise_only { e with time := t, untrusted := !m.trusted }; rw [Chip.postAt, h]

theorem Chip.reg_ringLose (m : Chip) {n a : Nat} (hn : n < 16) (h : evrAddr a = false) : (m.ringLose n).reg a = m.reg a := by
  have ha : ¬ (0x1000 ≤ a ∧ a < 0x1200) := by simpa [evrAddr] using h
  show (m.count _ _).reg a = m.reg a
  refine Chip.reg_count_other _ ?_ ?_
  · simp only [R.GEN_EVR_LOST]; omega
  · intro f hf; cases hf; simp only [R.GEN_EVR_CFG_LOST_SAT]; omega

theorem Chip.reg_ringWrite (m : Chip) {n a : Nat} (hn : n < 16) (e : Event) (h : evrAddr a = false) : (m.ringWrite n e).reg a = m.reg a := by
  have ha : ¬ (0x1000 ≤ a ∧ a < 0x1200) := by simpa [evrAddr] using h
  have hb : a ≠ (R.GEN_EVR_HEAD n).addr := by simp only [R.GEN_EVR_HEAD]; omega
  have key : ∀ sp i l v, ((m.setBytes sp i l).put (R.GEN_EVR_HEAD n) v).reg a = m.reg a := by
    intro sp i l v
    rw [Chip.reg_put_other _ hb]
    simp only [Chip.reg, Chip.regs_setBytes]
  unfold Chip.ringWrite
  dsimp only
  generalize m.ringBase n + 64 * (m.get (R.GEN_EVR_HEAD n) % m.ringLen n) = off
  generalize e.body _ _ ++ _ = l
  have := key .dram off l (m.get (R.GEN_EVR_HEAD n) + 1)
  split
  · exact this
  · exact this

theorem Chip.reg_judge (m : Chip) {a : Nat} (e : Event) (h : evrAddr a = false) : (m.judge e).reg a = m.reg a := by
  have hn : m.get (R.GEN_EVR_MAP_RING e.unit) < 16 := bits_lt _ 3 0
  unfold Chip.judge
  dsimp only
  repeat' split
  · rfl
  · exact Chip.reg_ringLose _ hn h
  · exact Chip.reg_ringWrite _ hn _ h

theorem Chip.reg_arise (m : Chip) {a : Nat} (e : Event) (h : evrAddr a = false) : (m.arise e).reg a = m.reg a := by
  unfold Chip.arise
  repeat' split
  · exact Chip.reg_judge _ _ h
  · rfl
  · exact Chip.reg_ringLose _ (by omega) h

/-- Posting an event changes no register but those of the event rings. -/
theorem Chip.reg_post (m : Chip) {a : Nat} (e : Event) (h : evrAddr a = false) : (m.post e).reg a = m.reg a := Chip.reg_arise _ _ h

theorem Chip.reg_postAt (m : Chip) {a : Nat} (t : DWord) (e : Event) (h : evrAddr a = false) : (m.postAt t e).reg a = m.reg a :=
  Chip.reg_arise _ _ h

/-- The same of a field. -/
theorem Chip.get_post (m : Chip) {f : FRef} (e : Event) (h : evrAddr f.addr = false) : (m.post e).get f = m.get f := by
  simp only [Chip.get, Chip.reg_post m e h]

theorem Chip.get_postAt (m : Chip) {f : FRef} (t : DWord) (e : Event) (h : evrAddr f.addr = false) : (m.postAt t e).get f = m.get f := by
  simp only [Chip.get, Chip.reg_postAt m t e h]

end Sys2Proof.Machine
end

