-- ==== Sys2Proof/Laws/Invariants.lean ====
section
/-! SUPPORT. Three properties that the operations keep (Laws/Canon.lean): the canonical form of registers and memories, with the chip's variant; a locked
interlock table; the guard die as it stands. -/

namespace Sys2Proof.Machine

open Sys2Proof

/-- The chip is of variant v, and its registers and memories are in canonical form. -/
def Inv.canon (v : Variant) : InvG where
  P m := m.variant = v ∧ Regs.wf m.regs = true ∧ Memory.wf m.mem = true
  pd2' h := h
  clk' h := h
  reqs' h := h
  units' h := h
  rings' h := h
  pts' h := h
  com' h := h
  boot' h := h
  scan' h := h
  txn' h := h
  upl' h := h
  sadl' h := h
  ridge' h := h
  keep' h := h
  totals' h := h
  meter' h := h
  vault' h := h
  loop' h := h
  ports' h := h
  lamp' h := h
  plan' h := h
  panel' h := h
  out' h := h
  setReg h := ⟨h.1, Regs.wf_put _ _ h.2.1, h.2.2⟩
  setByte h := ⟨h.1, h.2.1, Memory.wf_put _ _ h.2.2⟩
  clearSpace h := ⟨h.1, h.2.1, Memory.wf_filter _ h.2.2⟩
  dark h := ⟨h.1, Regs.wf_filter _ h.2.1, Memory.wf_filter _ h.2.2⟩
  guardT h _ := h
  guard' h := h

/-- A property of the guard die alone. -/
def Inv.ofGuard (p : Guard → Prop) : Inv where
  P m := p m.guard
  pd2' h := h
  clk' h := h
  reqs' h := h
  units' h := h
  rings' h := h
  pts' h := h
  com' h := h
  boot' h := h
  scan' h := h
  txn' h := h
  upl' h := h
  sadl' h := h
  ridge' h := h
  keep' h := h
  totals' h := h
  meter' h := h
  vault' h := h
  loop' h := h
  ports' h := h
  lamp' h := h
  plan' h := h
  panel' h := h
  out' h := h
  setReg h := h
  setByte h := h
  clearSpace h := h
  dark h := h

/-- The guard die is as g says. -/
def Inv.guardIs (g : Guard) : Inv := Inv.ofGuard (· = g)

/-- The guard die holds the interlock table b. -/
def Inv.locked (b : Option (List Byte)) : InvT :=
  { Inv.ofGuard (fun g => g.table = b) with guardT := fun h e => e.trans h }

end Sys2Proof.Machine
end

