-- ==== Sys2Proof/Laws/Wasa.lean ====
section
/-! SUPPORT. What issuing an instruction on a Wasa core comes to: the instruction runs where none of the checks of R102 meets it, and what it leaves where it only
changes the core, or stores and leaves the core. -/

namespace Sys2Proof.Machine

open Sys2Proof

@[simp] theorem Core.op_long (k : Core) (c : Nat) (w : Word) (x : Option Word) : (k.op c w x).long = xBit w := by
  unfold Core.op Op.long; dsimp only; split <;> simp_all

@[simp] theorem Core.op_len (k : Core) (c : Nat) (w : Word) (x : Option Word) : (k.op c w x).len = if xBit w then 8 else 4 := by
  simp [Op.len]

theorem Core.op_ext (k : Core) (c : Nat) (w : Word) (x : Option Word) : (k.op c w x).ext = if xBit w then x.getD 0 else 0 := by
  unfold Core.op Op.ext; dsimp only; split <;> simp_all

/-- The form of an instruction. -/
abbrev Insn.form (i : Insn) : Form := { fmode := i.fmode, long := i.long, zs := i.zs, zl := i.zl, zx := i.zx, clocks := i.clocks }

/-- An allowed form meets none of the ILLEGAL checks that come before an instruction runs. -/
theorem Insn.refuse_none {k : Core} {c : Nat} {w : Word} {x : Option Word} {i : Insn} (hp : k.pc.toNat < k.img.codeSize)
    (ha : Allowed i.form k w x) (hb : i.bad (k.op c w x) = false) : i.refuse (k.op c w x) k = none := by
  have e1 : (k.op c w x).pc = k.pc := rfl
  have e2 : (k.op c w x).w = w := rfl
  have h1 := ha.format; have h2 := ha.form; have h3 := ha.word; have h4 := ha.ext
  unfold Insn.refuse
  rw [e1, e2, if_neg (by omega), Core.op_long, Core.op_ext, hb]
  have f1 : (k.img.fmode && !i.fmode) = false := by cases h : k.img.fmode <;> simp_all
  by_cases hx : xBit w = true
  · simp only [hx, if_true, forall_const] at h2 h3 h4 ⊢
    simp [f1, h2, h3]
    exact h4
  · simp only [Bool.not_eq_true] at hx
    simp only [hx, Bool.false_eq_true, if_false] at h3 ⊢
    simp [f1, h3]

/-- Nothing happens on an access to memory none of whose words has an error. -/
theorem Chip.ecc_sound {m : Chip} {c : Nat} {k : Core} {code : Bool} {l : List (Nat × Nat)}
    (h : ∀ u ∈ m.scan.upsets, u.key ≠ k.dataKey c) : m.ecc c k code l = (true, m) := by
  have e : m.scan.upsets.filter (fun u => u.key == k.dataKey c && u.code == code && u.meets l) = [] := by
    rw [List.filter_eq_nil_iff]; intro u hu; simp [h u hu]
  unfold Chip.ecc
  dsimp only
  rw [e]
  rfl

/-- What an access that meets bit errors can do: the access goes on with them corrected, or a double-bit error stops it and nothing has changed. -/
theorem Chip.ecc_cases {m : Chip} {c : Nat} {k : Core} {code : Bool} {l : List (Nat × Nat)} :
    m.ecc c k code l = (true, m) ∨ m.ecc c k code l = (false, m) ∨ (m.ecc c k code l).1 = true := by
  unfold Chip.ecc
  dsimp only
  split
  · exact .inl rfl
  · split
    · exact .inr (.inl rfl)
    · exact .inr (.inr rfl)

/-- An access to one word of a program's memory that alone has an error: a double-bit error stops it, a single-bit error is corrected. -/
theorem Chip.ecc_one {m : Chip} {c : Nat} {k : Core} {code double : Bool} {word : Nat} {t : List Upset} {l : List (Nat × Nat)}
    (h : m.scan.upsets = ⟨k.dataKey c, code, word, double⟩ :: t) (ht : ∀ u ∈ t, u.key ≠ k.dataKey c)
    (hl : Upset.meets ⟨k.dataKey c, code, word, double⟩ l = true) (he : k.echo = none) :
    m.ecc c k code l = if double then (false, m) else (true, (m.withScan { m.scan with upsets := t }).post
      (ev 4 0x0121 1 (if k.isTask then k.prog else 0x100 + (c - 32)) 0 [])) := by
  have e : m.scan.upsets.filter (fun u => u.key == k.dataKey c && u.code == code && u.meets l) = [⟨k.dataKey c, code, word, double⟩] := by
    rw [h, List.filter_cons, if_pos (by simp [hl]), List.filter_eq_nil_iff.mpr (fun u hu => by simp [ht u hu])]
  have e2 : m.scan.upsets.filter (fun u => !([⟨k.dataKey c, code, word, double⟩] : List Upset).contains u) = t := by
    rw [h, List.filter_cons, if_neg (by simp)]
    refine List.filter_eq_self.mpr fun u hu => ?_
    have := ht u hu
    simp only [Bool.not_eq_true', List.contains_eq_mem, decide_eq_false_iff_not, List.mem_singleton]
    rintro rfl
    exact this rfl
  unfold Chip.ecc Chip.corrected
  dsimp only
  rw [e, e2]
  cases double <;> simp [he]

/-- An access to words of the other SRAM than the one in which the program's only error lies meets nothing. -/
theorem Chip.ecc_other {m : Chip} {c : Nat} {k : Core} {code double : Bool} {word : Nat} {t : List Upset} {l : List (Nat × Nat)}
    (h : m.scan.upsets = ⟨k.dataKey c, !code, word, double⟩ :: t) (ht : ∀ u ∈ t, u.key ≠ k.dataKey c) : m.ecc c k code l = (true, m) := by
  have e : m.scan.upsets.filter (fun u => u.key == k.dataKey c && u.code == code && u.meets l) = [] := by
    rw [h, List.filter_cons, if_neg (by cases code <;> simp), List.filter_eq_nil_iff.mpr (fun u hu => by simp [ht u hu])]
  unfold Chip.ecc
  dsimp only
  rw [e]
  rfl

/-- A ready core takes its turn. -/
theorem Chip.issue_turn {s : State} {c : Fin 36} {w : Word} {x : Option Word} {i : Insn} (hi : Ready s c) :
    s.chip.issue c.val w x i = Chip.settleCore c.val (s.chip.turn ((s.chip.core c.val).op c.val w x) (s.chip.core c.val) i) := by
  have h1 := hi.runs; have h2 := hi.clock; have h3 := hi.budget
  unfold Chip.issue
  rw [if_neg, if_neg]
  · intro h; simp at h; exact h3 h.1 h.2
  · simp [h2]; intro h; simp [h] at h1

/-- Issuing an instruction that meets no check runs it. -/
theorem Chip.issue_runs {s : State} {c : Fin 36} {w : Word} {x : Option Word} {i : Insn} (hi : Issues s c)
    (ha : Allowed i.form (s.chip.core c.val) w x)
    (hb : i.bad ((s.chip.core c.val).op c.val w x) = false) :
    ∃ n, i.clocks + bit (xBit w) ≤ n ∧ s.chip.issue c.val w x i = Chip.settleCore c.val
      (match i.run ((s.chip.core c.val).op c.val w x) s.chip.clocked ((s.chip.core c.val).issued w n) with
        | .go m1 k1 => (m1, k1, none)
        | .trap t m1 k1 => m1.takeTrap ((s.chip.core c.val).op c.val w x) k1 t
        | .stop m1 k1 good => (m1, k1, some good)) := by
  refine ⟨i.clocks + bit (xBit w) + Config.stall s.chip.clk.free, by omega, ?_⟩
  rw [Chip.issue_turn hi.toReady]
  congr 1
  have es : ∀ code l, (s.chip.withClk { s.chip.clk with free := s.chip.clk.free + 1 }).ecc c.val (s.chip.core c.val) code l
      = (true, s.chip.withClk { s.chip.clk with free := s.chip.clk.free + 1 }) := fun code l => Chip.ecc_sound hi.sound
  unfold Chip.turn
  dsimp only
  rw [show ((s.chip.core c.val).op c.val w x).c = c.val from rfl]
  simp only [es]
  rw [if_neg (by decide), Insn.refuse_none hi.code ha hb]
  dsimp only
  rw [if_neg (by decide)]
  rw [Core.op_long, Core.op_len]
  have e2 : ∀ b : Bool, BitVec.ofNat 32 (if b then 8 else 4) = (if b then (8 : Word) else 4) := by decide
  rw [e2]
  rfl

/-- An instruction that runs and goes on leaves the chip and the core that its effect gives. -/
theorem gives_of_go {s : State} {c : Fin 36} {w : Word} {x : Option Word} {i : Insn} {ins : Instr} {e : Core → Chip × Core}
    (he : exec ins s = s.act (·.issue c.val w x i)) (hi : Issues s c) (ha : Allowed i.form (s.chip.core c.val) w x)
    (hb : i.bad (s.op c w x) = false)
    (hr : ∀ n, i.run (s.op c w x) s.chip.clocked ((s.chip.core c.val).issued w n)
      = .go (e ((s.chip.core c.val).issued w n)).1 (e ((s.chip.core c.val).issued w n)).2) :
    ∃ n, i.clocks + bit (xBit w) ≤ n ∧
      Gives ins s ((e ((s.chip.core c.val).issued w n)).1.setCore c.val (e ((s.chip.core c.val).issued w n)).2) := by
  obtain ⟨n, hn, h⟩ := Chip.issue_runs hi ha hb
  refine ⟨n, hn, ?_⟩
  unfold Gives
  rw [he, State.act_on hi.on, h]
  unfold State.op at hr
  rw [hr]
  rfl

/-! Issuing an instruction changes the PC, the clocks and RETRY's suppression only. -/

@[simp] theorem Core.issued_level (k : Core) (w : Word) (q : Nat) : (k.issued w q).level = k.level := rfl
@[simp] theorem Core.issued_prog (k : Core) (w : Word) (q : Nat) : (k.issued w q).prog = k.prog := rfl
@[simp] theorem Core.issued_img (k : Core) (w : Word) (q : Nat) : (k.issued w q).img = k.img := rfl
@[simp] theorem Core.issued_ba (k : Core) (w : Word) (q : Nat) : (k.issued w q).ba = k.ba := rfl
@[simp] theorem Core.issued_bs (k : Core) (w : Word) (q : Nat) : (k.issued w q).bs = k.bs := rfl
@[simp] theorem Core.issued_wa (k : Core) (w : Word) (q : Nat) : (k.issued w q).wa = k.wa := rfl
@[simp] theorem Core.issued_wb (k : Core) (w : Word) (q : Nat) : (k.issued w q).wb = k.wb := rfl
@[simp] theorem Core.issued_g (k : Core) (w : Word) (q : Nat) : (k.issued w q).g = k.g := rfl
@[simp] theorem Core.issued_f (k : Core) (w : Word) (q : Nat) : (k.issued w q).f = k.f := rfl
@[simp] theorem Core.issued_z (k : Core) (w : Word) (q : Nat) : (k.issued w q).z = k.z := rfl
@[simp] theorem Core.issued_n (k : Core) (w : Word) (q : Nat) : (k.issued w q).n = k.n := rfl
@[simp] theorem Core.issued_c (k : Core) (w : Word) (q : Nat) : (k.issued w q).c = k.c := rfl
@[simp] theorem Core.issued_v (k : Core) (w : Word) (q : Nat) : (k.issued w q).v = k.v := rfl
@[simp] theorem Core.issued_idz (k : Core) (w : Word) (q : Nat) : (k.issued w q).idz = k.idz := rfl
@[simp] theorem Core.issued_prej (k : Core) (w : Word) (q : Nat) : (k.issued w q).prej = k.prej := rfl
@[simp] theorem Core.issued_rm (k : Core) (w : Word) (q : Nat) : (k.issued w q).rm = k.rm := rfl
@[simp] theorem Core.issued_fflags (k : Core) (w : Word) (q : Nat) : (k.issued w q).fflags = k.fflags := rfl
@[simp] theorem Core.issued_tcfg (k : Core) (w : Word) (q : Nat) : (k.issued w q).tcfg = k.tcfg := rfl
@[simp] theorem Core.issued_pq (k : Core) (w : Word) (q : Nat) : (k.issued w q).pq = k.pq := rfl
@[simp] theorem Core.issued_trec (k : Core) (w : Word) (q : Nat) : (k.issued w q).trec = k.trec := rfl
@[simp] theorem Core.issued_tinsn (k : Core) (w : Word) (q : Nat) : (k.issued w q).tinsn = k.tinsn := rfl
@[simp] theorem Core.issued_taddr (k : Core) (w : Word) (q : Nat) : (k.issued w q).taddr = k.taddr := rfl
@[simp] theorem Core.issued_ltime (k : Core) (w : Word) (q : Nat) : (k.issued w q).ltime = k.ltime := rfl
@[simp] theorem Core.issued_trap (k : Core) (w : Word) (q : Nat) : (k.issued w q).trap = k.trap := rfl
@[simp] theorem Core.issued_posted (k : Core) (w : Word) (q : Nat) : (k.issued w q).posted = k.posted := rfl
@[simp] theorem Core.issued_echo (k : Core) (w : Word) (q : Nat) : (k.issued w q).echo = k.echo := rfl
@[simp] theorem Core.issued_gr (k : Core) (w : Word) (q : Nat) (i : Nat) : (k.issued w q).gr i = k.gr i := rfl
@[simp] theorem Core.issued_fr (k : Core) (w : Word) (q : Nat) (i : Nat) : (k.issued w q).fr i = k.fr i := rfl
@[simp] theorem Core.issued_wr (k : Core) (w : Word) (q : Nat) (b : Bool) : (k.issued w q).wr b = k.wr b := rfl
@[simp] theorem Core.issued_cond (k : Core) (w : Word) (q : Nat) (i : Nat) : (k.issued w q).cond i = k.cond i := rfl
@[simp] theorem Core.issued_isTask (k : Core) (w : Word) (q : Nat) : (k.issued w q).isTask = k.isTask := rfl
@[simp] theorem Core.issued_isCheck (k : Core) (w : Word) (q : Nat) : (k.issued w q).isCheck = k.isCheck := rfl
@[simp] theorem Core.issued_dataKey (k : Core) (w : Word) (q c : Nat) : (k.issued w q).dataKey c = k.dataKey c := rfl
@[simp] theorem Op.issued_second (o : Op) (k : Core) (w : Word) (q : Nat) : o.second (k.issued w q) = o.second k := rfl
@[simp] theorem Op.issued_address (o : Op) (k : Core) (w : Word) (q : Nat) : o.address (k.issued w q) = o.address k := rfl
@[simp] theorem Core.issued_inRegion (k : Core) (w : Word) (q r a n : Nat) (b : Bool) : (k.issued w q).inRegion r a n b = k.inRegion r a n b := rfl
@[simp] theorem Core.issued_inMemory (k : Core) (w : Word) (q n : Nat) (a : DWord) (b : Bool) : (k.issued w q).inMemory a n b = k.inMemory a n b := rfl
@[simp] theorem Core.issued_inBits (k : Core) (w : Word) (q r n : Nat) (b : Bool) : (k.issued w q).inBits r n b = k.inBits r n b := rfl

/-- The clocks of an instruction change no byte. -/
@[simp] theorem Chip.clocked_rd (m : Chip) (sp : Space) (a n : Nat) : m.clocked.rd sp a n = m.rd sp a n :=
  congrArg ofLe (Chip.bytes_of_mem (m := m.clocked) (n := m) rfl sp a n)

/-- What an access that meets no trap comes to: its data address. -/
theorem Core.inRegion_ok {k : Core} {r off n a : Nat} {b : Bool} (h : k.inRegion r off n b = .ok a) : a = regionBase r + off := by
  unfold Core.inRegion at h
  dsimp only at h
  split at h <;> try contradiction
  repeat (split at h <;> try contradiction)
  simpa using h.symm

theorem regionBase_le (a : Nat) : regionBase (regionOf a) ≤ a := by
  unfold regionOf
  repeat' split
  all_goals simp [regionBase]
  all_goals omega

theorem Core.inMemory_ok {k : Core} {v : DWord} {n a : Nat} {b : Bool} (h : k.inMemory v n b = .ok a) : a = v.toNat := by
  unfold Core.inMemory at h
  split at h
  · contradiction
  · have := Core.inRegion_ok h
    have := regionBase_le v.toNat
    omega

/-- What a bit access that meets no trap comes to: where its region starts. -/
theorem Core.inBits_ok {k : Core} {r n a : Nat} {b : Bool} (h : k.inBits r n b = .ok a) : a = k.regionAt r := by
  unfold Core.inBits at h
  unfold Core.regionAt
  split at h <;> try contradiction
  rename_i e
  repeat (split at h <;> try contradiction)
  rw [e]
  simpa using h.symm

/-- An instruction that only changes its core. -/
theorem computes_of {i : Insn} {ins : Fin 36 → Word → Option Word → Instr} {pre : Chip → Op → Core → Prop} {g : Chip → Op → Core → Core}
    (he : ∀ c w x s, exec (ins c w x) s = s.act (·.issue c.val w x i))
    (hb : ∀ m o k, pre m o k → i.bad o = false)
    (hr : ∀ m o k w n, pre m o k → i.run o m.clocked (k.issued w n) = .go m.clocked (g m o (k.issued w n))) :
    Computes i.form ins pre g := by
  intro c w x s hi ha hp
  obtain ⟨n, hn, h⟩ := gives_of_go (e := fun k => (s.chip.clocked, g s.chip (s.op c w x) k)) (he c w x s) hi ha (hb _ _ _ hp)
    (fun n => hr _ _ _ _ _ hp)
  refine ⟨n, hn, _, h, ?_⟩
  exact ⟨AMap.get_put_same _ _ _ _, fun j hj => AMap.get_put_other _ _ hj _ _, fun _ => rfl, fun _ _ => rfl⟩

/-- An instruction that runs and goes on. -/
theorem acts_of {i : Insn} {ins : Fin 36 → Word → Option Word → Instr} {pre : Chip → Op → Core → Prop} {e : Chip → Op → Core → Chip × Core}
    (he : ∀ c w x s, exec (ins c w x) s = s.act (·.issue c.val w x i))
    (hb : ∀ m o k, pre m o k → i.bad o = false)
    (hr : ∀ m o k w n, pre m o k → i.run o m.clocked (k.issued w n) = .go (e m.clocked o (k.issued w n)).1 (e m.clocked o (k.issued w n)).2) :
    Acts i.form ins pre e := by
  intro c w x s hi ha hp
  exact gives_of_go (e := fun k => e s.chip.clocked (s.op c w x) k) (he c w x s) hi ha (hb _ _ _ hp) (fun n => hr _ _ _ _ _ hp)

/-- An instruction that stores bytes of its program's data memory. -/
theorem stores_of {i : Insn} {ins : Fin 36 → Word → Option Word → Instr} {pre : Chip → Op → Core → Prop} {a : Op → Core → Nat}
    {l : Chip → Op → Core → List Byte} {g : Chip → Op → Core → Core}
    (he : ∀ c w x s, exec (ins c w x) s = s.act (·.issue c.val w x i))
    (hb : ∀ m o k, pre m o k → i.bad o = false)
    (hr : ∀ m o k w n, pre m o k → i.run o m.clocked (k.issued w n) =
      .go (m.clocked.setBytes (.data (k.dataKey o.c)) (a o k) (l m o k)) (g m o (k.issued w n)))
    (hl : ∀ m o k, (l m o k).length ≤ 2 ^ 40) :
    Stores i.form ins pre a l g := by
  intro c w x s hi ha hp
  obtain ⟨n, hn, h⟩ := gives_of_go (e := fun k1 => (s.chip.clocked.setBytes (.data ((s.chip.core c.val).dataKey c.val)) (a (s.op c w x) (s.chip.core c.val))
    (l s.chip (s.op c w x) (s.chip.core c.val)), g s.chip (s.op c w x) k1)) (he c w x s) hi ha (hb _ _ _ hp) (fun n => hr _ _ _ _ _ hp)
  refine ⟨n, hn, _, h, ?_⟩
  refine ⟨AMap.get_put_same _ _ _ _, fun j hj => ?_, fun _ => ?_, ?_, ?_⟩
  · exact (AMap.get_put_other _ _ hj _ _).trans (by dsimp only; rw [Chip.core, Chip.scan_setBytes]; rfl)
  · dsimp only
    show (Chip.setBytes _ _ _ _).reg _ = _
    rw [Chip.reg, Chip.regs_setBytes]; rfl
  · dsimp only
    refine (Chip.bytes_of_mem ?_ _ _ _).trans (Chip.bytes_setBytes_same s.chip.clocked _ _ _ (hl _ _ _))
    rfl
  · intro sq j hj
    dsimp only
    exact Chip.byte_setBytes_other _ _ hj

/-- A core with no store outstanding has none to drain. -/
theorem Chip.drainStores_nil (m : Chip) (c : Nat) {k : Core} (h : k.posted = []) : m.drainStores c k k.posted = (m, k) := by
  rw [h, Chip.drainStores, ← h]

/-- A point load that no check of R89, R90 and R93 stops. -/
theorem Chip.pointLoad_go {m : Chip} {o : Op} {k : Core} {w : Word} {n : Nat} {t : DWord} (pair qual : Bool) (f : PointRec → Core → Core)
    (h1 : m.local (t.extractLsb' 0 40) = true) (h2 : k.echo = none) (h3 : ∀ p ∈ k.posted, p.tag ≠ t.extractLsb' 0 40)
    (h4 : (m.clocked.ptRead (if o.c < 32 then .scan else .access) (t.extractLsb' 0 40)).1 = CC.ok)
    (h5 : qual = true → k.tcfg.getLsbD 7 = true → o.quiet = false →
      qualityMet (bits k.tcfg.toNat 9 8) (Q.state ((m.clocked.ptRead (if o.c < 32 then .scan else .access) (t.extractLsb' 0 40)).2.1.getD unboundRec).quality) = false)
    (h6 : pair = true → let x := (m.clocked.ptRead (if o.c < 32 then .scan else .access) (t.extractLsb' 0 40)).2.1.getD unboundRec
      x.flags.getLsbD 0 = true ∧ x.second = ~~~x.value) :
    m.clocked.pointLoad o (k.issued w n) t pair qual f = .go (m.clocked.ptRead (if o.c < 32 then .scan else .access) (t.extractLsb' 0 40)).2.2
      (let r := (m.clocked.ptRead (if o.c < 32 then .scan else .access) (t.extractLsb' 0 40)).2.1.getD unboundRec
       f r { (k.issued w n) with pq := r.quality ++ r.flags }) := by
  have hl : m.clocked.local (t.extractLsb' 0 40) = true := h1
  have hr : (k.issued w n).replay 0 (tagBits t).toNat = none := by
    unfold Core.replay; rw [Core.issued_echo, h2]
  have ho : m.clocked.ownFirst o.c (k.issued w n) (t.extractLsb' 0 40) = (m.clocked, k.issued w n) := by
    unfold Chip.ownFirst
    rw [if_neg]
    simp only [Core.issued_posted, List.any_eq_true, beq_iff_eq, not_exists, not_and]
    exact h3
  unfold Chip.pointLoad
  dsimp only
  rw [show tagBits t = t.extractLsb' 0 40 from rfl, hl]
  simp only [Bool.not_true, Bool.false_eq_true, if_false]
  unfold Chip.fetchPoint
  rw [show (t.extractLsb' 0 40).toNat = (tagBits t).toNat from rfl, hr]
  dsimp only
  rw [ho]
  dsimp only
  rw [show corePort o.c = (if o.c < 32 then .scan else .access) from rfl]
  rw [if_neg (by rw [h4]; decide)]
  rw [if_neg (by
    intro hc
    cases pair
    · simp at hc
    · have := (h6 rfl).1
      rw [show PointRec.flag _ 0 = true from this] at hc
      exact absurd hc (by decide)),
    if_neg (by
      rintro (hc | ⟨hc, hd⟩)
      · rw [h4] at hc; exact absurd hc (by decide)
      · simp [pairOk, (h6 hc).2] at hd),
    if_neg (by
      intro hc
      simp only [Bool.and_eq_true, Bool.not_eq_true', Core.issued_tcfg] at hc
      have := h5 hc.1.1.1 hc.1.1.2 hc.1.2
      rw [this] at hc
      exact absurd hc.2 (by decide))]
  rfl

/-- A unit call that reaches its unit, or the answer it gets instead. -/
theorem asks_of {i : Fin 36 → Word → Option Word → Instr} {sel : Op → Nat × Nat} {pre : Chip → Op → Core → Prop} {f : Chip → Op → Core → Half × Chip}
    (he : ∀ c w x s, exec (i c w x) s = s.act (·.issue c.val w x (Insn.unitCall sel)))
    (hk : ∀ m o k w n, f m o (k.issued w n) = f m o k)
    (hu : ∀ m o k, pre m o k → (sel o).1 < 20 → m.hasUnit (sel o).1 = true)
    (hf : ∀ m o k w n, pre m o k → (if !unitFunctions.contains ((sel o).1, (sel o).2) then (CC.checkFailed, m.clocked)
      else if m.clocked.unitShut (sel o).1 then (CC.cancelled, m.clocked)
      else m.clocked.callUnit o (k.issued w n) (sel o).1 (sel o).2 o.a) = f m.clocked o (k.issued w n)) :
    Asks i pre f := by
  refine acts_of (i := Insn.unitCall sel) he (fun m o k h => ?_) (fun m o k w n ⟨h1, h2, h3, h4, h5⟩ => ?_)
  · simp [Insn.unitCall, h.1]
  · have hd : ∀ (code : Half) (m1 : Chip) (k1 : Core), (code = CC.noBudget → o.w.getLsbD 15 = false) →
        (if code = CC.noBudget ∧ o.w.getLsbD 15 = true then Done.trap (.budgetDenied (BitVec.ofNat 64 (sel o).1)) m1 k1
          else .go m1 (k1.setG o.d (code.zeroExtend 64))) = .go m1 (k1.setG o.d (code.zeroExtend 64)) := by
      intro code m1 k1 h
      refine if_neg ?_
      rintro ⟨a, b⟩; rw [h a] at b; exact absurd b (by decide)
    have hh : (f m.clocked o (k.issued w n)).1 = CC.noBudget → o.w.getLsbD 15 = false := by rw [hk]; exact h5
    rw [← hf m o k w n h4] at hh ⊢
    have hu' := hu m o k h4
    have hr : ∀ x, (k.issued w n).replay 2 x = none := by intro x; unfold Core.replay; rw [Core.issued_echo, h3]
    have hc : (k.issued w n).isCheck = false := by unfold Core.isCheck; rw [Core.issued_level]; simpa using h2
    have hp : ¬ ((sel o).1 < 20 ∧ (!m.clocked.hasUnit (sel o).1) = true) := by
      rintro ⟨a, b⟩
      have := hu' a
      rw [show m.clocked.hasUnit (sel o).1 = true from this] at b
      exact absurd b (by decide)
    simp only [Insn.unitCall, hc, hr]
    rw [if_neg (by decide)]
    refine (if_neg hp).trans ?_
    by_cases c1 : (!unitFunctions.contains ((sel o).1, (sel o).2)) = true
    · simp only [c1, if_true] at hh ⊢; exact hd _ _ _ hh
    · by_cases c2 : m.clocked.unitShut (sel o).1 = true
      · simp only [c1, c2, if_true, if_false, Bool.false_eq_true] at hh ⊢; exact hd _ _ _ hh
      · simp only [c1, c2, if_false, Bool.false_eq_true] at hh ⊢; exact hd _ _ _ hh

end Sys2Proof.Machine
end

