-- ==== Sys2Proof/WellFormed.lean ====
section
/-! DEFINITION. Which commands can reach the block: what a requester, a core, a station or a bus can present. The meanings take every command;
these checks say which ones the outside world sends. -/

namespace Sys2Proof

open Sys2Proof.Machine

/-- A control-space offset (R461: 64 MiB). -/
def wfOffset (a : Nat) : Bool := decide (a < 0x4000000)

/-- The longest payload of a Mirfor frame: its length field has 16 bits (R254). -/
def wfFrame (f : RxFrame) : Bool := decide (f.payload.length < 65536)

/-- The data bytes of a DLC (R350). -/
def dlcBytes (f : CanFrame) : Nat :=
  if f.dlc.toNat ≤ 8 then f.dlc.toNat
  else if !f.fdf then 8
  else match f.dlc.toNat with
    | 9 => 12 | 10 => 16 | 11 => 20 | 12 => 24 | 13 => 32 | 14 => 48 | _ => 64

/-- A CAN frame: a base identifier has 11 bits, a remote frame is classic and carries no data, and the data length is that of the DLC. -/
def wfCan (f : CanFrame) : Bool :=
  (f.xtd || decide (f.id.toNat < 2048)) && (!f.rtr || (!f.fdf && f.data.isEmpty)) && (f.rtr || f.data.length == dlcBytes f)

/-- An instruction word has an extension word where its X bit is set, and only there (R109). -/
def wfInsn (w : Word) (x : Option Word) : Bool := w.getLsbD 26 == x.isSome

/-- Whether a command is well formed. -/
def Instr.wf : Instr → Bool
  | .registerWrite _ a _ _ => wfOffset a
  | .pairedRegisterWrite _ a _ => wfOffset a
  | .multiwordWrite _ a _ => wfOffset a
  | .lowWordRead _ a => wfOffset a
  | .rcFieldRead _ a => wfOffset a
  | .diagCounterClear _ a _ => wfOffset a
  | .undefinedOpcode _ w x => wfInsn w x
  | .iLd _ w x => wfInsn w x
  | .iLdn _ w x => wfInsn w x
  | .iAnd _ w x => wfInsn w x
  | .iAndn _ w x => wfInsn w x
  | .iOr _ w x => wfInsn w x
  | .iOrn _ w x => wfInsn w x
  | .iXor _ w x => wfInsn w x
  | .iXorn _ w x => wfInsn w x
  | .iSt _ w x => wfInsn w x
  | .iStn _ w x => wfInsn w x
  | .iSetb _ w x => wfInsn w x
  | .iRstb _ w x => wfInsn w x
  | .iTglb _ w x => wfInsn w x
  | .iNotba _ w x => wfInsn w x
  | .iSetba _ w x => wfInsn w x
  | .iClrba _ w x => wfInsn w x
  | .iCondba _ w x => wfInsn w x
  | .iJmp _ w x => wfInsn w x
  | .iBCond _ w x => wfInsn w x
  | .iCall _ w x => wfInsn w x
  | .iRet _ w x => wfInsn w x
  | .iPush _ w x => wfInsn w x
  | .iPopAnd _ w x => wfInsn w x
  | .iPopOr _ w x => wfInsn w x
  | .iPopXor _ w x => wfInsn w x
  | .iPopAndn _ w x => wfInsn w x
  | .iPopLd _ w x => wfInsn w x
  | .iDrop _ w x => wfInsn w x
  | .iWld _ w x => wfInsn w x
  | .iWst _ w x => wfInsn w x
  | .iWli _ w x => wfInsn w x
  | .iWadd _ w x => wfInsn w x
  | .iWsub _ w x => wfInsn w x
  | .iWmul _ w x => wfInsn w x
  | .iWdiv _ w x => wfInsn w x
  | .iWrem _ w x => wfInsn w x
  | .iWand _ w x => wfInsn w x
  | .iWor _ w x => wfInsn w x
  | .iWxor _ w x => wfInsn w x
  | .iWnot _ w x => wfInsn w x
  | .iWneg _ w x => wfInsn w x
  | .iWshl _ w x => wfInsn w x
  | .iWshr _ w x => wfInsn w x
  | .iWsar _ w x => wfInsn w x
  | .iWcmp _ w x => wfInsn w x
  | .iWswap _ w x => wfInsn w x
  | .iWmovg _ w x => wfInsn w x
  | .iGmovw _ w x => wfInsn w x
  | .iWcopy _ w x => wfInsn w x
  | .iAdd _ w x => wfInsn w x
  | .iSub _ w x => wfInsn w x
  | .iAndReg _ w x => wfInsn w x
  | .iOrReg _ w x => wfInsn w x
  | .iXorReg _ w x => wfInsn w x
  | .iAndng _ w x => wfInsn w x
  | .iShl _ w x => wfInsn w x
  | .iShr _ w x => wfInsn w x
  | .iSar _ w x => wfInsn w x
  | .iRol _ w x => wfInsn w x
  | .iMul _ w x => wfInsn w x
  | .iMulhs _ w x => wfInsn w x
  | .iMulhu _ w x => wfInsn w x
  | .iDiv _ w x => wfInsn w x
  | .iDivu _ w x => wfInsn w x
  | .iRem _ w x => wfInsn w x
  | .iRemu _ w x => wfInsn w x
  | .iMin _ w x => wfInsn w x
  | .iMax _ w x => wfInsn w x
  | .iMinu _ w x => wfInsn w x
  | .iMaxu _ w x => wfInsn w x
  | .iCmp _ w x => wfInsn w x
  | .iTst _ w x => wfInsn w x
  | .iSel _ w x => wfInsn w x
  | .iMov _ w x => wfInsn w x
  | .iNot _ w x => wfInsn w x
  | .iNeg _ w x => wfInsn w x
  | .iSetc _ w x => wfInsn w x
  | .iAddi _ w x => wfInsn w x
  | .iLih _ w x => wfInsn w x
  | .iLb _ w x => wfInsn w x
  | .iLbu _ w x => wfInsn w x
  | .iLh _ w x => wfInsn w x
  | .iLhu _ w x => wfInsn w x
  | .iLw _ w x => wfInsn w x
  | .iLwu _ w x => wfInsn w x
  | .iLdw _ w x => wfInsn w x
  | .iSb _ w x => wfInsn w x
  | .iSh _ w x => wfInsn w x
  | .iSw _ w x => wfInsn w x
  | .iSdw _ w x => wfInsn w x
  | .iFadd _ w x => wfInsn w x
  | .iFsub _ w x => wfInsn w x
  | .iFmul _ w x => wfInsn w x
  | .iFdiv _ w x => wfInsn w x
  | .iFsqrt _ w x => wfInsn w x
  | .iFmin _ w x => wfInsn w x
  | .iFmax _ w x => wfInsn w x
  | .iFabs _ w x => wfInsn w x
  | .iFneg _ w x => wfInsn w x
  | .iFmov _ w x => wfInsn w x
  | .iFcmp _ w x => wfInsn w x
  | .iFsel _ w x => wfInsn w x
  | .iFmadd _ w x => wfInsn w x
  | .iFmsub _ w x => wfInsn w x
  | .iFnmadd _ w x => wfInsn w x
  | .iFcvti _ w x => wfInsn w x
  | .iFcvtu _ w x => wfInsn w x
  | .iIcvtf _ w x => wfInsn w x
  | .iUcvtf _ w x => wfInsn w x
  | .iFmvg _ w x => wfInsn w x
  | .iGmvf _ w x => wfInsn w x
  | .iFclass _ w x => wfInsn w x
  | .iFrnd _ w x => wfInsn w x
  | .iFld _ w x => wfInsn w x
  | .iFst _ w x => wfInsn w x
  | .iPld _ w x => wfInsn w x
  | .iPldf _ w x => wfInsn w x
  | .iPlds _ w x => wfInsn w x
  | .iPldt _ w x => wfInsn w x
  | .iPldq _ w x => wfInsn w x
  | .iPldb _ w x => wfInsn w x
  | .iPst _ w x => wfInsn w x
  | .iPstf _ w x => wfInsn w x
  | .iPstb _ w x => wfInsn w x
  | .iPclrchg _ w x => wfInsn w x
  | .iPlwa _ w x => wfInsn w x
  | .iPswa _ w x => wfInsn w x
  | .iPlba _ w x => wfInsn w x
  | .iPsba _ w x => wfInsn w x
  | .iPlwb _ w x => wfInsn w x
  | .iPswb _ w x => wfInsn w x
  | .iPpld _ w x => wfInsn w x
  | .iPpldf _ w x => wfInsn w x
  | .iPpst _ w x => wfInsn w x
  | .iPpstf _ w x => wfInsn w x
  | .iMpld _ w x => wfInsn w x
  | .iMpldf _ w x => wfInsn w x
  | .iMpst _ w x => wfInsn w x
  | .iMpstf _ w x => wfInsn w x
  | .iPmov _ w x => wfInsn w x
  | .iPmovf _ w x => wfInsn w x
  | .iPcpl _ w x => wfInsn w x
  | .iPcplf _ w x => wfInsn w x
  | .iPtst _ w x => wfInsn w x
  | .iTon _ w x => wfInsn w x
  | .iTof _ w x => wfInsn w x
  | .iTp _ w x => wfInsn w x
  | .iTpre _ w x => wfInsn w x
  | .iTrd _ w x => wfInsn w x
  | .iTrst _ w x => wfInsn w x
  | .iTstat _ w x => wfInsn w x
  | .iEdgr _ w x => wfInsn w x
  | .iEdgf _ w x => wfInsn w x
  | .iEdgb _ w x => wfInsn w x
  | .iCsrr _ w x => wfInsn w x
  | .iCsrw _ w x => wfInsn w x
  | .iMfs _ w x => wfInsn w x
  | .iMts _ w x => wfInsn w x
  | .iEnd _ w x => wfInsn w x
  | .iSkip _ w x => wfInsn w x
  | .iRetry _ w x => wfInsn w x
  | .iAbandon _ w x => wfInsn w x
  | .iFence _ w x => wfInsn w x
  | .iNop _ w x => wfInsn w x
  | .ucallPlanLaunch _ w x => wfInsn w x
  | .ucallPlanCancel _ w x => wfInsn w x
  | .tieMessage f => wfFrame f
  | .ucallRidgeSubmit _ w x => wfInsn w x
  | .ucallRidgeRelease _ w x => wfInsn w x
  | .ucallLampSubmit _ w x => wfInsn w x
  | .ack f => wfFrame f
  | .report f => wfFrame f
  | .fwMissing f => wfFrame f
  | .ioReport f => wfFrame f
  | .ioAck f => wfFrame f
  | .hello f => wfFrame f
  | .quenchAck f => wfFrame f
  | .lgRead f => wfFrame f
  | .lgWrite f => wfFrame f
  | .lgResp f => wfFrame f
  | .lgSubscribe f => wfFrame f
  | .lgUpdate f => wfFrame f
  | .lgAnnounce f => wfFrame f
  | .timeBeacon f => wfFrame f
  | .ucallQuench _ w x => wfInsn w x
  | .canFrameReceive _ f => wfCan f
  | .canSegmentReceive _ f _ _ => wfCan f
  | .ucallVaultSubmit _ w x => wfInsn w x
  | .dramWindowAccess _ off _ => off.toNat % 4 == 0
  | .ucall _ w x => wfInsn w x
  | _ => true

end Sys2Proof
end

