-- ==== Sys2Proof/Tests/Slice0.lean ====
section
/-! SUPPORT. Tests of the model on small states, the smoke test of the well-formedness checks, and for each statement of
Certificates/Slice0/Obligations.lean a state and operands that meet the hypotheses of each of its clauses (wit_<Name>). -/

namespace Sys2Proof.Tests

open Sys2Proof Sys2Proof.Machine

set_option Elab.async false
set_option maxRecDepth 100000
set_option exponentiation.threshold 4096

/-! ### Small states -/

/-- The chip after reset with the given register fields set. -/
def chip (l : List (FRef × Nat)) : Chip := l.foldl (fun m e => m.put e.1 e.2) {}

/-- A chip on which a hypothesis of a command of the main die is met. -/
def Met (pre : Chip → Prop) : Prop := ∃ m : Chip, m.pd2 = true ∧ pre m

/-- A chip in operation: every domain ready, the point store ready. -/
def up (l : List (FRef × Nat)) : Chip := chip ([(R.RIDGE_DOM, 0xFFFFFFFF), (R.POINT_STAT_READY, 1)] ++ l)

/-- Decides `Ready`. -/
def readyB (m : Chip) (c : Nat) : Bool :=
  let k := m.core c
  m.pd2 && k.level.isSome && m.coreRuns c && (!k.isTask || k.budget != 0) && decide (k.pc.toNat < k.img.codeSize)

theorem ready_of {s : State} {c : Fin 36} (h : readyB s.chip c.val = true) : Ready s c := by
  simp only [readyB, Bool.and_eq_true, Bool.or_eq_true, Bool.not_eq_true', decide_eq_true_eq, bne_iff_ne] at h
  obtain ⟨⟨⟨⟨h1, h2⟩, h3⟩, h4⟩, h5⟩ := h
  exact ⟨h1, h2, h3, fun e => h4.resolve_left (by simp [e]), h5⟩

/-- Decides `Issues`. -/
def issuesB (m : Chip) (c : Nat) : Bool := readyB m c && m.scan.upsets.all (fun u => u.key != (m.core c).dataKey c)

theorem issues_of {s : State} {c : Fin 36} (h : issuesB s.chip c.val = true) : Issues s c := by
  simp only [issuesB, Bool.and_eq_true, List.all_eq_true, bne_iff_ne] at h
  exact ⟨ready_of h.1, h.2⟩

/-- Decides `Allowed`. -/
def allowedB (f : Form) (k : Core) (w : Word) (x : Option Word) : Bool :=
  (!k.img.fmode || f.fmode) && (!xBit w || f.long) && ((w.toNat &&& (if xBit w then f.zl else f.zs)) == 0) &&
    (!xBit w || (((x.getD 0).toNat &&& f.zx) == 0))

theorem allowed_of {f : Form} {k : Core} {w : Word} {x : Option Word} (h : allowedB f k w x = true) : Allowed f k w x := by
  simp only [allowedB, Bool.and_eq_true, Bool.or_eq_true, Bool.not_eq_true', beq_iff_eq] at h
  obtain ⟨⟨⟨h1, h2⟩, h3⟩, h4⟩ := h
  exact ⟨fun e => h1.resolve_left (by simp [e]), fun e => h2.resolve_left (by simp [e]), h3, fun e => h4.resolve_left (by simp [e])⟩

/-- A core that meets the hypotheses of an instruction of a form: it issues, its words are of the form, and `pre` holds. -/
def MetW (f : Form) (pre : Chip → Op → Core → Prop) : Prop :=
  ∃ (c : Fin 36) (w : Word) (x : Option Word) (s : State), Issues s c ∧ Allowed f (s.chip.core c.val) w x ∧ pre s.chip (s.op c w x) (s.chip.core c.val)

/-- A task on scan core 3: a program of 8 NOPs with 64 bytes in each region, changed by `e`. -/
def task (e : Core → Core) (m : Chip) : Chip :=
  m.setCore 3 (e { level := some .task, prog := 5, budget := 1000, img := { code := List.replicate 8 0xC0050000, dataSize := 64, inSize := 64, outSize := 64, constSize := 64 } })

theorem metW_of {f : Form} {pre : Chip → Op → Core → Prop} (m : Chip) (e : Core → Core) (w : Word) (x : Option Word)
    (h : (issuesB (task e m) 3 && allowedB f ((task e m).core 3) w x) = true)
    (hp : pre (task e m) (((task e m).core 3).op 3 w x) ((task e m).core 3)) : MetW f pre := by
  simp only [Bool.and_eq_true] at h
  exact ⟨3, w, x, ⟨[], task e m⟩, issues_of h.1, allowed_of h.2, hp⟩

/-- A descriptor of a type with attributes, writer mask, freshness deadline and loss time (ms), and 0xFFFF as owner (Table 2-5). -/
def descBytes (typ attr mask fresh loss : Nat) : List Byte :=
  let b := le 1 typ ++ le 1 attr ++ le 1 mask ++ le 1 0 ++ le 4 fresh ++ le 4 loss ++ le 2 0 ++ le 2 0xFFFF ++ le 44 0
  b ++ le 4 (crc32c b).toNat

/-- The chip with point i bound to descriptor i. -/
def bound (i typ attr mask : Nat) (m : Chip) (fresh : Nat := 0) (loss : Nat := 0) : Chip :=
  ((m.setBytes (.win .pointDesc) (64 * i) (descBytes typ attr mask fresh loss)).setBytes (.win .pointBind) (8 * i) (le 4 i ++ le 4 0)).bindPoint i 0

/-- The chip at a league time in ns. -/
def at_ (ns : Nat) (m : Chip) : Chip := m.withClk { m.clk with league := ns * 2 ^ 32 }

/-! ### Wasa instructions: a core, words and operands for each clause -/

theorem wit_WasaBitReads :
    MetW { fmode := true, long := true, zs := 0x70000, zl := 0x7FFFF } (fun _ o k => ∃ b, k.inBits (bits o.w.toNat 21 19) o.immZ false = .ok b) ∧
    MetW { fmode := true, zs := 0x3FFFFF } (fun _ _ _ => True) ∧
    MetW { fmode := true, zs := 0x3FFFF0 } (fun _ o _ => o.imm16 % 16 < 15) :=
  ⟨metW_of (up []) id 0x000801FF none (by decide) ⟨_, rfl⟩, metW_of (up []) id 0 none (by decide) trivial,
    metW_of (up []) id 0x0000000E none (by decide) (by decide)⟩

theorem wit_WasaBitStores :
    MetW { fmode := true, long := true, zs := 0x70000, zl := 0x7FFFF }
      (fun _ o k => k.ba = true ∧ ∃ b, k.inBits (bits o.w.toNat 21 19) o.immZ true = .ok b) ∧
    MetW { fmode := true, long := true, zs := 0x70000, zl := 0x7FFFF }
      (fun _ o k => k.ba = false ∧ ∃ b, k.inBits (bits o.w.toNat 21 19) o.immZ true = .ok b) :=
  ⟨metW_of (up []) (fun k => { k with ba := true }) 0x000001FF none (by decide) ⟨rfl, _, rfl⟩, metW_of (up []) id 0x04100000 (some 0x1FF) (by decide) ⟨rfl, _, rfl⟩⟩

theorem wit_WasaBranches :
    let good := fun (k : Core) (t : Int) => 0 ≤ t ∧ t < k.img.codeSize ∧ k.img.isInstr t.toNat = true
    MetW { fmode := true, clocks := 3 } (fun _ o k => good k (o.pc.toNat + 4 * (o.w.extractLsb' 0 26).toInt)) ∧
    MetW { fmode := true, long := true, zl := 0xFFFF }
      (fun _ o k => bits o.w.toNat 25 16 ≤ 14 ∧ (k.cond (bits o.w.toNat 25 16) = true → good k (o.pc.toNat + 4 * o.immS.toInt))) ∧
    MetW { fmode := true, long := true, zl := 0xFFFF, clocks := 3 } (fun _ o k => good k (o.pc.toNat + 4 * o.immS.toInt)) ∧
    MetW { fmode := true, zs := 0xFFFF, clocks := 3 } (fun _ _ k => (k.gr 31).toNat % 4 = 0 ∧ good k (k.gr 31).toNat) ∧
    MetW { fmode := true, zs := 0xFFFF } (fun _ _ k => k.bs.length < 32) ∧
    MetW { fmode := true, zs := 0xFFFF } (fun _ _ k => k.bs ≠ []) :=
  ⟨metW_of (up []) id 7 none (by decide) (by decide), metW_of (up []) id 0x000E0007 none (by decide) (by decide),
    metW_of (up []) id 0x04000000 (some 7) (by decide) (by decide),
    metW_of (up []) (fun k => { k with g := [(31, 28)] }) 0 none (by decide) (by decide),
    metW_of (up []) (fun k => { k with bs := List.replicate 31 true }) 0 none (by decide) (by decide),
    metW_of (up []) (fun k => { k with bs := [true] }) 0 none (by decide) (by decide)⟩

theorem wit_WasaWordLogicAndMoves :
    MetW { fmode := true, zs := 0x1FFFFF } (fun _ _ _ => True) ∧
    MetW { fmode := true, zs := 0x1FFFF0 } (fun _ o _ => 2 ≤ o.imm16 % 16 ∧ o.imm16 % 16 ≤ 11) ∧
    MetW { fmode := true, long := true, zs := 0xEF0000, zl := 0xEFFFFF } (fun _ _ _ => True) ∧
    MetW { fmode := true, zs := 0x1FFFC0 } (fun _ _ _ => True) ∧
    MetW { long := true, zs := 0x3E00000, zl := 0x3E0F800 } (fun _ _ _ => True) ∧
    MetW {} (fun _ _ _ => True) ∧ MetW { zs := 0xF800 } (fun _ _ _ => True) ∧
    MetW { zs := 0x1F0000 } (fun _ o _ => o.b < 15) ∧ MetW { long := true, zl := 0xFFFF } (fun _ _ _ => True) :=
  ⟨metW_of (up []) id 0x00200000 none (by decide) trivial, metW_of (up []) id 0x0000000B none (by decide) (by decide),
    metW_of (up []) id 0x04100000 (some 0xFFFFFFFF) (by decide) trivial, metW_of (up []) id 0x0000003F none (by decide) trivial,
    metW_of (up []) id 0x04010000 (some 1) (by decide) trivial, metW_of (up []) id 0x03FFFFFF none (by decide) trivial,
    metW_of (up []) id 0x03FF0000 none (by decide) trivial, metW_of (up []) id 0x03E07000 none (by decide) (by decide),
    metW_of (up []) id 0x07FF0000 (some 0x80000000) (by decide) trivial⟩

theorem wit_WasaIntegerArithmetic :
    MetW { long := true, zl := 0xF800 } (fun _ _ _ => True) ∧ MetW { long := true, zl := 0xF800, clocks := 34 } (fun _ _ _ => True) :=
  ⟨metW_of (up []) id 0x00221800 none (by decide) trivial, metW_of (up []) id 0x04220000 (some 0) (by decide) trivial⟩

/-- Both values of a divisor's test, and the one overflowing division. -/
theorem wit_WasaIntegerResults :
    (∃ b : DWord, b = 0) ∧ (∃ a b : DWord, a = 0x8000000000000000 ∧ b = 0xFFFFFFFFFFFFFFFF ∧ b ≠ 0) ∧
    (∃ a b : DWord, b ≠ 0 ∧ ¬ (a = 0x8000000000000000 ∧ b = 0xFFFFFFFFFFFFFFFF)) :=
  ⟨⟨0, rfl⟩, ⟨_, _, rfl, rfl, by decide⟩, ⟨0x8000000000000000, 1, by decide, by decide⟩⟩

theorem wit_WasaLoadsAndStores :
    (∀ n ∈ [1, 2, 4, 8], MetW { long := true, zl := 0xF800 } (fun _ o k => ∃ a, k.inMemory (o.address k) n false = .ok a) ∧
      MetW { long := true, zl := 0xF800 } (fun _ o k => ∃ a, k.inMemory (o.address k) n true = .ok a)) ∧
    MetW { fmode := true, long := true, zs := 0xC0000, zl := 0xCFFFF }
      (fun _ o k => ∃ a, k.inRegion (bits o.w.toNat 17 16) o.immZ (2 ^ bits o.w.toNat 22 21) false = .ok a) ∧
    MetW { fmode := true, long := true, zs := 0x8C0000, zl := 0x8CFFFF }
      (fun _ o k => ∃ a, k.inRegion (bits o.w.toNat 17 16) o.immZ (2 ^ bits o.w.toNat 22 21) true = .ok a) := by
  refine ⟨?_, metW_of (up []) id 0x00630038 none (by decide) ⟨0x20000038, rfl⟩, metW_of (up []) id 0x04620000 (some 0x38) (by decide) ⟨0x11000038, rfl⟩⟩
  intro n h
  simp only [List.mem_cons, List.not_mem_nil, or_false] at h
  obtain rfl | rfl | rfl | rfl := h
  · exact ⟨metW_of (up []) id 0x04200000 (some 0x2000003F) (by decide) ⟨_, rfl⟩, metW_of (up []) id 0x04200000 (some 0x3F) (by decide) ⟨_, rfl⟩⟩
  · exact ⟨metW_of (up []) id 0x04200000 (some 0x1000003E) (by decide) ⟨_, rfl⟩, metW_of (up []) id 0x04200000 (some 0x1100003E) (by decide) ⟨_, rfl⟩⟩
  · exact ⟨metW_of (up []) id 0x04200000 (some 0x3C) (by decide) ⟨_, rfl⟩, metW_of (up []) id 0x04200000 (some 0x3C) (by decide) ⟨_, rfl⟩⟩
  · exact ⟨metW_of (up []) id 0x04200000 (some 0x38) (by decide) ⟨_, rfl⟩, metW_of (up []) id 0x04200000 (some 0x38) (by decide) ⟨_, rfl⟩⟩

/-- A signalling NaN with FPTRAP clear, and with it set under the suppressed check; a quiet sum with FPTRAP set; a comparison and a conversion likewise. -/
theorem wit_WasaFloatingPoint :
    let quietly := fun (flags : Nat) (o : Op) (k : Core) => flags.testBit 4 = true → k.tcfg.getLsbD 6 = false ∨ o.quiet = true
    MetW {} (fun _ o k => Fp.isSnan (k.fr o.a) = true ∧ quietly (Fp.add k.rm (k.fr o.a) (k.fr o.b)).2 o k) ∧
    MetW {} (fun _ o k => Fp.isSnan (k.fr o.a) = true ∧ k.tcfg.getLsbD 6 = true ∧ quietly (Fp.add k.rm (k.fr o.a) (k.fr o.b)).2 o k) ∧
    MetW {} (fun _ o k => k.tcfg.getLsbD 6 = true ∧ o.quiet = false ∧ quietly (Fp.add k.rm (k.fr o.a) (k.fr o.b)).2 o k) ∧
    MetW { zs := 0x3E00000 } (fun _ o k => quietly (if Fp.isSnan (k.fr o.a) || Fp.isSnan (k.fr o.b) then 16 else 0) o k) ∧
    MetW { zs := 0xF800 } (fun _ o k => quietly (Fp.toSigned k.rm (k.fr o.a)).2 o k) ∧
    MetW { zs := 0xF800 } (fun _ o k => quietly (Fp.ofInt k.rm (k.gr o.a).toInt).2 o k) :=
  ⟨metW_of (up []) (fun k => { k with f := [(1, 0x7FF0000000000001)] }) 0x00211000 none (by decide) (by decide),
    metW_of (up []) (fun k => { k with f := [(1, 0x7FF0000000000001)], tcfg := 0x40, suppress := true }) 0x00211000 none (by decide) (by decide),
    metW_of (up []) (fun k => { k with f := [(1, 0x3FF0000000000000)], tcfg := 0x40 }) 0x00211000 none (by decide) (by decide),
    metW_of (up []) (fun k => { k with f := [(1, 0x7FF0000000000001)] }) 0x00011000 none (by decide) (by decide),
    metW_of (up []) (fun k => { k with f := [(1, 0x4008000000000000)] }) 0x00410000 none (by decide) (by decide),
    metW_of (up []) (fun k => { k with g := [(1, 0x7FFFFFFFFFFFFFFF)] }) 0x00210000 none (by decide) (by decide)⟩

theorem wit_WasaPointReads :
    let answer := fun (m : Chip) (o : Op) (t : DWord) => m.ptRead (if o.c < 32 then .scan else .access) (t.extractLsb' 0 40)
    let ready := fun (m : Chip) (o : Op) (k : Core) (t : DWord) => m.local (t.extractLsb' 0 40) = true ∧ k.echo = none ∧
      (∀ p ∈ k.posted, p.tag ≠ t.extractLsb' 0 40) ∧ (answer m.clocked o t).1 = CC.ok
    let passes := fun (m : Chip) (o : Op) (k : Core) (t : DWord) => k.tcfg.getLsbD 7 = true → o.quiet = false →
      qualityMet (bits k.tcfg.toNat 9 8) (Q.state ((answer m.clocked o t).2.1.getD unboundRec).quality) = false
    MetW { zs := 0xF800, clocks := 6 } (fun m o k => ready m o k (k.gr o.a) ∧ passes m o k (k.gr o.a)) ∧
    MetW { zs := 0xF800, clocks := 6 } (fun m o k => k.tcfg.getLsbD 7 = true ∧ o.quiet = false ∧ ready m o k (k.gr o.a) ∧ passes m o k (k.gr o.a)) ∧
    MetW { fmode := true, long := true, zs := 0x1C0000, zl := 0x1CFFFF, clocks := 6 } (fun m o k => ∃ a, k.inRegion (o.a % 4) o.immZ 8 false = .ok a ∧
      ready m o k (BitVec.ofNat 64 (m.rd (.data (k.dataKey o.c)) a 8)) ∧ passes m o k (BitVec.ofNat 64 (m.rd (.data (k.dataKey o.c)) a 8))) ∧
    MetW { zs := 0xF800, clocks := 6 } (fun m o k => o.d % 2 = 0 ∧ ready m o k (k.gr o.a) ∧ passes m o k (k.gr o.a) ∧
      let x := (answer m.clocked o (k.gr o.a)).2.1.getD unboundRec
      x.flags.getLsbD 0 = true ∧ x.second = ~~~x.value) :=
  ⟨metW_of (bound 5 4 0 8 (up [])) (fun k => { k with g := [(1, 5)], posted := [⟨6, 0⟩] }) 0x00410000 none (by decide) (by decide),
    metW_of (bound 5 4 0 8 (up [])) (fun k => { k with g := [(1, 5)], tcfg := 0x280 }) 0x00410000 none (by decide) (by decide),
    metW_of ((bound 5 4 0 8 (up [])).setBytes (.data 5) 56 [5]) id 0x00000038 none (by decide) ⟨56, rfl, by decide⟩,
    metW_of (bound 5 4 1 8 (up [])) (fun k => { k with g := [(1, 5)] }) 0x00410000 none (by decide) (by decide)⟩

theorem wit_WasaPointStores :
    let ready := fun (m : Chip) (k : Core) (t : DWord) => k.level ≠ some .check ∧ m.local (t.extractLsb' 0 40) = true ∧
      m.on R.POINT_STAT_READY = true ∧ m.outOfRange (t.extractLsb' 0 40) = false ∧ k.echo = none
    MetW { zs := 0x3E00000, clocks := 2 } (fun m o k => ready m k (k.gr o.a) ∧ k.posted.length < 16) ∧
    MetW { fmode := true, long := true, zs := 0x1C0000, zl := 0x1CFFFF, clocks := 2 }
      (fun m o k => ∃ a, k.inRegion (o.a % 4) o.immZ 8 false = .ok a ∧ ready m k (BitVec.ofNat 64 (m.rd (.data (k.dataKey o.c)) a 8)) ∧
        k.posted.length < 16) ∧
    MetW { zs := 0x3E00000, clocks := 6 }
      (fun m o k => o.b % 2 = 0 ∧ ready m k (k.gr o.a) ∧ (m.pt (tagIdx ((k.gr o.a).extractLsb' 0 40))).flags.getLsbD 0 = true ∧
        k.gr (o.b + 1) = ~~~k.gr o.b ∧ k.posted = []) ∧
    MetW { zs := 0x3E0F800, clocks := 6 } (fun m o k =>
      let i := tagIdx ((k.gr o.a).extractLsb' 0 40)
      let n := ((m.clocked.crcCheck i).fold i).touch i
      ready m k (k.gr o.a) ∧ (∀ p ∈ k.posted, p.tag ≠ (k.gr o.a).extractLsb' 0 40) ∧
      (n.pt i).desc ≠ 0 ∧ (n.descOfRec (n.pt i)).critical = true ∧ (n.pt i).second = ~~~(n.pt i).value) :=
  ⟨metW_of (up []) (fun k => { k with g := [(1, 0x1FFFFFF)], posted := List.replicate 15 ⟨6, 0⟩ }) 0x00011000 none (by decide) (by decide),
    metW_of (up []) id 0x00000038 none (by decide) ⟨56, rfl, by decide⟩,
    metW_of (bound 5 4 1 8 (up [])) (fun k => { k with g := [(1, 5), (2, 7), (3, ~~~7)] }) 0x00011000 none (by decide) (by decide),
    metW_of (bound 5 4 1 8 (up [])) (fun k => { k with g := [(1, 5)] }) 0x00010000 none (by decide) (by decide)⟩

theorem wit_WasaMemoryPairs :
    MetW { long := true, zl := 0xF800 } (fun m o k => o.d % 2 = 0 ∧ (∃ a, k.inMemory (o.address k) 16 false = .ok a) ∧
      BitVec.ofNat 64 (m.rd (.data (k.dataKey o.c)) ((o.address k).toNat + 8) 8) = ~~~BitVec.ofNat 64 (m.rd (.data (k.dataKey o.c)) (o.address k).toNat 8)) ∧
    MetW { long := true, zl := 0xF800 }
      (fun _ o k => o.d % 2 = 0 ∧ (∃ a, k.inMemory (o.address k) 16 true = .ok a) ∧ k.gr (o.d + 1) = ~~~k.gr o.d) ∧
    MetW { zs := 0xF800 } (fun _ o k => o.d % 2 = 0 ∧ o.a % 2 = 0 ∧ k.gr (o.a + 1) = ~~~k.gr o.a) ∧
    MetW { zs := 0xF800 } (fun _ o k => o.d % 2 = 0 ∧ o.a % 2 = 0 ∧ k.fr (o.a + 1) = ~~~k.fr o.a) ∧
    MetW { zs := 0x1FF800 } (fun _ o _ => o.d % 2 = 0) ∧ MetW { zs := 0x3E0F800 } (fun _ o _ => o.a % 2 = 0) :=
  ⟨metW_of ((up []).setBytes (.data 5) 56 (List.replicate 8 255)) (fun k => { k with g := [(1, 48)] }) 0x04410000 (some 0) (by decide)
      ⟨by decide, ⟨48, rfl⟩, by decide⟩,
    metW_of (up []) (fun k => { k with g := [(1, 48), (2, 7), (3, ~~~7)] }) 0x04410000 (some 0) (by decide) ⟨by decide, ⟨48, rfl⟩, by decide⟩,
    metW_of (up []) (fun k => { k with g := [(30, 7), (31, ~~~7)] }) 0x005E0000 none (by decide) (by decide),
    metW_of (up []) (fun k => { k with f := [(2, 7), (3, ~~~7)] }) 0x00420000 none (by decide) (by decide),
    metW_of (up []) id 0x03C00000 none (by decide) (by decide), metW_of (up []) id 0x001E0000 none (by decide) (by decide)⟩

/-- The last slot allocated, in the short and in the long form; the last bit of DATA. -/
theorem wit_WasaTimers :
    (∀ zs ∈ [0x3FF0000, 0x3E00000, 0x1F0000], MetW { fmode := true, long := true, zs := zs, zl := zs + 0xFFFF, zx := 0x0FFFE000, clocks := 8 }
      (fun m o k => k.level = some .task ∧ (match o.x with | some w => w.toNat % 2 ^ 13 | none => o.imm16 % 2 ^ 12) < m.get (R.SCAN_TS_SLOTS_COUNT k.prog))) ∧
    MetW { fmode := true, long := true, zs := 0x1F0000, zl := 0x1FFFFF } (fun _ o k => o.immZ < 8 * k.img.dataSize) := by
  refine ⟨?_, metW_of (up []) id 0x000001FF none (by decide) (by decide)⟩
  intro zs h
  simp only [List.mem_cons, List.not_mem_nil, or_false] at h
  obtain rfl | rfl | rfl := h
  · exact metW_of (up [(R.SCAN_TS_SLOTS_COUNT 5, 8191)]) id 0x04000000 (some 8190) (by decide) (by decide)
  · exact metW_of (up [(R.SCAN_TS_SLOTS_COUNT 5, 8191)]) id 0x00000FFF none (by decide) (by decide)
  · exact metW_of (up [(R.SCAN_TS_SLOTS_COUNT 5, 1)]) id 0 none (by decide) (by decide)

/-- A core other than a task's: a SERVICE or CHECK program on service core 1. -/
def service (l : Level) (e : Core → Core) (m : Chip) : Chip :=
  m.setCore 33 (e { level := some l, prog := 7, img := { service := true, code := List.replicate 8 0xC0050000, dataSize := 64 } })

theorem metS_of {f : Form} {pre : Chip → Op → Core → Prop} (l : Level) (m : Chip) (e : Core → Core) (w : Word) (x : Option Word)
    (h : (issuesB (service l e m) 33 && allowedB f ((service l e m).core 33) w x) = true)
    (hp : pre (service l e m) (((service l e m).core 33).op 33 w x) ((service l e m).core 33)) : MetW f pre := by
  simp only [Bool.and_eq_true] at h
  exact ⟨33, w, x, ⟨[], service l e m⟩, issues_of h.1, allowed_of h.2, hp⟩

/-- What every unit call asks, with `pre`, and an answer other than NO_BUDGET or the TRAP bit clear. -/
theorem wit_WasaUnitCalls :
    let asks := fun (pre : Chip → Op → Core → Prop) => MetW { clocks := 20 }
      (fun m o k => o.a % 4 = 0 ∧ k.level ≠ some .check ∧ k.echo = none ∧ o.w.getLsbD 15 = false ∧ pre m o k)
    asks (fun m _ _ => m.hasUnit 0x0A = true ∧ ∃ q < 4, m.unitOpen (2 + q) = true) ∧
    asks (fun m _ _ => m.hasUnit 2 = true) ∧ asks (fun m _ _ => m.hasUnit 0x0B = true ∧ m.unitOpen UK.lamp = true) ∧
    asks (fun m _ _ => m.hasUnit 6 = true) ∧ asks (fun m _ k => m.hasUnit 0x10 = true ∧ m.unitOpen UK.vault = true ∧ k.level ≠ some .task) ∧
    asks (fun m o _ => let u := o.imm16 % 256; u = 0x0A ∧ m.hasUnit u = true ∧
      (u, bits o.imm16 14 8) ∉ [(0x0A, 1), (0x0A, 2), (0x02, 1), (0x02, 2), (0x0B, 1), (0x06, 1), (0x10, 1)]) ∧
    asks (fun _ o _ => 20 ≤ o.imm16 % 256) ∧
    asks (fun m _ _ => m.hasUnit 0x10 = true ∧ m.unitOpen UK.vault = false) ∧
    asks (fun m _ _ => m.hasUnit 0x0B = true ∧ m.unitOpen UK.lamp = false) ∧
    MetW { clocks := 20 } (fun m o k => o.w.getLsbD 15 = true ∧ (m.clocked.ridgeSubmit o.c (k.gr o.a).toNat (k.gr (o.a + 1)).toNat (k.gr (o.a + 2)).toNat).1 ≠ CC.noBudget) :=
  ⟨metW_of (up []) id 0x0004010A none (by decide) ⟨by decide, by decide, by decide, by decide, by decide, 3, by decide, by decide⟩,
    metS_of .service (up []) id 0x00040102 none (by decide) (by decide), metW_of (up []) id 0x001C010B none (by decide) (by decide),
    metW_of (up []) id 0x00000106 none (by decide) (by decide), metS_of .service (up []) id 0x00040110 none (by decide) (by decide),
    metW_of (up []) id 0x0000030A none (by decide) (by decide), metW_of (up []) id 0x00000114 none (by decide) (by decide),
    metW_of ((up []).setUnitRun UK.vault { disabled := true }) id 0x00000110 none (by decide) (by decide),
    metW_of ((up []).setUnitRun UK.lamp { draining := true }) id 0x0000010B none (by decide) (by decide),
    metS_of .service (up []) id 0x00048102 none (by decide) (by decide)⟩

theorem wit_WasaSpecialRegisters :
    let idx := fun (o : Op) => match o.x with | some e => e.toNat % 2 ^ 26 | none => o.imm16 % 2 ^ 14
    MetW { long := true, zs := 0x1F0000, zl := 0x1FFFFF, zx := 0x3C000000 } (fun _ o _ => idx o = 8) ∧
    MetW { long := true, zs := 0x1F0000, zl := 0x1FFFFF, zx := 0x3C000000 } (fun _ o _ => idx o = 0) ∧
    MetW { long := true, zs := 0x1F0000, zl := 0x1FFFFF, zx := 0x3C000000 } (fun _ o _ => idx o = 1) ∧
    MetW { long := true, zl := 0xFFFF, zx := 0x3C000000, clocks := 6 } (fun m o k => Insn.csrCheck o m k false = none ∧ k.echo = none) ∧
    MetW { long := true, zl := 0xFFFF, zx := 0x3C000000, clocks := 20 } (fun m o k => Insn.csrCheck o m k true = none) :=
  ⟨metW_of (up []) id 0x00208008 none (by decide) (by decide), metW_of (up []) id 0x0020C000 none (by decide) (by decide),
    metW_of (up []) id 0x0020C001 none (by decide) (by decide), metW_of (up []) id 0x00200004 none (by decide) (by decide),
    metS_of .service (up []) id 0x04200000 (some 0x40280000) (by decide) (by decide)⟩

theorem wit_WasaEndings :
    (∀ l : Level, l ≠ .boot → MetW { fmode := true, zs := 0xFFFF, clocks := 4 } (fun _ _ k => k.trap = none ∧ k.posted = [] ∧ k.bs = [] ∧ k.level = some l)) ∧
    MetW { fmode := true, zs := 0xFFFF, clocks := 6 } (fun _ _ k => ∃ t, k.trap = some t ∧ t.code ∈ [1, 6, 9, 0xA, 0xB]) ∧
    MetW { fmode := true, zs := 0xFFFF, clocks := 6 } (fun _ _ k => ∃ t, k.trap = some t ∧ t.code ∈ [9, 0xA, 0xB]) ∧
    MetW { fmode := true, zs := 0xFFFF, clocks := 6 } (fun m _ k => (∃ t, k.trap = some t) ∧ k.level = some .task ∧ k.posted = [] ∧ k.prog < 256 ∧
      m.get (R.SCAN_TS_ABAN k.prog) < 0xFFFFFFFF) := by
  refine ⟨?_, metW_of (up []) (fun k => { k with trap := some ⟨0, 4, 1, 0⟩ }) 0xC0010000 none (by decide) ⟨_, rfl, by decide⟩,
    metW_of (up []) (fun k => { k with trap := some ⟨0, 4, 0xB, 0⟩ }) 0xC0020000 none (by decide) ⟨_, rfl, by decide⟩,
    metW_of (up [(R.SCAN_TS_ABAN 5, 0xFFFFFFFE)]) (fun k => { k with trap := some ⟨0, 4, 9, 0⟩ }) 0xC0030000 none (by decide)
      ⟨⟨_, rfl⟩, by decide, by decide, by decide, by decide⟩⟩
  intro l hl
  cases l
  · exact metW_of (up []) id 0xC0000000 none (by decide) (by decide)
  · exact metS_of .service (up []) id 0xC0000000 none (by decide) (by decide)
  · exact metS_of .check (up []) id 0xC0000000 none (by decide) (by decide)
  · exact absurd rfl hl

theorem wit_WasaTraps :
    MetW { fmode := true, long := true } (fun _ _ k => k.level = some .task ∧ k.trap = none ∧ k.img.handler.isSome = true) ∧
    MetW {} (fun _ _ k => k.level = some .service ∧ k.trap = none ∧ k.posted = []) ∧
    (∃ (c : Fin 32) (m : Chip), m.pd2 = true ∧ (m.core c.val).level = some .task ∧ (m.core c.val).budget = 0) ∧
    (∃ (c : Fin 36) (m : Chip) (p : Posted) (l : List Posted), m.pd2 = true ∧ (m.core c.val).posted = p :: l) ∧
    (∀ l : Level, l = .task ∨ l = .service → ∀ word : Word, word = 0x28000006 ∨ word = 0x28000013 → ∀ double, ∃ (c : Fin 36) (s : State) (a : Nat),
      let k := s.chip.core c.val
      Ready s c ∧ Allowed { long := true, zl := 0xF800 } k word none ∧ k.inMemory ((s.op c word none).address k) 8 false = .ok a ∧
        k.inMemory ((s.op c word none).address k) 8 true = .ok a ∧ k.trap = none ∧ k.echo = none ∧ k.posted = [] ∧ k.level = some l ∧
        s.chip.scan.upsets = [⟨k.dataKey c.val, false, a / 8, double⟩, ⟨999, true, 0, true⟩]) ∧
    (∀ l : Level, l = .task ∨ l = .service → ∃ (c : Fin 36) (s : State),
      let k := s.chip.core c.val
      Ready s c ∧ Allowed { fmode := true, zs := 0xFFFF } k 0xC0050000 none ∧ k.trap = none ∧ k.echo = none ∧ k.posted = [] ∧ k.level = some l ∧
        s.chip.scan.upsets = [⟨k.dataKey c.val, true, k.pc.toNat / 8, true⟩]) :=
  ⟨metW_of (up []) (fun k => { k with img := { k.img with handler := some 16 } }) 0xF8000000 none (by decide) (by decide),
    metS_of .service (up []) id 0xF8000000 none (by decide) (by decide),
    ⟨3, task (fun k => { k with budget := 0 }) (up []), by decide, by decide, by decide⟩,
    ⟨3, task (fun k => { k with posted := List.replicate 16 ⟨5, 1⟩ }) (up []), _, _, by decide, rfl⟩,
    fun l hl w hw d => by
      rcases hl with rfl | rfl
      · refine ⟨3, ⟨[], task id ((up []).withScan { (up []).scan with upsets := [⟨5, false, 0, d⟩, ⟨999, true, 0, true⟩] })⟩, 0, ?_⟩
        rcases hw with rfl | rfl <;> cases d <;>
          exact ⟨ready_of (by decide), allowed_of (by decide), by rfl, by rfl, by rfl, by rfl, by rfl, by rfl, by rfl⟩
      · refine ⟨33, ⟨[], service .service id ((up []).withScan { (up []).scan with upsets := [⟨257, false, 0, d⟩, ⟨999, true, 0, true⟩] })⟩, 0, ?_⟩
        rcases hw with rfl | rfl <;> cases d <;>
          exact ⟨ready_of (by decide), allowed_of (by decide), by rfl, by rfl, by rfl, by rfl, by rfl, by rfl, by rfl⟩,
    fun l hl => by
      rcases hl with rfl | rfl
      · exact ⟨3, ⟨[], task id ((up []).withScan { (up []).scan with upsets := [⟨5, true, 0, true⟩] })⟩,
          ready_of (by decide), allowed_of (by decide), by rfl, by rfl, by rfl, by rfl, by rfl⟩
      · exact ⟨33, ⟨[], service .service id ((up []).withScan { (up []).scan with upsets := [⟨257, true, 0, true⟩] })⟩,
          ready_of (by decide), allowed_of (by decide), by rfl, by rfl, by rfl, by rfl, by rfl⟩⟩

/-- R88: LDW of a word with a single-bit error corrects it in the SRAM and loads it. -/
theorem test_ldw_corrects :
    let m := (task id ((up []).withScan { (up []).scan with upsets := [⟨5, false, 0, false⟩] })).issue 3 0x28200006 none Insn.ldw
    m.scan.upsets = [] ∧ (m.core 3).level = some .task := by decide
/-- R88, Table 4-6: a double-bit error abandons the cycle although the program has a handler. -/
theorem test_ldw_double :
    ((task (fun k => { k with img := { k.img with handler := some 16 } })
      ((up []).withScan { (up []).scan with upsets := [⟨5, false, 0, true⟩] })).issue 3 0x28200006 none Insn.ldw).core 3 = {} := by decide

/-! ### Commands: a chip on which each clause's hypotheses hold -/

/-- Clauses that ask nothing but that PD2 is on. -/
theorem wit_pd2 : Met (fun _ => True) := ⟨{}, rfl, trivial⟩

theorem wit_RegisterWrites :
    let open_ := fun (r : Req) (m : Chip) => r = .debug → m.vault.debug = true
    Met (fun m => open_ .debug m ∧ m.hasUnit 19 = true ∧ m.hasUnit 0 = true ∧ m.hasUnit 0xD = true ∧ (m.bank 0).regs.length = 65535) ∧
    Met (fun m => Req.debug = .debug ∧ m.vault.debug = false) ∧ (0x4000000 ≤ 0x4000000) ∧ (∃ off : BitVec 22, off.toNat = 0x3FFFFC ∧ off.toNat % 4 = 0) ∧
    (∃ v : Word, v ≠ 0) := by
  refine ⟨⟨({ vault := { debug := true }, com := { banks := [(0, { regs := (List.range 65535).map (fun i => (i, 0)) })] } } : Chip), rfl, fun _ => rfl,
    by decide, by decide, by decide, ?_⟩, ⟨{}, rfl, rfl, rfl⟩, by decide, ⟨0x3FFFFC, by decide, by decide⟩, ⟨1, by decide⟩⟩
  simp [Chip.bank, AMap.get]

theorem wit_MultiwordAndPairs :
    let open_ := fun (r : Req) (m : Chip) => r = .debug → m.vault.debug = true
    (∀ i : Fin 4, Met (fun m => open_ .debug m ∧ m.hasUnit 0xB = true ∧ (m.req .debug).pair = some (0x2C0020 + 8 * i.val, 5))) ∧
    (∃ v w : Word, w ≠ ~~~v) ∧
    ∀ k : Fin 4, Met (fun m => open_ .uart m ∧ assoc (m.req .uart).held (R.COMMIT_AT_LO k).addr = some 5) :=
  ⟨fun i => ⟨({ vault := { debug := true } } : Chip).setReq .debug { pair := some (0x2C0020 + 8 * i.val, 5) }, rfl, fun _ => rfl, by revert i; decide,
      by revert i; decide⟩, ⟨0, 0, by decide⟩,
    fun k => ⟨({} : Chip).setReq .uart { held := [((R.COMMIT_AT_LO k).addr, 5)] }, rfl, (fun h => nomatch h), by revert k; decide⟩⟩

theorem wit_RegisterReads :
    let open_ := fun (r : Req) (m : Chip) => r = .debug → m.vault.debug = true
    Met (fun m => open_ .pcie m ∧ m.hasUnit 7 = true ∧ (m.req .pcie).latch = [] ∧
      ∀ f ∈ [R.COMMIT_RES 0, R.PLAN_RES, R.LOOP_SWAP_RES, R.PANEL_RES], m.present f.addr = true) ∧
    Met (fun m => open_ .pcie m ∧ assoc (m.req .pcie).latch 0x3FFFFFC = some 5) ∧ (0x3FFFFFC % 4 = 0 ∧ 0x3FFFFFC < 0x4000000) :=
  ⟨⟨{}, rfl, by decide, by decide, by decide, by decide⟩, ⟨({} : Chip).setReq .pcie { latch := [(0x3FFFFFC, 5)] }, rfl, by decide, by decide⟩, by decide⟩

theorem wit_EventRings :
    let whole := fun (m : Chip) (n : Nat) (w : Word) => m.inShared (m.ringBase n) (64 * 2 ^ ringSize (bits w.toNat 4 0)) = true
    (∃ w : Word, w.getLsbD 31 = true) ∧ (∃ w : Word, w.getLsbD 31 = false) ∧
    Met (fun m => m.on (R.GEN_EVR_CFG_EN 15) = true) ∧
    Met (fun m => m.on (R.GEN_EVR_CFG_EN 15) = false ∧ m.rings.opened = true ∧ whole m 15 0x80000008) ∧
    Met (fun m => m.on (R.GEN_EVR_CFG_EN 15) = false ∧ ¬ whole m 15 0x80000014) ∧
    Met (fun m => m.on (R.GEN_EVR_CFG_EN 15) = false ∧ m.rings.opened = false ∧ whole m 15 0x80000014) ∧
    Met (fun m => (m.get (R.GEN_EVR_HEAD 0) + 2 ^ 32 - (1 : Word).toNat) % 2 ^ 32 = 2 ^ AMap.get 8 m.rings.size 0) ∧
    Met (fun m => 2 ^ AMap.get 8 m.rings.size 0 + 1 = (m.get (R.GEN_EVR_HEAD 0) + 2 ^ 32 - (0 : Word).toNat) % 2 ^ 32) :=
  ⟨⟨0x80000000, by decide⟩, ⟨0, by decide⟩, ⟨chip [(R.GEN_EVR_CFG_EN 15, 1)], by decide, by decide⟩,
    ⟨(chip [(R.GEN_EVR_BASE_LO 15, 0xFFFFC000), (R.GEN_EVR_BASE_HI 15, 7)]).withRings { opened := true }, by decide, by decide⟩,
    ⟨chip [(R.GEN_EVR_BASE_LO 15, 0xFFFFC000), (R.GEN_EVR_BASE_HI 15, 7)], by decide, by decide⟩,
    ⟨chip [(R.GEN_EVR_BASE_LO 15, 0xFC000000), (R.GEN_EVR_BASE_HI 15, 7)], by decide, by decide⟩,
    ⟨chip [(R.GEN_EVR_HEAD 0, 257)], by decide, by decide⟩, ⟨chip [(R.GEN_EVR_HEAD 0, 257)], by decide, by decide⟩⟩

theorem wit_UnitDrains :
    let bitOf : Fin 6 → Nat × FRef := fun i => [(UK.lamp, R.LAMP_STAT_DISABLED), (UK.loop, R.LOOP_STAT_DISABLED), (UK.meter, R.METER_STAT_DISABLED),
      (UK.vault, R.VAULT_STAT_DISABLED), (UK.sadl, R.SADL_STAT_DISABLED), (UK.panel, R.PANEL_STAT_DISABLED)].getD i.val (0, R.PANEL_STAT_DISABLED)
    (∀ u : Fin 81, Met (fun m => m.keyPresent u.val = true ∧ m.unitOpen u.val = true)) ∧
    (∀ u : Fin 81, Met (fun m => m.unitOpen u.val = false ∧ (m.unitRun u.val).draining = false ∧ (m.unitRun u.val).disabled = true)) ∧
    (∀ u : Fin 81, Met (fun m => (m.unitRun u.val).draining = true ∧ m.unitBusy u.val = false)) ∧
    (∀ i : Fin 6, ∃ u : Fin 81, u.val = (bitOf i).1) ∧ (∀ n : Fin 32, ∃ u : Fin 81, u.val = UK.can n.val) :=
  ⟨fun u => ⟨{}, rfl, by revert u; decide⟩, fun u => ⟨({} : Chip).setUnitRun u.val { disabled := true }, rfl, by revert u; decide⟩,
    fun u => ⟨({} : Chip).setUnitRun u.val { draining := true }, rfl, by revert u; decide⟩, by decide, by decide⟩

theorem wit_UartRequests :
    Met (fun m => m.pdReady 15 = true) ∧ Met (fun m => m.pdReady 15 = false) ∧ (∃ a : Word, a.toNat % 4 = 0 ∧ a.toNat < 0x4000000) ∧
    (∃ a : Word, ¬ (a.toNat % 4 = 0 ∧ a.toNat < 0x4000000)) :=
  ⟨⟨up [], by decide, by decide⟩, ⟨{}, rfl, by decide⟩, ⟨0x3FFFFFC, by decide⟩, ⟨0x4000000, by decide⟩⟩

theorem wit_FlashOperations :
    let idle := fun (m : Chip) => m.on R.CAIRN_FL_STAT_BUSY = false ∧ m.booting = false
    let at_ := fun (m : Chip) => m.get R.CAIRN_FL_ADDR_ADDR
    let fits := fun (m : Chip) (len : BitVec 9) => 1 ≤ len.toNat ∧ len.toNat ≤ 256 ∧ at_ m % 256 + len.toNat ≤ 256
    Met (fun m => idle m ∧ fits m 256 ∧ m.inBooted (at_ m) 256 = false ∧ m.inBooted (at_ m / 0x10000 * 0x10000) 0x10000 = false) ∧
    Met (fun m => idle m ∧ fits m 1 ∧ m.inBooted (at_ m) 1 = true ∧ m.inBooted (at_ m / 0x1000 * 0x1000) 0x1000 = true) ∧
    Met (fun m => idle m ∧ ¬ fits m 257) ∧ Met (fun m => idle m ∧ ¬ fits m 0) ∧ Met (fun m => idle m ∧ ¬ fits m 2) ∧ Met (fun m => ¬ idle m) ∧
    (∀ op ∈ [1, 2, 3, 4], ∃ f : FlashOp, Met (fun m => m.boot.flash = some f ∧ f.op = op ∧ f.len ≤ 0x10000 ∧ f.addr + f.len ≤ 0x20000000 ∧
      f.len ≤ 256 ∧ f.data.length = f.len)) ∧
    (∃ f : FlashOp, Met (fun m => m.boot.flash = some f ∧ f.len = 0x10000 ∧ f.addr + f.len = 0x20000000 ∧ f.op = 4)) ∧
    Met (fun m => newer 0x7FFFFFFF (m.reg R.CAIRN_FLOOR.addr) = true) ∧ Met (fun m => newer 0x80000000 (m.reg R.CAIRN_FLOOR.addr) = false) := by
  refine ⟨⟨chip [(R.CAIRN_BOOT_STAT_STATE, 3)], rfl, by decide⟩,
    ⟨(chip [(R.CAIRN_BOOT_STAT_STATE, 2), (R.CAIRN_FL_ADDR_ADDR, 0x20FFF)]).withBoot { ranges := [(0x10000, 0x10000), (0x20000, 0x1000)] }, rfl, by decide⟩,
    ⟨chip [(R.CAIRN_BOOT_STAT_STATE, 3)], rfl, by decide⟩, ⟨chip [(R.CAIRN_BOOT_STAT_STATE, 3)], rfl, by decide⟩,
    ⟨chip [(R.CAIRN_BOOT_STAT_STATE, 3), (R.CAIRN_FL_ADDR_ADDR, 0xFF)], rfl, by decide⟩, ⟨{}, rfl, by decide⟩, ?_,
    ⟨⟨4, 0x1FFF0000, 0x10000, []⟩, ({} : Chip).withBoot { flash := some ⟨4, 0x1FFF0000, 0x10000, []⟩ }, rfl, by decide⟩,
    ⟨{}, rfl, by decide⟩, ⟨{}, rfl, by decide⟩⟩
  intro op h
  refine ⟨⟨op, 0x1FFFFF00, 256, List.replicate 256 1⟩, ({} : Chip).withBoot { flash := some ⟨op, 0x1FFFFF00, 256, List.replicate 256 1⟩ }, rfl, rfl, rfl, ?_⟩
  exact ⟨by simp, by simp, by simp, rfl⟩

theorem wit_BootAndClocks :
    (∀ p : Fin 6, Met (fun m => p.val = 3 → m.hasUnit 0x0A = true)) ∧ (∀ p : Fin 6, Met (fun m => p.val ∈ m.clk.locked)) ∧
    Met (fun m => (3 : Fin 6).val = 3 ∧ m.hasUnit 0x0A = false) ∧ Met (fun m => m.on R.POINT_STAT_READY = false) ∧
    Met (fun m => m.on R.POINT_STAT_INIT_BUSY = true ∧ m.boot.running = false) ∧
    Met (fun m => m.booting = true ∧ m.boot.running = false ∧ m.boot.tried = [] ∧ m.dirCopy 0 = none ∧ m.dirCopy 1 = none) :=
  ⟨fun _ => ⟨{}, rfl, fun _ => by decide⟩, fun _ => ⟨({} : Chip).withClk { locked := [0, 1, 2, 3, 4, 5] }, rfl, by simp [Chip.withClk]; omega⟩,
    ⟨{ variant := .qv6440 }, rfl, by decide⟩, ⟨{}, rfl, by decide⟩, ⟨chip [(R.POINT_STAT_INIT_BUSY, 1)], rfl, by decide⟩, ⟨{}, rfl, by decide⟩⟩

theorem wit_PointReads :
    let plain := fun (m : Chip) (tag : BitVec 40) => let r := m.pt (tagIdx tag)
      m.on R.POINT_STAT_READY = true ∧ m.local tag = true ∧ m.outOfRange tag = false ∧ r.intact = true ∧ m.overlayOf (tagIdx tag) = none ∧
      (r.desc = 0 ∨ ((m.descOfRec r).ok = true ∧ (m.descOfRec r).fresh = 0 ∧ ((m.descOfRec r).critical = true → r.second = ~~~r.value)))
    Met (fun m => plain m 5 ∧ (m.pt 5).desc ≠ 0 ∧ (m.descOfRec (m.pt 5)).critical = true) ∧ Met (fun m => plain m 0x1FFFFFF) ∧
    Met (fun m => m.on R.POINT_STAT_READY = true ∧ m.outOfRange 0x2000000 = true) ∧ Met (fun m => m.on R.POINT_STAT_READY = true ∧ m.outOfRange 0x800000 = true) ∧
    Met (fun m => m.on R.POINT_STAT_READY = false) ∧
    (∀ p : Fin 3, Met (fun m => m.on (R.POINT_ACC_STAT_BUSY p.val) = false ∧ plain m (m.accTag p.val))) ∧
    (∀ p : Fin 3, Met (fun m => m.on (R.POINT_ACC_STAT_BUSY p.val) = true)) ∧
    (∀ p : Fin 3, Met (fun m => m.on (R.POINT_ACC_STAT_BUSY p.val) = false ∧ m.on R.POINT_STAT_READY = false)) :=
  ⟨⟨bound 5 7 1 4 (up []), by decide, by decide⟩, ⟨up [], by decide, by decide⟩, ⟨up [], by decide, by decide⟩,
    ⟨{ up [] with variant := .qv6440 }, by decide, by decide⟩, ⟨{}, by decide, by decide⟩, fun p => ⟨up [], by decide, by revert p; decide⟩,
    fun p => ⟨chip [(R.POINT_ACC_STAT_BUSY p.val, 1)], by revert p; decide, by revert p; decide⟩, fun p => ⟨{}, by decide, by revert p; decide⟩⟩

theorem wit_PointWrites :
    let here := fun (m : Chip) (tag : BitVec 40) => m.on R.POINT_STAT_READY = true ∧ m.local tag = true ∧ m.outOfRange tag = false ∧
      m.overlayOf (tagIdx tag) = none
    let rec_ := fun (m : Chip) (tag : BitVec 40) => m.pt (tagIdx tag)
    let desc := fun (m : Chip) (tag : BitVec 40) => m.descOfRec (m.pt (tagIdx tag))
    let bound := fun (m : Chip) (tag : BitVec 40) => here m tag ∧ (rec_ m tag).desc ≠ 0 ∧ (desc m tag).ok = true ∧
      ((desc m tag).critical = true → (rec_ m tag).second = ~~~(rec_ m tag).value)
    (∀ src ∈ [Src.host, Src.unit], Met (fun m => let w : PtWrite := { tag := 5, src := src, value := 7, second := ~~~7 }
      bound m w.tag ∧ (desc m w.tag).mask.testBit w.src.code = true ∧ (desc m w.tag).typ = 7 ∧ (desc m w.tag).range = false ∧
        (desc m w.tag).critical = true ∧ w.second = ~~~w.value ∧ m.force (tagIdx w.tag) = none)) ∧
    Met (fun m => here m 0x1FFFFFF ∧ (rec_ m 0x1FFFFFF).desc = 0) ∧ Met (fun m => bound m 5 ∧ (desc m 5).mask.testBit Src.plan.code = false) ∧
    Met (fun m => bound m 5 ∧ (desc m 5).mask.testBit Src.program.code = true ∧ (desc m 5).critical = true ∧ 4 ≤ (desc m 5).typ ∧ (7 : DWord) ≠ ~~~7 ∧
      (desc m 5).owner = 0xFFFF) ∧
    Met (fun m => bound m 5 ∧ (desc m 5).mask.testBit 0 = true ∧ (desc m 5).critical = false ∧ (rec_ m 5).srcCode = 0 ∧ Q.has (rec_ m 5).quality 8 = false ∧
      newer (rec_ m 5).seq (rec_ m 5).seq = false) ∧
    (∃ f : Force, Met (fun m => bound m 5 ∧ (desc m 5).mask.testBit Src.host.code = true ∧ (desc m 5).critical = false ∧ m.force 5 = some f ∧ f.subst = false)) ∧
    ∀ p : Fin 3, Met (fun m => let tag := m.accTag p.val
      bound m tag ∧ m.on (R.POINT_ACC_STAT_BUSY p.val) = false ∧ (desc m tag).mask.testBit 2 = true ∧ (desc m tag).typ = 7 ∧
      (desc m tag).range = false ∧ (desc m tag).critical = false ∧ m.force (tagIdx tag) = none) := by
  refine ⟨?_, ⟨up [], by decide, by decide⟩, ⟨Tests.bound 5 7 1 15 (up []), by decide, by decide⟩, ⟨Tests.bound 5 7 1 15 (up []), by decide, by decide⟩,
    ⟨(Tests.bound 5 7 0 15 (up [])).store 5 { unboundRec with desc := 5, quality := 0, seq := 9 }, by decide, by decide⟩,
    ⟨⟨false, 0, 0, 0, 0, 0, none⟩, (Tests.bound 5 7 8 15 (up [])).setForces [(5, ⟨false, 0, 0, 0, 0, 0, none⟩)], by decide, by decide⟩,
    fun p => ⟨Tests.bound 5 7 0 15 (up [(R.POINT_ACC_TAG_LO p.val, 5)]), by revert p; decide, by revert p; decide⟩⟩
  intro src h
  simp only [List.mem_cons, List.not_mem_nil, or_false] at h
  obtain rfl | rfl := h
  · exact ⟨Tests.bound 5 7 1 15 (up []), by decide, by decide⟩
  · exact ⟨Tests.bound 5 7 1 15 (up []), by decide, by decide⟩

theorem wit_ForcesAndSubstitutions :
    let idx := fun (m : Chip) (p : Fin 3) => tagIdx (m.accTag p.val)
    let ready := fun (m : Chip) (p : Fin 3) => m.on (R.POINT_ACC_STAT_BUSY p.val) = false ∧ m.on R.POINT_STAT_READY = true ∧
      m.local (m.accTag p.val) = true ∧ m.outOfRange (m.accTag p.val) = false ∧ m.overlayOf (idx m p) = none
    let desc := fun (m : Chip) (p : Fin 3) => m.descOfRec (m.pt (idx m p))
    let bound := fun (m : Chip) (p : Fin 3) => ready m p ∧ (m.pt (idx m p)).desc ≠ 0 ∧ (desc m p).ok = true
    Met (fun m => bound m 2 ∧ (desc m 2).forceable = true ∧ (desc m 2).typ = 7 ∧ (desc m 2).critical = false ∧ m.force (idx m 2) = none ∧
        m.pts.forces.length = 4095) ∧
    (∀ subst, ∃ f : Force, Met (fun m => bound m 2 ∧ ready m 2 ∧ m.force (idx m 2) = some f ∧ f.subst = subst ∧ f.held = none)) ∧
    Met (fun m => ready m 2 ∧ m.force (idx m 2) = none) ∧ Met (fun m => bound m 2 ∧ (desc m 2).forceable = false) := by
  refine ⟨⟨(bound 5 7 8 15 (up [(R.POINT_ACC_TAG_LO 2, 5)])).withPts { (bound 5 7 8 15 (up [(R.POINT_ACC_TAG_LO 2, 5)])).pts with
      forces := List.replicate 4095 (9, ⟨false, 0, 0, 0, 0, 0, none⟩) }, by decide, by decide, by decide, by decide, by decide, ?_, by simp [Chip.withPts]⟩,
    fun s => ⟨⟨s, 0, 0, 0, 0, 0, none⟩, (bound 5 7 8 15 (up [(R.POINT_ACC_TAG_LO 2, 5)])).setForces [(5, ⟨s, 0, 0, 0, 0, 0, none⟩)], by revert s; decide,
      by revert s; decide⟩, ⟨up [], by decide, by decide⟩, ⟨bound 5 7 0 15 (up [(R.POINT_ACC_TAG_LO 2, 5)]), by decide, by decide⟩⟩
  decide +kernel

theorem wit_PointBackground :
    let bg := fun (m : Chip) => m.on R.POINT_STAT_READY = true ∧ m.on R.POINT_CFG_BG_EN = true
    Met (fun m => bg m ∧ m.get R.POINT_BG_SWEEP_RATE ≠ 0 ∧ nextVisit (m.kindOf (fun d => d.fresh != 0)) m.pts.sweepAt = some 5 ∧ (m.pt 5).intact = true ∧
      (m.descOfRec (m.pt 5)).ok = true ∧ (m.descOfRec (m.pt 5)).critical = false ∧ (m.descOfRec (m.pt 5)).autoSubst = false ∧
      m.overlayOf 5 = none ∧ m.force 5 = none ∧ (m.pt 5).stamp.toNat + (m.descOfRec (m.pt 5)).loss * 1000000 + 1 = m.now) ∧
    Met (fun m => bg m ∧ m.get R.POINT_BG_SCRUB_RATE ≠ 0 ∧ nextVisit (m.kindOf Desc.critical) m.pts.scrubAt = some 5 ∧ (m.pt 5).intact = true ∧
      (m.descOfRec (m.pt 5)).ok = true ∧ (m.descOfRec (m.pt 5)).critical = true ∧ (m.pt 5).desc ≠ 0 ∧ (m.pt 5).second ≠ ~~~(m.pt 5).value ∧
      Q.has (m.pt 5).quality 3 = false) ∧
    Met (fun m => bg m ∧ m.get R.POINT_BG_SCRUB_RATE ≠ 0 ∧ nextVisit (m.kindOf Desc.critical) m.pts.scrubAt = some 5 ∧ (m.pt 5).intact = false ∧
      (m.bindOf 5).1 ≠ 0 ∧ (m.desc (m.bindOf 5).1).ok = true) ∧
    Met (fun m => m.on R.POINT_CFG_BG_EN = false) ∧ Met (fun m => m.get R.POINT_BG_SWEEP_RATE = 0) ∧ Met (fun m => m.get R.POINT_BG_SCRUB_RATE = 0) ∧
    (∃ o l, Met (fun m => m.pts.overlay = o :: l ∧ (∀ x ∈ l, x.idx ≠ o.idx) ∧ (m.pt o.idx).desc ≠ 0)) ∧ Met (fun m => m.pts.overlay = []) :=
  ⟨⟨at_ 2000001 (bound 5 7 0 15 (up []) 1 2), by decide, by decide⟩, ⟨(bound 5 7 1 15 (up [])).store 5 { unboundRec with desc := 5 }, by decide, by decide⟩,
    ⟨(bound 5 7 1 15 (up [])).setRec 5 { unboundRec with desc := 5, crc := 1 }, by decide, by decide⟩, ⟨chip [(R.POINT_CFG_BG_EN, 0)], by decide, by decide⟩,
    ⟨chip [(R.POINT_BG_SWEEP_RATE, 0)], by decide, by decide⟩, ⟨chip [(R.POINT_BG_SCRUB_RATE, 0)], by decide, by decide⟩,
    ⟨⟨5, 1, 2, 0, 0, false⟩, [⟨6, 1, 2, 0, 0, false⟩], (bound 5 7 1 15 (up [])).withPts { (bound 5 7 1 15 (up [])).pts with
      overlay := [⟨5, 1, 2, 0, 0, false⟩, ⟨6, 1, 2, 0, 0, false⟩] }, by decide, by decide⟩, ⟨{}, rfl, rfl⟩⟩

/-- A pending commit of an empty set. -/
def commit : PendCommit := { set := {}, mode := 0, task := 0, instant := 0, entry := 0, limit := 10, verdict := none }

/-- The chip with a pending commit of channel k in a phase. -/
def pending (k phase : Nat) (p : PendCommit) (m : Chip) : Chip := (m.setPend k p).setPhase k phase

theorem wit_CommitSets :
    (∀ k : Fin 4, k.val ≠ 0 → Met (fun m => m.pend k.val = none ∧ m.bank k.val ≠ {})) ∧
    (∀ k : Fin 4, Met (fun m => m.pend k.val = none ∧ m.bank k.val = {} ∧ m.boot.running = false ∧ (k.val = 0 → m.booting = false))) ∧
    (∀ k : Fin 4, Met (fun m => (m.pend k.val).isSome = true ∧ (k.val = 0 → m.booting = false) ∧ m.boot.running = false ∧ m.phase k.val ≠ 2)) ∧
    Met (fun m => m.booting = true) :=
  ⟨fun k _ => ⟨{ com := { banks := [(k.val, { ovf := true })] } }, by revert k; decide, by revert k; decide⟩,
    fun k => ⟨chip [(R.CAIRN_BOOT_STAT_STATE, 1)], by decide, by revert k; decide⟩,
    fun k => ⟨pending k.val 1 commit (chip [(R.CAIRN_BOOT_STAT_STATE, 1)]), by revert k; decide, by revert k; decide⟩, ⟨{}, rfl, by decide⟩⟩

theorem wit_CommitPhases :
    let calm := fun (m : Chip) => m.boot.running = false
    (∀ k : Fin 4, ∃ (p : PendCommit) (v : Verdict), v.rule = 15 ∧ v.unit = 255 ∧
      Met (fun m => calm m ∧ m.pend k.val = some p ∧ m.phase k.val = 1 ∧ p.awaitTwin = false ∧ p.verdict = some v)) ∧
    (∀ k : Fin 4, ∃ p : PendCommit, Met (fun m => calm m ∧ m.pend k.val = some p ∧ m.phase k.val = 1 ∧ p.awaitTwin = false ∧ p.verdict = none ∧ p.entry = 0)) ∧
    (∀ k : Fin 4, ∃ p : PendCommit, Met (fun m => calm m ∧ m.pend k.val = some p ∧ m.phase k.val = 1 ∧ p.awaitTwin = false ∧ p.verdict = none ∧ p.entry ≠ 0 ∧
      m.imageAt p.entry = none)) ∧
    (∀ k : Fin 4, ∃ p : PendCommit, Met (fun m => calm m ∧ m.pend k.val = some p ∧ m.phase k.val = 2 ∧ p.checkAt + p.limit * 1000000 = m.now)) ∧
    (∀ k : Fin 4, ∃ p : PendCommit, Met (fun m => calm m ∧ m.pend k.val = some p ∧ m.phase k.val = 3 ∧ p.set.points = [] ∧ m.pts.overlay.length ≤ 2097152 ∧
      p.mode = 2 ∧ p.instant.toNat * 2 ^ 32 < m.clk.league)) ∧
    (∀ k : Fin 4, ∃ p : PendCommit, Met (fun m => calm m ∧ m.pend k.val = some p ∧ m.phase k.val = 3 ∧ p.set.points = [] ∧ m.pts.overlay.length ≤ 2097152 ∧
      p.mode ≠ 2)) ∧
    (∀ k : Fin 4, ∃ p : PendCommit, Met (fun m => calm m ∧ m.pend k.val = some p ∧ m.phase k.val = 4 ∧ p.mode = 1 ∧
      p.waitFrom + 2 * (m.taskEnt p.task).period * 1000 + 1000000000 = m.monoNs)) ∧
    (∃ p : PendCommit, Met (fun m => calm m ∧ m.pend 1 = some p ∧ m.phase 1 = 4 ∧ p.set.points = [] ∧ p.mode = 0)) ∧
    (∃ p : PendCommit, Met (fun m => calm m ∧ m.pend 1 = some p ∧ m.phase 1 = 4 ∧ p.set.points = [] ∧ p.mode = 1 ∧ p.taskEnded = true)) ∧
    (∃ p : PendCommit, Met (fun m => calm m ∧ m.pend 1 = some p ∧ m.phase 1 = 4 ∧ p.set.points = [] ∧ p.mode = 2 ∧ p.instant.toNat * 2 ^ 32 = m.clk.league)) ∧
    (∀ k : Fin 4, Met (fun m => calm m ∧ m.pend k.val = none ∧ assoc m.com.pend (16 + k.val) = none)) ∧
    ∀ f ∈ [R.TXN_CTL, R.POINT_BG], ∃ p : PendCommit, Met (fun m => m.boot.running = false ∧ m.pend 0 = some p ∧ m.phase 0 = 4 ∧ p.mode = 0 ∧
      p.set = { regs := [(f.addr, 5)] }) := by
  refine ⟨fun k => ⟨{ commit with verdict := some ⟨8, 15, 255, 0⟩ }, ⟨8, 15, 255, 0⟩, rfl, rfl, pending k.val 1 { commit with verdict := some ⟨8, 15, 255, 0⟩ } {},
      by revert k; decide, by revert k; decide⟩,
    fun k => ⟨commit, pending k.val 1 commit {}, by revert k; decide, by revert k; decide⟩,
    fun k => ⟨{ commit with entry := 1024 }, pending k.val 1 { commit with entry := 1024 } {}, by revert k; decide, by revert k; decide, by revert k; decide,
      by revert k; decide, rfl, rfl, by decide, rfl⟩,
    fun k => ⟨commit, pending k.val 2 commit (at_ 10000000 {}), by revert k; decide, by revert k; decide⟩,
    fun k => ⟨{ commit with mode := 2 }, pending k.val 3 { commit with mode := 2 } (({} : Chip).withClk { league := 1 }), by revert k; decide, by revert k; decide⟩,
    fun k => ⟨{ commit with mode := 1 }, pending k.val 3 { commit with mode := 1 } {}, by revert k; decide, by revert k; decide⟩,
    fun k => ⟨{ commit with mode := 1 }, pending k.val 4 { commit with mode := 1 } (({} : Chip).withClk { mono := 4000000000 }), by revert k; decide,
      by revert k; decide +kernel⟩,
    ⟨commit, pending 1 4 commit {}, by decide, by decide⟩,
    ⟨{ commit with mode := 1, taskEnded := true }, pending 1 4 { commit with mode := 1, taskEnded := true } {}, by decide, by decide⟩,
    ⟨{ commit with mode := 2, instant := 1 }, pending 1 4 { commit with mode := 2, instant := 1 } (at_ 1 {}), by decide, by decide⟩,
    fun k => ⟨{}, by decide, by revert k; decide⟩,
    fun f h => ?_⟩
  simp only [List.mem_cons, List.not_mem_nil, or_false] at h
  obtain rfl | rfl := h
  · exact ⟨{ commit with set := { regs := [(R.TXN_CTL.addr, 5)] } }, pending 0 4 { commit with set := { regs := [(R.TXN_CTL.addr, 5)] } } {}, by decide, by decide⟩
  · exact ⟨{ commit with set := { regs := [(R.POINT_BG.addr, 5)] } }, pending 0 4 { commit with set := { regs := [(R.POINT_BG.addr, 5)] } } {}, by decide, by decide⟩

/-- An enabled task t on a core, with period and budget (Table 6-1). -/
def tasked (t core period : Nat) (m : Chip) : Chip := m.setBytes (.win .scanTask) (64 * t) ([1, BitVec.ofNat 8 core, 0, 0] ++ le 4 period ++ le 4 0 ++ le 4 1000)

theorem wit_TaskCycle :
    let due := fun (m : Chip) (t inst : Nat) => (m.taskEnt t).gridAt m.now = some inst ∧ (m.taskEnt t).enabled = true ∧ m.leads = true ∧
      m.clusterOpen (m.taskEnt t).core = true ∧ (∀ g, (m.task t).gridDone = some g → g < inst)
    let point := fun (m : Chip) (tag : BitVec 40) => let r := m.pt (tagIdx tag)
      m.on R.POINT_STAT_READY = true ∧ m.local tag = true ∧ m.outOfRange tag = false ∧ r.intact = true ∧ m.overlayOf (tagIdx tag) = none ∧
      r.desc ≠ 0 ∧ (m.descOfRec r).ok = true ∧ (m.descOfRec r).fresh = 0 ∧ (m.descOfRec r).critical = false
    (∀ t ∈ [0, 255], ∃ inst, Met (fun m => due m t inst ∧ m.tState t = TS.idle ∧ (m.task t).swap = none ∧ (m.task t).prevMono = none)) ∧
    (∃ inst p, Met (fun m => due m 5 inst ∧ m.tState 5 = TS.idle ∧ (m.task 5).swap = none ∧ (m.task 5).prevMono = some p ∧
      500 * (m.taskEnt 5).period = m.monoNs - p)) ∧
    (∃ inst, Met (fun m => due m 5 inst ∧ m.inCycle 5 = true)) ∧
    Met (fun m => (m.taskEnt 5).gridAt m.now = none) ∧ Met (fun m => (m.taskEnt 5).enabled = false) ∧
    Met (fun m => m.tState 5 = TS.snapshot ∧ (m.task 5).imap = []) ∧
    (∃ e, Met (fun m => m.tState 5 = TS.snapshot ∧ (m.task 5).imap = [e] ∧ e.kind = 1 ∧ point m e.tag)) ∧
    (∃ t, Met (fun m => m.nextReady 31 = some t ∧ (m.core 31).level = none ∧ (m.task t).ctx = none)) ∧
    Met (fun m => m.nextReady 31 = none) ∧
    (∃ t, Met (fun m => m.nextReady 3 = some t ∧ (m.core 3).level.isSome = true ∧ (m.task (m.core 3).prog).ent.prio = (m.task t).ent.prio)) ∧
    Met (fun m => let k := m.task 5
      m.tState 5 = TS.handoff ∧ k.buf = [] ∧ k.swap = none ∧ k.faultReq = false ∧ k.stopReq = false ∧ m.clusterOpen k.ent.core = true ∧
      (m.monoNs - k.releasedAt) / 1000 = 2 ^ 32 - 1) ∧
    (∃ e v, Met (fun m => m.tState 5 = TS.handoff ∧ (m.task 5).buf = [(e, v, 0)] ∧ e.kind = 1 ∧ m.leads = true ∧ point m e.tag ∧
      (m.descOfRec (m.pt (tagIdx e.tag))).mask.testBit 3 = true ∧ (m.descOfRec (m.pt (tagIdx e.tag))).owner ∈ [5, 0xFFFF] ∧
      (m.descOfRec (m.pt (tagIdx e.tag))).typ = 7 ∧ (m.descOfRec (m.pt (tagIdx e.tag))).range = false ∧ m.force (tagIdx e.tag) = none)) := by
  refine ⟨fun t h => ?_, ⟨10000000, 0, ((at_ 10000000 (tasked 5 3 10000 (up [(R.SCAN_TS_STATE_STATE 5, 1)]))).withClk
        { league := 10000000 * 2 ^ 32, mono := 20000000 }).setTask 5 { prevMono := some 0 }, by decide, by decide⟩,
    ⟨10000000, at_ 10000000 (tasked 5 3 10000 (up [(R.SCAN_TS_STATE_STATE 5, 5)])), by decide, by decide⟩, ⟨{}, rfl, by decide⟩, ⟨{}, rfl, by decide⟩,
    ⟨up [(R.SCAN_TS_STATE_STATE 5, 2)], by decide, by decide⟩,
    ⟨⟨5, 0, 56, 1, 0, 0⟩, (bound 5 7 0 8 (up [(R.SCAN_TS_STATE_STATE 5, 2)])).setTask 5 { imap := [⟨5, 0, 56, 1, 0, 0⟩] }, by decide, by decide⟩,
    ⟨5, (up [(R.SCAN_TS_STATE_STATE 5, 3)]).setTask 5 { ent := { core := 31 } }, by decide, by decide⟩, ⟨up [], by decide, by decide⟩,
    ⟨6, task id ((up [(R.SCAN_TS_STATE_STATE 6, 3)]).setTask 6 { ent := { core := 3 } }), by decide, by decide⟩,
    ⟨((up [(R.SCAN_TS_STATE_STATE 5, 5)]).withClk { mono := 4 * 1000 * (2 ^ 32 - 1) }), by decide, by decide⟩,
    ⟨⟨5, 0, 56, 1, 0, 0⟩, 7, (bound 5 7 0 8 (up [(R.SCAN_TS_STATE_STATE 5, 5)])).setTask 5 { buf := [(⟨5, 0, 56, 1, 0, 0⟩, 7, 0)] }, by decide, by decide⟩⟩
  simp only [List.mem_cons, List.not_mem_nil, or_false] at h
  obtain rfl | rfl := h
  · exact ⟨10000000, at_ 10000000 (tasked 0 3 10000 (up [(R.SCAN_TS_STATE_STATE 0, 1)])), by decide, by decide⟩
  · exact ⟨10000000, at_ 10000000 (tasked 255 31 10000 (up [(R.SCAN_TS_STATE_STATE 255, 1)])), by decide, by decide⟩

theorem wit_TaskControl :
    (∀ s : Fin 8, Met (fun m => (m.task 5).stopReq = false ∧ (m.taskEnt 5).enabled = true ∧ m.tState 5 = s.val ∧ (m.task 5).swap = none)) ∧
    ([TS.stopped, TS.idle, TS.held, TS.faulted] ⊆ [0, 1, 2, 3, 4, 5, 6, 7] ∧ Met (fun m => (m.taskEnt 5).enabled = true ∧ m.inCycle 5 = true)) ∧
    Met (fun m => (m.task 5).stopReq = true) ∧ Met (fun m => (m.task 5).stopReq = false ∧ (m.taskEnt 5).enabled = false) ∧ (∃ v : Word, v ≠ 0) ∧
    (∃ h : HeldOut, Met (fun m => m.txn.held = [h] ∧ h.station = (9 : BitVec 18).toNat ∧ h.group = 0xFFFE ∧ h.expired = false ∧ h.since + h.life = m.monoNs)) ∧
    Met (fun m => m.txn.held ≠ [] ∧ ∀ h ∈ m.txn.held, m.monoNs + 1 = h.since + h.life) ∧
    (∃ s : Swap, Met (fun m => (m.task 5).swap = some s ∧ m.inCycle 5 = false ∧ (m.standby && m.paired) = false)) ∧
    Met (fun m => (m.task 5).swap = none) ∧ (∃ p, Met (fun m => m.pend 0 = some p ∧ p.awaitTwin = true)) ∧
    (∃ p, Met (fun m => m.pend 0 = some p ∧ p.awaitTwin = true ∧ m.pairedActive = true ∧ m.syncState = 3 ∧ p.waitFrom + 100000000 = m.monoNs)) ∧
    Met (fun m => m.pend 0 = none) :=
  ⟨fun s => ⟨tasked 5 3 10000 (up [(R.SCAN_TS_STATE_STATE 5, s.val)]), by revert s; decide, by revert s; decide⟩, ⟨by decide, tasked 5 3 10000 (up [(R.SCAN_TS_STATE_STATE 5, 2)]), by decide, by decide⟩,
    ⟨({} : Chip).setTask 5 { stopReq := true }, by decide, by decide⟩, ⟨{}, by decide, by decide⟩, ⟨1, by decide⟩,
    ⟨⟨9, 0xFFFE, 0, [1], 5, 5, false⟩, (({} : Chip).withClk { mono := 40 }).withTxn { held := [⟨9, 0xFFFE, 0, [1], 5, 5, false⟩] }, by decide, by decide⟩,
    ⟨(({} : Chip).withClk { mono := 36 }).withTxn { held := [⟨9, 0xFFFE, 0, [1], 5, 5, false⟩] }, by decide, by decide⟩, ⟨⟨{ code := [] }, false, 0, 0⟩, ({} : Chip).setTask 5 { swap := some ⟨{ code := [] }, false, 0, 0⟩ }, by decide, by decide⟩,
    ⟨{}, by decide, by decide⟩, ⟨{ commit with awaitTwin := true }, ({} : Chip).setPend 0 { commit with awaitTwin := true }, by decide, by decide⟩,
    ⟨{ commit with awaitTwin := true }, ((chip [(R.SADL_STAT_ROLE, 1), (R.SADL_STAT_SYNC, 3)]).withClk { mono := 400000000 }).setPend 0 { commit with awaitTwin := true },
      by decide, by decide⟩, ⟨{}, by decide, by decide⟩⟩

theorem wit_GovernorEvaluates :
    let quiet := fun (m : Chip) => m.get R.RIDGE_SUPPLY_TAG_LO = 0 ∧ m.get R.RIDGE_SUPPLY_TAG_HI = 0 ∧ m.get R.RIDGE_STAT_PROFILE = 0 ∧ m.ridge.jobs = [] ∧
      m.get R.RIDGE_STAT_STATE = 2 ∧ m.ridge.changing = none ∧ m.get R.RIDGE_STAT_ZONE = 0 ∧ m.ridge.samples = []
    (∃ t : BitVec 16, Met (fun m => quiet m ∧ t.toInt = 4 * (m.get R.RIDGE_THERM_RIDGE : Int) - 4 * m.get R.RIDGE_THERM_BAND ∧
      t.toInt < 4 * (m.get R.RIDGE_THERM_RIDGE : Int) ∧ t.toInt < 424)) ∧
    (∃ t : BitVec 16, Met (fun m => quiet m ∧ 424 = t.toInt)) :=
  ⟨⟨BitVec.ofNat 16 (4 * ((chip []).get R.RIDGE_THERM_RIDGE - (chip []).get R.RIDGE_THERM_BAND)), chip [(R.RIDGE_STAT_STATE, 2)], by decide, by decide⟩,
    ⟨424, chip [(R.RIDGE_STAT_STATE, 2)], by decide, by decide⟩⟩

theorem wit_DomainsAndClocks :
    (∀ d : Fin 16, ∃ l, Met (fun m => m.ridge.switching = d.val :: l)) ∧ (∀ d : Fin 16, Met (fun m => ∀ l, m.ridge.switching ≠ d.val :: l)) ∧
    (∀ d ∈ [5, 8, 11, 13, 14], Met (fun m => m.on R.RIDGE_CTL_GATE_EN = true ∧ m.pdOn d = true ∧ m.domainUsed d = false ∧
      AMap.get 0 m.ridge.idleAt d + max 1 (m.get R.RIDGE_CTL_IDLE_MS) * 1000000 = m.monoNs ∧ ∀ e ∈ m.ridge.switching, e < 16)) ∧
    (∀ d ∈ [0, 1, 2, 3, 4, 9, 10, 12, 15], Met (fun m => m.domainUsed d = true)) ∧ Met (fun m => m.on R.RIDGE_CTL_GATE_EN = false) ∧
    (∀ v : Fin 4, Met (fun m => m.ridge.vcoreTo = some v.val)) ∧ (∀ k : Fin 2, Met (fun m => assoc m.ridge.relock k.val = some 15)) ∧
    Met (fun m => m.ridge.changing = some 2 ∧ m.ridge.held = none ∧ m.pdReady 4 = true ∧ m.ridge.vcoreTo = none ∧ 1 = m.get R.RIDGE_STAT_VCORE) ∧
    Met (fun m => m.ridge.changing = some 0 ∧ (∀ u, u < 81 → m.keyPresent u = true → (m.unitRun u).disabled = true) ∧ m.on R.METER_STAT_FOLDING = false) ∧
    Met (fun m => m.ridge.changing = none) ∧
    (∀ cls ∈ [4, 8], ∃ j : Job, Met (fun m => m.ridge.jobs = [j] ∧ j.cls = cls ∧ j.owner = 35 ∧ j.since + 60000000000 = m.monoNs)) ∧
    Met (fun m => m.ridge.jobs ≠ [] ∧ ∀ j ∈ m.ridge.jobs, j.cls = 8 → j.owner = 35 → m.monoNs + 1 = j.since + 60000000000) := by
  refine ⟨fun d => ⟨[3], ({} : Chip).withRidge { switching := [d.val, 3] }, rfl, rfl⟩, fun d => ⟨{}, rfl, fun _ h => by cases h⟩, fun d h => ?_, fun d h => ?_,
    ⟨chip [(R.RIDGE_CTL_GATE_EN, 0)], by decide, by decide⟩, fun v => ⟨({} : Chip).withRidge { vcoreTo := some v.val }, rfl, rfl⟩,
    fun k => ⟨({} : Chip).withRidge { relock := [(k.val, 15)] }, rfl, by revert k; decide⟩,
    ⟨(up [(R.RIDGE_STAT_VCORE, 1)]).withRidge { changing := some 2 }, by decide, by decide⟩,
    ⟨{ ridge := { changing := some 0 }, units := (List.range 81).map (fun u => (u, { disabled := true })) }, rfl, rfl, by decide +kernel, by decide⟩,
    ⟨{}, rfl, rfl⟩, fun c h => ?_,
    ⟨(({} : Chip).withClk { mono := 239999999996 }).withRidge { jobs := [{ cls := 8, cost := 1, draw := 1, owner := 35 }] }, rfl, by decide, by decide⟩⟩
  · simp only [List.mem_cons, List.not_mem_nil, or_false] at h
    obtain rfl | rfl | rfl | rfl | rfl := h <;>
      exact ⟨((up [(R.RIDGE_CTL_GATE_EN, 1), (R.RIDGE_CTL_IDLE_MS, 1)]).withClk { mono := 4000000 }), by decide, by decide⟩
  · simp only [List.mem_cons, List.not_mem_nil, or_false] at h
    obtain rfl | rfl | rfl | rfl | rfl | rfl | rfl | rfl | rfl := h <;> exact ⟨{}, rfl, by decide⟩
  · simp only [List.mem_cons, List.not_mem_nil, or_false] at h
    obtain rfl | rfl := h
    · exact ⟨{ cls := 4, cost := 1, draw := 1, owner := 35 }, (({} : Chip).withClk { mono := 240000000000 }).withRidge
        { jobs := [{ cls := 4, cost := 1, draw := 1, owner := 35 }] }, by decide, by decide⟩
    · exact ⟨{ cls := 8, cost := 1, draw := 1, owner := 35 }, (({} : Chip).withClk { mono := 240000000000 }).withRidge
        { jobs := [{ cls := 8, cost := 1, draw := 1, owner := 35 }] }, by decide, by decide⟩

theorem wit_PowerStops :
    (∃ m : Chip, m.pd2 = false) ∧ (∃ m : Chip, m.pd2 = false ∧ m.keep.pd15 = true) ∧ (∃ m : Chip, m.pd2 = true) ∧ (∃ m : Chip, m.keep.pd15 = false) :=
  ⟨⟨{ pd2 := false }, rfl⟩, ⟨{ pd2 := false, keep := { pd15 := true } }, rfl, rfl⟩, ⟨{}, rfl⟩, ⟨{ keep := { pd15 := false } }, rfl⟩⟩

/-- A chip whose sentinels stand. -/
def sealedChip : Chip :=
  (List.range 8).foldl (fun a k => (a.wr .retention (8 * k) 4 (sentinel k)).wr .retention (8 * k + 4) 4 (0xFFFFFFFF - sentinel k)) {}

theorem sealedChip_sound : sealedChip.brokenSentinel = none := by decide

theorem sentinel_withKeep (m : Chip) (k : Keep) : (m.withKeep k).brokenSentinel = m.brokenSentinel := rfl

theorem wit_PowerStart :
    let raising := fun (m : Chip) => m.pd2 = false ∧ 1 ≤ m.keep.enables ∧ m.keep.osc = false ∧ m.keep.pd15 = false
    let starts := fun (m : Chip) => m.keep.started = false ∧ m.keep.enables = 6 ∧ m.keep.osc = true
    (∃ m : Chip, m.pd2 = false ∧ m.keep.waits = 2 ∧ m.keep.enables = 0) ∧
    (∃ m : Chip, m.pd2 = false ∧ m.keep.waits = 1 ∧ m.keep.enables = 0 ∧ m.on R.KEEP_CTL_WAKE_EN = true) ∧ (∃ m : Chip, m.pd2 = true) ∧
    (∃ m, raising m ∧ m.keep.enables = 1) ∧ (∃ m, raising m ∧ m.keep.enables = 5) ∧ (∃ m, raising m ∧ m.keep.enables = 6) ∧ (∃ m, ¬ raising m) ∧
    (∃ m, starts m ∧ m.keep.sysBad = [] ∧ m.keep.bkLatch = false ∧ m.on R.KEEP_STAT_OSF = false ∧ m.on R.KEEP_STAT_BKLOSS = false ∧ m.brokenSentinel = none ∧ m.keep.wake = 7 ∧
      m.keep.wakeAlarm = 31) ∧
    (∀ o, ∃ m, starts m ∧ m.keep.sysBad = [o] ∧ m.brokenSentinel = none ∧ m.keep.wake = 7 ∧ m.keep.wakeAlarm = 31) ∧
    (∃ m, starts m ∧ m.keep.bkLatch = true) ∧ (∃ m, starts m ∧ m.brokenSentinel.isSome = true) ∧ (∃ m, ¬ starts m) ∧
    (∃ mv : Nat, mv = 2799) ∧ (∃ mv : Nat, 2900 ≤ mv) ∧ (∃ mv : Nat, 2800 ≤ mv ∧ mv = 2899) ∧ (∃ mv held, 2800 ≤ mv ∧ mv = 2900 ∧ held = false) :=
  ⟨⟨{ pd2 := false, keep := { waits := 2, enables := 0 } }, rfl, rfl, rfl⟩,
    ⟨{ chip [(R.KEEP_CTL_WAKE_EN, 1)] with pd2 := false, keep := { waits := 1, enables := 0 } }, rfl, rfl, rfl, by decide⟩, ⟨{}, rfl⟩,
    ⟨{ pd2 := false, keep := { enables := 1, osc := false, pd15 := false } }, by decide, rfl⟩,
    ⟨{ pd2 := false, keep := { enables := 5, osc := false, pd15 := false } }, by decide, rfl⟩,
    ⟨{ pd2 := false, keep := { enables := 6, osc := false, pd15 := false } }, by decide, rfl⟩, ⟨{}, by decide⟩,
    ⟨(List.range 8).foldl (fun a k => (a.wr .retention (8 * k) 4 (sentinel k)).wr .retention (8 * k + 4) 4 (0xFFFFFFFF - sentinel k))
      { chip [(R.KEEP_STAT_OSF, 0), (R.KEEP_STAT_BKLOSS, 0)] with keep := { bkLatch := false, wake := 7, wakeAlarm := 31 } }, by decide, by decide, by decide,
      by decide, by decide, by decide, by decide, by decide⟩,
    fun o => ⟨sealedChip.withKeep { wake := 7, wakeAlarm := 31, sysBad := [o] }, ⟨rfl, rfl, rfl⟩, rfl, (sentinel_withKeep _ _).trans sealedChip_sound, rfl, rfl⟩,
    ⟨{}, by decide, by decide⟩, ⟨{}, by decide, by decide⟩, ⟨{ keep := { started := true } }, by decide⟩, ⟨2799, rfl⟩, ⟨2900, by decide⟩, ⟨2899, by decide, rfl⟩,
    ⟨2900, false, by decide, rfl, rfl⟩⟩

/-- R412: a shutdown record both of whose copies are broken takes its reset value and posts SYSREC_BAD with its offset and PAIR_FAULT. -/
theorem test_sysrec_bad :
    let m : Chip := { keep := { stop := 2, sysBad := [0x200] } }
    m.pd2Start.keep.stop = 0 ∧ m.pd2Start.rings.held.any (fun e => e.code == 0x0E06 && e.object == 0x200 && e.cc == 4) = true := by decide

theorem wit_RealTimeClockAndAlarms :
    let due := fun (m : Chip) (a : Nat) => m.on (R.KEEP_ALM_CTL_EN a) = true ∧ m.on (R.KEEP_ALM_CTL_LOCAL a) = false ∧ (m.alarm a).owed = [] ∧
      (m.alarm a).from_ < m.get (R.KEEP_ALM_TIME a) ∧ m.get (R.KEEP_ALM_TIME a) ≤ m.keep.sec
    (∃ t v : Word, ∃ sec, rtcOfWords t v = some sec) ∧ (∃ t v : Word, rtcOfWords t v = none) ∧
    Met (fun m => assoc (m.req .pcie).held R.KEEP_RTC_SET_TIME.addr = some 0) ∧
    Met (fun m => m.on R.KEEP_CTL_FOLLOW_EN = true ∧ m.on R.UPL_TIME_STAT_TRUSTED = true) ∧ Met (fun m => m.on R.KEEP_CTL_FOLLOW_EN = false) ∧
    Met (fun m => m.on R.UPL_TIME_STAT_TRUSTED = false) ∧ (∀ k : Fin 26, ∃ t : BitVec 8, t.toInt = 5 * (k.val : Int) - 40) ∧
    Met (fun m => m.keep.sec = 2 ^ 32 - 1 ∧ m.keep.sub = 2 ^ 15 - 1) ∧
    (∃ m : Chip, m.inSaving (m.stdOf m.keep.sec) = m.on R.KEEP_LOCAL_DST) ∧ (∃ m : Chip, m.inSaving (m.stdOf m.keep.sec) ≠ m.on R.KEEP_LOCAL_DST) ∧
    (∃ m : Chip, m.on R.UPL_UTC_LI61 = true) ∧ (∃ m : Chip, m.on R.UPL_UTC_LI61 = false ∧ m.on R.UPL_UTC_LI59 = true) ∧
    (∀ a ∈ [0, 31], ∃ m : Chip, due m a ∧ m.on (R.KEEP_ALM_CTL_WAKE a) = true ∧ m.pd2 = false ∧ m.keep.waits = 1 ∧ m.keep.enables = 0 ∧
      (m.alarm a).from_ + 1 = m.get (R.KEEP_ALM_TIME a) ∧ m.get (R.KEEP_ALM_TIME a) = m.keep.sec) ∧
    (∀ a ∈ [0, 31], ∃ m : Chip, m.on (R.KEEP_ALM_CTL_EN a) = false ∧ (m.alarm a).owed = []) ∧
    (∀ a ∈ [0, 31], Met (fun m => m.on R.KEEP_CTL_AUTO_WAKE = false ∧ m.on (R.KEEP_ALM_CTL_LOCAL a) = true)) ∧ (∃ v : Word, v.toNat = 86399) ∧
    (∃ v : Word, 86399 < v.toNat) ∧ Met (fun m => m.on R.KEEP_CTL_AUTO_WAKE = true) := by
  refine ⟨⟨0x00173B3B, 0x18060C1F, Option.isSome_iff_exists.mp (by decide)⟩, ⟨0xFFFFFFFF, 0xFFFFFFFF, by decide⟩,
    ⟨({} : Chip).setReq .pcie { held := [(R.KEEP_RTC_SET_TIME.addr, 0)] }, by decide, by decide⟩,
    ⟨chip [(R.KEEP_CTL_FOLLOW_EN, 1), (R.UPL_TIME_STAT_TRUSTED, 1)], by decide, by decide⟩, ⟨chip [(R.KEEP_CTL_FOLLOW_EN, 0)], by decide, by decide⟩,
    ⟨{}, by decide, by decide⟩, fun k => ⟨BitVec.ofInt 8 (5 * (k.val : Int) - 40), by revert k; decide⟩, ⟨{ keep := { sec := 2 ^ 32 - 1, sub := 2 ^ 15 - 1 } }, rfl, rfl, rfl⟩,
    ⟨{}, by decide⟩, ⟨chip [(R.KEEP_LOCAL_DST, 1)], by decide⟩, ⟨chip [(R.UPL_UTC_LI61, 1)], by decide⟩, ⟨chip [(R.UPL_UTC_LI59, 1)], by decide⟩,
    fun a h => ?_, fun a h => ?_, fun a h => ?_, ⟨86399, by decide⟩,
    ⟨86400, by decide⟩, ⟨chip [(R.KEEP_CTL_AUTO_WAKE, 1)], by decide, by decide⟩⟩
  all_goals
    simp only [List.mem_cons, List.not_mem_nil, or_false] at h
    obtain rfl | rfl := h
  · exact ⟨{ chip [(R.KEEP_ALM_CTL_EN 0, 1), (R.KEEP_ALM_CTL_WAKE 0, 1), (R.KEEP_ALM_TIME 0, 1)] with
      pd2 := false, keep := { sec := 1, waits := 1, enables := 0 } }, by decide⟩
  · exact ⟨{ chip [(R.KEEP_ALM_CTL_EN 31, 1), (R.KEEP_ALM_CTL_WAKE 31, 1), (R.KEEP_ALM_TIME 31, 1)] with
      pd2 := false, keep := { sec := 1, waits := 1, enables := 0 } }, by decide⟩
  · exact ⟨{}, by decide⟩
  · exact ⟨{}, by decide⟩
  · exact ⟨chip [(R.KEEP_ALM_CTL_LOCAL 0, 1)], by decide, by decide⟩
  · exact ⟨chip [(R.KEEP_ALM_CTL_LOCAL 31, 1)], by decide, by decide⟩

/-- A planning round in a phase, with an anchor at 10 s and a deadline at 9 s. -/
def rnd : Round := { launched := 0, anchor := 10000000000, deadline := 9000000000, lens := [300] }

def planning (phase : Nat) (r : Round) (m : Chip) : Chip := (m.withPlan { m.plan with round := some r }).put R.PLAN_STAT_PHASE phase

/-- An element record of a type, with its CRC or with a broken one. -/
def elemBytes (type : Nat) (ok : Bool) : List Byte :=
  let b := le 1 type ++ le 251 0
  b ++ le 4 ((crc32c b).toNat + bit (!ok))

theorem wit_PlannerRounds :
    let phase := fun (m : Chip) => m.get R.PLAN_STAT_PHASE
    let ready := fun (m : Chip) => m.hasUnit 0x0A = true ∧ m.on R.PLAN_CTL_EN = true ∧ m.get R.PLAN_ELEM_CNT_COUNT ≠ 0 ∧ m.trusted = true
    Met (fun m => m.hasUnit 0x0A = true ∧ m.on R.PLAN_CTL_EN = true ∧ m.get R.PLAN_ELEM_CNT_COUNT = 0 ∧ m.trusted = true) ∧
    Met (fun m => m.hasUnit 0x0A = true ∧ m.trusted = false) ∧ Met (fun m => m.hasUnit 0x0A = true ∧ m.on R.PLAN_CTL_EN = false) ∧
    Met (fun m => ready m ∧ m.plan.round.isSome = true) ∧
    (∃ q, Met (fun m => ready m ∧ m.plan.round = none ∧ m.plan.plan = none ∧ m.on (R.RIDGE_CLS_CFG_EN 0) = true ∧ m.changeBars 0 = false ∧
      m.get R.RIDGE_STAT_ZONE = 0 ∧ m.qFit (m.get (R.RIDGE_PROF_PLAN_QMAX (m.get R.RIDGE_STAT_PROFILE))) m.planDraw = some q ∧
      (m.planCost : Int) * 1000 ≤ m.ridge.level + m.floor ∧ m.get R.PLAN_TIMING_GRID ≠ 0)) ∧
    (∀ p : Fin 9, Met (fun m => m.hasUnit 0x0A = true ∧ m.plan.round = some rnd ∧ phase m = p.val)) ∧ Met (fun m => m.hasUnit 0x0A = true ∧ m.plan.round = none) ∧
    Met (fun m => m.on R.PLAN_CTL_CAD_EN = false) ∧ Met (fun m => m.now < m.get R.PLAN_CADENCE_PHASE * 1000000000) ∧ Met (fun m => m.leads = false) ∧
    Met (fun m => m.hasUnit 0x0A = true ∧ m.on R.PLAN_CTL_CAD_EN = true ∧ m.get R.PLAN_CADENCE_PHASE * 1000000000 = m.now ∧ m.leads = true ∧
      m.plan.lastTick = none ∧ m.plan.round.isSome = true) ∧
    Met (fun m => m.plan.round = some rnd ∧ phase m = 2 ∧ m.pdReady 5 = true ∧ ∃ e ∈ m.elems, (m.elem e).ok = false) ∧
    Met (fun m => m.plan.round = some rnd ∧ phase m = 2 ∧ m.pdReady 5 = true ∧ m.elems ≠ [] ∧ (∀ e ∈ m.elems, (m.elem e).ok = true) ∧ m.pbinds = []) ∧
    (∀ p ∈ [2, 3, 5], Met (fun m => m.plan.round = some rnd ∧ rnd.deadline * 2 ^ 32 = m.clk.league ∧ m.reached rnd.deadline = true ∧ phase m = p ∧
      m.on R.PLAN_LEAGUE_EN = false)) ∧
    Met (fun m => m.plan.round = some rnd ∧ m.reached rnd.deadline = false) ∧
    (∃ p, Met (fun m => m.plan.plan = some p ∧ p.expired = false ∧ m.reached p.ends = true)) ∧ (∃ p, Met (fun m => m.plan.plan = some p ∧ m.reached p.ends = false)) ∧
    (∃ r, Met (fun m => m.plan.round = some r ∧ r.answered = false ∧ m.monoNs + 1 = r.waitFrom + m.get R.PLAN_LEAGUE_WAIT * 1000000)) ∧
    (∃ r t, Met (fun m => m.plan.round = some r ∧ phase m = 6 ∧ r.ties = [t] ∧ t.frozen = false ∧ t.answer = none ∧
      r.waitFrom + m.get R.PLAN_LEAGUE_WAIT * 1000000 = m.monoNs)) := by
  refine ⟨⟨chip [(R.PLAN_CTL_EN, 1), (R.UPL_TIME_STAT_TRUSTED, 1), (R.PLAN_ELEM_CNT_COUNT, 0)], by decide, by decide⟩, ⟨{}, by decide, by decide⟩,
    ⟨{}, by decide, by decide⟩, ⟨planning 2 rnd (chip [(R.PLAN_CTL_EN, 1), (R.UPL_TIME_STAT_TRUSTED, 1), (R.PLAN_ELEM_CNT_COUNT, 1)]), by decide, by decide⟩,
    ⟨1, (chip [(R.PLAN_CTL_EN, 1), (R.UPL_TIME_STAT_TRUSTED, 1), (R.PLAN_ELEM_CNT_COUNT, 1)]), by decide, by decide +kernel⟩,
    fun p => ⟨planning p.val rnd {}, by revert p; decide, by revert p; decide⟩,
    ⟨{}, by decide, by decide⟩, ⟨chip [(R.PLAN_CTL_CAD_EN, 0)], by decide, by decide⟩, ⟨chip [(R.PLAN_CADENCE_PHASE, 1)], by decide, by decide⟩,
    ⟨chip [(R.SADL_STAT_ROLE, 2)], by decide, by decide⟩, ⟨planning 2 rnd (at_ 5000000000 (chip [(R.PLAN_CTL_CAD_EN, 1), (R.PLAN_CADENCE_PHASE, 5)])), by decide, by decide⟩,
    ⟨planning 2 rnd ((up [(R.PLAN_ELEM_CNT_COUNT, 1)]).setBytes (.win .planElem) 0 (elemBytes 1 false)), by decide, by decide +kernel⟩,
    ⟨planning 2 rnd ((up [(R.PLAN_ELEM_CNT_COUNT, 1)]).setBytes (.win .planElem) 0 (elemBytes 1 true)), by decide, by decide +kernel⟩, fun p h => ?_,
    ⟨planning 2 rnd {}, by decide, by decide⟩, ⟨⟨0, [300], [], false⟩, at_ 300000000000 { plan := { plan := some ⟨0, [300], [], false⟩ } }, by decide, by decide⟩,
    ⟨⟨0, [300], [], false⟩, at_ 299999999999 { plan := { plan := some ⟨0, [300], [], false⟩ } }, by decide, by decide⟩,
    ⟨{ rnd with ties := [{ elem := 1, price := [] }] }, (planning 6 { rnd with ties := [{ elem := 1, price := [] }] } (chip [(R.PLAN_LEAGUE_WAIT, 1)])).withClk
      { mono := 3999996 }, by decide, by decide⟩,
    ⟨{ rnd with ties := [{ elem := 1, price := [] }] }, { elem := 1, price := [] }, (planning 6 { rnd with ties := [{ elem := 1, price := [] }] }
      (chip [(R.PLAN_LEAGUE_WAIT, 1)])).withClk { mono := 4000000 }, by decide, by decide⟩⟩
  · simp only [List.mem_cons, List.not_mem_nil, or_false] at h
    obtain rfl | rfl | rfl := h <;> first
      | exact ⟨at_ 9000000000 (planning 2 rnd {}), by decide, by decide⟩
      | exact ⟨at_ 9000000000 (planning 3 rnd {}), by decide, by decide⟩
      | exact ⟨at_ 9000000000 (planning 5 rnd {}), by decide, by decide⟩
/-! ### The lighting engine -/

/-- Zone entry 0 with flags, lead (ms), evaluation period (s) and static allocation. -/
def zoned (flags : Nat) (static : DWord) (m : Chip) : Chip :=
  let b := le 4 flags ++ le 4 60 ++ le 4 1000 ++ le 4 500 ++ le 80 0 ++ le 8 static.toNat ++ le 20 0
  m.setBytes (.win .lampZone) 0 (b ++ le 4 (crc32c b).toNat)

/-- Group 0 in zone 0, and fixture 0 of that group with eight channels of 100 W. -/
def fixed (m : Chip) : Chip :=
  let b := le 4 1 ++ le 3 0 ++ le 1 30 ++ le 1 1 ++ le 3 0 ++ ((List.replicate 8 (le 2 100)).flatten)
  (m.setBytes (.win .lampFix) 0 (b ++ le 4 (crc32c b).toNat)).setBytes (.win .lampGrp) 0 (le 4 (2 ^ 31))

/-- Zone 0 with what it holds beyond its entry. -/
def zoneSt (x : Zone) (m : Chip) : Chip := m.setZone 0 x

/-- A level of 1000 on every channel with its complements, and a fade of 10 ms. -/
def levels : List (FRef × Nat) :=
  (List.range 4).flatMap (fun c => [(R.LAMP_SUB_LVL_LVL_EVEN c, 1000), (R.LAMP_SUB_LVL_C_LVL_EVEN c, 64535),
    (R.LAMP_SUB_LVL_LVL_ODD c, 1000), (R.LAMP_SUB_LVL_C_LVL_ODD c, 64535)]) ++ [(R.LAMP_SUB_FADE, 10), (R.UPL_TIME_STAT_TRUSTED, 1)]

/-- A frame in distribution, sent at 0 ns, latching at 1 s, that fixture 0 still lacks. -/
def lframe : LFrame := { handle := 7, group := false, target := 0, fade := 10, curve := 0, latch := 1000000000, waiting := [0] }

def framed (l : List LFrame) (m : Chip) : Chip := m.withLamp { m.lamp with frames := l }

theorem wit_LampZonesAndFrames :
    let ready := fun (m : Chip) (z : Nat) => (m.zoneEnt z).on = true ∧ m.lampOn = true
    let due := fun (m : Chip) (z : Nat) => ready m z ∧ (m.zoneEnt z).auto = true ∧ m.on R.LAMP_CTL_AUTO_EN = true ∧ m.leads = true ∧
      m.evalDue (m.zoneEnt z) (m.zone z) = true
    let ready2 := fun (m : Chip) => m.lamp.accepted ≠ [] ∧ m.pend 2 = none
    Met (fun m => ready m 0 ∧ (m.zone 0).day = none) ∧
    (∃ d a b l, Met (fun m => ready m 0 ∧ m.zoneDay (m.zoneEnt 0) = d + 1 ∧ (m.zone 0).day = some d ∧ (m.zone 0).photo = a :: b :: l)) ∧
    Met (fun m => (m.zoneEnt 0).on = false) ∧ Met (fun m => (m.zone 0).day = some (m.zoneDay (m.zoneEnt 0))) ∧
    Met (fun m => (m.zoneEnt 0).auto = false) ∧ Met (fun m => m.on R.LAMP_CTL_AUTO_EN = false) ∧ Met (fun m => m.evalDue (m.zoneEnt 0) (m.zone 0) = false) ∧
    Met (fun m => due m 0 ∧ m.on (R.RIDGE_CLS_CFG_EN 6) = false) ∧
    (∃ h p, Met (fun m =>
      let e := m.zoneEnt 0
      let full := (m.zoneFix 0).foldl (fun s a => Fp.fadd s
        (Fp.fmul (Fp.fofNat (m.fixEnt a).rated.sum) (Fp.fdiv (Fp.fofNat ((m.fixNow a).k.at m.now)) (Fp.fofNat 32768)))) 0
      due m 0 ∧ (m.lampJob 0 false).1 = true ∧ (m.zone 0).tPrev = none ∧ (m.zone 0).last = none ∧ (m.zone 0).received = some h ∧
        (m.zone 0).lit (m.now + e.lead * 1000000) = some p ∧ e.par = 0 ∧ e.received = 0 ∧ e.power = 0 ∧ e.dli = false ∧ e.planned = false ∧
        Fp.isZero e.static = false ∧ Fp.fmin Fp.one (Fp.fdiv (Fp.fmul e.static (Fp.fofNat 1000)) full) = Fp.one ∧
        Fp.isNan (Fp.fadd h (Fp.fdiv (Fp.fmul (Fp.fmul (m.zone 0).i e.ppfd) 0) million)) = false)) ∧
    Met (fun m => m.lampOn = false) ∧
    (∃ mask : Byte, Met (fun m => m.lampOn = true ∧ m.on R.LAMP_SUB_TGT_GROUP = true ∧ (mask = 0 ∨ m.grpOn (m.get R.LAMP_SUB_TGT_TARGET) = false))) ∧
    (∃ mask : Byte, Met (fun m =>
      let t := m.get R.LAMP_SUB_TGT_TARGET
      let z := m.zoneEnt (m.grpZone (m.fixEnt t).group)
      m.lampOn = true ∧ m.on R.LAMP_SUB_TGT_GROUP = false ∧ (m.fixEnt t).on = true ∧ mask ≠ 0 ∧ (z.on = false ∨ z.auto = false) ∧
      10 ≤ m.get R.LAMP_SUB_FADE ∧ m.get R.LAMP_SUB_FADE ≤ 86400000 ∧
      (∀ c, c < 4 → m.get (R.LAMP_SUB_LVL_LVL_EVEN c) + m.get (R.LAMP_SUB_LVL_C_LVL_EVEN c) = 65535 ∧
        m.get (R.LAMP_SUB_LVL_LVL_ODD c) + m.get (R.LAMP_SUB_LVL_C_LVL_ODD c) = 65535) ∧ m.trusted = true ∧
      m.now + minLead (m.fixEnt t).medium * 1000000 ≤ (m.get64 R.LAMP_SUB_LATCH_LO).toNat ∧
      (m.get64 R.LAMP_SUB_LATCH_LO).toNat ≤ m.now + 86400000000000 ∧
      m.lampPending + m.lamp.accepted.length + m.lamp.staged.length < 65536)) ∧
    Met (fun m => ready2 m ∧ ∀ t, m.lamp.committed = some t → t + 1000000 ≤ m.monoNs) ∧ Met (fun m => m.lamp.accepted = []) ∧
    Met (fun m => ready2 m ∧ m.lamp.committed = some 0 ∧ m.monoNs = 1000000) ∧
    Met (fun m => ready2 m ∧ ¬ ∀ t, m.lamp.committed = some t → t + 1000000 ≤ m.monoNs) ∧
    Met (fun m => m.frame 7 = some lframe ∧ m.lampOn = true ∧ lframe.waiting ≠ [] ∧ lframe.sentAt + (lframe.latch - lframe.sentAt) / 10 = m.now ∧
      m.now < lframe.lateEnd ∧ (m.lampJob 2 true).1 = true) ∧
    Met (fun m => m.frame 7 = none) ∧ Met (fun m => m.frame 7 = some lframe ∧ m.now + 1 = lframe.sentAt + (lframe.latch - lframe.sentAt) / 10) ∧
    Met (fun m => m.frame 7 = some lframe ∧ lframe.lateEnd = m.now) ∧ Met (fun m => m.frame 7 = some lframe ∧ m.now + 1 = lframe.lateEnd) := by
  refine ⟨⟨zoned 1 0 {}, by decide, by decide +kernel⟩, ⟨0, (0, 0), (0, 0), [], zoneSt { day := some 0, photo := [(0, 0), (0, 0)] } (at_ 90000000000000 (zoned 1 0 {})), by decide, by decide +kernel⟩,
    ⟨{}, by decide, by decide⟩, ⟨zoneSt { day := some 0 } {}, by decide, by decide +kernel⟩, ⟨{}, by decide, by decide⟩,
    ⟨chip [(R.LAMP_CTL_AUTO_EN, 0)], by decide, by decide⟩, ⟨zoneSt { tPrev := some 0 } (zoned 1 0 {}), by decide, by decide +kernel⟩,
    ⟨zoned 3 0 (chip [(R.LAMP_CTL_AUTO_EN, 1), (R.RIDGE_CLS_CFG_EN 6, 0), (R.SADL_STAT_ROLE, 1)]), by decide, by decide +kernel⟩,
    ⟨0, (0, 2 ^ 50), zoneSt { received := some 0, photo := [(0, 2 ^ 50)] } (fixed (zoned 3 Fp.one (chip [(R.LAMP_CTL_AUTO_EN, 1)]))), by decide, by decide +kernel⟩,
    ⟨({} : Chip).setUnitRun UK.lamp { disabled := true }, by decide, by decide⟩, ⟨0, chip [(R.LAMP_SUB_TGT_GROUP, 1)], by decide, by decide⟩,
    ⟨255, fixed (chip (levels ++ [(R.LAMP_SUB_LATCH_LO, 50000000)])), by decide, by decide +kernel⟩,
    ⟨{ lamp := { accepted := [lframe] } }, by decide, ⟨by decide, by decide⟩, fun _ h => by cases h⟩, ⟨{}, by decide, by decide⟩,
    ⟨Chip.withClk { lamp := { accepted := [lframe], committed := some 0 } } { mono := 4000000 }, by decide, by decide⟩,
    ⟨{ lamp := { accepted := [lframe], committed := some 0 } }, by decide, ⟨by decide, by decide⟩, fun h => absurd (h 0 rfl) (by decide)⟩,
    ⟨at_ 100000000 (framed [lframe] (fixed {})), by decide, by decide +kernel⟩,
    ⟨{}, by decide, by decide⟩, ⟨at_ 99999999 (framed [lframe] {}), by decide, by decide⟩,
    ⟨at_ lframe.lateEnd (framed [lframe] {}), by decide, by decide⟩, ⟨at_ (lframe.lateEnd - 1) (framed [lframe] {}), by decide, by decide⟩⟩
/-- Station n enabled on a port, with the limit of its ingress rate. -/
def sta (n flags medium port dev : Nat) (m : Chip) (limit : Nat := 0) : Chip :=
  m.setBytes (.win .txnSta) (32 * n) (le 1 (flags + 1) ++ le 1 medium ++ le 1 port ++ le 1 0 ++ le 2 n ++ le 2 dev ++ le 2 100 ++ le 1 3 ++ le 1 0 ++
    le 4 1000 ++ le 4 limit)

/-- A sound frame of station 1 with a type, its class and a payload. -/
def frm (type cls : Nat) (p : List Byte) (target : Word := 0) (seq : Word := 1) : RxFrame :=
  let f : RxFrame := { station := 1, seq := seq, target := target, cls := BitVec.ofNat 8 cls, payload := p, crc := 0 }
  { f with crc := crc32c (f.header type ++ f.payload) }

/-- A REPORT of fixture 0: stamp, levels, energy, flags, temperature, power, handle, firmware. -/
def reported : LReport :=
  { stamp := 0, levels := List.replicate 8 0, energy := 0, flags := 0, temp := 0, power := 0, handle := 0, fw := 0 }

/-- A campaign of group 0 in a state of LAMP_FW_STAT. -/
def camp (c : Campaign) (st : Nat) (m : Chip) : Chip := (m.setLamp { m.lamp with fw := some c }).put R.LAMP_FW_STAT_STATE st

/-- A frame that lands, and one that does not. -/
def ackFrame (code : Nat) : RxFrame := frm 0x04 6 (le 4 7 ++ le 2 code ++ le 2 0 ++ le 2 0)

/-! What the reception of a frame leaves of the engine's state, for the witness of a full report ring. -/

theorem foldl_lamp {α} (f : Chip → α → Chip) (h : ∀ a x, (f a x).lamp = a.lamp) (l : List α) (m : Chip) : (l.foldl f m).lamp = m.lamp := by
  induction l generalizing m with
  | nil => rfl
  | cons a t ih => rw [List.foldl_cons, ih, h]

@[simp] theorem txnCount_lamp (m : Chip) i : (m.txnCount i).lamp = m.lamp := Chip.count_lamp ..
@[simp] theorem setSta_lamp (m : Chip) n s : (m.setSta n s).lamp = m.lamp := rfl
@[simp] theorem sendPfc_lamp (m : Chip) k q : (m.sendPfc k q).lamp = m.lamp := by
  unfold Chip.sendPfc; split
  · rw [foldl_lamp]; exact fun _ _ => rfl
  · rfl
@[simp] theorem setOcc_lamp (m : Chip) k o d : (m.setOcc k o d).lamp = m.lamp := by
  unfold Chip.setOcc Chip.judgePfc; simp only; repeat' split
  all_goals simp
@[simp] theorem holdOut_lamp (m : Chip) t : (m.holdOut t).lamp = m.lamp := by
  unfold Chip.holdOut; simp only; repeat' split
  all_goals rfl
@[simp] theorem txReport_lamp (m : Chip) t c : (m.txReport t c).lamp = m.lamp := by
  unfold Chip.txReport Chip.accDone; repeat' split
  all_goals simp
@[simp] theorem txAccept_lamp (m : Chip) t : (m.txAccept t).lamp = m.lamp := by
  unfold Chip.txAccept Chip.setTxs; simp only; repeat' split
  all_goals first | rfl | simp
@[simp] theorem staUp_lamp (m : Chip) n : (m.staUp n).lamp = m.lamp := by
  unfold Chip.staUp; simp only; split
  · rfl
  · rw [Chip.post_lamp, foldl_lamp _ (fun _ _ => txAccept_lamp ..)]; simp
@[simp] theorem babble_lamp (m : Chip) n : (m.babble n).lamp = m.lamp := by
  unfold Chip.babble; simp only; split <;> simp
@[simp] theorem learn_lamp (m : Chip) n f : (m.learn n f).lamp = m.lamp := by
  unfold Chip.learn; split <;> rfl
@[simp] theorem heardPort_lamp (m : Chip) n : (m.heardPort n).lamp = m.lamp := by
  unfold Chip.heardPort; simp only; split <;> rfl
@[simp] theorem buffer_lamp (m : Chip) k o d : (m.buffer k o d).2.lamp = m.lamp := by
  unfold Chip.buffer; simp only; repeat' split
  all_goals simp
theorem rx_lamp (m : Chip) t f l : (m.rx t f l).2.lamp = m.lamp := by
  unfold Chip.rx Chip.acceptFrame Chip.hear Chip.standbyKeep; simp only; repeat' split
  all_goals simp

/-- The chip with station 1 and a report ring. -/
def ringed (r : List (Nat × LReport)) : Chip := { sta 1 0 1 0 0 {} with lamp := { ring := r } }

theorem ring_kept (r : List (Nat × LReport)) : ((ringed r).rx 0x10 (frm 0x10 3 (le 40 0)) false).2.lamp.ring = r := by
  rw [rx_lamp]; rfl

theorem answers {a : Bool} {p : Bool × Chip} (h : p.1 = a) : p = (a, p.2) := Prod.ext h rfl

theorem wit_LampFixturesAndFirmware :
    let cfg := fun (m : Chip) => m.get R.LAMP_FW_STAT_STATE
    let hit := fun (m m1 : Chip) f x (code : Nat) => m.rx 0x04 f false = (true, m1) ∧ m1.frame (BitVec.ofNat 32 (fld f.payload 0 4)) = some x ∧
      fld f.payload 4 2 = code ∧ fld f.payload 8 2 = 0
    (∀ code ∈ [0, 1], ∃ f m1 x, Met (fun m => hit m m1 f x code)) ∧
    (∀ t : Nat, t ∈ [0x04, 0x10, 0x23] → ∃ f m1, Met (fun m => m.rx t f false = (false, m1))) ∧
    (∃ f m1, Met (fun m => m.rx 0x10 f false = (true, m1) ∧ m1.lamp.ring.length < 1048576)) ∧
    (∃ f m1, Met (fun m => m.rx 0x10 f false = (true, m1) ∧ m1.lamp.ring.length = 1048576)) ∧
    Met (fun m => m.lampOn = true ∧ m.lamp.ring ≠ [] ∧ m.on (R.RIDGE_CLS_CFG_EN 6) = false) ∧
    (∃ a r, Met (fun m => m.lampOn = true ∧ m.lamp.ring = [(a, r)] ∧ (m.lampJob 1 false).1 = true ∧ (m.fixEnt a).on = true ∧
      r.flags.testBit 1 = false ∧ r.temp ≠ 0x8000)) ∧
    Met (fun m => m.lamp.ring = []) ∧ Met (fun m => m.lampOn = false) ∧
    Met (fun m => (m.fixEnt 0).on = true ∧ (m.fixNow 0).heard + 3 * (m.fixEnt 0).period * 1000000000 = m.monoNs) ∧
    Met (fun m => (m.fixEnt 0).on = false) ∧ Met (fun m => m.lampOn = true ∧ m.lamp.fw.isSome = true) ∧
    Met (fun m => m.lampOn = true ∧ m.lamp.fw = none ∧ m.fwLead 0 = true) ∧ Met (fun m => m.lampOn = true ∧ m.lamp.fw = none ∧ m.fwLead 0 = false) ∧
    (∃ c t, Met (fun m => m.lamp.fw = some c ∧ c.retryAt = some t ∧ t = m.monoNs ∧ c.todo ≠ [] ∧ m.on (R.RIDGE_CLS_CFG_EN 2) = false)) ∧
    (∃ c t, Met (fun m => m.lamp.fw = some c ∧ c.retryAt = some t ∧ t ≤ m.monoNs ∧ c.todo ≠ [] ∧
      (m.admitJob { cls := 2, cost := m.get (R.RIDGE_CLS_COST 2), draw := m.get (R.RIDGE_CLS_DRAW 2), owner := 2 ^ 32 + 3 }).1 = .ok 0)) ∧
    (∃ c, Met (fun m => m.lamp.fw = some c ∧ ∀ t, c.retryAt = some t → m.monoNs < t)) ∧
    (∃ f m1 c, Met (fun m => m.rx 0x23 f false = (true, m1) ∧ m1.lamp.fw = some c)) ∧
    (∃ c, Met (fun m => m.lamp.fw = some c ∧ cfg m = 1 ∧ (m.vslot c.key).kind ≠ 7)) ∧
    (∃ c, Met (fun m => m.lamp.fw = some c ∧ cfg m = 2 ∧ c.retryAt = none ∧ c.todo = [])) ∧
    (∃ c, Met (fun m => m.lamp.fw = some c ∧ cfg m = 3 ∧ c.missing ≠ [] ∧ c.round < 8)) ∧
    (∃ c, Met (fun m => m.lamp.fw = some c ∧ cfg m = 3 ∧ c.round = 8 ∧ m.fwLead c.group = true)) ∧
    (∃ c, Met (fun m => m.lamp.fw = some c ∧ cfg m = 3 ∧ c.missing = [])) ∧ (∃ c, Met (fun m => m.lamp.fw = some c ∧ cfg m = 4)) ∧
    Met (fun m => m.lamp.fw = none) := by
  refine ⟨fun code h => ?_, fun t h => ?_, ⟨frm 0x10 3 (le 40 0), _, sta 1 0 1 0 0 {}, by decide, answers (by decide +kernel), by decide +kernel⟩,
    ⟨frm 0x10 3 (le 40 0), ((ringed (List.replicate 1048576 (0, reported))).rx 0x10 (frm 0x10 3 (le 40 0)) false).2, ringed (List.replicate 1048576 (0, reported)), by decide,
      answers (by decide +kernel), (congrArg List.length (ring_kept _)).trans List.length_replicate⟩,
    ⟨{ chip [(R.RIDGE_CLS_CFG_EN 6, 0)] with lamp := { ring := [(0, reported)] } }, by decide, by decide⟩,
    ⟨0, reported, { fixed {} with lamp := { ring := [(0, reported)] } }, by decide, by decide +kernel⟩, ⟨{}, by decide, by decide⟩,
    ⟨({} : Chip).setUnitRun UK.lamp { disabled := true }, by decide, by decide⟩, ⟨(fixed {}).withClk { mono := 360000000000 }, by decide, by decide +kernel⟩,
    ⟨{}, by decide, by decide⟩, ⟨camp { group := 0, key := 0 } 1 {}, by decide, by decide⟩, ⟨{}, by decide, by decide +kernel⟩,
    ⟨fixed {}, by decide, by decide +kernel⟩,
    ⟨{ group := 0, key := 0, todo := [1], retryAt := some 5 }, 5, (camp { group := 0, key := 0, todo := [1], retryAt := some 5 } 2
      (chip [(R.RIDGE_CLS_CFG_EN 2, 0)])).withClk { mono := 20 }, by decide, by decide⟩,
    ⟨{ group := 0, key := 0, todo := [1], retryAt := some 0 }, 0, (camp { group := 0, key := 0, todo := [1], retryAt := some 0 } 2 {}).withRidge
      { level := 2 ^ 30, pLim := 2 ^ 30 }, by decide, by decide +kernel⟩,
    ⟨{ group := 0, key := 0, retryAt := some 1 }, camp { group := 0, key := 0, retryAt := some 1 } 2 {}, by decide, rfl, fun t h => by cases h; decide⟩,
    ⟨frm 0x23 4 (le 13 0), _, { group := 0, key := 0 }, camp { group := 0, key := 0 } 3 (sta 1 0 1 0 0 {}), by decide, answers (by decide +kernel), by decide +kernel⟩,
    ⟨{ group := 0, key := 0 }, camp { group := 0, key := 0 } 1 {}, by decide, by decide⟩,
    ⟨{ group := 0, key := 0 }, camp { group := 0, key := 0 } 2 {}, by decide, by decide⟩,
    ⟨{ group := 0, key := 0, missing := [1], round := 7 }, camp { group := 0, key := 0, missing := [1], round := 7 } 3 {}, by decide, by decide⟩,
    ⟨{ group := 0, key := 0, missing := [1], round := 8 }, camp { group := 0, key := 0, missing := [1], round := 8 } 3 {}, by decide, by decide +kernel⟩,
    ⟨{ group := 0, key := 0 }, camp { group := 0, key := 0 } 3 {}, by decide, by decide⟩,
    ⟨{ group := 0, key := 0 }, camp { group := 0, key := 0 } 4 {}, by decide, by decide⟩, ⟨{}, by decide, by decide⟩⟩
  · simp only [List.mem_cons, List.not_mem_nil, or_false] at h
    obtain rfl | rfl := h
    · exact ⟨ackFrame 0, _, lframe, framed [lframe] (sta 1 0 1 0 0 {}), by decide, answers (by decide +kernel), by decide +kernel⟩
    · exact ⟨ackFrame 1, _, lframe, framed [lframe] (sta 1 0 1 0 0 {}), by decide, answers (by decide +kernel), by decide +kernel⟩
  · simp only [List.mem_cons, List.not_mem_nil, or_false] at h
    obtain rfl | rfl | rfl := h <;> exact ⟨ackFrame 0, _, {}, by decide, answers (by decide +kernel)⟩
/-! ### The loop engine -/

/-- Loop n with flags, period 1000 us and points 1 (PV), 2 (setpoint) and 3 (output), FE_LIM and SAFE; a bank 0 of zeros with UMIN 0 and UMAX 1. -/
def looped (n flags : Nat) (m : Chip) (safe : DWord := 0) : Chip :=
  let e := le 1 flags ++ le 3 0 ++ le 4 1000 ++ le 4 0 ++ le 4 10 ++ le 8 1 ++ le 8 2 ++ le 8 3 ++ le 8 Fp.one.toNat ++ le 8 safe.toNat ++ le 4 0
  ((m.setBytes (.win .loopCfg) (64 * n) (e ++ le 4 (crc32c e).toNat)).setBytes (.win .loopBank) (bankOff n 0 + 8 * 135) (le 8 Fp.one.toNat))

/-- A record of a point as its descriptor's number, quality and second value give it. -/
def recOf (desc : Nat) (q : Half) (second : DWord) : PointRec :=
  PointRec.withCrc { unboundRec with desc := BitVec.ofNat 32 desc, quality := q, value := 0, second := second }

/-- Loop 511 with its points, of type F64 and writable by the engine, at a grid instant. -/
def looper : Chip :=
  let d := fun (i attr : Nat) (m : Chip) => m.setBytes (.win .pointDesc) (64 * i) (descBytes 6 attr 2 0 0)
  let m := d 3 0 (d 2 0 (d 1 0 (at_ 1000000 (looped 511 1 (up [])))))
  ((m.setRec 1 (recOf 1 0 0)).setRec 2 (recOf 2 0 (~~~0))).setRec 3 (recOf 3 0 0)

/-- That a loop's grid instant is due. -/
def Due (m : Chip) (n : Fin 512) : Prop :=
  m.on R.POINT_STAT_READY = true ∧ m.loopRuns = true ∧ (m.loopEnt n.val).enabled = true ∧
    ∃ i, (m.loopEnt n.val).gridAt m.now = some i ∧ (∀ g, (m.loopSt n.val).gridDone = some g → g < i) ∧
    ∀ p, (m.loopSt n.val).prevMono = some p → 500 * (m.loopEnt n.val).period ≤ m.monoNs - p

def dueB (m : Chip) (n : Fin 512) : Bool := m.on R.POINT_STAT_READY && m.loopRuns && (m.loopEnt n.val).enabled &&
    (m.loopEnt n.val).gridAt m.now == some 1000000 && (m.loopSt n.val).gridDone == none && (m.loopSt n.val).prevMono == none

theorem due_of {m : Chip} {n : Fin 512} (h : dueB m n = true) : Due m n := by
  simp only [dueB, Bool.and_eq_true, beq_iff_eq] at h
  exact ⟨h.1.1.1.1.1, h.1.1.1.1.2, h.1.1.1.2, _, h.1.1.2, fun g e => (nomatch h.1.2.symm.trans e), fun g e => (nomatch h.2.symm.trans e)⟩

/-- The hypotheses of the clauses of LoopSamples, each at a chip of its own; `due` says that the grid instant is due, `fit` and `unfit` how the active bank is. -/
def LoopW (due fit unfit : Chip → Fin 512 → Prop) (n : Fin 512) (m1 m2 m3 m4 m5 m6 m7 m8 m9 : Chip) : Prop :=
    let ent := fun (m : Chip) => m.loopEnt n.val
    let pt := fun (m : Chip) (tag : BitVec 40) => m.pt (tagIdx tag)
    let sound := fun (m : Chip) (tag : BitVec 40) => m.local tag = true ∧ m.outOfRange tag = false ∧ (pt m tag).intact = true ∧
      m.overlayOf (tagIdx tag) = none ∧ (pt m tag).desc ≠ 0 ∧ (m.descOfRec (pt m tag)).ok = true ∧ (m.descOfRec (pt m tag)).fresh = 0 ∧
      (m.descOfRec (pt m tag)).critical = false
    let output := fun (m : Chip) (tag : BitVec 40) => sound m tag ∧ (m.descOfRec (pt m tag)).isFp = true ∧
      (m.descOfRec (pt m tag)).mask.testBit 1 = true ∧ (m.descOfRec (pt m tag)).range = false ∧ m.force (tagIdx tag) = none
    let pvOk := fun (m : Chip) => sound m (ent m).pv ∧ Q.state (pt m (ent m).pv).quality < 2 ∧ Fp.isNan (pt m (ent m).pv).value = false
    let spOk := fun (m : Chip) => let r := pt m (ent m).sp
      m.local (ent m).sp = true ∧ m.outOfRange (ent m).sp = false ∧ r.intact = true ∧ m.overlayOf (tagIdx (ent m).sp) = none ∧ r.desc ≠ 0 ∧
      (m.descOfRec r).ok = true ∧ (m.descOfRec r).fresh = 0 ∧ r.second = ~~~r.value ∧ Q.state r.quality < 2 ∧ Fp.isNan r.value = false
    let auto := fun (m : Chip) (l : Nat) => m.get (R.LOOP_L_CTL_MODE n.val) = 0 ∧ (m.loopSt n.val).latch = l
    (due m1 n ∧ m1.on R.LOOP_CTL_RUN = true ∧ fit m1 n ∧ pvOk m1 ∧ spOk m1 ∧ output m1 (ent m1).out ∧ auto m1 0 ∧ m1.loop.gens = []) ∧
    (due m2 n ∧ m2.on R.LOOP_CTL_RUN = false) ∧
    (due m3 n ∧ m3.on R.LOOP_CTL_RUN = true ∧ unfit m3 n) ∧
    (due m4 n ∧ m4.on R.LOOP_CTL_RUN = true ∧ fit m4 n ∧ sound m4 (ent m4).pv ∧ spOk m4 ∧ Q.state (pt m4 (ent m4).pv).quality = 2 ∧ auto m4 0) ∧
    (due m5 n ∧ m5.on R.LOOP_CTL_RUN = true ∧ fit m5 n ∧ sound m5 (ent m5).pv ∧ sound m5 (ent m5).sp ∧ (pt m5 (ent m5).sp).second ≠ ~~~(pt m5 (ent m5).sp).value ∧ auto m5 1) ∧
    (due m6 n ∧ m6.on R.LOOP_CTL_RUN = true ∧ fit m6 n ∧ pvOk m6 ∧ spOk m6 ∧ output m6 (ent m6).out ∧ m6.get (R.LOOP_L_CTL_MODE n.val) = 1) ∧
    (due m7 n ∧ m7.on R.LOOP_CTL_RUN = true ∧ fit m7 n ∧ pvOk m7 ∧ spOk m7 ∧ output m7 (ent m7).out ∧ auto m7 2) ∧
    (m8.loopEnt n.val).enabled = false ∧ (m8.loopEnt n.val).gridAt m8.now = none ∧
    ((m9.loopEnt n.val).gridAt m9.now).isSome = true ∧ (m9.loopEnt n.val).gridAt m9.now = (m9.loopSt n.val).gridDone

/-- The bank of `looped`. -/
def fitBank : List Byte := List.replicate 1080 0 ++ le 8 Fp.one.toNat ++ List.replicate 64 0

theorem fit_bank : (coefOf fitBank).fit 0 = true := by decide +kernel

theorem looper_bank : looper.bytes (.win .loopBank) (bankOff 511 0) 1152 = fitBank := by decide +kernel

theorem fit_of {m : Chip} (h : m.mem = looper.mem) (hb : m.loopBank 511 = 0) (hs : (m.loopEnt 511).safe = 0) :
    (m.coefs 511 (m.loopBank 511)).fit (m.loopEnt 511).safe = true := by
  rw [hs, hb]; unfold Chip.coefs; rw [Chip.bytes_of_mem h, looper_bank]; exact fit_bank

theorem wit_LoopSamples : ∃ n m1 m2 m3 m4 m5 m6 m7 m8 m9, (∀ m ∈ [m1, m2, m3, m4, m5, m6, m7, m8, m9], m.pd2 = true) ∧
    LoopW Due (fun m n => (m.coefs n.val (m.loopBank n.val)).fit (m.loopEnt n.val).safe = true)
      (fun m n => (m.coefs n.val (m.loopBank n.val)).fit (m.loopEnt n.val).safe = false) n m1 m2 m3 m4 m5 m6 m7 m8 m9 := by
  have h : LoopW (fun m n => dueB m n = true) (fun m _ => m.loopBank 511 = 0 ∧ (m.loopEnt 511).safe = 0) (fun _ _ => True) 511 looper (looper.put R.LOOP_CTL_RUN 0)
      (looper.setBytes (.win .loopBank) (bankOff 511 0) (le 8 0x7FF0000000000000)) (looper.setRec 1 (recOf 1 0x8000 0))
      ((looper.setRec 2 (recOf 2 0 0)).setLoopSt 511 { latch := 1 }) (looper.put (R.LOOP_L_CTL_MODE 511) 1)
      (looper.setLoopSt 511 { latch := 2 }) {} (looper.setLoopSt 511 { gridDone := some 1000000 }) := by
    refine ⟨?_, ?_, ?_, ?_, ?_, ?_, ?_, ?_⟩ <;> decide +kernel
  obtain ⟨⟨a1, b1, c1, h1⟩, ⟨a2, h2⟩, ⟨a3, b3, c3⟩, ⟨a4, b4, c4, h4⟩, ⟨a5, b5, c5, h5⟩, ⟨a6, b6, c6, h6⟩, ⟨a7, b7, c7, h7⟩, h8⟩ := h
  exact ⟨511, _, _, _, _, _, _, _, _, _, by decide +kernel, ⟨due_of a1, b1, fit_of rfl c1.1 c1.2, h1⟩, ⟨due_of a2, h2⟩, ⟨due_of a3, b3, by decide +kernel⟩,
    ⟨due_of a4, b4, fit_of (Chip.withPts_mem ..) c4.1 c4.2, h4⟩, ⟨due_of a5, b5, fit_of ((Chip.withLoop_mem ..).trans (Chip.withPts_mem ..)) c5.1 c5.2, h5⟩, ⟨due_of a6, b6, fit_of (Chip.put_mem ..) c6.1 c6.2, h6⟩,
    ⟨due_of a7, b7, fit_of (Chip.withLoop_mem ..) c7.1 c7.2, h7⟩, h8⟩
/-- A PRBS-free STEP test that runs on a loop. -/
def gen (loop : Nat) : Gen := { loop := loop, out := false, typ := 0, order := 7, amp := 0, n := 1, rep := 0, f0 := 0, f1 := 0 }

/-- The chip whose swap set names loop 511 alone. -/
def swapping : Chip := chip [(R.LOOP_SWAP_SET 15, 0x80000000)]

theorem swapping_set {m : Chip} (h : m.regs = swapping.regs) (n : Nat) : n ∈ m.swapSet ↔ n = 511 := by
  have e : ∀ k : Fin 16, swapping.get (R.LOOP_SWAP_SET k.val) = if k.val = 15 then 2 ^ 31 else 0 := by decide +kernel
  have g : ∀ k, m.get (R.LOOP_SWAP_SET k) = swapping.get (R.LOOP_SWAP_SET k) := fun k => by unfold Chip.get Chip.reg; rw [h]
  rw [Chip.swapSet, List.mem_filter, List.mem_range, g]
  constructor
  · rintro ⟨hn, hb⟩
    have := e ⟨n / 32, by omega⟩
    simp only at this
    rw [this] at hb
    split at hb
    · rw [Nat.testBit_two_pow] at hb; simp at hb; omega
    · simp at hb
  · rintro rfl; exact ⟨by decide, by rw [show 511 / 32 = (15 : Fin 16).val from rfl, e]; decide⟩

theorem wit_LoopSwapsTestsAndCapture :
    let open_ := fun (m : Chip) => m.unitOpen UK.loop = true
    let base := fun (m : Chip) (n : Fin 512) => bankOff n.val (m.loopBank n.val)
    let key := fun (m : Chip) (n : Fin 512) (off : Nat) => (Space.win .loopBank).key (base m n + off)
    let running := fun (m : Chip) => m.get R.LOOP_CAP_STAT_STATE = 1 ∨ m.get R.LOOP_CAP_STAT_STATE = 2
    let ent := fun (m : Chip) (g : Fin 4) => m.loopEnt (m.get (R.LOOP_TG_CTL_LOOP g.val))
    Met (fun m => m.unitOpen UK.loop = false) ∧ Met (fun m => open_ m ∧ (m.pend 3).isSome = true) ∧
    Met (fun m => open_ m ∧ m.pend 3 = none ∧ ∃ n ∈ m.swapSet, (m.loopEnt n).enabled = false) ∧
    Met (fun m => open_ m ∧ m.pend 3 = none ∧ m.swapSet ≠ [] ∧ ∀ n ∈ m.swapSet, (m.loopEnt n).enabled = true) ∧
    Met (fun m => (m.loopEnt 511).single = false) ∧
    (∀ w : Fin 288, w.val ∈ [0, 270] → Met (fun m => (m.loopEnt 511).single = true ∧ w.val % 2 = 0 ∧ w.val < 272)) ∧
    (∃ (w : Fin 288) (lo : Word), Met (fun m => (m.loopEnt 511).single = true ∧ w.val % 2 = 1 ∧ w.val = 271 ∧
      assoc (m.req .pcie).held (key m 511 (4 * w.val - 4)) = some lo)) ∧
    (∀ g : Fin 4, Met (fun m => open_ m ∧ (assoc m.loop.gens g.val).isSome = true)) ∧
    (∀ g : Fin 4, Met (fun m => open_ m ∧ assoc m.loop.gens g.val = none ∧ (ent m g).enabled = false)) ∧
    (∀ g : Fin 4, Met (fun m => open_ m ∧ assoc m.loop.gens g.val = none ∧ m.get (R.LOOP_TG_LEN_LEN g.val) = 0)) ∧
    (∀ g : Fin 4, Met (fun m => open_ m ∧ m.loop.gens = [] ∧ (ent m g).enabled = true ∧ m.get (R.LOOP_TG_CTL_TYPE g.val) = 0 ∧
      m.get (R.LOOP_TG_LEN_LEN g.val) ≠ 0 ∧ Fp.finite (m.get64 (R.LOOP_TG_AMP_LO g.val)) = true)) ∧
    (∀ g : Fin 4, ∃ x, Met (fun m => m.loop.gens = [(g.val, x)])) ∧
    Met running ∧ Met (fun m => m.get R.LOOP_CAP_STAT_STATE = 2) ∧ (∀ t ∈ [0, 1, 2], Met (fun m => ¬ running m ∧ m.get R.LOOP_CAP_CTL_TRIG = t)) := by
  refine ⟨⟨({} : Chip).setUnitRun UK.loop { disabled := true }, by decide, by decide⟩,
    ⟨pending 3 1 commit {}, by decide, by decide⟩,
    ⟨swapping, by decide, by decide, by decide, 511, (swapping_set rfl 511).mpr rfl, by decide +kernel⟩,
    ⟨looped 511 1 swapping, by decide +kernel, by decide +kernel, by decide +kernel,
      List.ne_nil_of_mem ((swapping_set (by simp [looped]) 511).mpr rfl), fun n h => by rw [(swapping_set (by simp [looped]) n).mp h]; decide +kernel⟩, ⟨{}, by decide, by decide⟩,
    fun w h => ⟨looped 511 5 {}, by decide +kernel, ?_⟩,
    ⟨271, 0, (looped 511 5 {}).setReq .pcie { held := [((Space.win .loopBank).key (bankOff 511 0 + 1080), 0)] }, by decide +kernel, by decide +kernel⟩,
    fun g => ⟨Chip.setGens {} [(g.val, gen 1)], rfl, by revert g; decide⟩, fun g => ⟨{}, by decide, by revert g; decide⟩,
    fun g => ⟨looped 0 1 (chip [(R.LOOP_TG_LEN_LEN g.val, 0)]), by revert g; decide +kernel, by revert g; decide +kernel⟩,
    fun g => ⟨looped 0 1 (chip [(R.LOOP_TG_LEN_LEN g.val, 1)]), by revert g; decide +kernel, by revert g; decide +kernel⟩,
    fun g => ⟨gen 1, Chip.setGens {} [(g.val, gen 1)], rfl, rfl⟩, ⟨chip [(R.LOOP_CAP_STAT_STATE, 1)], by decide, by decide⟩,
    ⟨chip [(R.LOOP_CAP_STAT_STATE, 2)], by decide, by decide⟩, fun t h => ?_⟩
  · simp only [List.mem_cons, List.not_mem_nil, or_false] at h
    refine ⟨by decide +kernel, ?_⟩
    omega
  · simp only [List.mem_cons, List.not_mem_nil, or_false] at h
    obtain rfl | rfl | rfl := h
    · exact ⟨chip [(R.LOOP_CAP_CTL_TRIG, 0)], by decide, by decide⟩
    · exact ⟨chip [(R.LOOP_CAP_CTL_TRIG, 1)], by decide, by decide⟩
    · exact ⟨chip [(R.LOOP_CAP_CTL_TRIG, 2)], by decide, by decide⟩
/-! ### Metering -/

/-- Metering point 9 single-phase with a declared voltage of 1 V, a dip threshold of 90 % and a hysteresis of 2 %. -/
def mpoint (l : List (FRef × Nat)) : Chip :=
  (up ([(R.METER_MP_CFG_EN 9, 1), (R.METER_MP_CFG_WIRING 9, 2), (R.METER_MP_THR_DIP 9, 90), (R.METER_MP_THR_HYST 9, 20)] ++ l)).put64 (R.METER_MP_UDECL_LO 9) Fp.one

def volt : VoltEv := { start := 5, extreme := 0, mask := 1 }

/-- Channel 3 with a total in both copies, sealed; `x` is what the keeper holds beside. -/
def totalled (r : TotRec) (x : Totals) : Chip := (Chip.withTotals {} { x with map := [3] }).setTot 3 r

theorem wit_MeterWork :
    let on := fun (m : Chip) (c : Fin 64) => m.hasWave = true ∧ m.dspOn = true ∧ m.on (R.METER_SDM_CFG_EN c.val) = true
    let single := fun (m : Chip) (p : Fin 10) => m.hasWave = true ∧ m.dspOn = true ∧ m.on (R.METER_MP_CFG_EN p.val) = true ∧ m.get (R.METER_MP_CFG_WIRING p.val) = 2
    let pct := fun (m : Chip) (p : Fin 10) (v : DWord) => Fp.fdiv (Fp.fmul v (Fp.fofNat 100)) (m.get64 (R.METER_MP_UDECL_LO p.val))
    let dip := fun (m : Chip) (p : Fin 10) => Fp.fofNat (m.get (R.METER_MP_THR_DIP p.val))
    let hyst := fun (m : Chip) (p : Fin 10) => Fp.fdiv (Fp.fofNat (m.get (R.METER_MP_THR_HYST p.val))) (Fp.fofNat 10)
    let input := fun (m : Chip) (p : Fin 32) => m.dspOn = true ∧ m.on (R.METER_PI_CFG_EN p.val) = true
    let folding := fun (m : Chip) (c : Nat) (r : TotRec) => m.totals.closingDue = true ∧ m.totals.map = [c] ∧ m.meter.foldV = [] ∧
      (m.tot c).1 = r ∧ r.intact = true
    (∀ v ∈ [0, 1], Met (fun m => on m 63 ∧ m.get (R.METER_SDM_STAT_MOD_FAULT 63) = 1 - v)) ∧ Met (fun m => ¬ on m 63) ∧
    (∀ v ∈ [0, 1], Met (fun m => m.get (R.METER_SDM_STAT_MOD_FAULT 63) = v)) ∧
    (∀ p : Fin 14, p.val = 9 → Met (fun m => m.hasWave = true ∧ m.dspOn = true ∧ p.val < 10 ∧ m.on (R.METER_MP_CFG_EN p.val) = true)) ∧
    Met (fun m => m.dspOn = false) ∧ (∃ m : Chip, m.pd2 = true ∧ m.hasWave = false) ∧
    (∃ v, Met (fun m => single m 9 ∧ assoc m.meter.dips 9 = none ∧ Fp.gt (dip m 9) (pct m 9 v) = true)) ∧
    (∃ v e, Met (fun m => single m 9 ∧ assoc m.meter.dips 9 = some e ∧ Fp.gt (Fp.fadd (dip m 9) (hyst m 9)) (pct m 9 v) = true)) ∧
    (∃ v e, Met (fun m => single m 9 ∧ m.meter.dips = [(9, e)] ∧ Fp.gt (Fp.fadd (dip m 9) (hyst m 9)) (pct m 9 v) = false)) ∧
    Met (fun m => input m 31) ∧ Met (fun m => ¬ input m 31) ∧
    (∃ s t : Nat, Met (fun m => input m 31 ∧ assoc m.meter.lastPulse 31 = some s ∧ m.get (R.METER_PI_CFG_MINPER 31) ≠ 0 ∧
      t + 1 = s + m.get (R.METER_PI_CFG_MINPER 31) * 100000)) ∧
    Met (fun m => m.dspOn = true) ∧ Met (fun m => m.dspOn = true ∧ m.closeDue = true) ∧ Met (fun m => m.closeDue = false) ∧
    (∃ r, Met (fun m => folding m 3 r ∧ r.bad = false ∧ r.total.toNat + AMap.get 0 m.totals.closing 3 = 2 ^ 64 - 1)) ∧
    (∃ r, Met (fun m => folding m 3 r ∧ r.bad = false ∧ r.total.toNat + AMap.get 0 m.totals.closing 3 = 2 ^ 64 ∧ r.wrap ≠ 0xFFFF)) ∧
    (∃ r, Met (fun m => folding m 3 r ∧ r.bad = true)) ∧ Met (fun m => m.totals.closingDue = false ∧ m.meter.foldV = []) ∧
    Met (fun m => m.meter.recovered = true) ∧
    (∃ r f, Met (fun m => m.meter.recovered = false ∧ m.totals.flush = some f ∧ f.closingDue = false ∧ m.totals.map = [3] ∧ (m.tot 3).1 = r ∧
      r.intact = true ∧ r.bad = false ∧ newer (BitVec.ofNat 32 f.interval) r.last = true ∧ r.total.toNat + AMap.get 0 f.opened 3 < 2 ^ 64)) ∧
    (∃ r, Met (fun m => m.meter.recovered = false ∧ m.totals.flush = none ∧ m.totals.isOpen = true ∧ m.totals.closingDue = false ∧ m.totals.map = [3] ∧
      (m.tot 3).1 = r ∧ r.intact = true ∧ r.bad = false ∧ m.totals.start < 2 ^ 64)) := by
  refine ⟨fun v h => ?_, ⟨{}, by decide, by decide⟩, fun v h => ?_,
    fun p h => ⟨mpoint [], by decide, by decide, by decide, by omega, by rw [h]; decide⟩, ⟨{}, by decide, by decide⟩,
    ⟨{ variant := .qv6440 }, by decide, by decide⟩, ⟨0, mpoint [], by decide, by decide +kernel⟩,
    ⟨0, volt, (mpoint []).withMeter { dips := [(9, volt)] }, by decide, by decide +kernel⟩,
    ⟨Fp.one, volt, (mpoint []).withMeter { dips := [(9, volt)] }, by decide, by decide +kernel⟩,
    ⟨up [(R.METER_PI_CFG_EN 31, 1)], by decide, by decide⟩, ⟨{}, by decide, by decide⟩,
    ⟨5, 100004, (up [(R.METER_PI_CFG_EN 31, 1), (R.METER_PI_CFG_MINPER 31, 1)]).withMeter { lastPulse := [(31, 5)] }, by decide, by decide⟩,
    ⟨up [], by decide, by decide⟩, ⟨(up []).withMeter { stepClose := true }, by decide, by decide⟩, ⟨{}, by decide, by decide⟩,
    ⟨_, totalled { zeroTot with total := 0xFFFFFFFFFFFFFFFE } { closingDue := true, closing := [(3, 1)] }, by decide, ⟨by decide, by decide, by decide, rfl, by decide +kernel⟩, by decide +kernel⟩,
    ⟨_, totalled { zeroTot with total := 0xFFFFFFFFFFFFFFFF, wrap := 0xFFFE } { closingDue := true, closing := [(3, 1)] }, by decide, ⟨by decide, by decide, by decide, rfl, by decide +kernel⟩, by decide +kernel⟩,
    ⟨_, totalled { zeroTot with flags := 1 } { closingDue := true }, by decide, ⟨by decide, by decide, by decide, rfl, by decide +kernel⟩, by decide +kernel⟩,
    ⟨{}, by decide, by decide⟩, ⟨Chip.withMeter {} { recovered := true }, by decide, by decide⟩,
    ⟨_, { interval := 1, start := 0, pf := 0, closingDue := false, opened := [(3, 5)], closing := [] },
      totalled zeroTot { flush := some { interval := 1, start := 0, pf := 0, closingDue := false, opened := [(3, 5)], closing := [] } },
      by decide, by decide, by decide, by decide, by decide, rfl, by decide +kernel⟩,
    ⟨_, totalled zeroTot { isOpen := true, start := 7 }, by decide, by decide, by decide, by decide, by decide, by decide, rfl, by decide +kernel⟩⟩
  · simp only [List.mem_cons, List.not_mem_nil, or_false] at h
    obtain rfl | rfl := h
    · exact ⟨up [(R.METER_SDM_CFG_EN 63, 1), (R.METER_SDM_STAT_MOD_FAULT 63, 1)], by decide, by decide⟩
    · exact ⟨up [(R.METER_SDM_CFG_EN 63, 1)], by decide, by decide⟩
  · simp only [List.mem_cons, List.not_mem_nil, or_false] at h
    obtain rfl | rfl := h
    · exact ⟨{}, by decide, by decide⟩
    · exact ⟨chip [(R.METER_SDM_STAT_MOD_FAULT 63, 1)], by decide, by decide⟩
/-! ### Stations, transactions, uplinks -/

/-- Route r of a kind for station 1, module 2, channel 3 and remote tag 0x4000005; published where asked. -/
def routed (r kind pub : Nat) (m : Chip) : Chip :=
  m.setBytes (.win .txnRoute) (32 * r) (le 1 kind ++ le 1 pub ++ le 2 3 ++ le 4 1 ++ le 2 2 ++ le 2 0 ++ le 4 1000 ++ le 8 0x4000005 ++ le 8 0)

/-- The chip with station 1 and point 5 bound to descriptor 5 and route 4. -/
def linked (kind pub : Nat) (l : List (FRef × Nat)) : Chip :=
  (routed 4 kind pub (sta 1 0 1 0 0 ((up l).setBytes (.win .pointDesc) 320 (descBytes 7 0 15 0 0)))).setRec 5
    (PointRec.withCrc { unboundRec with desc := 5, route := 4, quality := 0 })

/-- A transaction of station 1 in flight, with number 9. -/
def tx (kind : TxKind) (port : Option Nat) : Tx := { kind := kind, station := 1, state := .sent, seq := 9, reqPort := port }

def txed (l : List Tx) (m : Chip) : Chip := m.setTxs l

/-- An IO_REPORT with one entry for module 2, channel 3. -/
def ioFrame : RxFrame := frm 0x30 3 (le 8 0 ++ le 2 2 ++ le 1 0 ++ le 1 1 ++ le 2 3 ++ le 2 0 ++ le 4 0 ++ le 8 7 ++ le 8 0)

theorem wit_StationFrames :
    let word := fun (f : RxFrame) (o : Nat) => BitVec.ofNat 32 (fld f.payload o 4)
    let kept := fun (m : Chip) (f : RxFrame) (type k : Nat) => m.staOn f.station.toNat = true ∧ f.sound type = true ∧ f.cls.toNat = k ∧ f.deep = 0 ∧
      f.occ < m.get (R.TXN_CLS_MIN_KIB k) ∧ m.member f.station.toNat type = true ∧ m.standby = false
    let route := fun (f : RxFrame) (r : Route) =>
      r.input && r.station == f.station.toNat && r.module == fld f.payload 8 2 && r.chan == fld f.payload 12 2
    let landed := fun (m m1 : Chip) (f : RxFrame) => m.rx 0x30 f false = (true, m1) ∧ fld f.payload 11 1 = 1
    let open_ := fun (m : Chip) (f : RxFrame) (t : Tx) => m.txn.txs = [t] ∧ t.inFlight = true ∧ t.station = f.station.toNat ∧ t.seq = word f 0
    let tag := fun (f : RxFrame) => BitVec.ofNat 40 (fld f.payload 0 8)
    let here := fun (m1 : Chip) (f : RxFrame) => m1.outOfRange (tag f) = false ∧ m1.local (tag f) = true
    (∃ f : RxFrame, Met (fun m => m.staOn f.station.toNat = false)) ∧
    (∀ t ∈ [0x30, 0x32, 0x33, 0x39, 0x40, 0x41, 0x42, 0x44, 0x43, 0x46, 0x04, 0x10, 0x23, 0x08], ∃ f : RxFrame, f.sound t = false) ∧
    (∀ c ∈ [(0x30, 3), (0x40, 1), (0x41, 1), (0x44, 1), (0x43, 1)], ∃ f q, Met (fun m => kept m f c.1 c.2 ∧
      AMap.get none (m.sta f.station.toNat).inSeq c.1 = some q ∧ newer f.seq q = false)) ∧
    (∃ f m1, Met (fun m => landed m m1 f ∧ m1.pointsBy (route f) = [5])) ∧ (∃ f m1, Met (fun m => landed m m1 f ∧ m1.pointsBy (route f) = [])) ∧
    (∃ f m1 t, Met (fun m => open_ m f t ∧ t.kind = .output ∧ m.rx 0x32 f false = (true, m1))) ∧
    (∃ f m1 t, Met (fun m => open_ m f t ∧ t.kind = .quench ∧ t.reqPort = some 3 ∧ m.rx 0x39 f false = (true, m1))) ∧
    (∃ f m1 t, Met (fun m => open_ m f t ∧ t.kind = .lgWrite ∧ t.reqPort = some 2 ∧ m.rx 0x42 f false = (true, m1))) ∧
    (∃ f m1 t, Met (fun m => open_ m f t ∧ t.kind = .lgRead ∧ t.reqPort = some 2 ∧ 72 ≤ f.payload.length ∧ m.rx 0x42 f false = (true, m1))) ∧
    (∃ f m1, Met (fun m => m.rx 0x33 f false = (true, m1))) ∧
    (∃ f m1 m2 c r, Met (fun m => m.rx 0x40 f false = (true, m1) ∧ m1.ptRead .txn (tag f) = (c, some r, m2))) ∧
    (∃ f m1, Met (fun m => m.rx 0x41 f false = (true, m1))) ∧
    (∃ f m1, Met (fun m => m.rx 0x44 f false = (true, m1) ∧ here m1 f ∧ (m1.route (m1.pt (tagIdx (tag f))).route.toNat).published = false)) ∧
    (∃ f m1, Met (fun m => m.rx 0x44 f false = (true, m1) ∧ here m1 f ∧ (m1.pt (tagIdx (tag f))).desc ≠ 0 ∧
      (m1.route (m1.pt (tagIdx (tag f))).route.toNat).published = true ∧ m1.txn.subs.length < 262144)) ∧
    (∃ f m1, Met (fun m => m.rx 0x43 f false = (true, m1) ∧ m1.txn.txs = [] ∧
      m1.pointsBy (fun r => r.mirror && r.remote == tag f && r.station == f.station.toNat) = [5] ∧ (m1.route (m1.pt 5).route.toNat).output = false)) ∧
    Met (fun m => m.standby = false) ∧ (∃ f : RxFrame, Met (fun m => m.standby = true ∧ f.sound 0x08 = true)) ∧
    typeClass 0x05 = none ∧ (typeClass 0x46).isSome = true := by
  refine ⟨⟨frm 0x30 3 [], {}, by decide, by decide⟩, fun t _ => ⟨{ frm 0 0 [] with version := 2 }, rfl⟩, fun c h => ?_,
    ⟨ioFrame, ((linked 1 0 []).rx 0x30 ioFrame false).2, linked 1 0 [], by decide, ⟨answers (by decide +kernel), by decide⟩, by decide +kernel⟩,
    ⟨ioFrame, ((sta 1 0 1 0 0 {}).rx 0x30 ioFrame false).2, sta 1 0 1 0 0 {}, by decide, ⟨answers (by decide +kernel), by decide⟩, by decide +kernel⟩,
    ⟨frm 0x32 5 (le 4 9), _, tx .output none, txed [tx .output none] (sta 1 0 1 0 0 {}), by decide, by decide +kernel, rfl, answers (by decide +kernel)⟩,
    ⟨frm 0x39 7 (le 4 9), _, tx .quench (some 3), txed [tx .quench (some 3)] (sta 1 0 1 0 0 {}), by decide, by decide +kernel, rfl, rfl, answers (by decide +kernel)⟩,
    ⟨frm 0x42 1 (le 4 9 ++ le 4 0), _, tx .lgWrite (some 2), txed [tx .lgWrite (some 2)] (sta 1 0 1 0 0 {}), by decide, by decide +kernel, rfl, rfl, answers (by decide +kernel)⟩,
    ⟨frm 0x42 1 (le 4 9 ++ le 68 0), _, tx .lgRead (some 2), txed [tx .lgRead (some 2)] (sta 1 0 1 0 0 {}), by decide, by decide +kernel, rfl, rfl, by decide +kernel, answers (by decide +kernel)⟩,
    ⟨frm 0x33 5 (le 12 0), _, sta 1 0 1 0 0 {}, by decide, answers (by decide +kernel)⟩,
    ⟨frm 0x40 1 (le 8 5), ((linked 1 0 []).rx 0x40 (frm 0x40 1 (le 8 5)) false).2, (((linked 1 0 []).rx 0x40 (frm 0x40 1 (le 8 5)) false).2.ptRead .txn 5).2.2, 0,
      (linked 1 0 []).pt 5, linked 1 0 [], by decide, answers (by decide +kernel), Prod.ext (by decide +kernel) (Prod.ext (by decide +kernel) rfl)⟩,
    ⟨frm 0x41 1 (le 24 5), _, linked 1 0 [], by decide, answers (by decide +kernel)⟩,
    ⟨frm 0x44 1 (le 12 5), ((linked 1 0 []).rx 0x44 (frm 0x44 1 (le 12 5)) false).2, linked 1 0 [], by decide, answers (by decide +kernel), by decide +kernel⟩,
    ⟨frm 0x44 1 (le 12 5), ((linked 1 1 []).rx 0x44 (frm 0x44 1 (le 12 5)) false).2, linked 1 1 [], by decide, answers (by decide +kernel), by decide +kernel⟩,
    ⟨frm 0x43 1 (le 40 0x4000005), ((linked 3 0 []).rx 0x43 (frm 0x43 1 (le 40 0x4000005)) false).2, linked 3 0 [], by decide, answers (by decide +kernel), by decide +kernel⟩,
    ⟨{}, by decide, by decide⟩, ⟨frm 0x08 6 [], chip [(R.SADL_STAT_ROLE, 2)], by decide, by decide +kernel⟩, rfl, rfl⟩
  simp only [List.mem_cons, List.not_mem_nil, or_false] at h
  obtain rfl | rfl | rfl | rfl | rfl := h
  · exact ⟨frm 0x30 3 [], 1, (sta 1 0 1 0 0 {}).setSta 1 { inSeq := [(0x30, some 1)] }, by decide, by decide +kernel⟩
  · exact ⟨frm 0x40 1 [], 1, (sta 1 0 1 0 0 {}).setSta 1 { inSeq := [(0x40, some 1)] }, by decide, by decide +kernel⟩
  · exact ⟨frm 0x41 1 [], 1, (sta 1 0 1 0 0 {}).setSta 1 { inSeq := [(0x41, some 1)] }, by decide, by decide +kernel⟩
  · exact ⟨frm 0x44 1 [], 1, (sta 1 0 1 0 0 {}).setSta 1 { inSeq := [(0x44, some 1)] }, by decide, by decide +kernel⟩
  · exact ⟨frm 0x43 1 [], 1, (sta 1 0 1 0 0 {}).setSta 1 { inSeq := [(0x43, some 1)] }, by decide, by decide +kernel⟩
theorem wit_TransactionQueue :
    let open_ := fun (m : Chip) (n : BitVec 18) (t : Tx) => m.txn.txs = [t] ∧ t.station = n.toNat
    let due := fun (m : Chip) (n : BitVec 18) (t : Tx) => t.sentAt + (m.staEnt n.toNat).timeout * 1000000
    let late := fun (m : Chip) (n : BitVec 18) (t : Tx) => open_ m n t ∧ t.inFlight = true ∧ due m n t = m.monoNs
    let silent := fun (m : Chip) (n : BitVec 18) => m.staOn n.toNat = true ∧ (m.staEnt n.toNat).loss ≠ 0 ∧ (m.sta n.toNat).heardAt + (m.staEnt n.toNat).loss * 1000000 ≤ m.monoNs
    let idle := fun (m : Chip) => ∀ t ∈ m.txn.txs, t.reqPort ≠ some 3
    let good := fun (m : Chip) => idle m ∧ m.trusted = true ∧ (m.get64 R.TXN_Q_UNTIL_LO).toNat ≤ m.now + 600000000000 ∧
      m.on R.TXN_Q_TGT_PORT = false ∧ m.staOn (m.get R.TXN_Q_TGT_TARGET) = true
    Met (fun m => ∀ t ∈ m.txn.txs, m.maySend t = false) ∧ (∃ t, Met (fun m => m.nextTx = some t)) ∧
    (∃ t, Met (fun m => late m 1 t ∧ t.retries ≠ 0 ∧ (m.sta 1).up = true)) ∧ (∃ t, Met (fun m => late m 1 t ∧ t.retries = 0 ∧ t.kind ≠ .output)) ∧
    (∃ t, Met (fun m => late m 1 t ∧ t.retries = 0 ∧ t.kind = .output ∧ m.txn.held = [])) ∧
    (∃ seq t, Met (fun m => open_ m 1 t ∧ t.seq ≠ seq)) ∧ (∃ t, Met (fun m => open_ m 1 t ∧ m.monoNs + 1 = due m 1 t)) ∧
    (∃ t, Met (fun m => open_ m 1 t ∧ t.deadline ≠ 0 ∧ t.deadline = m.monoNs)) ∧ (∃ t, Met (fun m => open_ m 1 t ∧ t.deadline = 0)) ∧
    (∃ t, Met (fun m => open_ m 1 t ∧ m.monoNs < t.deadline)) ∧
    Met (fun m => silent m 1) ∧ Met (fun m => ¬ silent m 1) ∧
    Met (fun m => let e := m.route 4
      e.mirror = true ∧ m.staOn e.station = true ∧ (m.sta e.station).up = true ∧
      m.txn.txs.countP (fun u => decide (u.kind = .lgSubscribe ∧ u.station = e.station ∧ u.state = .queued)) < 64) ∧
    Met (fun m => (m.route 4194304).mirror = false) ∧
    Met (fun m => ¬ idle m) ∧ Met (fun m => idle m ∧ m.trusted = false) ∧
    Met (fun m => idle m ∧ m.now + 600000000001 = (m.get64 R.TXN_Q_UNTIL_LO).toNat) ∧ Met good ∧
    Met (fun m => good m ∧ (m.get64 R.TXN_Q_UNTIL_LO).toNat = m.now + 600000000000) ∧
    Met (fun m => good m ∧ (m.sta (m.get R.TXN_Q_TGT_TARGET)).up = true ∧ m.txn.txs.countP (fun u => decide (u.kind = .quench ∧ u.state = .queued)) < 64) ∧
    Met (fun m => (m.sta 1).babbleUntil ≠ 0 ∧ m.reached (m.sta 1).babbleUntil = true ∧ m.on R.TXN_CTL_AUTOQ_EN = false) ∧
    Met (fun m => (m.sta 1).babbleUntil = 0) ∧ Met (fun m => m.reached (m.sta 1).babbleUntil = false) ∧
    (∀ k : Fin 6, Met (fun m => m.on (xoffFlag k.val) = true ∧ m.get (R.TXN_CLS_PFC_XON k.val) * 1024 < 2 ^ 21 - 1 ∧ m.leads = true)) ∧
    (∀ k : Fin 6, Met (fun m => m.on (xoffFlag k.val) = true ∧ 0 ≤ m.get (R.TXN_CLS_PFC_XON k.val) * 1024)) ∧
    (∀ k : Fin 6, ∃ vec : Byte, Met (fun m => vec.getLsbD (m.pcp k.val) = true)) := by
  refine ⟨⟨{}, by decide, by decide⟩, ⟨{ kind := .lgRead, station := 1 }, txed [{ kind := .lgRead, station := 1 }] (sta 1 0 1 0 0 (up [(R.UPL_TIME_STAT_TRUSTED, 1)])), by decide, by decide +kernel⟩,
    ⟨{ tx .lgRead none with retries := 3 }, (txed [{ tx .lgRead none with retries := 3 }] (sta 1 0 1 0 0 {})).withClk { mono := 400000000 }, by decide, by decide +kernel⟩,
    ⟨tx .lgRead none, (txed [tx .lgRead none] (sta 1 0 1 0 0 {})).withClk { mono := 400000000 }, by decide, by decide +kernel⟩,
    ⟨tx .output none, (txed [tx .output none] (sta 1 0 1 0 0 {})).withClk { mono := 400000000 }, by decide, by decide +kernel⟩,
    ⟨8, tx .output none, txed [tx .output none] {}, by decide, by decide⟩,
    ⟨tx .output none, (txed [tx .output none] (sta 1 0 1 0 0 {})).withClk { mono := 399999996 }, by decide, by decide +kernel⟩,
    ⟨{ tx .quench none with deadline := 5 }, (txed [{ tx .quench none with deadline := 5 }] {}).withClk { mono := 20 }, by decide, by decide⟩,
    ⟨tx .quench none, txed [tx .quench none] {}, by decide, by decide⟩,
    ⟨{ tx .quench none with deadline := 5 }, (txed [{ tx .quench none with deadline := 5 }] {}).withClk { mono := 19 }, by decide, by decide⟩,
    ⟨(sta 1 0 1 0 0 {}).withClk { mono := 4000000000 }, by decide, by decide +kernel⟩, ⟨{}, by decide, by decide⟩,
    ⟨linked 3 0 [], by decide, by decide +kernel⟩, ⟨{}, by decide, by decide⟩,
    ⟨txed [tx .quench (some 3)] {}, by decide, fun h => h (tx .quench (some 3)) (by decide) rfl⟩, ⟨{}, by decide, by decide⟩,
    ⟨Chip.put64 {} R.TXN_Q_UNTIL_LO 600000000001, by decide, by decide⟩,
    ⟨sta 1 0 1 0 0 (chip [(R.UPL_TIME_STAT_TRUSTED, 1), (R.TXN_Q_TGT_TARGET, 1)]), by decide, by decide +kernel⟩,
    ⟨(sta 1 0 1 0 0 (chip [(R.UPL_TIME_STAT_TRUSTED, 1), (R.TXN_Q_TGT_TARGET, 1)])).put64 R.TXN_Q_UNTIL_LO 600000000000, by decide, by decide +kernel⟩,
    ⟨sta 1 0 1 0 0 (chip [(R.UPL_TIME_STAT_TRUSTED, 1), (R.TXN_Q_TGT_TARGET, 1)]), by decide, by decide +kernel⟩,
    ⟨at_ 5 ((chip [(R.TXN_CTL_AUTOQ_EN, 0)]).setSta 1 { babbleUntil := 5 }), by decide, by decide⟩, ⟨{}, by decide, by decide⟩,
    ⟨at_ 4 (Chip.setSta {} 1 { babbleUntil := 5 }), by decide, by decide⟩, fun k => ⟨chip [(xoffFlag k.val, 1)], by revert k; decide, by revert k; decide⟩,
    fun k => ⟨chip [(xoffFlag k.val, 1)], by revert k; decide, by revert k; decide⟩, fun k => ⟨255, {}, by decide, by revert k; decide⟩⟩
/-- A slave with enabled PTP uplinks that follows master 7 on uplink 3 over a path of 0 ns. -/
def slaved (x : Upl) (l : List (FRef × Nat) := []) : Chip :=
  (up ((List.range 4).flatMap (fun u => [(R.UPL_P_CFG_EN u, 1), (R.UPL_P_CFG_PTP u, 1)]) ++ [(R.UPL_TIME_CTL_MODE, 1)] ++ l)).withUpl
    { x with selected := some (3, 7), delay := [(3, some 0)] }

/-- A master that Announces at an instant. -/
def master (heard : List Nat) : PtpMaster := { port := 3, ident := 7, rank := [], cls := 6, utc := 37, flags := 0, heard := heard }

/-- An Announce of master 7 on uplink 3 in PTP domain `d`. -/
def annc (d : Byte) : PtpAnnounce :=
  { port := 3, ident := 7, prio1 := 128, cls := 6, accuracy := 0, variance := 0, prio2 := 128, grandmaster := 7, steps := 0, domain := d, utc := 37, flags := 0,
    seconds := 946684800 }

/-- Neighbour 4095 enabled, LEAGUE, device 9, on uplink 0 with IPv4 address 1; and station 1 its link. -/
def neighbour (m : Chip) : Chip :=
  (m.setBytes (.win .txnSta) 32 (le 1 3 ++ le 1 4 ++ le 2 0 ++ le 2 4095 ++ le 2 9)).setBytes (.win .uplNbr) (32 * 4095) (le 1 7 ++ le 1 0 ++ le 2 0xFF ++ le 2 9 ++ le 2 0 ++ le 4 1)

/-- A LG_ANNOUNCE of a league and a device. -/
def anncFrame (league : Nat) (dev : Half) : RxFrame :=
  let f : RxFrame := { station := 1, seq := 1, device := dev, cls := 5, payload := le 4 league ++ le 8 77, crc := 0 }
  { f with crc := crc32c (f.header 0x46 ++ f.payload) }

/-- Uplink 3 enabled, untagged frames taken, with IPv4 address 1 and IPv6 address 1. -/
def hosted (l : List (FRef × Nat)) : Chip :=
  (up ([(R.UPL_P_CFG_EN 3, 1), (R.UPL_P_CFG_UNTAG 3, 1)] ++ l)).setBytes (.win .uplAddr) 192 (le 15 0 ++ [1] ++ le 4 0 ++ le 3 0 ++ [1])

theorem wit_UplinksAndLeagueTime :
    let slave := fun (m : Chip) (u : Nat) => m.ptpPort u = true ∧ m.get R.UPL_TIME_CTL_MODE = 1 ∧ m.followsTwin = false
    let offset := fun (m : Chip) (u : Fin 4) (i : DWord) (d sec ns rx : Nat) (o : Int) => slave m u.val ∧ m.upl.selected = some (u.val, i) ∧
      AMap.get none m.upl.delay u.val = some d ∧ o = (rx : Int) - (((sec : Int) - 946684800) * 1000000000 + ns + d) ∧ o.natAbs < 2 ^ 31
    let thr := fun (m : Chip) => m.get R.UPL_PTP_CFG_STEP_THR * 100000
    let nbr := fun (m m1 : Chip) (f : RxFrame) (i : Nat) => m.rx 0x46 f false = (true, m1) ∧ (m1.staEnt f.station.toNat).medium = 4 ∧
      (m1.staEnt f.station.toNat).addr = i ∧ nbrLeague (m1.nbrEnt i) = true ∧ f.device.toNat ≠ m1.get R.POINT_CFG_DEVNUM ∧ (m1.peer i).state ≠ 3
    let takes := fun (m : Chip) (u : Fin 4) (tags : List Nat) => m.on (R.UPL_P_CFG_EN u.val) = true ∧ m.unitOpen (UK.uplink u.val) = true ∧ m.tagsOk u.val tags = true
    let own4 := fun (m : Chip) (u : Fin 4) (a : Word) => a ≠ 0 ∧ fld (m.addrEnt u.val) 20 4 = ofLe (le 4 a.toNat).reverse
    let own6 := fun (m : Chip) (u : Fin 4) (a : BitVec 128) => a ≠ 0 ∧ fld (m.addrEnt u.val) 0 16 = ofLe (le 16 a.toNat).reverse
    Met (fun m => m.get R.UPL_TIME_CTL_MODE = 1 ∧ m.upl.selected.isSome = true) ∧ Met (fun m => m.get R.UPL_TIME_CTL_MODE ≠ 1) ∧ Met (fun m => m.upl.selected = none) ∧
    (∃ u i d sec ns rx o, Met (fun m => offset m u i d sec ns rx o ∧ thr m < o.natAbs ∧ m.upl.calibrated = false ∧
      m.get R.UPL_TIME_CTL_TRUST_NS < o.natAbs ∧ o ≤ m.now)) ∧
    (∃ u i d sec ns rx o, Met (fun m => offset m u i d sec ns rx o ∧ o.natAbs = thr m)) ∧
    (∃ u i d sec ns rx o, Met (fun m => offset m u i d sec ns rx o ∧ o.natAbs = m.get R.UPL_TIME_CTL_TRUST_NS ∧ m.upl.inLock = 3 ∧ m.on R.UPL_TIME_STAT_LOCKED = false)) ∧
    (∃ u i d sec ns rx o, Met (fun m => offset m u i d sec ns rx o ∧ 4 * m.get R.UPL_TIME_CTL_TRUST_NS + 1 = o.natAbs ∧ m.upl.outLock = 15)) ∧
    Met (fun m => AMap.get none m.upl.delay 3 = none) ∧ Met (fun m => m.upl.selected ≠ some (3, 7)) ∧
    Met (fun m => m.ptpPort 3 = false) ∧ (∃ a : PtpAnnounce, Met (fun m => a.domain.toNat ≠ m.get R.UPL_PTP_CFG_DOMAIN)) ∧
    (∃ a : PtpAnnounce, Met (fun m => slave m a.port.val ∧ a.domain.toNat = m.get R.UPL_PTP_CFG_DOMAIN ∧ 946684800 ≤ a.seconds ∧ m.upl.selected = none ∧
      ∃ x, m.upl.masters = [x] ∧ x.port = a.port.val ∧ x.ident = a.ident ∧ ∃ t l, x.heard = t :: l ∧ t ≤ m.monoNs ∧ m.monoNs = t + 4 * m.annInterval)) ∧
    (∃ x, Met (fun m => m.upl.selected = some (3, 7) ∧ m.upl.masters = [x] ∧ x.port = 3 ∧ x.ident = 7 ∧ m.qualified x = false)) ∧
    Met (fun m => m.get R.UPL_TIME_CTL_MODE = 1 ∧ m.upl.selected = none ∧ m.followsTwin = false ∧
      m.upl.noMaster.getD 0 + max 1 (m.get R.UPL_TIME_HOLD) * 1000000000 ≤ m.monoNs) ∧
    Met (fun m => m.ptpSends 0 = true) ∧ (∀ u : Fin 4, Met (fun m => m.ptpSends u.val = false)) ∧ (∀ u : Fin 4, Met (fun m => slave m u.val)) ∧
    (∃ f m1 i, Met (fun m => nbr m m1 f i ∧ fld f.payload 0 4 ≠ m1.get R.UPL_LEAGUE_ID)) ∧
    (∃ f m1 i, Met (fun m => nbr m m1 f i ∧ fld f.payload 0 4 = m1.get R.UPL_LEAGUE_ID ∧ f.device.toNat ≠ nbrDev (m1.nbrEnt i))) ∧
    (∃ f m1 i, Met (fun m => nbr m m1 f i ∧ fld f.payload 0 4 = m1.get R.UPL_LEAGUE_ID ∧ f.device.toNat = nbrDev (m1.nbrEnt i) ∧
      ∀ x, (m1.peer i).ident = some x → x.toNat = fld f.payload 4 8)) ∧
    (∃ i, Met (fun m => m.leads = true ∧ m.nbrs = [i] ∧ nbrLeague (m.nbrEnt i) = true ∧ m.stations = [] ∧ m.uplinkOf i < 32)) ∧
    Met (fun m => ∀ i ∈ m.nbrs, nbrLeague (m.nbrEnt i) = false) ∧
    Met (fun m => (m.peer 4095).state = 1 ∧ (m.peer 4095).last + 3000000000 = m.monoNs) ∧ Met (fun m => (m.peer 4095).state ≠ 1) ∧
    Met (fun m => m.monoNs + 1 = (m.peer 4095).last + 3000000000) ∧
    Met (fun m => takes m 3 [] ∧ own4 m 3 1 ∧ m.standby = false) ∧ Met (fun m => takes m 3 [] ∧ own6 m 3 1 ∧ m.standby = false) ∧
    (∃ a : Word, Met (fun m => takes m 3 [] ∧ fld (m.addrEnt 3) 20 4 ≠ ofLe (le 4 a.toNat).reverse)) ∧
    (∃ i, Met (fun m => m.standby = false ∧ m.nbrs = [i] ∧ AMap.get false m.upl.resolved i = false ∧ (fld (m.nbrEnt i) 0 1).testBit 2 = true)) ∧
    (∀ u : Fin 4, Met (fun m => m.on (R.UPL_P_CFG_EN u.val) = true)) ∧ Met (fun m => m.upl.pcieReset = true) := by
  have r1 : ∀ f : RxFrame, f = anncFrame 5 9 ∨ f = anncFrame 0 8 ∨ f = anncFrame 0 9 → ((neighbour {}).rx 0x46 f false).1 = true := by
    rintro _ (rfl | rfl | rfl) <;> decide +kernel
  refine ⟨⟨slaved {}, by decide, by decide⟩, ⟨chip [(R.UPL_TIME_CTL_MODE, 0)], by decide, by decide⟩, ⟨{}, by decide, by decide⟩,
    ⟨3, 7, 0, 946684800, 0, 2 ^ 30, 2 ^ 30, at_ (2 ^ 31) (slaved {}), by decide, by decide +kernel⟩,
    ⟨3, 7, 0, 946684800, 1000000, 900000, -100000, slaved {} [(R.UPL_PTP_CFG_STEP_THR, 1)], by decide, by decide +kernel⟩,
    ⟨3, 7, 0, 946684800, 0, 9, 9, slaved { inLock := 3 } [(R.UPL_TIME_CTL_TRUST_NS, 9)], by decide, by decide +kernel⟩,
    ⟨3, 7, 0, 946684800, 0, 37, 37, slaved { outLock := 15 } [(R.UPL_TIME_CTL_TRUST_NS, 9)], by decide, by decide +kernel⟩,
    ⟨{}, by decide, by decide⟩, ⟨{}, by decide, by decide⟩, ⟨{}, by decide, by decide⟩, ⟨annc 200, {}, by decide, by decide⟩,
    ⟨annc 0, ((slaved { masters := [master [0]] } [(R.UPL_PTP_CFG_DOMAIN, 0), (R.UPL_PTP_CFG_ANN_LOG, 0)]).withUpl { masters := [master [0]] }).withClk { mono := 16000000000 },
      by decide, by decide +kernel, by decide +kernel, by decide, rfl, master [0], rfl, rfl, rfl, 0, [], rfl, by decide, by decide +kernel⟩,
    ⟨master [0], slaved { masters := [master [0]] }, by decide, by decide⟩,
    ⟨(chip [(R.UPL_TIME_CTL_MODE, 1), (R.UPL_TIME_HOLD, 0)]).withClk { mono := 4000000000 }, by decide, by decide⟩,
    ⟨slaved {} [(R.UPL_P_CFG_PORT_MASTER 0, 1)], by decide, by decide +kernel⟩, fun u => ⟨{}, by decide, by revert u; decide⟩,
    fun u => ⟨slaved {}, by decide, by revert u; decide +kernel⟩,
    ⟨anncFrame 5 9, ((neighbour {}).rx 0x46 (anncFrame 5 9) false).2, 4095, neighbour {}, by decide, ⟨answers (r1 _ (by simp)), by decide +kernel⟩, by decide +kernel⟩,
    ⟨anncFrame 0 8, ((neighbour {}).rx 0x46 (anncFrame 0 8) false).2, 4095, neighbour {}, by decide, ⟨answers (r1 _ (by simp)), by decide +kernel⟩, by decide +kernel⟩,
    ⟨anncFrame 0 9, ((neighbour {}).rx 0x46 (anncFrame 0 9) false).2, 4095, neighbour {}, by decide, ⟨answers (r1 _ (by simp)), by decide +kernel⟩, by decide +kernel, by decide +kernel,
      fun x h => by rw [show (((neighbour {}).rx 0x46 (anncFrame 0 9) false).2.peer 4095).ident = none by decide +kernel] at h; cases h⟩,
    ⟨4095, Chip.setBytes {} (.win .uplNbr) (32 * 4095) (le 1 7 ++ le 1 0 ++ le 2 0xFF ++ le 2 9), by decide, by decide +kernel⟩,
    ⟨{}, by decide, by decide⟩, ⟨(Chip.setPeer {} 4095 { state := 1 }).withClk { mono := 12000000000 }, by decide, by decide +kernel⟩, ⟨{}, by decide, by decide⟩,
    ⟨(Chip.setPeer {} 4095 { state := 1 }).withClk { mono := 11999999996 }, by decide, by decide +kernel⟩,
    ⟨hosted [], by decide, by decide +kernel⟩, ⟨hosted [], by decide, by decide +kernel⟩, ⟨2, hosted [], by decide, by decide +kernel⟩,
    ⟨4095, neighbour {}, by decide, by decide +kernel⟩, fun u => ⟨slaved {}, by decide, by revert u; decide +kernel⟩,
    ⟨Chip.withUpl {} { pcieReset := true }, rfl, rfl⟩⟩
/-! ### Field ports and CAN -/

def mframe (cls : Nat) : MFrame := { port := 0, station := none, type := 0x31, seq := 1, target := 0, cls := cls, payload := [] }

/-- Segment 15 enabled with what it holds; PLC interface 7 enabled and coordinator where asked. -/
def segged (x : Seg) (l : List (FRef × Nat)) : Chip :=
  Chip.setSeg (up ([(R.FLD_T1S_CFG_EN 15, 1), (R.FLD_T1S_STAT_QUAR 15, 0)] ++ l)) 15 x

def plced (coord : Nat) : Chip := up [(R.FLD_PLC_CFG_EN 7, 1), (R.FLD_PLC_STAT_COORD 7, coord), (R.FLD_PLC_STAT_AFE_FLT 7, 0)]

/-- An admission entry of interface 7 for EUI-64 5 and short address 9. -/
def admEntry (flags : Nat) (m : Chip) : Chip := m.setBytes (.win .plcAdm) (16384 * 7) (le 8 5 ++ le 2 9 ++ le 1 flags)

theorem wit_FieldPorts :
    let seg := fun (m : Chip) (g : Fin 16) => m.segOn g.val = true ∧ m.quarantined g.val = false
    let entry := fun (m : Chip) (i : Fin 8) (eui : DWord) => (m.adms i.val).find? (fun e => e.eui == eui)
    let quiet := fun (m : Chip) (g : Fin 16) => (m.seg g.val).lastFrame + m.get (R.FLD_T1S_CFG_SILENT g.val) * 1000000 ≤ m.monoNs
    Met (fun m => seg m 15 ∧ (m.seg 15).isOpen = true ∧ m.leads = true) ∧ Met (fun m => m.segOn 15 = false) ∧ Met (fun m => m.quarantined 15 = true) ∧
    Met (fun m => (m.seg 15).isOpen = false) ∧ (∃ f, Met (fun m => m.segOn 15 = true ∧ (m.seg 15).burst[3]? = some f)) ∧
    Met (fun m => (m.seg 15).burst[3]? = none) ∧
    Met (fun m => m.leads = true ∧ m.on (R.UPL_SG_CFG_EN 7) = true ∧ m.unitOpen (UK.sgmii 7) = true) ∧
    Met (fun m => m.leads = true ∧ 31 < m.canN ∧ m.unitOpen (UK.can 31) = true ∧ m.pdReady 10 = true ∧ m.portHolds (96 + 31) = true) ∧
    Met (fun m => m.leads = false) ∧ Met (fun m => m.plcSends 7 = true ∧ m.pairedActive = false) ∧ Met (fun m => m.plcSends 7 = false) ∧
    Met (fun m => m.plcSends 7 = true ∧ (entry m 7 5).any AdmEnt.on = false) ∧ (∃ e, Met (fun m => m.plcSends 7 = true ∧ entry m 7 5 = some e ∧ e.on = true)) ∧
    (∃ e, Met (fun m => let k := m.vslot (m.get (R.FLD_PLC_KEY_PSK_SLOT 7))
      m.plcSends 7 = true ∧ entry m 7 5 = some e ∧ e.on = true ∧ k.kind ≠ 0 ∧ k.count ≠ 0 ∧ (m.plc 7).joined.length = 2046)) ∧
    Met (fun m => seg m 15 ∧ (m.seg 15).listening = true) ∧ Met (fun m => seg m 15 ∧ (m.seg 15).isOpen = true ∧ m.get (R.FLD_T1S_STAT_NODE 15) = 0) ∧
    Met (fun m => ¬ seg m 15) ∧ Met (fun m => m.quarantined 15 = true ∧ m.standby = false) ∧ Met (fun m => m.segOn 15 = true ∧ (m.seg 15).isOpen = true ∧ quiet m 15) ∧
    Met (fun m => ¬ quiet m 15) ∧ Met (fun m => m.plcOn 7 = true) ∧ Met (fun m => m.plcOn 7 = false) ∧
    Met (fun m => m.plcOn 7 = true ∧ (m.plc 7).listening = true) ∧
    (∃ f l, Met (fun m => m.plcSends 7 = true ∧ egressOrder (m.egress (64 + 7)) = f :: l)) ∧ Met (fun m => m.egress (64 + 7) = []) := by
  refine ⟨⟨segged { isOpen := true } [], by decide, by decide⟩, ⟨{}, by decide, by decide⟩, ⟨chip [(R.FLD_T1S_STAT_QUAR 15, 1)], by decide, by decide⟩,
    ⟨{}, by decide, by decide⟩, ⟨mframe 5, segged { burst := List.replicate 4 (mframe 5) } [], by decide, by decide⟩, ⟨{}, by decide, by decide⟩,
    ⟨up [(R.UPL_SG_CFG_EN 7, 1)], by decide, by decide⟩, ⟨up [(R.CAN_CFG_EN 31, 1), (R.CAN_STAT_STATE 31, 2)], by decide, by decide⟩,
    ⟨chip [(R.SADL_STAT_ROLE, 2)], by decide, by decide⟩, ⟨plced 1, by decide, by decide⟩, ⟨{}, by decide, by decide⟩, ⟨plced 1, by decide, by decide⟩,
    ⟨(admEntry 1 (plced 1)).adm 7 0, admEntry 1 (plced 1), by decide +kernel, by decide +kernel⟩,
    ⟨(admEntry 1 (plced 1)).adm 7 0, ((admEntry 1 (plced 1)).setVslot 0 { kind := 1, count := 1 }).setPlc 7 { joined := List.replicate 2046 (0, 0) },
      by decide +kernel, by decide +kernel, by decide +kernel, by decide +kernel, by decide +kernel, by decide +kernel, List.length_replicate⟩,
    ⟨segged { listening := true } [], by decide, by decide⟩, ⟨segged { isOpen := true } [], by decide, by decide⟩, ⟨{}, by decide, by decide⟩,
    ⟨chip [(R.FLD_T1S_STAT_QUAR 15, 1)], by decide, by decide⟩, ⟨(segged { isOpen := true } [(R.FLD_T1S_CFG_SILENT 15, 1)]).withClk { mono := 4000000 }, by decide, by decide⟩,
    ⟨(segged { isOpen := true } [(R.FLD_T1S_CFG_SILENT 15, 1)]).withClk { mono := 3999996 }, by decide, by decide⟩,
    ⟨plced 1, by decide, by decide⟩, ⟨{}, by decide, by decide⟩, ⟨(plced 0).setPlc 7 { listening := true }, by decide, by decide⟩,
    ⟨mframe 5, [mframe 4], (plced 1).setEgress 71 [mframe 4, mframe 5], by decide, by decide⟩, ⟨{}, by decide, by decide⟩⟩
/-- CAN channel 31 ERROR_ACTIVE with what it holds. -/
def canned (x : Can) (l : List (FRef × Nat)) : Chip := Chip.setCan (up ([(R.CAN_CFG_EN 31, 1), (R.CAN_STAT_STATE 31, 2), (R.CAN_CFG_MODE 31, 0)] ++ l)) 31 x

/-- A Mirfor segment of station 17 in class 3, with a segment type and an index. -/
def segment (typ index : Nat) : CanFrame := { xtd := true, id := BitVec.ofNat 29 (0x0B110000 + 64 * typ + index), fdf := true, dlc := 15, data := [] }

def reasm (index : Nat) : Reasm := { sender := 256 + 17, cls := 3, index := index, since := 0, data := [] }

theorem wit_CanChannels :
    let state := fun (m : Chip) => m.get (R.CAN_STAT_STATE 31)
    let bus := fun (m : Chip) => 31 < m.canN ∧ m.pdReady 10 = true ∧ (state m = 2 ∨ state m = 3)
    let seg := fun (m : Chip) (f : CanFrame) => bus m ∧ f.xtd = true ∧ 0x02000000 ≤ f.id.toNat ∧ f.id.toNat ≤ 0x11FFFFFF
    let src := fun (f : CanFrame) => bits f.id.toNat 23 16
    let station := fun (f : CanFrame) => f.fdf = true ∧ bits f.id.toNat 24 24 = 1 ∧ 2 ≤ src f ∧ src f < 240 ∧ bits f.id.toNat 15 8 = 0
    let mine := fun (f : CanFrame) (r : Reasm) => r.sender = 256 + src f ∧ r.cls = 8 - bits f.id.toNat 28 25
    let soft := fun (m : Chip) => softId (m.on (R.CAN_TXB_ID_XTD 31 2)) (m.get (R.CAN_TXB_ID_ID 31 2))
    let idle := fun (m : Chip) => 31 < m.canN ∧ m.get (R.CAN_TXB_STAT_PENDING 31 2) = 0
    let alone := fun (m : Chip) => bus m ∧ m.get (R.CAN_CFG_MODE 31) = 0 ∧ (m.leads = true ∨ m.standby = true) ∧
      (m.can 31).retune = false ∧ (m.can 31).begun = []
    let faulty := fun (m : Chip) => bus m ∧ m.get (R.CAN_CFG_MODE 31) = 0
    (∃ f : CanFrame, Met (fun m => bus m ∧ f.rtr = false ∧ f.xtd = false ∧ f.id.toNat = 0x010 ∧ m.rxbFor 31 f = some 15 ∧ m.get (R.CAN_RXB_STAT_NEW 31 15) = 1)) ∧
    Met (fun m => ¬ bus m) ∧ (∃ f : CanFrame, f.xtd = true ∧ f.id.toNat = 0x02000000) ∧
    (∃ f, Met (fun m => seg m f ∧ f.fdf = false)) ∧ (∃ f, Met (fun m => seg m f ∧ src f = 240)) ∧
    (∃ f, Met (fun m => seg m f ∧ station f ∧ bits f.id.toNat 7 6 = 1 ∧ (m.can 31).reasm.length < 256 ∧ ∀ r ∈ (m.can 31).reasm, ¬ mine f r)) ∧
    (∃ f r, Met (fun m => seg m f ∧ station f ∧ bits f.id.toNat 7 6 = 0 ∧ (m.can 31).reasm = [r] ∧ mine f r ∧ bits f.id.toNat 5 0 = r.index + 1)) ∧
    (∀ k ∈ [0, 2], ∃ f r, Met (fun m => seg m f ∧ station f ∧ bits f.id.toNat 7 6 = k ∧ (m.can 31).reasm = [r] ∧ mine f r ∧ bits f.id.toNat 5 0 ≠ r.index + 1)) ∧
    Met (fun m => idle m ∧ soft m = false) ∧
    (∀ s ∈ [4, 5], Met (fun m => idle m ∧ soft m = true ∧ m.on (R.CAN_TXB_CTL_FDF 31 2) = true ∧ state m = s)) ∧
    Met (fun m => idle m ∧ soft m = true ∧ m.on (R.CAN_TXB_CTL_FDF 31 2) = true ∧ m.on (R.CAN_CFG_EN 31) = false) ∧
    Met (fun m => idle m ∧ soft m = true ∧ m.on (R.CAN_TXB_CTL_FDF 31 2) = true ∧ m.on (R.CAN_CFG_EN 31) = true ∧ m.unitOpen (UK.can 31) = true ∧
      state m ≠ 4 ∧ state m ≠ 5) ∧
    Met (fun m => m.get (R.CAN_TXB_STAT_PENDING 31 2) = 1 ∧ m.get (R.CAN_TXB_STAT_ACTIVE 31 2) = 0) ∧ Met (fun m => m.get (R.CAN_TXB_STAT_PENDING 31 2) = 0) ∧
    Met (fun m => alone m ∧ (m.can 31).bus = some (.buffer 2) ∧ m.egress 127 = [] ∧ ∀ c : Fin 3, c ≠ 2 → m.get (R.CAN_TXB_STAT_PENDING 31 c.val) = 0) ∧
    (∃ f, Met (fun m => alone m ∧ (m.can 31).bus = none ∧ (m.egress 127).find? (fun x => x.cls == 7) = some f)) ∧
    Met (fun m => alone m ∧ (m.can 31).bus = some (.buffer 2) ∧ (m.can 31).aborts = [] ∧ m.on (R.CAN_TXB_CTL_ONESHOT 31 2) = true ∧ m.egress 127 = []) ∧
    Met (fun m => faulty m ∧ (m.can 31).tec = 248) ∧ (∀ t ∈ [119, 120, 247], Met (fun m => faulty m ∧ (m.can 31).tec = t ∧ (m.can 31).rec_ = 127)) ∧
    Met (fun m => ¬ faulty m) ∧ Met (fun m => state m = 4 ∧ m.on (R.CAN_CFG_EN 31) = true ∧ m.unitOpen (UK.can 31) = true) ∧
    Met (fun m => state m ≠ 4 ∧ state m ≠ 5) ∧ Met (fun m => state m = 5) ∧ Met (fun m => state m = 1 ∧ (m.can 31).tec = 127 ∧ (m.can 31).rec_ = 127) ∧
    Met (fun m => bus m ∧ m.on (R.CAN_CFG_PXE 31) = true) ∧ Met (fun m => m.on (R.CAN_CFG_PXE 31) = false) := by
  refine ⟨⟨{ xtd := false, id := 0x010, fdf := true, dlc := 15, data := [] }, canned {} [(R.CAN_RXB_STAT_NEW 31 15, 1), (R.CAN_RXB_FLT_EN 31 15, 1),
      (R.CAN_RXB_FLT_XTD 31 15, 0), (R.CAN_RXB_MASK_MASK 31 15, 0)], by decide, by decide +kernel⟩,
    ⟨{}, by decide, by decide⟩, ⟨{ segment 0 0 with id := 0x02000000 }, rfl, rfl⟩, ⟨{ segment 1 0 with fdf := false }, canned {} [], by decide, by decide⟩,
    ⟨{ segment 1 0 with id := 0x0BF00000 }, canned {} [], by decide, by decide⟩, ⟨segment 1 0, canned {} [], by decide, by decide⟩,
    ⟨segment 0 63, reasm 62, canned { reasm := [reasm 62] } [], by decide, by decide⟩, fun k h => ?_,
    ⟨canned {} [(R.CAN_TXB_ID_XTD 31 2, 0), (R.CAN_TXB_ID_ID 31 2, 0xF)], by decide, by decide⟩, fun s h => ?_,
    ⟨canned {} [(R.CAN_TXB_ID_XTD 31 2, 0), (R.CAN_TXB_ID_ID 31 2, 0x10), (R.CAN_TXB_CTL_FDF 31 2, 1), (R.CAN_CFG_EN 31, 0)], by decide, by decide⟩,
    ⟨canned {} [(R.CAN_TXB_ID_XTD 31 2, 1), (R.CAN_TXB_ID_ID 31 2, 0x12000000), (R.CAN_TXB_CTL_FDF 31 2, 1)], by decide, by decide⟩,
    ⟨canned {} [(R.CAN_TXB_STAT_PENDING 31 2, 1)], by decide, by decide⟩, ⟨{}, by decide, by decide⟩,
    ⟨canned { bus := some (.buffer 2) } [(R.CAN_TXB_STAT_PENDING 31 2, 1)], by decide, by decide⟩,
    ⟨mframe 7, (canned {} []).setEgress 127 [mframe 5, mframe 7], by decide, by decide⟩,
    ⟨canned { bus := some (.buffer 2) } [(R.CAN_TXB_CTL_ONESHOT 31 2, 1)], by decide, by decide⟩, ⟨canned { tec := 248 } [], by decide, by decide⟩, fun t h => ?_,
    ⟨{}, by decide, by decide⟩, ⟨canned {} [(R.CAN_STAT_STATE 31, 4)], by decide, by decide⟩, ⟨{}, by decide, by decide⟩,
    ⟨canned {} [(R.CAN_STAT_STATE 31, 5)], by decide, by decide⟩, ⟨canned { tec := 127, rec_ := 127 } [(R.CAN_STAT_STATE 31, 1)], by decide, by decide⟩,
    ⟨canned {} [(R.CAN_CFG_PXE 31, 1)], by decide, by decide⟩, ⟨chip [(R.CAN_CFG_PXE 31, 0)], by decide, by decide⟩⟩
  · simp only [List.mem_cons, List.not_mem_nil, or_false] at h
    obtain rfl | rfl := h
    · exact ⟨segment 0 0, reasm 62, canned { reasm := [reasm 62] } [], by decide, by decide⟩
    · exact ⟨segment 2 62, reasm 62, canned { reasm := [reasm 62] } [], by decide, by decide⟩
  · simp only [List.mem_cons, List.not_mem_nil, or_false] at h
    obtain rfl | rfl := h <;> first
      | exact ⟨canned {} [(R.CAN_TXB_ID_XTD 31 2, 0), (R.CAN_TXB_ID_ID 31 2, 0x7FF), (R.CAN_TXB_CTL_FDF 31 2, 1), (R.CAN_STAT_STATE 31, 4)], by decide, by decide⟩
      | exact ⟨canned {} [(R.CAN_TXB_ID_XTD 31 2, 0), (R.CAN_TXB_ID_ID 31 2, 0x7FF), (R.CAN_TXB_CTL_FDF 31 2, 1), (R.CAN_STAT_STATE 31, 5)], by decide, by decide⟩
  · simp only [List.mem_cons, List.not_mem_nil, or_false] at h
    obtain rfl | rfl | rfl := h
    · exact ⟨canned { tec := 119, rec_ := 127 } [], by decide, by decide⟩
    · exact ⟨canned { tec := 120, rec_ := 127 } [], by decide, by decide⟩
    · exact ⟨canned { tec := 247, rec_ := 127 } [], by decide, by decide⟩
/-! ### The saddle link -/

/-- A chip with a role, a sync state and more registers; the saddle link enabled. -/
def saddled (role sync : Nat) (l : List (FRef × Nat) := []) (x : Saddle := {}) : Chip :=
  (up ([(R.SADL_STAT_ROLE, role), (R.SADL_STAT_SYNC, sync), (R.SADL_CTL_EN, 1)] ++ l)).withSadl x

def delta (cycle : Word) : SadDelta := { task := 5, cycle := cycle }
def simage (cycle : Word) : SadImage := { task := 5, cycle := cycle, release := 0, bytes := [] }

theorem wit_SaddlePairing :
    let runs := fun (m : Chip) => m.hasUnit 0x0E = true ∧ m.on R.SADL_CTL_EN = true ∧ m.unitOpen UK.sadl = true ∧ m.pdReady 14 = true
    let link := fun (m : Chip) => m.on R.SADL_STAT_LANE0 = true ∨ m.on R.SADL_STAT_LANE1 = true
    let pair := fun (m : Chip) => m.role = 2 ∧ (m.syncState = 2 ∨ m.syncState = 3)
    let synced := fun (m : Chip) => m.role = 2 ∧ m.syncState = 3
    let alike := fun (m : Chip) (units io mem dev : Nat) => units = m.variant.units ∧ io = m.capIo ∧ mem = m.capMem ∧
      dev = m.get R.POINT_CFG_DEVNUM ∧ (m.vslot 3).kind ≠ 0
    let waits := fun (m : Chip) (x : SadDelta) => m.sadl.deltas.countP (fun d => d.task == x.task)
    let hold := fun (m : Chip) => m.sadl.timeAt.getD 0 + max 1 (m.get R.UPL_TIME_HOLD) * 1000000000
    let noTag := fun (m : Chip) => m.get R.SADL_HEALTH_TAG_LO = 0 ∧ m.get R.SADL_HEALTH_TAG_HI_TAG = 0
    Met (fun m => m.hasUnit 0x0E = false) ∧ Met (fun m => m.on R.SADL_CTL_EN = false) ∧ Met (fun m => m.paired = true) ∧
    Met (fun m => runs m ∧ m.paired = false ∧ link m) ∧
    (∃ units io mem dev, Met (fun m => runs m ∧ link m ∧ m.paired = false ∧ alike m units io mem dev)) ∧
    (∃ units io mem dev, Met (fun m => ¬ alike m units io mem dev)) ∧ Met (fun m => ¬ runs m) ∧ Met (fun m => ¬ link m) ∧
    (∃ t, Met (fun m => m.sadl.bootAt = some t ∧ m.on R.SADL_CTL_PREF = false ∧ m.role = 0 ∧ m.syncState = 1 ∧ t + 5000000000 = m.monoNs)) ∧
    Met (fun m => m.on R.SADL_CTL_PREF = true) ∧ Met (fun m => m.sadl.bootAt = none) ∧
    Met (fun m => pair m ∧ m.sadl.timeAt = none) ∧ Met (fun m => pair m ∧ m.sadl.timeAt.isSome = true) ∧ Met (fun m => ¬ pair m) ∧
    Met (fun m => pair m ∧ hold m = m.monoNs) ∧ Met (fun m => m.monoNs + 1 = hold m) ∧
    (∀ k : Fin 4, k.val = 2 → ∃ b mode task instant, Met (fun m => pair m ∧ m.judgeReplica k.val b mode task instant = none)) ∧
    (∃ b mode task instant, Met (fun m => synced m ∧ (m.judgeReplica 1 b mode task instant).isSome = true)) ∧
    Met synced ∧ Met (fun m => ¬ synced m) ∧ Met (fun m => pair m ∧ 0x1FFFFFF < m.capPts) ∧ (∃ i : Word, Met (fun m => m.capPts = i.toNat)) ∧
    (∃ x, Met (fun m => synced m ∧ waits m x = 1)) ∧ (∃ x, Met (fun m => synced m ∧ waits m x = 2)) ∧ Met pair ∧ Met (fun m => pair m ∧ m.plcOn 7 = true) ∧
    Met (fun m => ∀ d ∈ m.sadl.deltas, d.task ≠ 5) ∧
    (∃ x, Met (fun m => synced m ∧ m.sadl.deltas.find? (fun d => d.task == 5) = some x ∧ ∀ i ∈ m.sadl.images, i.task = 5 → i.cycle ≠ x.cycle)) ∧
    (∃ (x : SadDelta) (i : SadImage), x.swap = false ∧ Met (fun m => synced m ∧ m.sadl.deltas.find? (fun d => d.task == 5) = some x ∧
      m.sadl.images.find? (fun y => y.task == 5 && y.cycle == x.cycle) = some i ∧ (m.task 5).swap = none)) ∧
    (∀ f ∈ [R.SADL_STAT_LANE0, R.SADL_STAT_LANE1], Met (fun m => runs m ∧ m.on f = false) ∧ Met (fun m => m.on f = true)) ∧
    Met (fun m => m.syncState = 3) ∧ Met (fun m => m.syncState ≠ 3 ∧ m.syncState ≠ 2) ∧ Met (fun m => m.syncState = 2) ∧ Met (fun m => pair m ∧ runs m) ∧
    Met (fun m => runs m ∧ link m ∧ m.role = 1 ∧ m.syncState = 3 ∧ noTag m) ∧
    Met (fun m => m.role = 1 ∧ m.syncState = 3 ∧ m.sadl.healthAt + 300000000 = m.monoNs ∧ noTag m) ∧
    Met (fun m => m.role ≠ 1) ∧ Met (fun m => m.monoNs < m.sadl.healthAt + 300000000) ∧ Met runs := by
  refine ⟨⟨{ variant := .qv6440 }, rfl, by decide⟩, ⟨chip [(R.SADL_CTL_EN, 0)], by decide, by decide⟩, ⟨saddled 2 3, by decide, by decide⟩,
    ⟨saddled 0 1 [(R.SADL_STAT_LANE1, 1)], by decide, by decide⟩,
    ⟨_, _, _, _, (saddled 0 1 [(R.SADL_STAT_LANE0, 1)]).setVslot 3 { kind := 1 }, by decide, by decide, by decide, by decide, rfl, rfl, rfl, rfl, by decide⟩,
    ⟨0, 0, 0, 0, {}, by decide, by decide⟩, ⟨{}, by decide, by decide⟩, ⟨{}, by decide, by decide⟩,
    ⟨0, (saddled 0 1 [(R.SADL_CTL_PREF, 0)] { bootAt := some 0 }).withClk { mono := 20000000000 }, by decide, by decide⟩,
    ⟨chip [(R.SADL_CTL_PREF, 1)], by decide, by decide⟩, ⟨{}, by decide, by decide⟩, ⟨saddled 2 2, by decide, by decide⟩,
    ⟨saddled 2 3 [] { timeAt := some 0 }, by decide, by decide⟩, ⟨{}, by decide, by decide⟩,
    ⟨(saddled 2 3 [(R.UPL_TIME_HOLD, 0)]).withClk { mono := 4000000000 }, by decide, by decide⟩,
    ⟨(saddled 2 3 [(R.UPL_TIME_HOLD, 1)]).withClk { mono := 3999999996 }, by decide, by decide⟩,
    fun k h => ⟨{}, 0, 0, 0, saddled 2 2, by decide, by decide, by rw [h]; rfl⟩,
    ⟨{ points := [{ tag := 0x2000000, src := .host, value := 0 }] }, 0, 0, 0, saddled 2 3, by decide, by decide, by decide +kernel⟩, ⟨saddled 2 3, by decide, by decide⟩, ⟨{}, by decide, by decide⟩,
    ⟨saddled 2 3, by decide, by decide⟩, ⟨0x2000000, {}, by decide, by decide⟩, ⟨delta 1, saddled 2 3 [] { deltas := [delta 1] }, by decide, by decide⟩,
    ⟨delta 1, saddled 2 3 [] { deltas := [delta 1, delta 2] }, by decide, by decide⟩, ⟨saddled 2 2, by decide, by decide⟩,
    ⟨saddled 2 3 [(R.FLD_PLC_CFG_EN 7, 1)], by decide, by decide⟩, ⟨{}, by decide, by decide⟩,
    ⟨delta 1, saddled 2 3 [] { deltas := [delta 1], images := [simage 2] }, by decide, by decide⟩,
    ⟨delta 1, simage 1, rfl, saddled 2 3 [] { deltas := [delta 1], images := [simage 1] }, by decide, by decide⟩, fun f h => ?_,
    ⟨saddled 2 3, by decide, by decide⟩, ⟨{}, by decide, by decide⟩, ⟨saddled 2 2, by decide, by decide⟩, ⟨saddled 2 3, by decide, by decide⟩,
    ⟨saddled 1 3 [(R.SADL_STAT_LANE0, 1)], by decide, by decide⟩, ⟨(saddled 1 3).withClk { mono := 1200000000 }, by decide, by decide⟩,
    ⟨{}, by decide, by decide⟩, ⟨{}, by decide, by decide⟩, ⟨saddled 0 1, by decide, by decide⟩⟩
  simp only [List.mem_cons, List.not_mem_nil, or_false] at h
  obtain rfl | rfl := h
  · exact ⟨⟨saddled 0 1, by decide, by decide⟩, ⟨saddled 0 1 [(R.SADL_STAT_LANE0, 1)], by decide, by decide⟩⟩
  · exact ⟨⟨saddled 0 1, by decide, by decide⟩, ⟨saddled 0 1 [(R.SADL_STAT_LANE1, 1)], by decide, by decide⟩⟩

theorem wit_SaddleRoles :
    let link := fun (m : Chip) => m.on R.SADL_STAT_LANE0 = true ∨ m.on R.SADL_STAT_LANE1 = true
    let pair := fun (m : Chip) => m.role = 2 ∧ (m.syncState = 2 ∨ m.syncState = 3)
    let has := fun (m : Chip) => m.hasUnit 0x0E = true
    let end_ := fun (m : Chip) => m.sadl.silentAt + m.get R.SADL_CTL_TMO * 1000
    let silent := fun (m : Chip) => has m ∧ pair m ∧ ¬ link m ∧ end_ m = m.monoNs
    let fit := fun (m : Chip) => m.role = 1 ∧ m.syncState = 3 ∧ (m.reg R.SADL_HEALTH.addr).getLsbD 31 = true
    (∀ e ∈ [(R.SADL_STAT_LANE0, R.SADL_STAT_LANE1), (R.SADL_STAT_LANE1, R.SADL_STAT_LANE0)],
      Met (fun m => m.on e.1 = true ∧ m.on e.2 = true) ∧ Met (fun m => m.on e.1 = true ∧ m.on e.2 = false ∧ m.role = 1 ∧ (m.syncState = 0 ∨ m.paired = true)) ∧
      Met (fun m => m.on e.1 = true ∧ m.on e.2 = false ∧ pair m ∧ m.get R.SADL_CTL_TMO ≠ 0)) ∧
    Met silent ∧ Met (fun m => silent m ∧ m.syncState = 3 ∧ m.on R.SADL_STAT_SUSPECT = false ∧ m.sadl.rxBuf = [] ∧ m.sadl.images = []) ∧
    Met (fun m => silent m ∧ m.syncState ≠ 3) ∧ Met (fun m => silent m ∧ m.on R.SADL_STAT_SUSPECT = true) ∧
    Met (fun m => has m ∧ ¬ pair m) ∧ Met (fun m => has m ∧ link m) ∧ Met (fun m => has m ∧ pair m ∧ ¬ link m ∧ m.monoNs + 1 = end_ m) ∧
    Met (fun m => has m ∧ m.sadl.switchAt.isSome = true) ∧ Met (fun m => has m ∧ m.sadl.switchAt = none ∧ ¬ fit m) ∧
    Met (fun m => has m ∧ m.sadl.switchAt = none ∧ fit m) ∧
    (∀ r ∈ [1, 2], Met (fun m => m.sadl.switchAt = some 5000000 ∧ 5000000 * 2 ^ 32 = m.clk.league ∧ m.reached 5000000 = true ∧ m.syncState = 3 ∧ m.role = r)) ∧
    Met (fun m => m.sadl.switchAt = some 5000000 ∧ m.reached 5000000 = false) ∧ Met (fun m => m.sadl.switchAt = none) ∧
    Met (fun m => has m ∧ m.sadl.switchAt = none ∧ m.role = 2 ∧ m.sadl.rxBuf = [] ∧ m.sadl.images = []) ∧
    Met (fun m => has m ∧ m.sadl.switchAt = none ∧ m.role = 0 ∧ m.syncState ≠ 0 ∧ m.sadl.rxBuf = [] ∧ m.sadl.images = []) ∧
    Met (fun m => has m ∧ m.sadl.switchAt = none ∧ m.role = 1) ∧
    Met (fun m => has m ∧ m.sadl.switchAt = none ∧ m.role = 2 ∧ m.syncState = 4) ∧
    Met (fun m => has m ∧ m.sadl.switchAt = none ∧ m.role = 2 ∧ m.on R.SADL_STAT_SUSPECT = true) ∧
    Met (fun m => has m ∧ m.sadl.switchAt = none ∧ m.role ≠ 2) ∧
    Met (fun m => has m ∧ m.sadl.switchAt = none ∧ m.role = 2 ∧ m.syncState ≠ 4 ∧ m.on R.SADL_STAT_SUSPECT = false) ∧ Met (fun m => m.hasUnit 0x0E = false) := by
  refine ⟨fun e h => ?_, ⟨saddled 2 3 [(R.SADL_CTL_TMO, 0)], by decide, by decide⟩,
    ⟨(saddled 2 3 [(R.SADL_CTL_TMO, 1)]).withClk { mono := 4000 }, by decide, by decide⟩, ⟨saddled 2 2 [(R.SADL_CTL_TMO, 0)], by decide, by decide⟩,
    ⟨saddled 2 3 [(R.SADL_CTL_TMO, 0), (R.SADL_STAT_SUSPECT, 1)], by decide, by decide⟩, ⟨{}, by decide, by decide⟩,
    ⟨saddled 0 1 [(R.SADL_STAT_LANE0, 1)], by decide, by decide⟩, ⟨(saddled 2 3 [(R.SADL_CTL_TMO, 1)]).withClk { mono := 3996 }, by decide, by decide⟩,
    ⟨saddled 1 3 [] { switchAt := some 1 }, by decide, by decide⟩, ⟨{}, by decide, by decide⟩,
    ⟨saddled 1 3 [(⟨R.SADL_HEALTH.addr, 31, 31⟩, 1)], by decide, by decide⟩, fun r h => ?_,
    ⟨at_ 4999999 (saddled 1 3 [] { switchAt := some 5000000 }), by decide, by decide⟩, ⟨{}, by decide, by decide⟩, ⟨saddled 2 3, by decide, by decide⟩,
    ⟨saddled 0 1, by decide, by decide⟩, ⟨saddled 1 3, by decide, by decide⟩, ⟨saddled 2 4, by decide, by decide⟩,
    ⟨saddled 2 3 [(R.SADL_STAT_SUSPECT, 1)], by decide, by decide⟩, ⟨{}, by decide, by decide⟩, ⟨saddled 2 3, by decide, by decide⟩,
    ⟨{ variant := .qv6440 }, rfl, by decide⟩⟩
  · simp only [List.mem_cons, List.not_mem_nil, or_false] at h
    obtain rfl | rfl := h
    · exact ⟨⟨saddled 1 3 [(R.SADL_STAT_LANE0, 1), (R.SADL_STAT_LANE1, 1)], by decide, by decide⟩, ⟨saddled 1 3 [(R.SADL_STAT_LANE0, 1)], by decide, by decide⟩,
        ⟨saddled 2 3 [(R.SADL_STAT_LANE0, 1), (R.SADL_CTL_TMO, 1)], by decide, by decide⟩⟩
    · exact ⟨⟨saddled 1 3 [(R.SADL_STAT_LANE0, 1), (R.SADL_STAT_LANE1, 1)], by decide, by decide⟩, ⟨saddled 1 0 [(R.SADL_STAT_LANE1, 1)], by decide, by decide⟩,
        ⟨saddled 2 2 [(R.SADL_STAT_LANE1, 1), (R.SADL_CTL_TMO, 1)], by decide, by decide⟩⟩
  · simp only [List.mem_cons, List.not_mem_nil, or_false] at h
    obtain rfl | rfl := h
    · exact ⟨at_ 5000000 (saddled 1 3 [] { switchAt := some 5000000 }), by decide, by decide⟩
    · exact ⟨at_ 5000000 (saddled 2 3 [] { switchAt := some 5000000 }), by decide, by decide⟩
/-! ### The guard -/

/-- An interlock table: input 15 (two channels, filter 1 ms, discrepancy 5 ms), output 7 (mask input 15, enabled and tested, every 8 s). -/
def iltBody : List Byte :=
  le 136 0 ++ [1, 1] ++ le 2 5 ++ le 228 0 ++ le 2 0x8000 ++ [5, 0xFF] ++ le 2 8 ++ [20] ++ le 133 0

def ilt : List Byte := iltBody ++ le 4 (crc32c iltBody).toNat

/-- A guard die that lives with the table locked. -/
def guarded (g : Guard) (held : Bool := false) (table : Option (List Byte) := some (iltBody ++ le 4 0)) : Chip :=
  Chip.withGuard {} { g with held := held, table := table }

theorem wit_GuardDie :
    let lives := fun (m : Chip) => m.hasUnit 0x0F = true ∧ m.guard.held = false
    let enabled := fun (m : Chip) (o : Nat) (e : GOut) => (o, e) ∈ m.guard.outs
    let ok := fun (m : Chip) (agree : Bool) (b : List Byte) => m.guard.sent = some b ∧ m.guard.table = none ∧ m.guard.held = false ∧ agree = true ∧
      fld b 508 4 = (crc32c (b.take 508)).toNat
    let stands := fun (m : Chip) (i : Fin 16) (e : GIn) (t : Nat) => m.guard.ins.find? (fun e => e.1 == i.val) = some (i.val, e) ∧
      assoc m.guard.disc i.val = some t ∧ (if e.typ = 3 then 1000 else e.disc) = m.guard.tick - t ∧ AMap.get 0 m.guard.inFault i.val = 0
    let next := fun (m : Chip) (seq : Word) => ∀ q, m.guard.seqIn = some q → newer seq q = true
    let due := fun (m : Chip) (o : Fin 8) (e : GOut) => m.guard.outs.find? (fun x => x.1 == o.val) = some (o.val, e) ∧ e.tested = true ∧
      m.guard.driven.testBit o.val = true ∧ (m.guard.tick - m.guard.lockedAt) % (e.period * 1000) = o.val * (e.period * 1000) / 8
    (∃ m, lives m ∧ ∃ o e, enabled m o e) ∧ (∃ m, ¬ lives m) ∧ (∃ b, Met (fun m => ok m true b)) ∧
    (∃ b, Met (fun m => m.guard.sent = some b ∧ m.guard.table = none ∧ m.guard.held = true)) ∧
    (∃ b, Met (fun m => m.guard.sent = some b ∧ m.guard.table = none)) ∧
    (∃ b, Met (fun m => m.guard.sent = some b ∧ m.guard.table = none ∧ fld b 508 4 ≠ (crc32c (b.take 508)).toNat)) ∧
    Met (fun m => m.guard.sent = none) ∧ Met (fun m => m.guard.table.isSome = true) ∧ (∃ e t m, stands m 15 e t) ∧
    (∃ m : Chip, assoc m.guard.disc 15 = none) ∧ (∃ m : Chip, AMap.get 0 m.guard.inFault 15 ≠ 0) ∧
    Met (fun m => m.hasUnit 0x0F = true ∧ m.guard.core = true ∧ (∃ o e, enabled m o e) ∧ ∀ o e, enabled m o e → e.tag = 0) ∧
    Met (fun m => m.hasUnit 0x0F = false) ∧ Met (fun m => m.guard.core = false) ∧ (∃ m, lives m ∧ m.guard.seqIn.isSome = true ∧ next m 0x7FFFFFFF) ∧
    (∃ m, ¬ next m 0x80000000) ∧ (∃ m, lives m ∧ m.guard.linkUp = true ∧ m.guard.validAt + 5 = m.guard.tick) ∧ (∃ m : Chip, m.guard.linkUp = false) ∧
    (∃ m : Chip, m.guard.tick + 1 = m.guard.validAt + 5) ∧ Met (fun m => m.hasUnit 0x0F = true ∧ m.guard.core = true) ∧
    (∃ (m : Chip) (t : Nat), assoc m.guard.differ 7 = some t ∧ 20 = m.guard.tick - t ∧ 4 ∉ m.guard.cause 7) ∧ (∃ m : Chip, assoc m.guard.differ 7 = none) ∧
    (∃ m : Chip, 4 ∈ m.guard.cause 7) ∧ (∃ m e, due m 7 e) ∧ (∃ m, ∀ e, ¬ due m 7 e) ∧ (∃ m e, enabled m 7 e) ∧ (∃ m, ∀ e, ¬ enabled m 7 e) ∧
    (∃ m : Chip, m.hasUnit 0x0F = true ∧ m.guard.power = true) ∧ (∃ m : Chip, m.hasUnit 0x0F = true ∧ m.guard.power = false) ∧
    (∃ m : Chip, m.hasUnit 0x0F = false) := by
  have outs : ∀ g h, (guarded g h).guard.outs = [(7, gOut (iltBody ++ le 4 0) 7)] := by
    intro g h
    show ((List.range 8).map (fun k => (k, gOut (iltBody ++ le 4 0) k))).filter (fun e => e.2.enabled) = _
    decide +kernel
  have ins : ∀ g h, (guarded g h).guard.ins = [(15, gIn (iltBody ++ le 4 0) 15)] := by
    intro g h
    show ((List.range 16).map (fun k => (k, gIn (iltBody ++ le 4 0) k))).filter (fun e => e.2.typ != 0) = _
    decide +kernel
  have mem : ∀ g h, (7, gOut (iltBody ++ le 4 0) 7) ∈ (guarded g h).guard.outs := fun g h => by rw [outs]; exact List.mem_singleton.mpr rfl
  refine ⟨⟨guarded {}, ⟨by decide, rfl⟩, 7, _, mem _ _⟩, ⟨guarded {} true, by decide⟩,
    ⟨ilt, Chip.withGuard {} { sent := some ilt }, rfl, rfl, rfl, rfl, rfl, by decide +kernel⟩, ⟨[], Chip.withGuard {} { sent := some [], held := true }, rfl, rfl, rfl, rfl⟩,
    ⟨[], Chip.withGuard {} { sent := some [] }, rfl, rfl, rfl⟩, ⟨[0, 1], Chip.withGuard {} { sent := some [0, 1] }, rfl, rfl, rfl, by decide +kernel⟩,
    ⟨{}, rfl, rfl⟩, ⟨guarded {}, rfl, rfl⟩,
    ⟨gIn (iltBody ++ le 4 0) 15, 5, guarded { tick := 10, disc := [(15, 5)] }, by rw [ins]; rfl, rfl, by decide +kernel, rfl⟩,
    ⟨{}, rfl⟩, ⟨Chip.withGuard {} { inFault := [(15, 1)] }, by decide⟩,
    ⟨guarded {}, rfl, by decide, rfl, ⟨7, _, mem _ _⟩, fun o e h => by
      have h1 : (o, e) ∈ (guarded {}).guard.outs := h
      rw [outs, List.mem_singleton] at h1
      cases h1; decide +kernel⟩,
    ⟨{ variant := .qv6440 }, rfl, by decide⟩, ⟨Chip.withGuard {} { core := false }, rfl, rfl⟩,
    ⟨guarded { seqIn := some 0 }, ⟨by decide, rfl⟩, rfl, fun q h => by cases h; decide⟩, ⟨guarded { seqIn := some 0 }, fun h => absurd (h 0 rfl) (by decide)⟩,
    ⟨guarded { linkUp := true, validAt := 1, tick := 6 }, ⟨by decide, rfl⟩, rfl, rfl⟩, ⟨{}, rfl⟩, ⟨Chip.withGuard {} { tick := 4 }, rfl⟩, ⟨{}, rfl, by decide, rfl⟩,
    ⟨Chip.withGuard {} { tick := 20, differ := [(7, 0)] }, 0, rfl, rfl, by decide⟩, ⟨{}, rfl⟩, ⟨Chip.withGuard {} { causes := [(7, [4])] }, by decide⟩,
    ⟨guarded { driven := 128, tick := 7000 }, _, by rw [outs]; rfl, by decide +kernel, by decide, by decide +kernel⟩, ⟨{}, fun e h => by cases h.1⟩,
    ⟨guarded {}, _, mem _ _⟩, ⟨{}, fun e h => by cases h⟩, ⟨{}, by decide, rfl⟩, ⟨Chip.withGuard {} { power := false }, by decide, rfl⟩,
    ⟨{ variant := .qv6440 }, by decide⟩⟩
/-! ### The panel -/

def preq : PanelReq := { image := [], gen := 1, full := false }

/-- The panel enabled, its source at the shared region's first byte, a reference image of zeros. -/
def panelled (x : Panel) (l : List (FRef × Nat) := []) : Chip :=
  (up ([(R.PANEL_CTL_EN, 1), (R.PANEL_SRC_HI_ADDR, ({} : Chip).sharedBase / 2 ^ 32), (R.PANEL_SRC_LO, ({} : Chip).sharedBase % 2 ^ 32)] ++ l)).withPanel x

theorem wit_PanelPasses :
    let src := fun (m : Chip) => m.get R.PANEL_SRC_HI_ADDR * 2 ^ 32 + m.get R.PANEL_SRC_LO
    let good := fun (m : Chip) => m.on R.PANEL_CTL_EN = true ∧ m.on R.PANEL_STAT_CRACK = false ∧ src m % 64 = 0 ∧ m.inShared (src m) 2880 = true
    let has := fun (m : Chip) => m.hasUnit 0x11 = true ∧ m.unitOpen UK.panel = true
    let taken := fun (m : Chip) (w : Word) => PanelReq.mk (m.drawn (m.bytes .dram (src m) 2880)) (bits w.toNat 15 0) (w.getLsbD 30)
    let runs := fun (m : Chip) => m.hasUnit 0x11 = true ∧ m.on R.PANEL_CTL_EN = true ∧ m.pdReady 15 = true
    (∃ m : Chip, m.pd2 = true ∧ m.hasUnit 0x11 = false) ∧ Met (fun m => m.hasUnit 0x11 = true ∧ m.unitOpen UK.panel = false) ∧
    Met (fun m => has m ∧ ¬ good m) ∧ (∃ w : Word, Met (fun m => has m ∧ good m ∧ m.panel.run = none ∧ m.passRows (taken m w) ≠ [])) ∧
    Met (fun m => has m ∧ good m ∧ m.panel.run = none) ∧
    (∃ x, Met (fun m => has m ∧ good m ∧ m.panel.run = some x)) ∧
    (∃ r y l code, Met (fun m => runs m ∧ m.panel.run = some (r, y :: l, code) ∧ l ≠ [])) ∧
    (∃ r y code, Met (fun m => runs m ∧ m.panel.run = some (r, [y], code) ∧ m.panel.pend = none)) ∧
    (∃ r y q, Met (fun m => runs m ∧ m.panel.run = some (r, [y], CC.ok) ∧ m.panel.pend = some q)) ∧ Met (fun m => ¬ runs m) ∧ Met (fun m => m.panel.run = none) ∧
    (∃ r l code, Met (fun m => runs m ∧ m.on R.PANEL_CTL_CRK_EN = true ∧ m.on R.PANEL_STAT_CRACK = false ∧ m.panel.run = some (r, l, code))) ∧
    Met (fun m => runs m ∧ m.on R.PANEL_CTL_CRK_EN = true ∧ m.on R.PANEL_STAT_CRACK = false ∧ m.panel.run = none) ∧
    Met (fun m => m.on R.PANEL_CTL_CRK_EN = false) ∧ Met (fun m => m.on R.PANEL_STAT_CRACK = true) ∧ Met (fun m => m.on R.PANEL_STAT_MARK = true) ∧
    Met (fun m => m.on R.PANEL_STAT_MARK = false) ∧ Met (fun m => m.on R.PANEL_STAT_CRACK = false) :=
  ⟨⟨{ variant := .qv6440 }, rfl, by decide⟩, ⟨({} : Chip).setUnitRun UK.panel { disabled := true }, by decide, by decide⟩, ⟨{}, by decide, by decide⟩,
    ⟨0, panelled {}, by decide, ⟨by decide, by decide⟩, by decide +kernel, rfl, by unfold Chip.passRows; exact List.cons_ne_nil _ _⟩,
    ⟨panelled {}, by decide, by decide +kernel⟩, ⟨(preq, [1], 0), panelled { run := some (preq, [1], 0) }, by decide, by decide +kernel⟩,
    ⟨preq, 94, [95], 0, panelled { run := some (preq, [94, 95], 0) }, by decide, by decide +kernel⟩,
    ⟨preq, 95, 0, panelled { run := some (preq, [95], 0) }, by decide, by decide +kernel⟩,
    ⟨preq, 95, preq, panelled { run := some (preq, [95], 0), pend := some preq }, by decide, by decide +kernel⟩, ⟨{}, by decide, by decide⟩, ⟨{}, by decide, by decide⟩,
    ⟨preq, [1], 0, panelled { run := some (preq, [1], 0) } [(R.PANEL_CTL_CRK_EN, 1)], by decide, by decide +kernel⟩,
    ⟨panelled {} [(R.PANEL_CTL_CRK_EN, 1)], by decide, by decide +kernel⟩, ⟨chip [(R.PANEL_CTL_CRK_EN, 0)], by decide, by decide⟩,
    ⟨chip [(R.PANEL_STAT_CRACK, 1)], by decide, by decide⟩, ⟨chip [(R.PANEL_STAT_MARK, 1)], by decide, by decide⟩,
    ⟨chip [(R.PANEL_STAT_MARK, 0)], by decide, by decide⟩, ⟨{}, by decide, by decide⟩⟩
/-! ### The key vault -/

/-- For operation k + 1: slot, its kind and rights, input length, kind and rights of the new key. -/
def vrow (k : Fin 17) : Nat × Nat × Nat × Nat × Nat × Nat :=
  [(9, 1, 1, 32, 0, 0), (9, 1, 2, 32, 0, 0), (9, 1, 3, 32, 0, 0), (9, 3, 16, 32, 0, 0), (9, 3, 16, 64, 0, 0), (0, 0, 0, 32, 0, 0), (9, 5, 4, 32, 0, 0),
    (9, 7, 8, 96, 0, 0), (9, 3, 32, 32, 1, 3), (9, 3, 32, 32, 1, 3), (9, 2, 64, 0, 0, 0), (9, 2, 64, 60, 0, 0), (0, 0, 0, 0, 5, 4), (0, 0, 0, 0, 0, 0),
    (0, 0, 0, 0, 0, 0), (9, 5, 4, 0, 0, 0), (4, 3, 16, 32, 0, 0)].getD k.val (0, 0, 0, 0, 0, 0)

/-- A request for operation k + 1 at the front of the queue: its descriptor at the shared region's first byte, 256 bytes of room, the input a wrapped
key's head, destination slot 10. -/
def vreq : VReq := { addr := 0x7C0000000 }

def vaulted (k : Fin 17) (flags : Nat := 0) : Chip :=
  let (slot, kind, rights, len, dkind, drights) := vrow k
  let d := le 1 (k.val + 1) ++ le 1 slot ++ le 1 10 ++ le 1 flags ++ le 4 0 ++ le 8 0x7C0000040 ++ le 4 len ++ le 4 8 ++ le 8 0x7C0000100 ++ le 4 256 ++ le 20 0 ++
    le 1 dkind ++ le 1 drights ++ le 6 0
  let m : Chip := (Chip.setBytes {} .dram 0x7C0000000 d).setBytes .dram 0x7C0000040 [1, 1, 3, 0]
  m.withVault { queue := [vreq], slots := (if slot = 0 then [] else [(slot, { kind := kind, rights := rights, count := 1 })]) ++ [(10, { kind := 1 })] }

theorem wit_VaultRequests :
    let one := fun (op : Nat) (m : Chip) (r : VReq) => m.vault.queue = [r] ∧ r.bulk = false ∧ m.vdescOk r = true ∧ (m.vdesc r).op = op
    let pass := fun (op : Nat) (m : Chip) (r : VReq) => one op m r ∧ (m.vcheck r (m.vdesc r) true).1 = CC.ok
    let addr := fun (m : Chip) (r : Req) (v : Word) => (m.heldWord r R.VAULT_SUB_LO.addr).1.toNat + v.toNat % 8 * 2 ^ 32
    let size := fun (f : Fin 8) => if f.val = 2 then 48 else 32
    let data := fun (m : Chip) (f : Fin 8) => (((List.range 12).map (fun w => le 4 (m.get (R.VAULT_OTP_DATA w)))).flatten).take (size f)
    let free := fun (m : Chip) (f : Fin 8) => 1 ≤ f.val ∧ f.val ≤ 4 ∧ AMap.get [] m.vault.otp f.val = [] ∧ f.val ∉ m.vault.burnt ∧ ∃ b ∈ data m f, b ≠ 0
    (∀ k : Fin 17, Met (fun m => pass (k.val + 1) m vreq)) ∧ (∀ k : Fin 17, Met (fun m => one (k.val + 1) m vreq ∧ m.vcheck1 vreq (m.vdesc vreq) = false)) ∧
    Met (fun m => m.vault.queue = []) ∧ Met (fun m => m.unitOpen UK.vault = false) ∧ Met (fun m => m.unitOpen UK.vault = true ∧ m.vault.queue.length = 64) ∧
    (∃ v, Met (fun m => let x : VReq := { addr := addr m .pcie v }
      m.unitOpen UK.vault = true ∧ m.vault.queue = [] ∧ m.vdescOk x = true ∧ 1 ≤ (m.vdesc x).op ∧ (m.vdesc x).op ≤ 17 ∧ (m.vdesc x).inLen ≤ 65536)) ∧
    (∀ f : Fin 8, 1 ≤ f.val → f.val ≤ 4 → Met (fun m => m.vault.otpRun = none ∧ free m f)) ∧
    (∀ f : Fin 8, Met (fun m => m.vault.otpRun = none ∧ ¬ free m f)) ∧ (∃ f l, Met (fun m => m.vault.otpRun = some (f, l))) ∧
    Met (fun m => m.otp 4 = none) ∧ Met (fun m => m.vault.fails = 3) ∧
    (∃ k l, Met (fun m => m.otp 4 = some k ∧ m.vault.fails = 2 ∧ m.vault.nonce = some l)) := by
  refine ⟨fun k => ⟨vaulted k, by revert k; decide +kernel, ?_⟩, fun k => ⟨vaulted k 8, by revert k; decide +kernel, ?_⟩, ⟨{}, rfl, rfl⟩, ⟨({} : Chip).setUnitRun UK.vault { disabled := true }, by decide, by decide⟩,
    ⟨Chip.withVault {} { queue := List.replicate 64 vreq }, rfl, by decide, by decide⟩,
    ⟨7, ((vaulted 5).withVault {}).setReq .pcie { held := [(R.VAULT_SUB_LO.addr, 0xC0000000)] }, by decide +kernel, by decide +kernel⟩,
    fun f h1 h2 => ⟨chip [(R.VAULT_OTP_DATA 0, 1)], rfl, rfl, h1, h2, rfl, List.not_mem_nil, 1, by revert f; decide +kernel, by decide⟩,
    fun f => ⟨{}, rfl, rfl, fun h => by obtain ⟨-, -, -, -, b, hb, h0⟩ := h; exact h0 ((by decide +kernel :
      ∀ f : Fin 8, ∀ b ∈ (((List.range 12).map (fun w => le 4 (({} : Chip).get (R.VAULT_OTP_DATA w)))).flatten).take (if f.val = 2 then 48 else 32), b = 0) f b hb)⟩, ⟨1, [], Chip.withVault {} { otpRun := some (1, []) }, rfl, rfl⟩,
    ⟨{}, rfl, by decide⟩, ⟨Chip.withVault {} { fails := 3 }, rfl, rfl⟩,
    ⟨[1], [2], Chip.withVault {} { eff := [(4, [1])], fails := 2, nonce := some [2] }, rfl, by decide, rfl, rfl⟩⟩
  · revert k; decide +kernel
  · revert k; decide +kernel
/-! ### Whole machine -/

theorem wit_EmptyQueueTakesClockEdge : (∃ m : Chip, m.pd2 = true) ∧ ∃ m : Chip, m.pd2 = false := ⟨⟨{}, rfl⟩, ⟨{ pd2 := false }, rfl⟩⟩

theorem wit_MainDieIdleWithoutPower : ∃ (c : Instr) (s : State), s.chip.pd2 = false ∧ c.offline = false := ⟨.vreset, ⟨[], { pd2 := false }⟩, rfl, rfl⟩

theorem wit_StepKeepsCanonicalForm : ∃ s t, Regs.wf s.chip.regs = true ∧ Memory.wf s.chip.mem = true ∧ s.pending ≠ [] ∧ step s = .next t :=
  ⟨⟨[.vreset], Chip.setBytes {} (.win .txnSta) 8388576 [1, 2]⟩, _, by decide, by decide, by decide, rfl⟩

theorem wit_LockedTableStaysLocked : ∃ s t b, step s = .next t ∧ s.chip.guard.table = some b ∧
    (∀ c, s.pending.head? = some c → c.resetsGuard = false) ∧ ∀ c, s.pending.head? = some c → c.reachesGuard = false :=
  ⟨⟨[.vreset], guarded {}⟩, _, _, rfl, rfl, fun c h => by cases h; rfl, fun c h => by cases h; rfl⟩

/-! ### Well-formed commands -/

/-- An offset at 64 MiB is outside control space. -/
theorem test_wf_offset : (Instr.registerWrite .pcie 0x4000000 0 true).wf = false ∧ (Instr.registerWrite .pcie 0x3FFFFFC 0 true).wf = true := by decide

/-- The DRAM window of the control port takes words. -/
theorem test_wf_dram : (Instr.dramWindowAccess .pcie 2 none).wf = false := by decide

/-- A payload of 65,536 bytes does not fit the length field. -/
theorem test_wf_frame : (Instr.hello { station := 1, seq := 0, cls := 5, payload := List.replicate 65536 0, crc := 0 }).wf = false := by
  show decide ((List.replicate 65536 (0 : Byte)).length < 65536) = false
  rw [List.length_replicate]; decide

/-- A base identifier has 11 bits, a remote frame no data, and the data length is the DLC's. -/
theorem test_wf_can : (Instr.canFrameReceive 0 { xtd := false, id := 2048, fdf := true, dlc := 0, data := [] }).wf = false ∧
    (Instr.canFrameReceive 0 { xtd := false, id := 1, rtr := true, fdf := false, dlc := 1, data := [0] }).wf = false ∧
    (Instr.canFrameReceive 0 { xtd := false, id := 1, fdf := true, dlc := 9, data := List.replicate 9 0 }).wf = false ∧
    (Instr.canFrameReceive 0 { xtd := false, id := 1, fdf := true, dlc := 9, data := List.replicate 12 0 }).wf = true := by decide

/-- An instruction has an extension word where bit 26 of its word is set, and only there (R109). -/
theorem test_wf_insn : (Instr.iNop 0 0xC4050000 none).wf = false ∧ (Instr.iNop 0 0xC0050000 (some 0)).wf = false ∧
    (Instr.iNop 0 0xC0050000 none).wf = true := by decide

/-- No word spells a command, so nothing is put in front of the queue. -/
theorem test_no_table_word : decodeTableWord 32 0 = none ∧ State.reset.withFetchWord 32 0 = State.reset := ⟨rfl, rfl⟩
/-! ### Values that the specification gives -/

/-- The core that issued, after a step. -/
def after (r : Host.Outcome State Fault Refusal) : Core := match r with
  | .next t => t.chip.core 3
  | _ => {}

def bytesAfter (r : Host.Outcome State Fault Refusal) (a n : Nat) : List Byte := match r with
  | .next t => t.chip.bytes (.data 5) a n
  | _ => []

/-- A task whose IN byte 4 is 2, in a state. -/
def running (e : Core → Core := id) : State := ⟨[], (task e (up [])).setBytes (.data 5) 0x10000004 [2]⟩

/-- Table 5-12, address 0x00: ADDI G5, G0, 0x2000_0000. -/
theorem test_addi_listing : (after (execIAddi 3 0x4CA00000 (some 0x20000000) (running))).gr 5 = 0x20000000 ∧
    (after (execIAddi 3 0x4CA00000 (some 0x20000000) (running))).pc = 8 := by decide +kernel

/-- Table 5-12, address 0x28: ADDI G10, G0, 30,000,000. -/
theorem test_addi_clock_listing : (after (execIAddi 3 0x4D400000 (some 0x01C9C380) (running))).gr 10 = 30000000 := by decide +kernel

/-- Table 5-12, address 0x08: LDW G4, [G5 + 0] reads eight bytes of CONST. -/
theorem test_ldw_listing :
    let s : State := ⟨[], (task (fun k => { k with g := [(5, 0x20000000)] }) (up [])).setBytes (.data 5) 0x20000000 (le 8 0xA4004100)⟩
    (after (execILdw 3 0x54850006 (some 0) s)).gr 4 = 0xA4004100 := by decide +kernel

/-- Table 5-12, addresses 0x34 and 0x40: LD IN:0x0004.1 and its inverse. -/
theorem test_ld_listing : (after (execILd 3 0x00080021 none (running))).ba = true ∧
    (after (execILdn 3 0x00480021 none (running))).ba = false := by decide +kernel

/-- Table 5-12, address 0x48: LD IN:0x0004.0 reads the other bit. -/
theorem test_ld_bit_listing : (after (execILd 3 0x00080020 none (running))).ba = false := by decide +kernel

/-- Table 5-12, address 0x54: ST OUT:0x0000.0. -/
theorem test_st_listing : bytesAfter (execISt 3 0x08100000 none (running (fun k => { k with ba := true }))) 0x11000000 1 = [1] := by decide +kernel

/-- Table 5-12, address 0x3C: SETB DATA:0x0010.1. -/
theorem test_setb_listing : bytesAfter (execISetb 3 0x08800081 none (running (fun k => { k with ba := true }))) 16 1 = [2] := by decide +kernel

/-- Table 5-12, address 0x38: EDGR DATA:0x0010.0 sees the edge and keeps BA in the detector bit. -/
theorem test_edgr_listing : (after (execIEdgr 3 0xA8000080 none (running (fun k => { k with ba := true })))).ba = true ∧
    bytesAfter (execIEdgr 3 0xA8000080 none (running (fun k => { k with ba := true }))) 16 1 = [1] := by decide +kernel

/-- Table 5-12, addresses 0x58 and 0x68: PUSH, then POP.AND. -/
theorem test_push_listing : (after (execIPush 3 0x28200000 none (running (fun k => { k with ba := true })))).bs = [true] := by decide +kernel

/-- Table 5-12, address 0x64: CONDBA LT is false after an unordered comparison (N = 0, V = 0, C = 1, Z = 1). -/
theorem test_condba_listing : (after (execICondba 3 0x10C00004 none (running (fun k => { k with ba := true, c := true, z := true })))).ba = false := by
  decide +kernel

/-- Table 5-12, address 0x74: JMP +3 leads from 0x74 to 0x80. -/
theorem test_jmp_listing : (after (execIJmp 3 0x20000003 none
    (running (fun k => { k with pc := 0x74, img := { k.img with code := List.replicate 34 0xC0050000 } })))).pc = 0x80 := by decide +kernel

/-- The directory of chapter 3's worked example. -/
def directoryBytes : List Byte :=
  let b : List Byte := [0x51, 0x56, 0x43, 0x44, 1, 0, 0x40, 0, 0x17, 0, 0, 0, 0, 0, 0, 0, 0, 0, 0x10, 0, 0, 0xA0, 9, 0, 0x29, 0, 0, 0, 0, 0, 0, 8,
    0, 0x98, 9, 0, 0x2A, 0, 0, 0] ++ List.replicate 20 0
  b ++ le 4 (crc32c b).toNat

/-- Chapter 3's worked example: set A has 630,784 bytes and generation 41, set B 628,736 bytes and generation 42. -/
theorem test_directory : (Chip.setBytes {} .flash 0 directoryBytes).directory = some (0, directoryBytes) ∧
    dirSlot directoryBytes 0 = (0x00100000, 630784, 41) ∧ dirSlot directoryBytes 1 = (0x08000000, 628736, 42) ∧ newer 42 41 = true := by decide +kernel

/-- Table 2-7: the descriptor, and a report that meets the record with a suppressed count and the reference 71.40 or 71.61. -/
def heat : Desc :=
  { typ := 6, attr := 0, mask := 0, mode := 1, fresh := 0, loss := 0, owner := 0xFFFF, band := 0x3FC999999999999A, lo := 0, hi := 0, sub := 0, subc := 0, ok := true }

def record (ref value : DWord) (q : Half) (n : Half) : PointRec :=
  { value := value, second := 0, stamp := 0, quality := q, flags := 0, seq := 0, desc := 0, route := 0, prev := ref, chg := 9, supp := n,
    dead := 0, gen := 0, crc := 0 }

/-- Table 2-7, t1: 71.58 against 71.40 is no change, and the suppressed count becomes 2. -/
theorem test_deadband_inside : (heat.detect (record 0x4051D9999999999A 0 0 1) (record 0x4051D9999999999A 0x4051E51EB851EB85 0 1)).1.supp = 2 ∧
    (heat.detect (record 0x4051D9999999999A 0 0 1) (record 0x4051D9999999999A 0x4051E51EB851EB85 0 1)).2 = false := by decide +kernel

/-- Table 2-7, t2: 71.61 is a change, rising. -/
theorem test_deadband_outside :
    let r := heat.detect (record 0x4051D9999999999A 0 0 2) (record 0x4051D9999999999A 0x4051E70A3D70A3D7 0 2)
    r.2 = true ∧ r.1.prev = 0x4051E70A3D70A3D7 ∧ r.1.chg = 10 ∧ r.1.dead = 1 ∧ r.1.supp = 0 := by decide +kernel

/-- Table 2-7, t4: 71.46 against 71.61 with another quality is a change without a direction. -/
theorem test_deadband_quality :
    let r := heat.detect (record 0x4051E70A3D70A3D7 0 0 1) (record 0x4051E70A3D70A3D7 0x4051DD70A3D70A3D 0x4000 1)
    r.2 = true ∧ r.1.prev = 0x4051DD70A3D70A3D ∧ r.1.dead = 0 ∧ r.1.supp = 0 := by decide +kernel

/-- Table 11-10, t2: 45 s into the LINEAR fade of 120 s from 20,000 to 52,000. -/
theorem test_fade_linear : ({ y0 := 20000, y1 := 52000, latch := 0, time := 120000, curve := 0 } : Fade).at 45000000000 = 32000 := by decide +kernel

/-- Table 11-10, t4: 15 s into the SMOOTH fade of 60 s from 32,000 to 10,000. -/
theorem test_fade_smooth : ({ y0 := 32000, y1 := 10000, latch := 0, time := 60000, curve := 1 } : Fade).at 15000000000 = 28563 := by decide +kernel

/-- R249's example: 71 °C between 60 °C and 80 °C with K_MIN 8,192. -/
theorem test_derate : (chip [(R.LAMP_DERATE_T_START, 960), (R.LAMP_DERATE_T_STOP, 1280), (R.LAMP_DERATE_MIN_K_MIN, 8192)]).derateOf 1136 = some 19252 := by
  decide +kernel

/-- Table 13-8, t0: fixture 0x01_2C40 of zone 7, whose VIRTUAL channel is 4,120. -/
def fixtureCounter : Chip :=
  ((up [(R.METER_VM_TOL_ABS, 20), (R.METER_VM_TOL_PCT, 10)]).setBytes (.win .meterChan) (32 * 4120) (le 8 0x103 ++ le 8 7)).vmReport 0x12C40 7 16777209 6600 0

/-- Table 13-8, t1: the counter wraps once, and 11 Wh are added. -/
theorem test_unwrap : AMap.get 0 (fixtureCounter.vmReport 0x12C40 7 4 6640 60000000000).meter.vacc 4120 = 0x4026000000000000 := by decide +kernel

/-- Table 13-8, t2: the counter jumps, and between 14.15 and 14.16 Wh are added. -/
theorem test_clamp :
    let m := (fixtureCounter.vmReport 0x12C40 7 4 6640 60000000000).vmReport 0x12C40 7 4000 6620 120000000000
    let x := Fp.fsub (AMap.get 0 m.meter.vacc 4120) 0x4026000000000000
    m.meter.vclamp = [4120] ∧ Fp.gt x 0x402C4CCCCCCCCCCD = true ∧ Fp.gt 0x402C51EB851EB852 x = true := by decide +kernel

/-- Chapter 20's worked example: the zone of Tilsburg, TAI − UTC being 37 s. -/
def tilsburg : Chip :=
  let m := chip [(R.KEEP_TZ_STD_STD, 60), (R.KEEP_TZ_STD_DST, 60), (R.KEEP_TZ_STD_DST_EN, 1),
    (R.KEEP_TZ_START_MONTH, 3), (R.KEEP_TZ_START_WEEK, 5), (R.KEEP_TZ_START_WDAY, 6), (R.KEEP_TZ_START_MINUTE, 120),
    (R.KEEP_TZ_END_MONTH, 10), (R.KEEP_TZ_END_WEEK, 5), (R.KEEP_TZ_END_WDAY, 6), (R.KEEP_TZ_END_MINUTE, 120)]
  m.withKeep { m.keep with ofs := 37 }

/-- Table 20-4, t2: at 2026-10-25 01:00:00 UTC local time returns from 03:00 to 02:00. -/
theorem test_saving_ends : tilsburg.wallOf (846201600 + 3599 + 37) = 846201600 + 3 * 3600 - 1 ∧
    tilsburg.wallOf (846201600 + 3600 + 37) = 846201600 + 2 * 3600 := by decide +kernel

/-- Table 20-4, t0, t1 and t9: 02:30 occurs first at 00:30 UTC, and 02:45 at 00:45 and 01:45 UTC. -/
theorem test_wall_twice : tilsburg.wallInstant (846201600 + 9000) = 846201600 + 1800 + 37 ∧
    (tilsburg.wallInstants (846201600 + 9900)).1 = [846201600 + 2700 + 37, 846201600 + 6300 + 37] := by decide +kernel

/-- The last 12 bytes of chapter 21's ATTEST message. -/
theorem test_attest_message :
    let m := chip [(R.UPL_TIME_STAT_TRUSTED, 1), (R.SADL_STAT_ROLE, 1), (R.CAIRN_BOOT_STAT_STATE, 2), (R.CAIRN_GEN, 42), (R.KEEP_STAT_COLD, 0), (R.KEEP_STAT_BKLOSS, 0)]
    (Chip.withVault m { m.vault with ident := 0x004816A200002904, eff := [(1, [1]), (2, [1])] }).attestMsg [] =
      [0x04, 0x29, 0x00, 0x00, 0xA2, 0x16, 0x48, 0x00, 0x00, 0x00, 0x20, 0x69, 0x2A, 0x00, 0x00, 0x00] := by decide +kernel

/-- Chapter 23's worked example: GEN_STEP of stepping A, metal 0. -/
theorem test_step_register : State.reset.chip.reg R.GEN_STEP.addr = 0x41 := by decide +kernel

/-- Every register's addresses lie in the block of 256 KiB that names it. -/
theorem test_blocks : regBlocks.all (fun b => b.2.all (fun r =>
    r.base / 0x40000 == b.1 && (r.dims.foldl (fun a d => a + (d.1 - 1) * d.2) r.base) / 0x40000 == b.1)) = true := by decide +kernel
end Sys2Proof.Tests
end

section
/-! PROOFS. Every command keeps what every change of a part of the chip keeps (Laws/Canon.lean): one lemma for the commands that leave the guard die alone,
one for those that may change it and not its table, one for all. The invariance of the canonical form (O59) is one of these. -/

namespace Sys2Proof.Machine

open Sys2Proof

/-- A meaning answers a next state, leaves the queue, and keeps the property K of the chip. -/
def Keeps (K : Inv) (e : State → Host.Outcome State Fault Refusal) : Prop :=
  ∀ s, Canon K s.chip → ∃ t, e s = .next t ∧ t.pending = s.pending ∧ Canon K t.chip

namespace Keeps

variable {K : Inv}

theorem act {f : Chip → Chip} (hf : ∀ m, Canon K m → Canon K (f m)) : Keeps K (·.act f) := fun _ h => act_canon hf h

theorem actAll {f : Chip → Chip} (hf : ∀ m, Canon K m → Canon K (f m)) : Keeps K (·.actAll f) := fun _ h => actAll_canon hf h

theorem issue {c : Fin 36} {w : Word} {x : Option Word} {i : Insn} (hi : ∀ o m k, Canon K m → Canon K (i.run o m k).chip) :
    Keeps K (·.act (·.issue c.val w x i)) := .act fun _ h => Chip.issue_canon h hi

theorem vault1 {op : Nat} {healthy : Bool} {f : Chip → VDesc → List Byte → VRes}
    (hf : ∀ a d i, Canon K a → Canon K (f a d i).2.2) : Keeps K (·.act (·.vault1 op healthy f)) :=
  .act fun _ h => Chip.vault1_canon h hf

end Keeps

/-- A command that does not reach the guard die keeps every property that the changes of the other parts keep. -/
theorem exec_keeps_of_not_reachesGuard {K : Inv} {c : Instr} (hc : c.reachesGuard = false) : Keeps K (exec c) := by
  unfold exec
  cases c with
  | registerWrite => exact .act fun _ h => Canon.ite (Chip.put_canon h) (Chip.ctlWrite_canon h)
  | pairedRegisterWrite => exact .act fun _ => Chip.ctlWrite_canon
  | multiwordWrite => exact .act fun _ => Chip.ctlWrite_canon
  | lowWordRead => exact .act fun _ h => Chip.emit_canon (Chip.ctlRead_canon h)
  | rcFieldRead => exact .act fun _ h => Chip.emit_canon (Chip.ctlRead_canon h)
  | diagCounterClear => exact .act fun _ => Chip.ctlWrite_canon
  | unitDisableRequest => exact .act fun _ => Chip.unitDisable_canon
  | drainLimitExpiry => exact .act fun _ => Chip.drainLimit_canon
  | drainComplete => exact .act fun _ => Chip.drainDone_canon
  | unitEnableRequest => exact .act fun _ => Chip.unitEnable_canon
  | evrCfgWrite => exact .act fun _ => Chip.evrCfg_canon
  | evrTailWrite => exact .act fun _ => Chip.evrTail_canon
  | pllLock => exact .act fun _ h => Canon.ite h (Chip.withClk_canon h)
  | pointRead => exact .act fun _ h => Canon.ite (Chip.league_canon h) (Chip.emit_canon (Chip.ptRead_canon h))
  | pointWrite => exact .act fun _ h => Canon.ite (Chip.league_canon h) (Chip.emit_canon (Chip.ptWrite_canon h))
  | accRead => exact .act fun _ => Chip.accRead_canon
  | accWrite => exact .act fun _ => Chip.accWrite_canon
  | force => exact .act fun _ => Chip.accForce_canon
  | unforce => exact .act fun _ => Chip.accUnforce_canon
  | subst => exact .act fun _ => Chip.accForce_canon
  | unsubst => exact .act fun _ => Chip.accUnforce_canon
  | clrchg => exact .act fun _ => Chip.accClear_canon
  | sweepVisit => exact .act fun _ => Chip.sweep_canon
  | scrubVisit => exact .act fun _ => Chip.scrub_canon
  | pointClearDone => exact .act fun _ h => Chip.bootStep_canon (Chip.clearDone_canon h)
  | commitGo => exact .act fun _ => Chip.commitGo_canon
  | commitAbort => exact .act fun _ h => Chip.bootStep_canon (Chip.dropCommit_canon h)
  | discard => exact .act fun _ => Chip.discard_canon
  | commitRulesDone => exact .act fun _ h => Chip.bootStep_canon (Chip.commitRules_canon h)
  | checkLimitExpiry => exact .act fun _ h => Chip.bootStep_canon (Chip.commitWatch_canon (Chip.checkLimit_canon h))
  | commitPrepDone => exact .act fun _ h => Chip.bootStep_canon (Chip.commitWatch_canon (Chip.prepDone_canon h))
  | commitApply => cases hc
  | commitTaskTimeout => exact .act fun _ h => Chip.bootStep_canon (Chip.commitWatch_canon (Chip.taskTimeout_canon h))
  | overlayFold => exact .act fun _ => Chip.foldNext_canon
  | bootStart => exact .act fun _ => Chip.bootStart_canon
  | flashRead => exact .act fun _ => Chip.flashCmd_canon
  | flashProgram => exact .act fun _ => Chip.flashCmd_canon
  | erase4k => exact .act fun _ => Chip.flashCmd_canon
  | erase64k => exact .act fun _ => Chip.flashCmd_canon
  | flashOpDone => exact .act fun _ => Chip.flashDone_canon
  | cairnFloorWrite => exact .act fun _ => Chip.floorWrite_canon
  | undefinedOpcode => exact .issue Insn.none__canon
  | cycleOverrun => exact .act fun _ => Chip.overrun_canon
  | postedStoreAck => exact .act fun _ h => Canon.ite h (Chip.setCore_canon (Chip.drainStores_canon h))
  | iLd => exact .issue Insn.ld_canon
  | iLdn => exact .issue Insn.ldn_canon
  | iAnd => exact .issue Insn.and_canon
  | iAndn => exact .issue Insn.andn_canon
  | iOr => exact .issue Insn.or_canon
  | iOrn => exact .issue Insn.orn_canon
  | iXor => exact .issue Insn.xor_canon
  | iXorn => exact .issue Insn.xorn_canon
  | iSt => exact .issue Insn.st_canon
  | iStn => exact .issue Insn.stn_canon
  | iSetb => exact .issue Insn.setb_canon
  | iRstb => exact .issue Insn.rstb_canon
  | iTglb => exact .issue Insn.tglb_canon
  | iNotba => exact .issue Insn.notba_canon
  | iSetba => exact .issue Insn.setba_canon
  | iClrba => exact .issue Insn.clrba_canon
  | iCondba => exact .issue Insn.condba_canon
  | iJmp => exact .issue Insn.jmp_canon
  | iBCond => exact .issue Insn.bcond_canon
  | iCall => exact .issue Insn.call_canon
  | iRet => exact .issue Insn.ret_canon
  | iPush => exact .issue Insn.push_canon
  | iPopAnd => exact .issue Insn.popAnd_canon
  | iPopOr => exact .issue Insn.popOr_canon
  | iPopXor => exact .issue Insn.popXor_canon
  | iPopAndn => exact .issue Insn.popAndn_canon
  | iPopLd => exact .issue Insn.popLd_canon
  | iDrop => exact .issue Insn.drop_canon
  | iWld => exact .issue Insn.wld_canon
  | iWst => exact .issue Insn.wst_canon
  | iWli => exact .issue Insn.wli_canon
  | iWadd => exact .issue Insn.wadd_canon
  | iWsub => exact .issue Insn.wsub_canon
  | iWmul => exact .issue Insn.wmul_canon
  | iWdiv => exact .issue Insn.wdiv_canon
  | iWrem => exact .issue Insn.wrem_canon
  | iWand => exact .issue Insn.wand_canon
  | iWor => exact .issue Insn.wor_canon
  | iWxor => exact .issue Insn.wxor_canon
  | iWnot => exact .issue Insn.wnot_canon
  | iWneg => exact .issue Insn.wneg_canon
  | iWshl => exact .issue Insn.wshl_canon
  | iWshr => exact .issue Insn.wshr_canon
  | iWsar => exact .issue Insn.wsar_canon
  | iWcmp => exact .issue Insn.wcmp_canon
  | iWswap => exact .issue Insn.wswap_canon
  | iWmovg => exact .issue Insn.wmovg_canon
  | iGmovw => exact .issue Insn.gmovw_canon
  | iWcopy => exact .issue Insn.wcopy_canon
  | iAdd => exact .issue Insn.add_canon
  | iSub => exact .issue Insn.sub_canon
  | iAndReg => exact .issue Insn.andReg_canon
  | iOrReg => exact .issue Insn.orReg_canon
  | iXorReg => exact .issue Insn.xorReg_canon
  | iAndng => exact .issue Insn.andng_canon
  | iShl => exact .issue Insn.shl_canon
  | iShr => exact .issue Insn.shr_canon
  | iSar => exact .issue Insn.sar_canon
  | iRol => exact .issue Insn.rol_canon
  | iMul => exact .issue Insn.mul_canon
  | iMulhs => exact .issue Insn.mulhs_canon
  | iMulhu => exact .issue Insn.mulhu_canon
  | iDiv => exact .issue Insn.div_canon
  | iDivu => exact .issue Insn.divu_canon
  | iRem => exact .issue Insn.rem_canon
  | iRemu => exact .issue Insn.remu_canon
  | iMin => exact .issue Insn.min_canon
  | iMax => exact .issue Insn.max_canon
  | iMinu => exact .issue Insn.minu_canon
  | iMaxu => exact .issue Insn.maxu_canon
  | iCmp => exact .issue Insn.cmp_canon
  | iTst => exact .issue Insn.tst_canon
  | iSel => exact .issue Insn.sel_canon
  | iMov => exact .issue Insn.mov_canon
  | iNot => exact .issue Insn.not_canon
  | iNeg => exact .issue Insn.neg_canon
  | iSetc => exact .issue Insn.setc_canon
  | iAddi => exact .issue Insn.addi_canon
  | iLih => exact .issue Insn.lih_canon
  | iLb => exact .issue Insn.lb_canon
  | iLbu => exact .issue Insn.lbu_canon
  | iLh => exact .issue Insn.lh_canon
  | iLhu => exact .issue Insn.lhu_canon
  | iLw => exact .issue Insn.lw_canon
  | iLwu => exact .issue Insn.lwu_canon
  | iLdw => exact .issue Insn.ldw_canon
  | iSb => exact .issue Insn.sb_canon
  | iSh => exact .issue Insn.sh_canon
  | iSw => exact .issue Insn.sw_canon
  | iSdw => exact .issue Insn.sdw_canon
  | iFadd => exact .issue Insn.fadd_canon
  | iFsub => exact .issue Insn.fsub_canon
  | iFmul => exact .issue Insn.fmul_canon
  | iFdiv => exact .issue Insn.fdiv_canon
  | iFsqrt => exact .issue Insn.fsqrt_canon
  | iFmin => exact .issue Insn.fmin_canon
  | iFmax => exact .issue Insn.fmax_canon
  | iFabs => exact .issue Insn.fabs_canon
  | iFneg => exact .issue Insn.fneg_canon
  | iFmov => exact .issue Insn.fmov_canon
  | iFcmp => exact .issue Insn.fcmp_canon
  | iFsel => exact .issue Insn.fsel_canon
  | iFmadd => exact .issue Insn.fmadd_canon
  | iFmsub => exact .issue Insn.fmsub_canon
  | iFnmadd => exact .issue Insn.fnmadd_canon
  | iFcvti => exact .issue Insn.fcvti_canon
  | iFcvtu => exact .issue Insn.fcvtu_canon
  | iIcvtf => exact .issue Insn.icvtf_canon
  | iUcvtf => exact .issue Insn.ucvtf_canon
  | iFmvg => exact .issue Insn.fmvg_canon
  | iGmvf => exact .issue Insn.gmvf_canon
  | iFclass => exact .issue Insn.fclass_canon
  | iFrnd => exact .issue Insn.frnd_canon
  | iFld => exact .issue Insn.fld_canon
  | iFst => exact .issue Insn.fst_canon
  | iPld => exact .issue Insn.pld_canon
  | iPldf => exact .issue Insn.pldf_canon
  | iPlds => exact .issue Insn.plds_canon
  | iPldt => exact .issue Insn.pldt_canon
  | iPldq => exact .issue Insn.pldq_canon
  | iPldb => exact .issue Insn.pldb_canon
  | iPst => exact .issue Insn.pst_canon
  | iPstf => exact .issue Insn.pstf_canon
  | iPstb => exact .issue Insn.pstb_canon
  | iPclrchg => exact .issue Insn.pclrchg_canon
  | iPlwa => exact .issue Insn.plwa_canon
  | iPswa => exact .issue Insn.pswa_canon
  | iPlba => exact .issue Insn.plba_canon
  | iPsba => exact .issue Insn.psba_canon
  | iPlwb => exact .issue Insn.plwb_canon
  | iPswb => exact .issue Insn.pswb_canon
  | iPpld => exact .issue Insn.ppld_canon
  | iPpldf => exact .issue Insn.ppldf_canon
  | iPpst => exact .issue Insn.ppst_canon
  | iPpstf => exact .issue Insn.ppstf_canon
  | iMpld => exact .issue Insn.mpld_canon
  | iMpldf => exact .issue Insn.mpldf_canon
  | iMpst => exact .issue Insn.mpst_canon
  | iMpstf => exact .issue Insn.mpstf_canon
  | iPmov => exact .issue Insn.pmov_canon
  | iPmovf => exact .issue Insn.pmovf_canon
  | iPcpl => exact .issue Insn.pcpl_canon
  | iPcplf => exact .issue Insn.pcplf_canon
  | iPtst => exact .issue Insn.ptst_canon
  | iTon => exact .issue Insn.ton_canon
  | iTof => exact .issue Insn.tof_canon
  | iTp => exact .issue Insn.tp_canon
  | iTpre => exact .issue Insn.tpre_canon
  | iTrd => exact .issue Insn.trd_canon
  | iTrst => exact .issue Insn.trst_canon
  | iTstat => exact .issue Insn.tstat_canon
  | iEdgr => exact .issue Insn.edgr_canon
  | iEdgf => exact .issue Insn.edgf_canon
  | iEdgb => exact .issue Insn.edgb_canon
  | iCsrr => exact .issue Insn.csrr_canon
  | iCsrw => exact .issue Insn.csrw_canon
  | iMfs => exact .issue Insn.mfs_canon
  | iMts => exact .issue Insn.mts_canon
  | iEnd => exact .issue Insn.end__canon
  | iSkip => exact .issue Insn.skip_canon
  | iRetry => exact .issue Insn.retry_canon
  | iAbandon => exact .issue Insn.abandon_canon
  | iFence => exact .issue Insn.fence_canon
  | iNop => exact .issue Insn.nop_canon
  | taskRelease => exact .act fun _ => Chip.taskRelease_canon
  | snapshotDone => exact .act fun _ => Chip.snapshotDone_canon
  | taskDispatch => exact .act fun _ => Chip.dispatch_canon
  | handoffDone => exact .act fun _ => Chip.handoffDone_canon
  | scanStart => exact .act fun _ => Chip.tcmdStart_canon
  | scanStop => exact .act fun _ => Chip.tcmdStop_canon
  | resetFault => exact .act fun _ => Chip.tcmdReset_canon
  | scanTsMaxClear => exact .act fun _ h => Canon.ite (Chip.put_canon h) h
  | outputLifetimeExpiry => exact .act fun _ => Chip.outExpire_canon
  | colSwapSwitch => exact .act fun _ h => Canon.ite h (Chip.colSwitch_canon h)
  | standbySwapVerdict => exact .act fun _ => Chip.swapVerdict_canon
  | swapVerdictTimeout => exact .act fun _ => Chip.swapTimeout_canon
  | cadenceTick => exact .act fun _ => Chip.cadence_canon
  | launch => exact .act fun _ => Chip.planCmd_canon
  | cancel => exact .act fun _ => Chip.planCmd_canon
  | ucallPlanLaunch => exact .issue Insn.planLaunch_canon
  | ucallPlanCancel => exact .issue Insn.planCancel_canon
  | assemblyDone => exact .act fun _ => Chip.assembly_canon
  | symbolicAnalysisDone => exact .act fun _ => Chip.analysed_canon
  | solverIteration => exact .act fun _ => Chip.iteration_canon
  | roundDeadline => exact .act fun _ => Chip.planDeadline_canon
  | planExpired => exact .act fun _ => Chip.planExpired_canon
  | scratchEccError => exact .act fun _ => Chip.scratchError_canon
  | tieMessage => exact .act fun _ => Chip.tieMessage_canon
  | coordWaitExpiry => exact .act fun _ => Chip.coordWait_canon
  | governorEvaluation => exact .act fun _ => Chip.evaluatePower_canon
  | thermalTrip => exact .act fun _ => Chip.thermalTrip_canon
  | targetChangeDone => exact .act fun _ => Chip.enterHold_canon
  | domainReady => exact .act fun _ => Chip.domainReady_canon
  | domainIdleGate => exact .act fun _ => Chip.idleGate_canon
  | scanClockRelock => exact .act fun _ => Chip.clockLocked_canon
  | vcoreSettle => exact .act fun _ => Chip.vcoreSettle_canon
  | ucallRidgeSubmit => exact .issue Insn.ridgeSubmit_canon
  | ucallRidgeRelease => exact .issue Insn.ridgeRelease_canon
  | jobReleaseTimeout => exact .act fun _ => Chip.jobTimeout_canon
  | wakePin => exact .actAll fun _ => Chip.wakePin_canon
  | dayStart => exact .act fun _ => Chip.lampDay_canon
  | zoneEvaluation => exact .act fun _ => Chip.zoneEval_canon
  | lampSubmit => exact .act fun _ => Chip.lampReg_canon
  | ucallLampSubmit => exact .issue Insn.lampSubmit_canon
  | frameCommit => exact .act fun _ => Chip.frameCommit_canon
  | frameRetry => exact .act fun _ => Chip.frameRetry_canon
  | lateWindowExpiry => exact .act fun _ => Chip.lateExpiry_canon
  | ack => exact .act fun _ => Chip.lampAck_canon
  | report => exact .act fun _ => Chip.lampReport_canon
  | reportProcess => exact .act fun _ => Chip.reportProcess_canon
  | fixtureSilent => exact .act fun _ => Chip.fixSilent_canon
  | fwGo => exact .act fun _ => Chip.fwGo_canon
  | fwAbort => exact .act fun _ => Chip.fwAbort_canon
  | fwBurstRetry => exact .act fun _ => Chip.fwRetry_canon
  | fwMissing => exact .act fun _ => Chip.fwMissing_canon
  | fwCampaignStep => exact .act fun _ => Chip.fwStep_canon
  | loopSample => exact .act fun _ => Chip.loopSample_canon
  | loopSwapGo => exact .act fun _ h => Chip.swapGo_canon (Chip.put_canon h)
  | bankSingleWrite => exact .act fun _ => Chip.singleWrite_canon
  | loopModeWrite => exact .act fun _ => Chip.loopCtl_canon
  | loopReset => exact .act fun _ => Chip.loopCtl_canon
  | testGo => exact .act fun _ => Chip.testGo_canon
  | testAbort => exact .act fun _ => Chip.testEnd_canon
  | captureArm => exact .act fun _ => Chip.capArm_canon
  | captureStop => exact .act fun _ => Chip.capEnd_canon
  | modFault => exact .act fun _ => Chip.modFault_canon
  | rmsWindowEnd => exact .act fun _ => Chip.windowEnd_canon
  | halfCycleRefresh => exact .act fun _ => Chip.halfCycle_canon
  | pulseEdge => exact .act fun _ => Chip.pulseEdge_canon
  | residueUpdate => exact .act fun _ => Chip.residue_canon
  | intervalClose => exact .act fun _ => Chip.intervalClose_canon
  | totalFold => exact .act fun _ => Chip.totalFold_canon
  | flushRecovery => exact .act fun _ => Chip.recover_canon
  | lostMarkerClear => exact .act fun _ => Chip.lostClear_canon
  | ioReport => exact .act fun _ => Chip.ioReport_canon
  | ioAck => exact .act fun _ => Chip.ioAck_canon
  | hello => exact .act fun _ => Chip.hello_canon
  | quenchAck => exact .act fun _ => Chip.quenchAck_canon
  | lgRead => exact .act fun _ => Chip.lgRead_canon
  | lgWrite => exact .act fun _ => Chip.lgWrite_canon
  | lgResp => exact .act fun _ => Chip.lgResp_canon
  | lgSubscribe => exact .act fun _ => Chip.lgSubscribe_canon
  | lgUpdate => exact .act fun _ => Chip.lgUpdate_canon
  | lgAnnounce => exact .act fun _ => Chip.lgAnnounce_canon
  | timeBeacon => exact .act fun _ => Chip.timeBeacon_canon
  | unknownFrameType => exact .act fun _ h => Canon.ite (Chip.txnCount_canon h) h
  | txnSend => exact .act fun _ => Chip.txSend_canon
  | txnTimeout => exact .act fun _ => Chip.txTimeout_canon
  | txnDeadline => exact .act fun _ => Chip.txDeadline_canon
  | stationDown => exact .act fun _ => Chip.staSilent_canon
  | subscribeRefresh => exact .act fun _ => Chip.subscribe_canon
  | subscriptionExpiry => exact .act fun _ => Chip.dropSubs_canon
  | quenchGo => exact .act fun _ h => Chip.quenchGo_canon (Chip.put_canon h)
  | ucallQuench => exact .issue Insn.quench_canon
  | quenchEnd => exact .act fun _ => Chip.quenchEnd_canon
  | pfcRepeat => exact .act fun _ => Chip.pfcRepeat_canon
  | pfcFrame => exact .act fun _ => Chip.pfcFrame_canon
  | pauseFrame => exact .act fun _ => Chip.uplDrop_canon
  | announce => exact .act fun _ => Chip.announce_canon
  | sync => exact .act fun _ => Chip.sync_canon
  | announceTimeout => exact .act fun _ => Chip.announceTimeout_canon
  | holdoverExpiry => exact .act fun _ => Chip.holdover_canon
  | timeSet => exact .act fun _ => Chip.timeSet_canon
  | leagueAnnounceSend => exact .act fun _ => Chip.leagueAnnounce_canon
  | peerLost => exact .act fun _ => Chip.peerLost_canon
  | arpRequest => exact .act fun _ => Chip.uplAnswer_canon
  | neighborSolicitation => exact .act fun _ => Chip.uplAnswer_canon
  | echoRequest => exact .act fun _ => Chip.uplAnswer_canon
  | neighborResolveRetry => exact .act fun _ => Chip.resolveRetry_canon
  | linkState => exact .act fun _ => Chip.linkState_canon
  | pcieLinkDown => exact .act fun _ => Chip.pcieDown_canon
  | pcieReset => exact .act fun _ => Chip.pcieReset_canon
  | uartRead => exact .act fun _ => Chip.uartRead_canon
  | uartWrite => exact .act fun _ => Chip.uartWrite_canon
  | uartIdleReset => exact .act fun _ => Chip.uartAt_canon
  | plcaCycle => exact .act fun _ => Chip.plcaCycle_canon
  | timeBeaconSend => exact .act fun _ => Chip.timeBeaconSend_canon
  | plcBeaconSend => exact .act fun _ => Chip.plcBeaconSend_canon
  | plcJoin => exact .act fun _ => Chip.plcJoin_canon
  | coordConflict => exact .act fun _ => Chip.coordConflict_canon
  | rxJabber => exact .act fun _ => Chip.jabber_canon
  | localCollision => exact .act fun _ => Chip.collision_canon
  | segmentSilent => exact .act fun _ => Chip.segSilent_canon
  | afeFault => exact .act fun _ => Chip.afeFault_canon
  | panConflict => exact .act fun _ => Chip.panConflict_canon
  | qclr => exact .act fun _ => Chip.qclr_canon
  | portListenEnd => exact .act fun _ => Chip.listenEnd_canon
  | canFrameReceive => exact .act fun _ => Chip.canFrame_canon
  | canSegmentReceive => exact .act fun _ => Chip.canSegment_canon
  | reassemblyTimeout => exact .act fun _ => Chip.reasmTimeout_canon
  | txbReq => exact .act fun _ => Chip.txbReq_canon
  | txbAbort => exact .act fun _ => Chip.txbAbort_canon
  | canTxComplete => exact .act fun _ => Chip.canTxDone_canon
  | canBusError => exact .act fun _ => Chip.canError_canon
  | recover => exact .act fun _ => Chip.canRecover_canon
  | busRecovered => exact .act fun _ => Chip.canRecovered_canon
  | ctrlFrame => exact .act fun _ => Chip.ctrlFrame_canon
  | pairingRetry => exact .act fun _ => Chip.pairRetry_canon
  | pairingTimeout => exact .act fun _ => Chip.pairTimeout_canon
  | timeFrame => exact .act fun _ => Chip.timeFrame_canon
  | commitFrame => cases hc
  | frameFrame => exact .act fun _ => Chip.frameFrame_canon
  | imageFrame => exact .act fun _ => Chip.imageFrame_canon
  | deltaFrame => exact .act fun _ => Chip.deltaFrame_canon
  | loopFrame => exact .act fun _ => Chip.loopFrame_canon
  | pointFrame => exact .act fun _ => Chip.pointFrame_canon
  | panFrame => exact .act fun _ => Chip.panFrame_canon
  | bulkFrame => exact .act fun _ => Chip.bulkFrame_canon
  | echoExecution => exact .act fun _ => Chip.echo_canon
  | laneDown => exact .act fun _ => Chip.laneDown_canon
  | backlog => exact .act fun _ => Chip.backlog_canon
  | heartbeatLoss => exact .act fun _ => Chip.heartbeatLost_canon
  | takeover => exact .act fun _ => Chip.tmoPassed_canon
  | switch => exact .act fun _ => Chip.sadlSwitch_canon
  | switchInstant => exact .act fun _ => Chip.switchInstant_canon
  | take => exact .act fun _ => Chip.sadlTake_canon
  | leave => exact .act fun _ => Chip.sadlLeave_canon
  | resync => exact .act fun _ => Chip.sadlResync_canon
  | resyncDone => exact .act fun _ => Chip.resyncDone_canon
  | healthReport => exact .act fun _ => Chip.healthReport_canon
  | selfTest => exact .act fun _ => Chip.selfTest_canon
  | guardEvaluation => cases hc
  | discrepancyTimeout => cases hc
  | coreLinkFrame => cases hc
  | linkFrameReceive => cases hc
  | guardLinkTimeout => cases hc
  | lockstepMismatch => cases hc
  | disagreeTimeout => cases hc
  | offPulse => cases hc
  | readbackFault => cases hc
  | tableState => cases hc
  | guardSupplyReturn => cases hc
  | keeperSupplySwitch => exact .actAll fun _ => Chip.supplySwitch_canon
  | vbatMeasure => exact .actAll fun _ => Chip.vbat_canon
  | backupLossLatch => exact .actAll fun _ => Chip.backupLoss_canon
  | mainSupplyValid => exact .actAll fun _ => Chip.supplyValid_canon
  | regSequenceStep => exact .actAll fun _ => Chip.seqStep_canon
  | regPgTimeout => exact .actAll fun _ => Chip.seqAbort_canon
  | pd2Start => cases hc
  | powerFailWarning => exact .actAll fun _ => Chip.powerFail_canon
  | regPgFail => exact .actAll fun _ => Chip.pgFail_canon
  | panelLineBoundary => exact .actAll fun _ => Chip.lineBoundary_canon
  | rtcSet => exact .act fun _ => Chip.rtcSet_canon
  | oscStop => exact .actAll fun _ => Chip.put_canon
  | rtcCompensate => exact .actAll fun _ => Chip.compensate_canon
  | rtcFollow => exact .act fun _ => Chip.rtcFollow_canon
  | tscapGo => exact .act fun _ => Chip.tscap_canon
  | dstChange => exact .actAll fun _ => Chip.dstChange_canon
  | alarm => exact .actAll fun _ => Chip.alarmFire_canon
  | alarmWrite => exact .act fun _ => Chip.alarmWrite_canon
  | vaultSubmit => exact .act fun _ => Chip.vaultReg_canon
  | ucallVaultSubmit => exact .issue Insn.vaultSubmit_canon
  | vaultGcmEnc => exact .vault1 fun _ _ _ => Chip.vGcmEnc_canon
  | vaultGcmDec => exact .vault1 fun _ _ _ => Chip.vGcmDec_canon
  | vaultCtr => exact .vault1 fun _ _ _ => Chip.vCtr_canon
  | vaultMac => exact .vault1 fun _ _ _ => Chip.vMac_canon
  | vaultMacCheck => exact .vault1 fun _ _ _ => Chip.vMacCheck_canon
  | vaultHash => exact .vault1 fun _ _ _ => Chip.vHash_canon
  | vaultSign => exact .vault1 fun _ _ _ => Chip.vSign_canon
  | vaultVerify => exact .vault1 fun _ _ _ => Chip.vVerify_canon
  | vaultHkdf => exact .vault1 fun _ _ _ => Chip.vHkdf_canon
  | vaultKdf108 => exact .vault1 fun _ _ _ => Chip.vKdf108_canon
  | vaultWrap => exact .vault1 fun _ _ _ => Chip.vWrap_canon
  | vaultUnwrap => exact .vault1 fun _ _ _ => Chip.vUnwrap_canon
  | vaultGenerate => exact .vault1 fun _ _ _ => Chip.vGenerate_canon
  | vaultClear => exact .vault1 fun _ _ _ => Chip.vClear_canon
  | vaultRandom => exact .vault1 fun _ _ _ => Chip.vRandom_canon
  | vaultPubkey => exact .vault1 fun _ _ _ => Chip.vPubkey_canon
  | vaultAttest => exact .vault1 fun _ _ _ => Chip.vAttest_canon
  | vreset => exact .act fun _ => Chip.vreset_canon
  | remask => exact .act fun _ h => Chip.setVault_canon (Chip.fresh_canon h)
  | otpProgram => exact .act fun _ => Chip.otpGo_canon
  | otpProgrammed => exact .act fun _ => Chip.otpDone_canon
  | debugChal => exact .act fun _ => Chip.debugChal_canon
  | debugOpen => exact .act fun _ => Chip.debugOpen_canon
  | debugClose => exact .act fun _ => Chip.debugClose_canon
  | panelUpdate => exact .act fun _ => Chip.panelUpdate_canon
  | panelLine => exact .act fun _ => Chip.panelLine_canon
  | panelCrack => exact .act fun _ => Chip.panelCrack_canon
  | markClr => exact .act fun _ => Chip.markClear_canon
  | crkClr => exact .act fun _ => Chip.crackClear_canon
  | dramWindowAccess _ _ v =>
    cases v with
    | some => exact .act fun _ => Chip.ctlWrite_canon
    | none => exact .act fun _ h => Chip.emit_canon (Chip.ctlRead_canon h)
  | ucall => exact .issue Insn.ucall_canon
  | dramReady => exact .act fun _ h => Canon.ite h (Chip.put_canon h)
  | modFaultCleared => exact .act fun _ => Chip.modFault_canon
  | busIntegration => exact .act fun _ => Chip.canIntegrated_canon
  | afeFaultRelease => exact .act fun _ => Chip.afeFault_canon
  | laneUp => exact .act fun _ => Chip.laneUp_canon
  | healthReportMissing => exact .act fun _ => Chip.healthMissing_canon
  | saddleCrcError => exact .act fun _ h => Canon.ite (Chip.sadlCount_canon h) h
  | guardSupplyLoss => cases hc
  | timeFrameTimeout => exact .act fun _ => Chip.timeFrameLost_canon
  | leapSecond => exact .actAll fun _ => Chip.leapSecond_canon
  | regPgDrop => exact .actAll fun _ => Chip.seqAbort_canon
  | uartBadRequest => exact .act fun _ => Chip.uartBad_canon
  | syncSend => exact .act fun _ => Chip.syncSend_canon
  | announceSend => exact .act fun _ => Chip.announceSend_canon
  | delayResp => exact .act fun _ => Chip.delayResp_canon
  | delayReq => exact .act fun _ => Chip.delayReq_canon
  | arqGiveUp => exact .act fun _ => Chip.arqGiveUp_canon

/-- A command that neither resets the guard die nor loads its table keeps every property that changes of the guard die leaving its table keep too. -/
theorem exec_keeps_of_not_resetsGuard {K : InvT} {c : Instr} (hr : c.resetsGuard = false) (ht : ∀ b, c ≠ .tableState b) :
    Keeps K.toInv (exec c) := by
  cases hc : c.reachesGuard with
  | false => exact exec_keeps_of_not_reachesGuard hc
  | true =>
    unfold exec
    cases c with
    | commitApply => exact .act fun _ h => Chip.bootStep_canon (Chip.commitApply_canon h)
    | commitFrame => exact .act fun _ => Chip.commitFrame_canon
    | guardEvaluation => exact .actAll fun _ => Chip.guardEval_canon
    | discrepancyTimeout => exact .actAll fun _ => Chip.discrepancy_canon
    | coreLinkFrame => exact .act fun _ => Chip.coreFrame_canon
    | linkFrameReceive => exact .actAll fun _ => Chip.linkFrame_canon
    | guardLinkTimeout => exact .actAll fun _ => Chip.linkTimeout_canon
    | lockstepMismatch => exact .act fun _ => Chip.lockstep_canon
    | disagreeTimeout => exact .actAll fun _ => Chip.disagree_canon
    | offPulse => exact .actAll fun _ => Chip.offPulse_canon
    | readbackFault => exact .actAll fun _ => Chip.readback_canon
    | tableState b => exact absurd rfl (ht b)
    | pd2Start | guardSupplyLoss | guardSupplyReturn => cases hr
    | _ => cases hc

/-- Every command keeps every property that all changes of parts keep. -/
theorem exec_keeps {K : InvG} (c : Instr) : Keeps K.toInv (exec c) := by
  by_cases h : c.resetsGuard = false ∧ ∀ b, c ≠ .tableState b
  · exact exec_keeps_of_not_resetsGuard h.1 h.2
  · unfold exec
    cases c with
    | tableState => exact .act fun _ => Chip.guardTable_canon
    | guardSupplyReturn => exact .actAll fun _ => Chip.guardSupply_canon
    | pd2Start => exact .actAll fun _ => Chip.pd2Start_canon
    | guardSupplyLoss => exact .actAll fun _ => Chip.guardSupply_canon
    | _ => exact absurd ⟨rfl, nofun⟩ h

/-- A step keeps every property that all changes of parts keep: the command at the front of the queue does, and the clock edge does. -/
theorem step_keeps {K : InvG} {s t : State} (h : Canon K.toInv s.chip) (e : step s = .next t) : Canon K.toInv t.chip := by
  obtain ⟨pending, m⟩ := s
  cases pending with
  | nil =>
    cases e
    exact Chip.tick_canon h
  | cons c rest =>
    obtain ⟨t', e', -, h'⟩ := exec_keeps c ⟨rest, m⟩ h
    cases e'.symm.trans e
    exact h'

/-- Settles O59: canonical form on a chip of one variant is one of the properties that all changes of parts keep. -/
theorem stepKeepsCanonicalForm : Obligations.StepKeepsCanonicalForm :=
  fun s _ hr hm e => step_keeps (K := Inv.canon s.chip.variant) ⟨rfl, hr, hm⟩ e

end Sys2Proof.Machine
end

section
/-! PROOFS. Words of the rules below: commands of the main die by their effect, and lists of pairs. -/

namespace Sys2Proof.Machine

open Sys2Proof

/-! ### Commands of the main die -/

/-- A command of the main die turns every chip into what its effect makes of it. -/
theorem turns_of_act {c : Instr} {f e : Chip → Chip} {pre : Chip → Prop} (hc : ∀ s, exec c s = s.act f) (h : ∀ m, pre m → f m = e m) :
    Turns c pre e := fun s on hp => by rw [Gives, hc, State.act_on on, h _ hp]

/-- What holds of every chip and its effect, the command shows. -/
theorem shows_of_act {c : Instr} {f : Chip → Chip} {pre : Chip → Prop} {p : Chip → Chip → Prop} (hc : ∀ s, exec c s = s.act f)
    (h : ∀ m, pre m → p m (f m)) : Shows c pre p := fun s on hp => ⟨f s.chip, by rw [hc, State.act_on on], h _ hp⟩

/-! ### Lists of pairs -/

/-- A key that was set is found with what was set. -/
@[simp] theorem assoc_reassoc_same {α : Type} (l : List (Nat × α)) (i : Nat) (v : α) : assoc (reassoc l i v) i = some v := by
  have h : ((unassoc l i).filter (fun e => decide (e.1 < i))).find? (fun e => decide (e.1 = i)) = none := by
    simp only [List.find?_eq_none, List.mem_filter, decide_eq_true_eq]
    omega
  simp [assoc, reassoc, List.find?_append, h]

end Sys2Proof.Machine
end

section
/-! PROOFS. A word written into the control space (O17): where `Chip.ctlWrite` takes it, by the offset and the register's row. -/

namespace Sys2Proof.Machine

open Sys2Proof

/-! ### Banks -/

@[simp] theorem Chip.bank_setBank_same (m : Chip) (k : Nat) (b : Bank) : (m.setBank k b).bank k = b := by
  simp [Chip.setBank, Chip.bank]

/-- Setting a bank changes no register but the channel's COMMIT_STAT and COMMIT_BYTES. -/
theorem Chip.reg_setBank (m : Chip) {k a : Nat} (b : Bank) (hs : a ≠ (R.COMMIT_STAT k).addr) (hb : a ≠ (R.COMMIT_BYTES k).addr) :
    (m.setBank k b).reg a = m.reg a := by
  have h1 : a ≠ (R.COMMIT_STAT_REG_COUNT k).addr := hs
  have h2 : a ≠ (R.COMMIT_BYTES_BYTES k).addr := hb
  have h3 : a ≠ (R.COMMIT_STAT_STAGE_OVF k).addr := hs
  simp only [Chip.setBank, Chip.reg_put_other _ h1, Chip.reg_put_other _ h2, Chip.reg_put_other _ h3, Chip.reg_withCom]

@[simp] theorem Chip.byte_setBank (m : Chip) (k : Nat) (b : Bank) (sp : Space) (i : Nat) : (m.setBank k b).byte sp i = m.byte sp i := rfl

@[simp] theorem Chip.setBank_variant (m : Chip) (k : Nat) (b : Bank) : (m.setBank k b).variant = m.variant := rfl

/-- A bank with room takes a register's word. -/
theorem Bank.reg_stageReg (b : Bank) (a : Nat) (w : Word) (h : b.regs.length < 65536) : (b.stageReg a w).reg a = some w := by
  simp [Bank.stageReg, Bank.reg, h]

/-! ### The fields that a write takes -/

/-- The bits of a register that a written word sets, and those that its ones clear. -/
def RegRow.taken (row : RegRow) : Word := row.mask (fun f => !f.staged && (f.acc == .rw || f.acc == .wo))
def RegRow.cleared (row : RegRow) : Word := row.mask (fun f => f.acc == .w1c)

/-- A register whose row lets no bit change keeps its word. -/
theorem Chip.putFields_fixed (m : Chip) {a : Nat} {row : RegRow} (hr : rowOf a = some row) (ht : row.taken = 0) (hc : row.cleared = 0)
    (w : Word) : m.putFields a w = m := by
  rw [RegRow.taken] at ht
  rw [RegRow.cleared] at hc
  simp [Chip.putFields, hr, ht, hc]

/-- A register without W1C bits takes the bits that its row lets change. -/
theorem Chip.putFields_taken (m : Chip) {a : Nat} {row : RegRow} (hr : rowOf a = some row) (ht : row.taken ≠ 0) (hc : row.cleared = 0)
    (w : Word) : m.putFields a w = m.setReg a ((m.reg a &&& ~~~row.taken) ||| (w &&& row.taken)) := by
  have hx : ∀ x : Word, x &&& ~~~(row.cleared &&& w) = x := fun x => by
    rw [hc]; exact (congrArg (x &&& ~~~·) BitVec.zero_and).trans (by rw [BitVec.not_zero, BitVec.and_allOnes])
  rw [← hx ((m.reg a &&& ~~~row.taken) ||| (w &&& row.taken)), Chip.putFields, hr]
  exact if_neg (fun h => ht h.1)

/-! ### Which way a word goes -/

/-- The debug port reaches the control space with debug only; every other requester always does. -/
def Chip.opens (m : Chip) (r : Req) : Prop := r = .debug → m.vault.debug = true

/-- An offset beyond 64 MiB, and a debug port without debug, reach nothing. -/
theorem Chip.ctlWrite_shut (m : Chip) {r : Req} {off : Nat} (h : 0x4000000 ≤ off ∨ (r = .debug ∧ m.vault.debug = false)) (w : Word) :
    m.ctlWrite r off w = m := by
  simp [Chip.ctlWrite, h]

theorem Chip.not_shut {m : Chip} {r : Req} (h : m.opens r) : ¬ (r = .debug ∧ (!m.vault.debug) = true) := by
  rintro ⟨hr, hd⟩
  simp [h hr] at hd

/-- A word written through DRAM_WIN. -/
theorem Chip.ctlWrite_dram (m : Chip) {r : Req} {a : Nat} (ho : m.opens r) (ha : a / 4 * 4 = a) (h1 : dramWin ≤ a) (h2 : a < 0x4000000)
    (w : Word) : m.ctlWrite r a w = m.wr .dram (m.dramAt r a) 4 w.toNat := by
  rw [Chip.ctlWrite, ha, if_neg (not_or_intro (by omega) (Chip.not_shut ho)), if_pos h1]

/-- The offset of a register: below the windows, in no scratch memory. -/
structure RegAddr (a : Nat) : Prop where
  word : a / 4 * 4 = a
  low : a < 0x500000
  ret : keepRet a = none

/-- A plain register's word is written at once. -/
theorem Chip.ctlWrite_plain (m : Chip) {r : Req} {a : Nat} (ho : m.opens r) (ha : RegAddr a) (hk : regKind a = .plain) (w : Word) :
    m.ctlWrite r a w = m.putReg r a w := by
  obtain ⟨word, low, ret⟩ := ha
  have hd : ¬ dramWin ≤ a := by unfold dramWin; omega
  rw [Chip.ctlWrite, word, if_neg (not_or_intro (by omega) (Chip.not_shut ho)), if_neg hd, if_neg (by omega), ret, hk]

/-- A diagnostic counter of a present unit takes zero only. -/
theorem Chip.ctlWrite_counter (m : Chip) {r : Req} {a : Nat} {sat : Option (Nat × Nat)} (ho : m.opens r) (ha : RegAddr a)
    (hk : regKind a = .counter sat) (w : Word) : m.ctlWrite r a w = if m.present a then m.counterWrite a sat w else m := by
  obtain ⟨word, low, ret⟩ := ha
  have hd : ¬ dramWin ≤ a := by unfold dramWin; omega
  rw [Chip.ctlWrite, word, if_neg (not_or_intro (by omega) (Chip.not_shut ho)), if_neg hd, if_neg (by omega), ret, hk]

/-- The low word of a value that no write changes is ignored. -/
theorem Chip.ctlWrite_fixedLow (m : Chip) {r : Req} {a n : Nat} (ho : m.opens r) (ha : RegAddr a) (hk : regKind a = .mwLo n)
    (hw : writable a = false) (w : Word) : m.ctlWrite r a w = m := by
  obtain ⟨word, low, ret⟩ := ha
  have hd : ¬ dramWin ≤ a := by unfold dramWin; omega
  rw [Chip.ctlWrite, word, if_neg (not_or_intro (by omega) (Chip.not_shut ho)), if_neg hd, if_neg (by omega), ret, hk]
  simp [hw]

end Sys2Proof.Machine
end

section
/-! PROOFS. Registers of the control space under a write (O17): identity words, the event map, Staged control words, counters. -/

namespace Sys2Proof.Machine

open Sys2Proof

/-! ### Presence -/

@[simp] theorem Chip.hasUnit_zero (m : Chip) : m.hasUnit 0 = true := by
  cases h : m.variant <;> simp [Chip.hasUnit, h, Variant.units]

/-- Outside the blocks of field ports and CAN and the waveform registers, a register is present with its unit. -/
theorem Chip.present_unit (m : Chip) {a u : Nat} (hb : blockUnit a = u) (h9 : u ≠ 9) (h8 : u ≠ 8) (hw : ¬ (0x340100 ≤ a ∧ a < 0x340C00)) :
    m.present a = m.hasUnit u := by
  rw [Chip.present, hb, if_neg h9, if_neg h8, if_neg hw, Bool.and_true]

/-- GEN is present on every variant. -/
theorem Chip.present_gen (m : Chip) {a : Nat} (h : a < 0x40000) : m.present a = true := by
  rw [m.present_unit (u := 0) (by unfold blockUnit; omega) (by decide) (by decide) (by omega), m.hasUnit_zero]

/-! ### One register's word -/

/-- A register without Staged fields is written at once where its unit is present. -/
theorem Chip.putReg_live (m : Chip) {r : Req} {a : Nat} {row : RegRow} (hr : rowOf a = some row) (hs : row.stagedMask = 0)
    (hp : m.present a = true) (w : Word) : m.putReg r a w = m.regWrite r a w := by
  simp [Chip.putReg, hr, hs, hp]

/-- A register all of whose fields are Staged takes a place in the channel 0 bank and nothing else. -/
theorem Chip.putReg_staged (m : Chip) {r : Req} {a : Nat} {row : RegRow} {w : Word} (hr : rowOf a = some row) (hs : row.stagedMask ≠ 0)
    (hw : ∀ n : Chip, n.regWrite r a w = n) : m.putReg r a w = m.stageReg 0 a w := by
  simp [Chip.putReg, hr, hs, hw]

/-! ### GEN -/

/-- An offset outside the page registers selects no window. -/
theorem Chip.not_selects (m : Chip) {a : Nat} (h : a < 0x100 ∨ 0x12C ≤ a) (x : Win) :
    ¬ (match m.winSel x with | some (i, _) => a == (R.GEN_WPAGE i).addr | none => false) = true := by
  cases x <;> simp [Chip.winSel, R.GEN_WPAGE] <;> omega

theorem Chip.genWrite_dwin (m : Chip) (r : Req) (w : Word) : m.genWrite r R.GEN_DWIN.addr w = m.setPage r 11 (w.toNat % 256) := by
  unfold Chip.genWrite
  split
  next x hx => exact absurd (List.find?_some hx) (m.not_selects (.inr (by decide)) x)
  next => rfl

/-- The identity words stand below the page registers and take a write as their rows say. -/
theorem Chip.genWrite_identity (m : Chip) (r : Req) {a : Nat} (h : a < 0x100) (w : Word) : m.genWrite r a w = m.putFields a w := by
  have hplace : ∀ b st n, 0x100 ≤ b → place b st n a = none := fun b st n hb => if_neg (by omega)
  unfold Chip.genWrite
  split
  next x hx => exact absurd (List.find?_some hx) (m.not_selects (.inl h) x)
  next =>
    rw [if_neg (by simp only [R.GEN_DWIN]; omega), hplace 0x1008 _ _ (by omega), hplace 0x1010 _ _ (by omega), hplace 0x1400 _ _ (by omega)]
    exact if_neg (by omega)

theorem Chip.genWrite_eventMap (m : Chip) (r : Req) (u : Fin 20) (hu : m.hasUnit u.val = true) (w : Word) :
    m.genWrite r (0x1400 + 4 * u.val) w = m.putFields (0x1400 + 4 * u.val) w := by
  have hp : ∀ u : Fin 20, place 0x1008 0x20 16 (0x1400 + 4 * u.val) = none ∧ place 0x1010 0x20 16 (0x1400 + 4 * u.val) = none ∧
      place 0x1400 4 20 (0x1400 + 4 * u.val) = some u.val := by decide
  obtain ⟨h1, h2, h3⟩ := hp u
  unfold Chip.genWrite
  split
  next x hx => exact absurd (List.find?_some hx) (m.not_selects (.inr (by omega)) x)
  next =>
    rw [if_neg (by simp only [R.GEN_DWIN]; omega), h1, h2, h3]
    exact (if_neg (by omega)).trans (if_pos hu)

/-- A word for GEN goes to GEN's own writes. -/
theorem Chip.regWrite_gen (m : Chip) (r : Req) {a : Nat} (h : a < 0x40000) (w : Word) : m.regWrite r a w = m.genWrite r a w := by
  have hb : blockUnit a = 0 := by unfold blockUnit; omega
  simp only [Chip.regWrite, hb]

/-- A plain register of GEN with no Staged field. -/
theorem Chip.ctlWrite_gen (m : Chip) {r : Req} {a : Nat} {row : RegRow} (ho : m.opens r) (ha : RegAddr a) (h : a < 0x40000)
    (hr : rowOf a = some row) (hk : row.kind = .plain) (hs : row.stagedMask = 0) (w : Word) : m.ctlWrite r a w = m.genWrite r a w := by
  have hk' : regKind a = .plain := by rw [regKind, hr, ← hk]
  rw [m.ctlWrite_plain ho ha hk', m.putReg_live hr hs (m.present_gen h), m.regWrite_gen r h]

/-- GEN_EVR_MAP takes the ring's number. -/
theorem Chip.ctlWrite_eventMap (m : Chip) {r : Req} (u : Fin 20) (ho : m.opens r) (hu : m.hasUnit u.val = true) (w : Word) :
    m.ctlWrite r (0x1400 + 4 * u.val) w = m.setReg (0x1400 + 4 * u.val) ((m.reg (0x1400 + 4 * u.val) &&& ~~~0xF) ||| (w &&& 0xF)) := by
  have ha : RegAddr (0x1400 + 4 * u.val) := ⟨by omega, by omega, if_neg (by omega)⟩
  have hr : ∀ u : Fin 20, rowOf (0x1400 + 4 * u.val) = some ⟨0x001400, [(20, 0x4)], 0x0, [⟨3, 0, .rw, false⟩], .plain⟩ := by decide
  rw [m.ctlWrite_gen ho ha (by omega) (hr u) rfl rfl, m.genWrite_eventMap r u hu, m.putFields_taken (hr u) (by decide) rfl]
  rfl

/-- GEN_UNITS and GEN_CAP_PTS let no bit change. -/
theorem Chip.ctlWrite_identity (m : Chip) {r : Req} {a : Nat} {row : RegRow} (ho : m.opens r) (ha : RegAddr a) (h : a < 0x100)
    (hr : rowOf a = some row) (hk : row.kind = .plain) (hs : row.stagedMask = 0) (ht : row.taken = 0) (hc : row.cleared = 0) (w : Word) :
    m.ctlWrite r a w = m := by
  rw [m.ctlWrite_gen ho ha (by omega) hr hk hs, m.genWrite_identity r h, m.putFields_fixed hr ht hc]

/-! ### Staged control words -/

/-- METER_CTL, TXN_CTL and POINT_BG have Staged fields only: a write starts nothing and changes no word. -/
theorem Chip.regWrite_staged (m : Chip) (r : Req) (w : Word) {f : FRef} (hf : f ∈ [R.METER_CTL, R.TXN_CTL, R.POINT_BG]) :
    m.regWrite r f.addr w = m := by
  simp only [List.mem_cons, List.not_mem_nil, or_false] at hf
  rcases hf with rfl | rfl | rfl
  · exact m.putFields_fixed (a := R.METER_CTL.addr) (row := ⟨0x340000, [], 0x80000000, [⟨31, 31, .rw, true⟩], .plain⟩) rfl rfl rfl w
  · exact m.putFields_fixed (a := R.TXN_CTL.addr) (row := ⟨0x180000, [], 0x80000064, [⟨31, 31, .rw, true⟩, ⟨15, 0, .rw, true⟩], .plain⟩) rfl rfl rfl w
  · exact m.putFields_fixed (a := R.POINT_BG.addr) (row := ⟨0x140008, [], 0x410, [⟨12, 8, .rw, true⟩, ⟨4, 0, .rw, true⟩], .plain⟩) rfl rfl rfl w

/-- Their words go to the channel 0 bank. -/
theorem Chip.ctlWrite_staged (m : Chip) {r : Req} {f : FRef} (hf : f ∈ [R.METER_CTL, R.TXN_CTL, R.POINT_BG]) (ho : m.opens r) (w : Word) :
    m.ctlWrite r f.addr w = m.stageReg 0 f.addr w := by
  have hw : ∀ n : Chip, n.regWrite r f.addr w = n := fun n => n.regWrite_staged r w hf
  have hk : RegAddr f.addr ∧ regKind f.addr = .plain ∧ ∃ row, rowOf f.addr = some row ∧ row.stagedMask ≠ 0 := by
    simp only [List.mem_cons, List.not_mem_nil, or_false] at hf
    rcases hf with rfl | rfl | rfl <;> exact ⟨⟨rfl, by decide, rfl⟩, rfl, _, rfl, by decide⟩
  obtain ⟨ha, hk, row, hr, hs⟩ := hk
  rw [m.ctlWrite_plain ho ha hk, m.putReg_staged hr hs hw]

/-! ### Diagnostic counters -/

/-- Zero clears METER_WRAP_CNT and its SAT flag. -/
theorem Chip.counterWrite_zero (m : Chip) : m.counterWrite R.METER_WRAP_CNT.addr (some (0x340004, 26)) 0 =
    (m.setReg R.METER_WRAP_CNT.addr 0).put ⟨0x340004, 26, 26⟩ 0 := rfl

theorem Chip.counterWrite_other (m : Chip) {a : Nat} {sat : Option (Nat × Nat)} {w : Word} (h : w ≠ 0) : m.counterWrite a sat w = m :=
  if_pos h

theorem Chip.present_wrapCnt (m : Chip) (h : m.hasUnit 0xD = true) : m.present R.METER_WRAP_CNT.addr = true :=
  (m.present_unit rfl (by decide) (by decide) (by decide)).trans h

/-! ### The statement -/

/-- A write with all byte enables goes to the control space. -/
theorem exec_registerWrite_full (r : Req) (a : Nat) (v : Word) (s : State) :
    exec (.registerWrite r a v true) s = s.act (·.ctlWrite r a v) :=
  (rfl : _ = execRegisterWrite r a v true s).trans (congrArg s.act (funext fun _ => if_neg (by simp)))

/-- A write of the PCIe port without all byte enables is discarded and counted. -/
theorem exec_registerWrite_pcie (a : Nat) (v : Word) (s : State) :
    exec (.registerWrite .pcie a v false) s =
      s.act (fun m => m.put R.UPL_PCIE_STAT_PARTIAL (min 0xFFFF (m.get R.UPL_PCIE_STAT_PARTIAL + 1))) :=
  (rfl : _ = execRegisterWrite .pcie a v false s).trans (congrArg s.act (funext fun _ => if_pos ⟨rfl, rfl⟩))

theorem turns_registerWrite {r : Req} {a : Nat} {v : Word} {pre : Chip → Prop} {e : Chip → Chip} (h : ∀ m, pre m → m.ctlWrite r a v = e m) :
    Turns (.registerWrite r a v true) pre e :=
  turns_of_act (exec_registerWrite_full r a v) h

theorem turns_diagCounterClear {r : Req} {a : Nat} {v : Word} {pre : Chip → Prop} {e : Chip → Chip} (h : ∀ m, pre m → m.ctlWrite r a v = e m) :
    Turns (.diagCounterClear r a v) pre e :=
  turns_of_act (f := (·.ctlWrite r a v)) (fun _ => rfl) h

theorem turns_dramWrite {r : Req} {off : BitVec 22} {v : Word} {pre : Chip → Prop} {e : Chip → Chip}
    (h : ∀ m, pre m → m.ctlWrite r (dramWin + off.toNat) v = e m) : Turns (.dramWindowAccess r off (some v)) pre e :=
  turns_of_act (f := (·.ctlWrite r (dramWin + off.toNat) v)) (fun _ => rfl) h

/-- Settles O17: each clause is one of the ways that a written word goes. -/
theorem registerWrites : Obligations.RegisterWrites := by
  unfold Obligations.RegisterWrites
  refine ⟨fun r v u => ?eventMap, fun r v f hf => ?staged, fun r v f hf => ?identity, fun r v a => ?shut, fun a v => ?counted,
    fun r v => ?page, fun r off v h4 => ?dram, fun r => ?cleared, fun r v hv => ?kept⟩
  case eventMap => exact turns_registerWrite fun m ⟨ho, hu⟩ => m.ctlWrite_eventMap u ho hu v
  case staged =>
    refine shows_of_act (exec_registerWrite_full r f.addr v) fun m ⟨ho, hlen⟩ => ?_
    rw [m.ctlWrite_staged hf ho]
    exact ⟨by rw [Chip.stageReg, Chip.bank_setBank_same]; exact Bank.reg_stageReg _ _ _ hlen, fun _ _ => rfl,
      fun a hs hb => m.reg_setBank _ hs hb⟩
  case identity =>
    refine turns_registerWrite fun m _ => ?_
    by_cases ho : m.opens r
    · simp only [List.mem_cons, List.not_mem_nil, or_false] at hf
      rcases hf with rfl | rfl | rfl
      · exact m.ctlWrite_identity ho ⟨rfl, by decide, rfl⟩ (by decide) rfl rfl rfl rfl rfl v
      · exact m.ctlWrite_identity ho ⟨rfl, by decide, rfl⟩ (by decide) rfl rfl rfl rfl rfl v
      · exact m.ctlWrite_fixedLow (n := 2) ho ⟨rfl, by decide, rfl⟩ rfl rfl v
    · exact m.ctlWrite_shut (.inr (by simpa [Chip.opens] using ho)) v
  case shut => exact turns_registerWrite fun m h => m.ctlWrite_shut h v
  case counted => exact turns_of_act (exec_registerWrite_pcie a v) fun _ _ => rfl
  case page =>
    refine turns_registerWrite fun m ho => ?_
    rw [m.ctlWrite_gen ho ⟨rfl, by decide, rfl⟩ (by decide) (a := R.GEN_DWIN.addr) rfl rfl rfl, m.genWrite_dwin]
  case dram =>
    refine turns_dramWrite fun m ho => ?_
    have ha : dramWin + off.toNat = 0x3C00000 + off.toNat := rfl
    have hoff := off.isLt
    rw [m.ctlWrite_dram ho (by omega) (by omega) (by omega), Chip.dramAt, Nat.add_sub_cancel_left]
    rfl
  case cleared =>
    refine turns_diagCounterClear fun m ⟨ho, hu⟩ => ?_
    rw [m.ctlWrite_counter (sat := some (0x340004, 26)) ho ⟨rfl, by decide, rfl⟩ rfl, if_pos (m.present_wrapCnt hu), m.counterWrite_zero]
  case kept =>
    refine turns_diagCounterClear fun m _ => ?_
    by_cases ho : m.opens r
    · rw [m.ctlWrite_counter (sat := some (0x340004, 26)) ho ⟨rfl, by decide, rfl⟩ rfl, m.counterWrite_other hv]
      exact ite_self m
    · exact m.ctlWrite_shut (.inr (by simpa [Chip.opens] using ho)) v

end Sys2Proof.Machine
end

section
/-! PROOFS. What the units do beside a commit: the operations by which they see its end, and by which its apply instant reaches the planner, leave the
commit engine's own state alone. -/

namespace Sys2Proof.Machine

open Sys2Proof

/-! ### The commit engine's own state -/

/-- What the commit engine keeps: banks and pending commits, the boot's state, and the registers of block 1. -/
def Chip.commits (m : Chip) : Commit × Boot × (Nat → Word) := (m.com, m.boot, fun i => m.reg (0x40000 + i % 0x40000))

theorem Chip.commits_com {m n : Chip} (h : m.commits = n.commits) : m.com = n.com := congrArg Prod.fst h

theorem Chip.commits_boot {m n : Chip} (h : m.commits = n.commits) : m.boot = n.boot := congrArg (·.2.1) h

theorem Chip.commits_reg {m n : Chip} (h : m.commits = n.commits) {a : Nat} (h0 : 0x40000 ≤ a) (h1 : a < 0x80000) : m.reg a = n.reg a := by
  have e := congrFun (congrArg (·.2.2) h) (a - 0x40000)
  simpa only [Chip.commits, show 0x40000 + (a - 0x40000) % 0x40000 = a by omega] using e

theorem Chip.commits_ext {m n : Chip} (hc : m.com = n.com) (hb : m.boot = n.boot) (hr : ∀ a, 0x40000 ≤ a → a < 0x80000 → m.reg a = n.reg a) :
    m.commits = n.commits := by
  rw [Chip.commits, Chip.commits, hc, hb]
  exact congrArg (n.com, n.boot, ·) (funext fun i => hr _ (by omega) (by omega))

/-! ### Parts, registers, memory and events -/

@[simp] theorem Chip.commits_withClk (m : Chip) (x) : (m.withClk x).commits = m.commits := rfl
@[simp] theorem Chip.commits_withPts (m : Chip) (x) : (m.withPts x).commits = m.commits := rfl
@[simp] theorem Chip.commits_withScan (m : Chip) (x) : (m.withScan x).commits = m.commits := rfl
@[simp] theorem Chip.commits_withTxn (m : Chip) (x) : (m.withTxn x).commits = m.commits := rfl
@[simp] theorem Chip.commits_withRidge (m : Chip) (x) : (m.withRidge x).commits = m.commits := rfl
@[simp] theorem Chip.commits_withLamp (m : Chip) (x) : (m.withLamp x).commits = m.commits := rfl
@[simp] theorem Chip.commits_withPlan (m : Chip) (x) : (m.withPlan x).commits = m.commits := rfl
@[simp] theorem Chip.commits_withOut (m : Chip) (x) : (m.withOut x).commits = m.commits := rfl

@[simp] theorem Chip.commits_setReg (m : Chip) {a : Nat} (h : 0x80000 ≤ a) (w : Word) : (m.setReg a w).commits = m.commits :=
  Chip.commits_ext rfl rfl fun _ _ h1 => Chip.reg_setReg_other _ (by omega) _

@[simp] theorem Chip.commits_put (m : Chip) {f : FRef} (h : 0x80000 ≤ f.addr) (v : Nat) : (m.put f v).commits = m.commits :=
  m.commits_setReg h _

@[simp] theorem Chip.commits_put64 (m : Chip) {f : FRef} (h : 0x80000 ≤ f.addr) (v : DWord) : (m.put64 f v).commits = m.commits :=
  (Chip.commits_setReg _ (by omega) _).trans (m.commits_setReg h _)

@[simp] theorem Chip.commits_count (m : Chip) {c f : FRef} (hc : 0x80000 ≤ c.addr) (hf : 0x80000 ≤ f.addr) :
    (m.count c (some f)).commits = m.commits :=
  Chip.commits_ext (m.count_com c _) (m.count_boot c _) fun _ _ h1 => m.reg_count_other (by omega) fun g hg => by
    obtain rfl := Option.some.inj hg; omega

@[simp] theorem Chip.commits_post (m : Chip) (e : Event) : (m.post e).commits = m.commits :=
  Chip.commits_ext (m.post_com e) (m.post_boot e) fun _ h0 _ => m.reg_post e (by simp [evrAddr]; omega)

@[simp] theorem Chip.commits_postAt (m : Chip) (t : DWord) (e : Event) : (m.postAt t e).commits = m.commits :=
  Chip.commits_ext (m.postAt_com t e) (m.postAt_boot t e) fun _ h0 _ => m.reg_postAt t e (by simp [evrAddr]; omega)

@[simp] theorem Chip.commits_fresh (m : Chip) : m.fresh.2.commits = m.commits := rfl

@[simp] theorem Chip.commits_emit (m : Chip) (o : Out) : (m.emit o).commits = m.commits := rfl

@[simp] theorem Chip.commits_stream (m : Chip) (name : String) (body : List Nat) : (m.stream name body).commits = m.commits := by
  simp [Chip.stream, apply_ite Chip.commits]

/-- An operation that leaves the commit engine alone for each entry of a list does so for the list. -/
theorem Chip.commits_foldl {α : Type} {f : Chip → α → Chip} (h : ∀ m x, (f m x).commits = m.commits) (l : List α) (m : Chip) :
    (l.foldl f m).commits = m.commits := by
  induction l generalizing m with
  | nil => rfl
  | cons x t ih => exact (ih _).trans (h m x)

/-! ### The transaction engine -/

@[simp] theorem Chip.commits_setSta (m : Chip) (n : Nat) (s : Station) : (m.setSta n s).commits = m.commits := rfl

@[simp] theorem Chip.commits_setTxs (m : Chip) (l : List Tx) : (m.setTxs l).commits = m.commits := by
  simp [Chip.setTxs, Chip.txnUsed, R.TXN_STAT_USED]

@[simp] theorem Chip.commits_txnCount (m : Chip) (i : Nat) : (m.txnCount i).commits = m.commits :=
  m.commits_count (Nat.le_add_right_of_le (by decide)) (Nat.le_of_ble_eq_true rfl)

@[simp] theorem Chip.commits_sendFrame (m : Chip) (f : MFrame) : (m.sendFrame f).commits = m.commits := by
  simp [Chip.sendFrame, apply_ite Chip.commits]

@[simp] theorem Chip.commits_sendPlain (m : Chip) (n type cls : Nat) (payload : List Byte) : (m.sendPlain n type cls payload).commits = m.commits := by
  simp [Chip.sendPlain, Chip.nextSeq]

@[simp] theorem Chip.commits_holdOut (m : Chip) (t : Tx) : (m.holdOut t).commits = m.commits := by
  unfold Chip.holdOut
  dsimp only
  split <;> simp

@[simp] theorem Chip.commits_accDone (m : Chip) (p : Nat) (code : Half) : (m.accDone p code).commits = m.commits :=
  have h : 0x80000 ≤ 0x14100C + 0x100 * p := Nat.le_add_right_of_le (by decide)
  (Chip.commits_put _ h _).trans (m.commits_put h _)

@[simp] theorem Chip.commits_txReport (m : Chip) (t : Tx) (code : Half) : (m.txReport t code).commits = m.commits := by
  unfold Chip.txReport
  split
  · simp [apply_ite Chip.commits]
  · split <;> simp [R.TXN_Q_RES_DONE, R.TXN_Q_RES_CODE]

@[simp] theorem Chip.commits_txAccept (m : Chip) (t : Tx) : (m.txAccept t).commits = m.commits := by
  simp [Chip.txAccept, apply_ite Chip.commits]

/-! ### The point store -/

@[simp] theorem Chip.commits_store (m : Chip) (i : Nat) (r : PointRec) : (m.store i r).commits = m.commits := by
  simp [Chip.store, Chip.setRec]

@[simp] theorem Chip.commits_setForces (m : Chip) (l : List (Nat × Force)) : (m.setForces l).commits = m.commits := by
  simp [Chip.setForces, R.POINT_FORCE_USED_USED]

@[simp] theorem Chip.commits_dropForce (m : Chip) (i : Nat) : (m.dropForce i).commits = m.commits := m.commits_setForces _

@[simp] theorem Chip.commits_dropOverlay (m : Chip) (i : Nat) : (m.dropOverlay i).commits = m.commits := rfl

@[simp] theorem Chip.commits_ptCount (m : Chip) (i : Nat) : (m.ptCount i).commits = m.commits :=
  m.commits_count (Nat.le_add_right_of_le (by decide)) (Nat.le_of_ble_eq_true rfl)

@[simp] theorem Chip.commits_postWhen (m : Chip) (t : Option DWord) (e : Event) : (m.postWhen t e).commits = m.commits := by
  cases t <;> simp [Chip.postWhen]

@[simp] theorem Chip.commits_offerSubs (m : Chip) (tag : BitVec 40) (image : List Byte) : (m.offerSubs tag image).commits = m.commits :=
  Chip.commits_foldl (fun _ _ => by simp [apply_ite Chip.commits]) _ _

@[simp] theorem Chip.commits_settle (m : Chip) (i : Nat) (d : Desc) (old new : PointRec) (t : Option DWord) :
    (m.settle i d old new t).commits = m.commits := by
  simp [Chip.settle, apply_ite Chip.commits]

@[simp] theorem Chip.commits_pairMark (m : Chip) (i : Nat) (d : Desc) (r : PointRec) (reject : Bool) :
    (m.pairMark i d r reject).commits = m.commits := m.commits_settle _ _ _ _ _

@[simp] theorem Chip.commits_pairEvent (m : Chip) (i : Nat) (v c : DWord) (incoming : Nat) : (m.pairEvent i v c incoming).commits = m.commits := by
  simp [Chip.pairEvent]

@[simp] theorem Chip.commits_touch (m : Chip) (i : Nat) : (m.touch i).commits = m.commits := by
  simp [Chip.touch, apply_ite Chip.commits]

@[simp] theorem Chip.commits_fold (m : Chip) (i : Nat) : (m.fold i).commits = m.commits := by
  unfold Chip.fold
  split <;> simp [apply_ite Chip.commits]

@[simp] theorem Chip.commits_refuseWrite (m : Chip) (i : Nat) (r : PointRec) : (m.refuseWrite i r).commits = m.commits := by
  simp [Chip.refuseWrite]

@[simp] theorem Chip.commits_holdWrite (m : Chip) (i : Nat) (r : PointRec) (f : Force) (w : PtWrite) (v c : DWord) :
    (m.holdWrite i r f w v c).commits = m.commits := by
  simp [Chip.holdWrite]

@[simp] theorem Chip.commits_rangeFault (m : Chip) (port : Port) (tag : BitVec 40) : (m.rangeFault port tag).commits = m.commits := by
  simp [Chip.rangeFault]

@[simp] theorem Chip.commits_routeOut (m : Chip) (i : Nat) (w : PtWrite) : (m.routeOut i w).commits = m.commits := by
  simp [Chip.routeOut, Chip.singleOut, apply_ite Chip.commits]

@[simp] theorem Chip.commits_writeLocal (m : Chip) (i : Nat) (w : PtWrite) : (m.writeLocal i w).2.commits = m.commits := by
  unfold Chip.writeLocal
  dsimp only
  split
  · simp
  · split <;> simp [apply_ite Chip.commits]

@[simp] theorem Chip.commits_unitWrite (m : Chip) (tag : BitVec 40) (v second : DWord) (q : Half) :
    (m.unitWrite tag v second q).commits = m.commits := by
  unfold Chip.unitWrite Chip.ptWrite
  split
  · rfl
  · split <;> simp

/-! ### Power jobs -/

@[simp] theorem Chip.commits_endJob (m : Chip) (p : Job → Bool) (measured : Option Nat) : (m.endJob p measured).commits = m.commits := by
  have hs : ∀ cost, ((m.setJobs (m.ridge.jobs.erase cost)).settleJob cost.cost measured).commits = m.commits := fun _ => by
    cases measured <;> simp [Chip.settleJob, Chip.setLevel, Chip.setJobs, R.RIDGE_LEVEL, R.RIDGE_STAT_BORROWED]
  unfold Chip.endJob
  split
  · rfl
  · dsimp only
    split
    · rw [Chip.commits_put _ (by decide), Chip.commits_foldl (f := Chip.markIdle) (fun _ _ => rfl), hs]
    · split
      · exact hs _
      · exact hs _

/-! ### The planner and the lamp engine -/

@[simp] theorem Chip.commits_planSettle (m : Chip) (r : Round) (solvedEnd : Bool) : (m.planSettle r solvedEnd).2.commits = m.commits := by
  simp [Chip.planSettle, apply_ite Chip.commits, Chip.setPlan]

@[simp] theorem Chip.commits_planDiag (m : Chip) (r : Round) (col : Option Nat) : (m.planDiag r col).commits = m.commits := by
  unfold Chip.planDiag
  dsimp only
  split
  · rfl
  · exact Chip.commits_foldl (fun _ _ => by simp) _ _

@[simp] theorem Chip.commits_roundEnd (m : Chip) (r : Round) (code : Half) (e : PEnd) (cause : Nat) (col : Option Nat) (adopted : Bool) :
    (m.roundEnd r code e cause col adopted).commits = m.commits := by
  refine (Chip.commits_post _ _).trans <| (Chip.commits_planDiag _ _ _).trans <| (Chip.commits_setReg _ (by decide) _).trans <|
    (Chip.commits_withPlan _ _).trans <| (Chip.commits_setReg _ (by decide) _).trans ?_
  iterate 5 refine (Chip.commits_put _ (by decide) _).trans ?_
  iterate 5 refine (Chip.commits_put64 _ (by decide) _).trans ?_
  iterate 3 refine (Chip.commits_setReg _ (by decide) _).trans ?_
  cases instDecidableEqBool (m.ridge.jobs.any fun j => j.cls == 0) true with
  | isTrue _ => exact m.commits_planSettle _ _
  | isFalse _ => rfl

@[simp] theorem Chip.commits_planApplied (m : Chip) : m.planApplied.commits = m.commits := by
  unfold Chip.planApplied
  split
  · rfl
  · split <;> simp [Chip.setPlan]

@[simp] theorem Chip.commits_planWatch (m : Chip) : m.planWatch.commits = m.commits := by
  unfold Chip.planWatch
  split
  · simp [apply_ite Chip.commits, Chip.notAdopted]
  · rfl

@[simp] theorem Chip.commits_lampCancelled (m : Chip) : m.lampCancelled.commits = m.commits := by
  unfold Chip.lampCancelled
  split
  · rfl
  · exact Chip.commits_foldl (fun _ _ => by simp [Chip.frameEnded, apply_ite Chip.commits]) _ _

/-! ### The commit engine's helpers in other units -/

@[simp] theorem Chip.commits_commitWatch (m : Chip) : m.commitWatch.commits = m.commits := by simp [Chip.commitWatch]

@[simp] theorem Chip.commits_checkStop (m : Chip) (k : Nat) : (m.checkStop k).commits = m.commits := by
  simp [Chip.checkStop, Chip.setCore]

@[simp] theorem Chip.commits_swapRefused (m : Chip) (x : Option (Nat × Nat × Half)) : (m.swapRefused x).commits = m.commits := by
  match x with
  | none => rfl
  | some (t, reason, code) =>
    have h : 0x80000 ≤ 0x105000 + 0x10 * t := Nat.le_add_right_of_le (by decide)
    exact (Chip.commits_put (f := R.SCAN_SW_STAT_CODE t) _ h _).trans (m.commits_put (f := R.SCAN_SW_STAT_REASON t) h _)

end Sys2Proof.Machine
end

section
/-! PROOFS. How a commit ends: what its end leaves in COMMIT_RES, COMMIT_STAT and among the pending commits. -/

namespace Sys2Proof.Machine

open Sys2Proof

/-! ### Readings of the commit engine's own state -/

section
variable {m n : Chip} (h : m.commits = n.commits)
include h

theorem Chip.commits_pend (k : Nat) : m.pend k = n.pend k := by rw [Chip.pend, Chip.pend, Chip.commits_com h]

theorem Chip.commits_get {f : FRef} (h0 : 0x40000 ≤ f.addr) (h1 : f.addr < 0x80000) : m.get f = n.get f := by
  rw [Chip.get, Chip.get, Chip.commits_reg h h0 h1]

theorem Chip.commits_get64 {f : FRef} (h0 : 0x40000 ≤ f.addr) (h1 : f.addr + 4 < 0x80000) : m.get64 f = n.get64 f := by
  rw [Chip.get64, Chip.get64, Chip.commits_reg h h0 (by omega), Chip.commits_reg h (by omega) h1]

theorem Chip.commits_phase {k : Nat} (hk : k < 4) : m.phase k = n.phase k :=
  Chip.commits_get h (f := R.COMMIT_STAT_PHASE k) (Nat.le_add_right_of_le (by decide)) (show 0x040014 + 0x100 * k < _ by omega)

end

/-- A key that was removed is not found. -/
@[simp] theorem assoc_unassoc_same {α : Type} (l : List (Nat × α)) (i : Nat) : assoc (unassoc l i) i = none := by
  simp [assoc, unassoc]

@[simp] theorem Chip.pend_setPend (m : Chip) (k : Nat) (p : PendCommit) : (m.setPend k p).pend k = some p := assoc_reassoc_same _ _ _

theorem Chip.phase_setPhase (m : Chip) (k : Nat) {p : Nat} (hp : p < 16) : (m.setPhase k p).phase k = p :=
  (m.get_put_same (f := R.COMMIT_STAT_PHASE k) (show 27 ≤ 30 by decide) (show 30 < 32 by decide) p).trans (Nat.mod_eq_of_lt hp)

/-- A 64-bit value reads what was set. -/
@[simp] theorem Chip.get64_put64 (m : Chip) (f : FRef) (v : DWord) : (m.put64 f v).get64 f = v := by
  rw [Chip.get64, Chip.put64, Chip.reg_setReg_same, Chip.reg_setReg_other _ (by omega), Chip.reg_setReg_same]
  exact BitVec.extractLsb'_append_extractLsb'

theorem Chip.reg_put64_other (m : Chip) {f : FRef} {a : Nat} (h0 : a ≠ f.addr) (h1 : a ≠ f.addr + 4) (v : DWord) :
    (m.put64 f v).reg a = m.reg a :=
  (Chip.reg_setReg_other _ h1 _).trans (m.reg_setReg_other h0 _)

/-! ### The word of COMMIT_RES -/

/-- The number that COMMIT_RES takes for a result. -/
def resNat (v : Verdict) (aborted trap rej : Bool) : Nat :=
  2 ^ 31 + bit aborted * 2 ^ 30 + bit trap * 2 ^ 29 + bit rej * 2 ^ 28 + v.rule * 2 ^ 24 + v.unit * 2 ^ 16 + v.code.toNat

/-- The fields of COMMIT_RES in a word: what a verdict's result shows. -/
structure ResFields (w : Word) (v : Verdict) (trap rej : Bool) : Prop where
  done : bits w.toNat 31 31 = 1
  trap : bits w.toNat 29 29 = bit trap
  rej : bits w.toNat 28 28 = bit rej
  rule : bits w.toNat 27 24 = v.rule
  unit : bits w.toNat 23 16 = v.unit
  code : bits w.toNat 15 0 = v.code.toNat

theorem bit_le (b : Bool) : bit b ≤ 1 := by cases b <;> decide

theorem resFields_resNat {v : Verdict} (hr : v.rule < 16) (hu : v.unit < 256) (aborted trap rej : Bool) :
    ResFields (BitVec.ofNat 32 (resNat v aborted trap rej)) v trap rej := by
  have ha := bit_le aborted
  have ht := bit_le trap
  have hj := bit_le rej
  have hc := v.code.isLt
  constructor <;> (simp only [bits, resNat, BitVec.toNat_ofNat]; omega)

/-! ### The end of a commit -/

/-- The commit of channel k has ended with a verdict: it is pending no more, and COMMIT_RES, its object and COMMIT_STAT say so. -/
structure Chip.Ended (t : Chip) (k : Nat) (v : Verdict) (trap rej : Bool) : Prop where
  pend : t.pend k = none
  res : ResFields (t.reg (R.COMMIT_RES k).addr) v trap rej
  object : t.get64 (R.COMMIT_RES_OBJ_LO k) = v.object
  pending : t.get (R.COMMIT_STAT_PENDING k) = 0
  phase : t.get (R.COMMIT_STAT_PHASE k) = 0

theorem Chip.Ended.of_commits {t n : Chip} {k : Nat} (hk : k < 4) {v : Verdict} {trap rej : Bool} (h : t.commits = n.commits)
    (e : n.Ended k v trap rej) : t.Ended k v trap rej where
  pend := (Chip.commits_pend h k).trans e.pend
  res := (Chip.commits_reg h (show 0x40000 ≤ 0x04001C + 0x100 * k by omega) (show 0x04001C + 0x100 * k < _ by omega)) ▸ e.res
  object := (Chip.commits_get64 h (show 0x40000 ≤ 0x040020 + 0x100 * k by omega) (show 0x040020 + 0x100 * k + 4 < _ by omega)).trans e.object
  pending := (Chip.commits_get h (show 0x40000 ≤ 0x040014 + 0x100 * k by omega) (show 0x040014 + 0x100 * k < _ by omega)).trans e.pending
  phase := (Chip.commits_phase h hk).trans e.phase

/-- A channel's commit taken from the pending ones, with COMMIT_STAT cleared. -/
def Chip.released (m : Chip) (k : Nat) : Chip :=
  ((m.withCom { m.com with pend := unassoc m.com.pend k }).setPhase k 0).put (R.COMMIT_STAT_PENDING k) 0

theorem Chip.commits_finish (m : Chip) (k : Nat) (v : Verdict) (aborted trap rej : Bool) :
    (m.finish k v aborted trap rej).commits = ((m.released k).result k v aborted trap rej).commits := by
  unfold Chip.finish
  split
  · exact (Chip.commits_put _ (by decide) _).trans (Chip.commits_put _ (by decide) _)
  · rfl

theorem Chip.ended_result (m : Chip) (k : Nat) {v : Verdict} (hr : v.rule < 16) (hu : v.unit < 256) (aborted trap rej : Bool) :
    ((m.released k).result k v aborted trap rej).Ended k v trap rej := by
  have hs : ∀ a, a = 0x040014 + 0x100 * k → ((m.released k).result k v aborted trap rej).reg a = (m.released k).reg a := fun a ha =>
    (Chip.reg_put64_other _ (f := R.COMMIT_RES_OBJ_LO k) (show a ≠ 0x040020 + 0x100 * k by omega) (show a ≠ 0x040020 + 0x100 * k + 4 by omega) _).trans
      (Chip.reg_setReg_other _ (show a ≠ 0x04001C + 0x100 * k by omega) _)
  have hg : ∀ f : FRef, f.addr = 0x040014 + 0x100 * k → ((m.released k).result k v aborted trap rej).get f = (m.released k).get f :=
    fun f hf => by rw [Chip.get, Chip.get, hs _ hf]
  refine ⟨assoc_unassoc_same _ _, ?_, Chip.get64_put64 _ _ _, ?_, ?_⟩
  · have h : ((m.released k).result k v aborted trap rej).reg (R.COMMIT_RES k).addr = BitVec.ofNat 32 (resNat v aborted trap rej) :=
      (Chip.reg_put64_other _ (f := R.COMMIT_RES_OBJ_LO k) (show 0x04001C + 0x100 * k ≠ 0x040020 + 0x100 * k by omega)
        (show 0x04001C + 0x100 * k ≠ 0x040020 + 0x100 * k + 4 by omega) _).trans (Chip.reg_setReg_same _ _ _)
    exact h ▸ resFields_resNat hr hu aborted trap rej
  · exact (hg _ rfl).trans (Chip.get_put_same _ (f := R.COMMIT_STAT_PENDING k) (Nat.le_refl 31) (show 31 < 32 by decide) 0)
  · exact (hg _ rfl).trans ((Chip.get_put_apart _ (f := R.COMMIT_STAT_PENDING k) (g := R.COMMIT_STAT_PHASE k) rfl (Nat.le_refl 31)
      (show 30 < 32 by decide) (.inl (show 30 < 31 by decide)) 0).trans (Chip.phase_setPhase _ k (Nat.zero_lt_succ 15)))

theorem Chip.ended_finish (m : Chip) {k : Nat} (hk : k < 4) {v : Verdict} (hr : v.rule < 16) (hu : v.unit < 256) (aborted trap rej : Bool) :
    (m.finish k v aborted trap rej).Ended k v trap rej :=
  .of_commits hk (m.commits_finish k v aborted trap rej) (m.ended_result k hr hu aborted trap rej)

@[simp] theorem Chip.boot_finish (m : Chip) (k : Nat) (v : Verdict) (aborted trap rej : Bool) : (m.finish k v aborted trap rej).boot = m.boot :=
  (Chip.commits_boot (m.commits_finish k v aborted trap rej)).trans rfl

/-- The end of a commit touches no register but COMMIT_STAT, COMMIT_RES, its object and, for channel 3, LOOP_SWAP_RES. -/
theorem Chip.reg_finish (m : Chip) (k : Nat) (v : Verdict) (aborted trap rej : Bool) {a : Nat} (hs : a ≠ (R.COMMIT_STAT k).addr)
    (hr : a ≠ (R.COMMIT_RES k).addr) (h0 : a ≠ (R.COMMIT_RES_OBJ_LO k).addr) (h1 : a ≠ (R.COMMIT_RES_OBJ_LO k).addr + 4)
    (hl : a ≠ R.LOOP_SWAP_RES.addr) : (m.finish k v aborted trap rej).reg a = m.reg a := by
  have h : ((m.released k).result k v aborted trap rej).reg a = m.reg a :=
    (Chip.reg_put64_other _ h0 h1 _).trans <| (Chip.reg_setReg_other _ hr _).trans <|
      (Chip.reg_put_other _ (f := R.COMMIT_STAT_PENDING k) hs _).trans (Chip.reg_put_other _ (f := R.COMMIT_STAT_PHASE k) hs _)
  unfold Chip.finish
  split
  · exact (Chip.reg_put_other _ (f := R.LOOP_SWAP_RES_CODE) hl _).trans ((Chip.reg_put_other _ (f := R.LOOP_SWAP_RES_DONE) hl _).trans h)
  · exact h

end Sys2Proof.Machine
end

section
/-! PROOFS. The phases of a commit (O31): what the engine does at the end of its rules, its check program, its preparation and its wait, and the apply of
a set of channel 1. -/

namespace Sys2Proof.Machine

open Sys2Proof

/-! ### One equation per case of the engine's steps -/

theorem Chip.bootStep_calm {m : Chip} (h : m.boot.running = false) : m.bootStep = m := if_pos (.inl (by simp [h]))

theorem Chip.commitRules_unawaited {m : Chip} {k : Nat} {p : PendCommit} (hp : m.pend k = some p) (h1 : m.phase k = 1)
    (ha : p.awaitTwin = false) : m.commitRules k = ((m.swapRefused p.swap).rulesDone k).commitWatch := by
  simp [Chip.commitRules, hp, h1, ha]

theorem Chip.rulesDone_failed {m : Chip} {k : Nat} {p : PendCommit} {v : Verdict} (hp : m.pend k = some p) (h1 : m.phase k = 1)
    (ha : p.awaitTwin = false) (hv : p.verdict = some v) : m.rulesDone k = m.finish k v false false false := by
  simp [Chip.rulesDone, hp, h1, ha, hv]

theorem Chip.rulesDone_unchecked {m : Chip} {k : Nat} {p : PendCommit} (hp : m.pend k = some p) (h1 : m.phase k = 1)
    (ha : p.awaitTwin = false) (hv : p.verdict = none) (he : p.entry = 0) : m.rulesDone k = m.rulesPassed k := by
  simp [Chip.rulesDone, hp, h1, ha, hv, he]

theorem Chip.rulesDone_unloaded {m : Chip} {k : Nat} {p : PendCommit} (hp : m.pend k = some p) (h1 : m.phase k = 1)
    (ha : p.awaitTwin = false) (hv : p.verdict = none) (he : p.entry ≠ 0) (hi : m.imageAt p.entry = none) :
    m.rulesDone k = m.finish k ⟨CC.checkFailed, 11, 1, BitVec.ofNat 64 p.entry⟩ false false false := by
  simp [Chip.rulesDone, hp, h1, ha, hv, he, hi]

theorem Chip.checkLimit_passed {m : Chip} {k : Nat} {p : PendCommit} (hp : m.pend k = some p) (h2 : m.phase k = 2)
    (hl : p.checkAt + p.limit * 1000000 ≤ m.now) :
    m.checkLimit k = (m.checkStop k).finish k ⟨CC.checkFailed, 11, 1, 0⟩ false true false := by
  simp [Chip.checkLimit, Chip.checkTrapped, hp, h2, hl]

theorem Chip.prepDone_late {m : Chip} {k : Nat} {p : PendCommit} (hp : m.pend k = some p) (h3 : m.phase k = 3) (hpts : p.set.points = [])
    (ho : m.pts.overlay.length ≤ 2097152) (hat : p.mode = 2 ∧ p.instant.toNat * 2 ^ 32 < m.clk.league) :
    m.prepDone k = m.finish k ⟨CC.deadline, 12, 1, 0⟩ false false false := by
  simp only [Chip.prepDone, hp, h3]
  rw [if_neg (by simp), if_neg (by simpa [Chip.overlayNeed, hpts] using ho), if_pos hat]

theorem Chip.prepDone_waits {m : Chip} {k : Nat} {p : PendCommit} (hp : m.pend k = some p) (h3 : m.phase k = 3) (hpts : p.set.points = [])
    (ho : m.pts.overlay.length ≤ 2097152) (hm : p.mode ≠ 2) :
    m.prepDone k = (m.setPend k { p with waitFrom := m.monoNs, taskEnded := false }).setPhase k 4 := by
  simp only [Chip.prepDone, hp, h3]
  rw [if_neg (by simp), if_neg (by simpa [Chip.overlayNeed, hpts] using ho), if_neg fun h => hm h.1]

theorem Chip.taskTimeout_passed {m : Chip} {k : Nat} {p : PendCommit} (hp : m.pend k = some p) (h4 : m.phase k = 4) (hm : p.mode = 1)
    (ht : p.waitFrom + 2 * (m.taskEnt p.task).period * 1000 + 1000000000 ≤ m.monoNs) :
    m.taskTimeout k = m.finish k ⟨CC.timeout, 0, 0, 0⟩ false false false := by
  have h : p.waitFrom + 2000 * (m.taskEnt p.task).period + 1000000000 ≤ m.monoNs := by omega
  simp [Chip.taskTimeout, hp, h4, hm, h]

theorem Chip.commitApply_none {m : Chip} {k : Nat} (hp : m.pend k = none) (hr : m.replica k = none) : m.commitApply k = m := by
  simp [Chip.commitApply, hp, hr]

/-- A commit that is due applies its set in phase 5; where it is still pending then, the apply is reported. -/
theorem Chip.commitApply_due {m n : Chip} {k : Nat} {p : PendCommit} {rej : Bool} (hp : m.pend k = some p) (hd : m.applyDue k = true)
    (hs : (m.setPhase k 5).applySet k p.set = (rej, n)) (hn : (n.pend k).isSome = true) :
    m.commitApply k = n.applied k rej m.stamp := by
  simp [Chip.commitApply, hp, hd, hs, hn]

/-! ### What the steps leave of the commit -/

theorem Chip.imageAt_swapRefused (m : Chip) (x : Option (Nat × Nat × Half)) (p : Nat) : (m.swapRefused x).imageAt p = m.imageAt p := by
  cases x <;> rfl

/-- A commit that has passed its rules is in preparation; the twin's copy of its set leaves the engine alone. -/
theorem Chip.rulesPassed_eq {m : Chip} {k : Nat} {p : PendCommit} (hp : m.pend k = some p) :
    ∃ n : Chip, n.commits = m.commits ∧ m.rulesPassed k = n.setPhase k 3 := by
  refine ⟨if p.forwarded then m else m.sendSet k p false, ?_, by simp [Chip.rulesPassed, hp]⟩
  split
  · rfl
  · exact m.commits_stream _ _

/-- A commit that ends outside the boot: the units that see its end and the boot's next step leave what it shows. -/
theorem Chip.ended_watched {n : Chip} (hb : n.boot.running = false) {k : Nat} (hk : k < 4) {v : Verdict} (hr : v.rule < 16)
    (hu : v.unit < 256) (aborted trap rej : Bool) : (n.finish k v aborted trap rej).commitWatch.bootStep.Ended k v trap rej := by
  have hc := (n.finish k v aborted trap rej).commits_commitWatch
  rw [Chip.bootStep_calm (by rw [Chip.commits_boot hc, Chip.boot_finish]; exact hb)]
  exact (n.ended_finish hk hr hu aborted trap rej).of_commits hk hc

/-- A step of a commit that goes on outside the boot: its pending commit and its phase stay through what the other units and the boot do. -/
theorem Chip.phase_watched {n : Chip} (hb : n.boot.running = false) {k : Nat} (hk : k < 4) {q : Nat} (hq : q < 16) :
    (n.setPhase k q).commitWatch.bootStep.pend k = n.pend k ∧ (n.setPhase k q).commitWatch.bootStep.get (R.COMMIT_STAT_PHASE k) = q := by
  have hc := (n.setPhase k q).commits_commitWatch
  rw [Chip.bootStep_calm (by rw [Chip.commits_boot hc]; exact hb)]
  exact ⟨Chip.commits_pend hc k, (Chip.commits_phase hc hk).trans (n.phase_setPhase k hq)⟩

/-- What the registers say of an ended commit, field by field. -/
theorem Chip.Ended.report {t : Chip} {k : Nat} {v : Verdict} {trap rej : Bool} (e : t.Ended k v trap rej) :
    t.pend k = none ∧ t.get (R.COMMIT_RES_DONE k) = 1 ∧ t.get (R.COMMIT_RES_CODE k) = v.code.toNat ∧ t.get (R.COMMIT_RES_RULE k) = v.rule ∧
      t.get (R.COMMIT_STAT_PENDING k) = 0 ∧ t.get (R.COMMIT_STAT_PHASE k) = 0 :=
  ⟨e.pend, e.res.done, e.res.code, e.res.rule, e.pending, e.phase⟩

/-! ### The report of an apply -/

theorem Chip.reg_stream (m : Chip) (name : String) (body : List Nat) (a : Nat) : (m.stream name body).reg a = m.reg a := by
  unfold Chip.stream
  split <;> rfl

/-- The chip with the instant and the number of an apply noted, before its commit ends. -/
def Chip.noted (m : Chip) (k : Nat) (instant : DWord) : Chip :=
  (m.put64 (R.COMMIT_APPLIED_LO k) instant).put (R.COMMIT_GEN k) (m.get (R.COMMIT_GEN k) + 1)

theorem Chip.ended_applied (m : Chip) {k : Nat} (hk : k < 4) (rej : Bool) (instant : DWord) :
    (m.applied k rej instant).Ended k verdictOk false rej :=
  ((m.noted k instant).ended_finish hk (by decide) (by decide) false false rej).of_commits hk (Chip.commits_stream _ _ _)

theorem Chip.boot_applied (m : Chip) (k : Nat) (rej : Bool) (instant : DWord) : (m.applied k rej instant).boot = m.boot :=
  (Chip.commits_boot (Chip.commits_stream _ _ _)).trans ((m.noted k instant).boot_finish k verdictOk false false rej)

/-- APPLIED and GEN keep through the commit's end what the apply notes in them. -/
theorem Chip.reg_applied_noted (m : Chip) {k : Nat} (rej : Bool) (instant : DWord) {a : Nat} (h0 : 0x040028 + 0x100 * k ≤ a)
    (h1 : a ≤ 0x040030 + 0x100 * k) : (m.applied k rej instant).reg a = (m.noted k instant).reg a :=
  (Chip.reg_stream _ _ _ _).trans <| Chip.reg_finish _ _ _ _ _ _ (show a ≠ 0x040014 + 0x100 * k by omega)
    (show a ≠ 0x04001C + 0x100 * k by omega) (show a ≠ 0x040020 + 0x100 * k by omega) (show a ≠ 0x040020 + 0x100 * k + 4 by omega)
    (show a ≠ 0x30014C by omega)

theorem Chip.get64_applied (m : Chip) (k : Nat) (rej : Bool) (instant : DWord) :
    (m.applied k rej instant).get64 (R.COMMIT_APPLIED_LO k) = instant := by
  have h : ∀ a, a = 0x040028 + 0x100 * k ∨ a = 0x040028 + 0x100 * k + 4 →
      (m.applied k rej instant).reg a = (m.put64 (R.COMMIT_APPLIED_LO k) instant).reg a := fun a ha =>
    (m.reg_applied_noted rej instant (by omega) (by omega)).trans
      (Chip.reg_put_other _ (f := R.COMMIT_GEN k) (show a ≠ 0x040030 + 0x100 * k by omega) _)
  rw [Chip.get64, h _ (.inl rfl : (R.COMMIT_APPLIED_LO k).addr = _ ∨ _), h _ (.inr rfl : (R.COMMIT_APPLIED_LO k).addr + 4 = _ ∨ _)]
  exact m.get64_put64 _ _

theorem Chip.get_gen_applied (m : Chip) (k : Nat) (rej : Bool) (instant : DWord) :
    (m.applied k rej instant).get (R.COMMIT_GEN k) = (m.get (R.COMMIT_GEN k) + 1) % 2 ^ 32 := by
  have h := m.reg_applied_noted rej instant (a := (R.COMMIT_GEN k).addr) (show 0x040028 + 0x100 * k ≤ 0x040030 + 0x100 * k by omega) (Nat.le_refl _)
  rw [Chip.get, h]
  exact Chip.get_put_same _ (f := R.COMMIT_GEN k) (Nat.zero_le _) (show 31 < 32 by decide) _

/-- A register above the engine's block keeps its word through the report of an apply, LOOP_SWAP_RES apart. -/
theorem Chip.reg_applied_above (m : Chip) {k : Nat} (hk : k < 4) (rej : Bool) (instant : DWord) {a : Nat} (h : 0x80000 ≤ a)
    (hl : a ≠ R.LOOP_SWAP_RES.addr) : (m.applied k rej instant).reg a = m.reg a :=
  (Chip.reg_stream _ _ _ _).trans <| (Chip.reg_finish _ _ _ _ _ _ (show a ≠ 0x040014 + 0x100 * k by omega)
    (show a ≠ 0x04001C + 0x100 * k by omega) (show a ≠ 0x040020 + 0x100 * k by omega) (show a ≠ 0x040020 + 0x100 * k + 4 by omega) hl).trans <|
    (Chip.reg_put_other _ (f := R.COMMIT_GEN k) (show a ≠ 0x040030 + 0x100 * k by omega) _).trans <|
      Chip.reg_put64_other _ (f := R.COMMIT_APPLIED_LO k) (show a ≠ 0x040028 + 0x100 * k by omega) (show a ≠ 0x040028 + 0x100 * k + 4 by omega) _

/-- A due set of a channel, applied outside the boot: what the report shows, where the units leave the engine as they find it. -/
theorem Chip.commitApply_shows {m n : Chip} {k : Nat} (hk : k < 4) {p : PendCommit} {rej : Bool} (hb : m.boot.running = false)
    (hp : m.pend k = some p) (hd : m.applyDue k = true) (hs : (m.setPhase k 5).applySet k p.set = (rej, n))
    (hc : n.commits = (m.setPhase k 5).commits) :
    (m.commitApply k).bootStep = n.applied k rej m.stamp ∧ n.get (R.COMMIT_GEN k) = m.get (R.COMMIT_GEN k) := by
  have hpend : n.pend k = some p := (Chip.commits_pend hc k).trans hp
  have hgen : n.get (R.COMMIT_GEN k) = (m.setPhase k 5).get (R.COMMIT_GEN k) :=
    Chip.commits_get hc (show 0x40000 ≤ 0x040030 + 0x100 * k by omega) (show 0x040030 + 0x100 * k < 0x80000 by omega)
  refine ⟨?_, hgen.trans (m.get_put_other (f := R.COMMIT_STAT_PHASE k) (g := R.COMMIT_GEN k)
    (show 0x040030 + 0x100 * k ≠ 0x040014 + 0x100 * k by omega) 5)⟩
  rw [Chip.commitApply_due hp hd hs (by rw [hpend]; rfl)]
  exact Chip.bootStep_calm (by rw [Chip.boot_applied, Chip.commits_boot hc]; exact hb)

theorem Chip.applyDue_of {m : Chip} {k : Nat} {p : PendCommit} (hp : m.pend k = some p) (h4 : m.phase k = 4)
    (hm : p.mode = 0 ∨ (p.mode = 1 ∧ p.taskEnded = true) ∨ (p.mode = 2 ∧ p.instant.toNat * 2 ^ 32 ≤ m.clk.league)) : m.applyDue k = true := by
  rcases hm with h | ⟨h, he⟩ | ⟨h, hi⟩
  · simp [Chip.applyDue, hp, h4, h]
  · simp [Chip.applyDue, hp, h4, h, he]
  · have hr : m.reached p.instant.toNat = true := decide_eq_true hi
    simp [Chip.applyDue, hp, h4, h, hr]

/-- A set of channel 1 without points is the planner's alone. -/
theorem Chip.applySet_one {m : Chip} {b : Bank} (h : b.points = []) : m.applySet 1 b = (false, m.planApplied) := by
  simp [Chip.applySet, h, Chip.applyPoints]

end Sys2Proof.Machine
end

section
/-! PROOFS. The apply of a channel 0 set that holds one Staged word which no unit's part of the apply edge watches, and O31. -/

namespace Sys2Proof.Machine

open Sys2Proof

/-! ### A set of one word -/

/-- A register word alone. -/
def Bank.one (a : Nat) (w : Word) : Bank := { regs := [(a, w)] }

theorem Chip.withSet_one (m : Chip) (a : Nat) (w : Word) : m.withSet (Bank.one a w) = m.setReg a (merge a (m.reg a) w) := rfl

theorem Bank.touches_one (a : Nat) (w : Word) (u : Nat) : (Bank.one a w).touches u = (blockUnit a == u) := by
  simp [Bank.one, Bank.touches]

theorem Bank.stages_one (a : Nat) (w : Word) (x : Win) : (Bank.one a w).stages x = false := rfl

/-! ### What the apply edge compares -/

section
variable (m : Chip) {a : Nat} (h0 : R.POINT_CFG.addr < a) (h1 : a < 0x1C0000) (w : Word)
include h1

/-- Every port's, channel's and panel's EN lies above the blocks of the store and the transaction engine. -/
theorem Chip.portsApplied_setReg : (m.setReg a w).portsApplied m = m.setReg a w := by
  unfold Chip.portsApplied
  refine List.foldlRecOn _ _ (motive := (· = m.setReg a w)) rfl fun n hn e he => ?_
  have hen : 0x1C0000 ≤ e.2.addr := by
    simp only [List.mem_append, List.mem_map, List.mem_singleton] at he
    rcases he with ((((⟨u, _, rfl⟩ | ⟨u, _, rfl⟩) | ⟨u, _, rfl⟩) | ⟨u, _, rfl⟩) | ⟨u, _, rfl⟩) | rfl
    iterate 5 exact Nat.le_add_right_of_le (show 0x1C0000 ≤ _ by decide)
    decide
  have hon : (m.setReg a w).on e.2 = m.on e.2 := by rw [Chip.on, Chip.on, Chip.get_setReg_other _ (by omega)]
  simp [hn, hon]

/-- The planner's cadence registers too. -/
theorem Chip.planTouched_setReg : (m.setReg a w).planTouched m false = m.setReg a w := by
  have hc : ∀ f : FRef, 0x280000 ≤ f.addr → (m.setReg a w).get f = m.get f := fun f hf => Chip.get_setReg_other _ (by omega) _
  have hon : (m.setReg a w).on R.PLAN_CTL_CAD_EN = m.on R.PLAN_CTL_CAD_EN := by rw [Chip.on, Chip.on, hc _ (by decide)]
  unfold Chip.planTouched
  simp only [hon, hc R.PLAN_CADENCE (by decide), Bool.and_not_self, bne_self_eq_false, Bool.or_self, Bool.false_eq_true, if_false, false_and]
  split <;> rfl

include h0

/-- The league and device numbers too. -/
theorem Chip.keepApplied_setReg {b : Bank} (hb : b.touches 3 = false) : (m.setReg a w).keepApplied m b = m.setReg a w := by
  have hl : (m.setReg a w).reg R.UPL_LEAGUE_ID.addr = m.reg R.UPL_LEAGUE_ID.addr :=
    Chip.reg_setReg_other _ (by have : R.UPL_LEAGUE_ID.addr = 0x1C0300 := rfl; omega) _
  have hd : (m.setReg a w).get R.POINT_CFG_DEVNUM = m.get R.POINT_CFG_DEVNUM := Chip.get_setReg_other _ (g := R.POINT_CFG_DEVNUM) (Nat.ne_of_lt h0) _
  simp [Chip.keepApplied, hb, hl, hd]

/-- The units do nothing on the apply edge of a word of the store or of the transaction engine but POINT_CFG. -/
theorem Chip.unitsApplied_one (hu : ∀ u, u ≠ 5 → u ≠ 6 → (blockUnit a == u) = false) (v : Word) :
    (m.setReg a w).unitsApplied m (Bank.one a v) = m.setReg a w := by
  have ht : ∀ u, u ≠ 5 → u ≠ 6 → (Bank.one a v).touches u = false := fun u h5 h6 => (Bank.touches_one a v u).trans (hu u h5 h6)
  have hp : ((m.setReg a w).pointsApplied m (Bank.one a v)).stationsApplied m (Bank.one a v) = m.setReg a w := rfl
  unfold Chip.unitsApplied
  simp only [hp, m.portsApplied_setReg h1, m.keepApplied_setReg h0 h1 w (ht 3 (by decide) (by decide)), Bank.stages_one,
    ht 2 (by decide) (by decide), ht 7 (by decide) (by decide), ht 8 (by decide) (by decide), ht 9 (by decide) (by decide),
    ht 0xA (by decide) (by decide), ht 0xB (by decide) (by decide), ht 0xC (by decide) (by decide), ht 0xE (by decide) (by decide),
    m.planTouched_setReg h1, Chip.meterApplied, Chip.scanApplied, ht 4 (by decide) (by decide), Bool.false_eq_true, if_false, Bool.not_false, if_true]

/-- Such a set, applied on channel 0, sets its register and nothing else. -/
theorem Chip.applySet_one_word (hu : ∀ u, u ≠ 5 → u ≠ 6 → (blockUnit a == u) = false) (v : Word) :
    m.applySet 0 (Bank.one a v) = (false, m.setReg a (merge a (m.reg a) v)) := by
  have hhit : ∀ u, u ≠ 5 → u ≠ 6 → (Bank.one a v).regs.any (fun e => blockUnit e.1 == u) = false := fun u h5 h6 => by
    simpa [Bank.one] using hu u h5 h6
  unfold Chip.applySet
  simp only [if_true, List.foldl_cons, List.foldl_nil, hhit 0xA (by decide) (by decide), hhit 0xB (by decide) (by decide),
    hhit 0xC (by decide) (by decide), Bool.false_eq_true, if_false, Chip.withSet_one, m.unitsApplied_one h0 h1 _ hu]
  rfl

end

/-! ### O31 -/

/-- Settles O31: a commit ends by `Chip.finish`, goes on by a change of its phase, or applies; each command is one of these steps, and what the units and
the boot do after it leaves the engine's own state alone. -/
theorem commitPhases : Obligations.CommitPhases := by
  unfold Obligations.CommitPhases
  refine ⟨⟨fun k p v hr hu => ?failed, fun k p => ?unchecked, fun k p => ?unloaded, fun k p => ?trapped, fun k p => ?late, fun k p => ?waits,
    fun k p => ?timeout, fun p => ?planned, fun k => ?nothing⟩, fun p w f hf => ?staged⟩
  case failed =>
    refine shows_of_act (f := fun m => (m.commitRules k.val).bootStep) (fun _ => rfl) fun m ⟨hb, hp, h1, ha, hv⟩ => ?_
    have hn := m.commits_swapRefused p.swap
    rw [Chip.commitRules_unawaited hp h1 ha, Chip.rulesDone_failed ((Chip.commits_pend hn k).trans hp) ((Chip.commits_phase hn k.isLt).trans h1) ha hv]
    have e := Chip.ended_watched ((congrArg (·.running) (Chip.commits_boot hn)).trans hb) k.isLt hr hu false false false
    exact ⟨e.report, e.res.unit, e.object⟩
  case unchecked =>
    refine shows_of_act (f := fun m => (m.commitRules k.val).bootStep) (fun _ => rfl) fun m ⟨hb, hp, h1, ha, hv, he⟩ => ?_
    have hn := m.commits_swapRefused p.swap
    have hpn := (Chip.commits_pend hn k).trans hp
    obtain ⟨n, hc, hpass⟩ := Chip.rulesPassed_eq hpn
    rw [Chip.commitRules_unawaited hp h1 ha, Chip.rulesDone_unchecked hpn ((Chip.commits_phase hn k.isLt).trans h1) ha hv he, hpass]
    have e := Chip.phase_watched (n := n) ((congrArg (·.running) (Chip.commits_boot (hc.trans hn))).trans hb) k.isLt (q := 3) (by decide)
    exact ⟨e.1.trans ((Chip.commits_pend hc k).trans hpn), e.2⟩
  case unloaded =>
    refine shows_of_act (f := fun m => (m.commitRules k.val).bootStep) (fun _ => rfl) fun m ⟨hb, hp, h1, ha, hv, he, hi⟩ => ?_
    have hn := m.commits_swapRefused p.swap
    rw [Chip.commitRules_unawaited hp h1 ha, Chip.rulesDone_unloaded ((Chip.commits_pend hn k).trans hp) ((Chip.commits_phase hn k.isLt).trans h1) ha
      hv he ((m.imageAt_swapRefused _ _).trans hi)]
    have e := Chip.ended_watched ((congrArg (·.running) (Chip.commits_boot hn)).trans hb) k.isLt
      (v := ⟨CC.checkFailed, 11, 1, BitVec.ofNat 64 p.entry⟩) (show 11 < 16 by decide) (show 1 < 256 by decide) false false false
    exact ⟨e.report, e.res.trap, e.object⟩
  case trapped =>
    refine shows_of_act (f := fun m => (m.checkLimit k.val).commitWatch.bootStep) (fun _ => rfl) fun m ⟨hb, hp, h2, hl⟩ => ?_
    rw [Chip.checkLimit_passed hp h2 hl]
    have e := Chip.ended_watched ((congrArg (·.running) (Chip.commits_boot (m.commits_checkStop k))).trans hb) k.isLt
      (v := ⟨CC.checkFailed, 11, 1, 0⟩) (by decide) (by decide) false true false
    exact ⟨e.report, e.res.trap⟩
  case late =>
    refine shows_of_act (f := fun m => (m.prepDone k.val).commitWatch.bootStep) (fun _ => rfl) fun m ⟨hb, hp, h3, hpts, ho, hat⟩ => ?_
    rw [Chip.prepDone_late hp h3 hpts ho hat]
    exact (Chip.ended_watched hb k.isLt (v := ⟨CC.deadline, 12, 1, 0⟩) (by decide) (by decide) false false false).report
  case waits =>
    refine shows_of_act (f := fun m => (m.prepDone k.val).commitWatch.bootStep) (fun _ => rfl) fun m ⟨hb, hp, h3, hpts, ho, hm⟩ => ?_
    rw [Chip.prepDone_waits hp h3 hpts ho hm]
    have e := Chip.phase_watched (n := m.setPend k { p with waitFrom := m.monoNs, taskEnded := false }) hb k.isLt (q := 4) (by decide)
    exact ⟨e.2, e.1.trans (m.pend_setPend _ _)⟩
  case timeout =>
    refine shows_of_act (f := fun m => (m.taskTimeout k.val).commitWatch.bootStep) (fun _ => rfl) fun m ⟨hb, hp, h4, hm, ht⟩ => ?_
    rw [Chip.taskTimeout_passed hp h4 hm ht]
    exact (Chip.ended_watched hb k.isLt (v := ⟨CC.timeout, 0, 0, 0⟩) (by decide) (by decide) false false false).report
  case planned =>
    refine shows_of_act (f := fun m => (m.commitApply 1).bootStep) (fun _ => rfl) fun m ⟨hb, hp, h4, hpts, hm⟩ => ?_
    obtain ⟨ht, hgen⟩ := Chip.commitApply_shows (by decide) hb hp (Chip.applyDue_of hp h4 hm) (Chip.applySet_one hpts) (Chip.commits_planApplied _)
    rw [ht]
    have e := Chip.ended_applied (m.setPhase 1 5).planApplied (k := 1) (by decide) false m.stamp
    exact ⟨e.report, Chip.get64_applied _ _ _ _, (Chip.get_gen_applied _ _ _ _).trans (by rw [hgen]), e.res.rej⟩
  case nothing =>
    refine turns_of_act (f := fun m => (m.commitApply k.val).bootStep) (fun _ => rfl) fun m ⟨hb, hp, hr⟩ => ?_
    rw [Chip.commitApply_none hp hr, Chip.bootStep_calm hb]
    rfl
  case staged =>
    have ⟨h0, h1, hu⟩ : R.POINT_CFG.addr < f.addr ∧ f.addr < 0x1C0000 ∧ ∀ u, u ≠ 5 → u ≠ 6 → (blockUnit f.addr == u) = false := by
      simp only [List.mem_cons, List.not_mem_nil, or_false] at hf
      rcases hf with rfl | rfl
      · exact ⟨by decide, by decide, fun u _ h6 => beq_false_of_ne h6.symm⟩
      · exact ⟨by decide, by decide, fun u h5 _ => beq_false_of_ne h5.symm⟩
    have habove : 0x80000 ≤ f.addr := Nat.le_trans (by decide) h0
    refine shows_of_act (f := fun m => (m.commitApply 0).bootStep) (fun _ => rfl) fun m ⟨hb, hp, h4, hm, hset⟩ => ?_
    obtain ⟨ht, hgen⟩ := Chip.commitApply_shows (by decide) hb hp (Chip.applyDue_of hp h4 (.inl hm))
      ((congrArg ((m.setPhase 0 5).applySet 0) hset).trans ((m.setPhase 0 5).applySet_one_word h0 h1 hu w)) (Chip.commits_setReg _ habove _)
    rw [ht]
    have e := Chip.ended_applied ((m.setPhase 0 5).setReg f.addr (merge f.addr ((m.setPhase 0 5).reg f.addr) w)) (k := 0) (by decide) false m.stamp
    refine ⟨?_, e.pend, e.res.code, Chip.get64_applied _ _ _ _, (Chip.get_gen_applied _ _ _ _).trans (by rw [hgen])⟩
    rw [Chip.reg_applied_above _ (by decide) _ _ habove (by have : R.LOOP_SWAP_RES.addr = 0x30014C := rfl; omega), Chip.reg_setReg_same,
      Chip.setPhase, Chip.reg_put_other _ (by have : (R.COMMIT_STAT_PHASE 0).addr = 0x40014 := rfl; omega)]

end Sys2Proof.Machine
end

section
/-! PROOFS. GO, DISCARD and ABORT (O30): the three answers of GO on a bank, what a frozen bank leaves pending, and the end of a cancelled commit. -/

namespace Sys2Proof.Machine

open Sys2Proof

/-! ### Banks beside pending commits

Rewrite with these: as simp lemmas, applied together by definition, they run the kernel too deep. -/

theorem Chip.pend_setBank (m : Chip) (k : Nat) (b : Bank) (j : Nat) : (m.setBank k b).pend j = m.pend j := rfl

theorem Chip.bank_setPend (m : Chip) (k : Nat) (p : PendCommit) (j : Nat) : (m.setPend k p).bank j = m.bank j := rfl

theorem Chip.pend_put (m : Chip) (f : FRef) (v k : Nat) : (m.put f v).pend k = m.pend k := rfl

theorem Chip.bank_put (m : Chip) (f : FRef) (v k : Nat) : (m.put f v).bank k = m.bank k := rfl

theorem Chip.pend_setPhase (m : Chip) (j q k : Nat) : (m.setPhase j q).pend k = m.pend k := rfl

theorem Chip.bank_setPhase (m : Chip) (j q k : Nat) : (m.setPhase j q).bank k = m.bank k := rfl

/-! ### GO -/

/-- A result of a code alone: DONE and the code in COMMIT_RES, and no object. -/
theorem Chip.result_code (m : Chip) (k : Nat) {code : Half} {n : Nat} (h : code.toNat = n) :
    m.result k ⟨code, 0, 0, 0⟩ false false false =
      (m.setReg (R.COMMIT_RES k).addr (BitVec.ofNat 32 (2 ^ 31 + n))).put64 (R.COMMIT_RES_OBJ_LO k) 0 := by
  simp [Chip.result, bit, h]

theorem Chip.goWith_pending {m : Chip} {k : Nat} (h : (m.pend k).isSome = true) (judge : Bank → Option Verdict) :
    m.goWith k judge = m.result k ⟨CC.busy, 0, 0, 0⟩ false false false := if_pos h

theorem Chip.goWith_empty {m : Chip} {k : Nat} (hp : m.pend k = none) (hb : m.bank k = {}) (judge : Bank → Option Verdict) :
    m.goWith k judge = m.result k verdictOk false false false := by
  simp [Chip.goWith, hp, hb]

/-- The commit that GO makes of a channel's bank and registers, with a verdict (R58, R59). -/
def Chip.frozen (m : Chip) (k : Nat) (v : Option Verdict) : PendCommit where
  set := m.bank k
  mode := m.get (R.COMMIT_MODE_MODE k)
  task := m.get (R.COMMIT_MODE_TASK k)
  instant := m.get64 (R.COMMIT_AT_LO k)
  entry := m.get (R.COMMIT_CHK_ENTRY k)
  limit := if m.get (R.COMMIT_CHK_LIMIT k) = 0 then 10 else min (m.get (R.COMMIT_CHK_LIMIT k)) 1000
  verdict := v

theorem Chip.goWith_freezes {m : Chip} {k : Nat} (hp : m.pend k = none) (hb : m.bank k ≠ {}) (judge : Bank → Option Verdict) :
    m.goWith k judge =
      (((m.setBank k {}).setPend k (m.frozen k (judge (m.bank k)))).put (R.COMMIT_STAT_PENDING k) 1).setPhase k 1 := by
  simp [Chip.goWith, hp, hb, Chip.frozen]

/-- A channel with a new commit shows PENDING and phase 1. -/
theorem Chip.stat_pending_phase (m : Chip) (k : Nat) :
    ((m.put (R.COMMIT_STAT_PENDING k) 1).setPhase k 1).get (R.COMMIT_STAT_PENDING k) = 1 ∧
      ((m.put (R.COMMIT_STAT_PENDING k) 1).setPhase k 1).get (R.COMMIT_STAT_PHASE k) = 1 :=
  ⟨(Chip.get_put_apart _ (f := R.COMMIT_STAT_PHASE k) (g := R.COMMIT_STAT_PENDING k) rfl (show 27 ≤ 30 by decide) (show 31 < 32 by decide)
      (.inr (show 30 < 31 by decide)) 1).trans (m.get_put_same (f := R.COMMIT_STAT_PENDING k) (Nat.le_refl 31) (show 31 < 32 by decide) 1),
    Chip.phase_setPhase _ k (show 1 < 16 by decide)⟩

/-- Software's GO is `Chip.goWith` on channels 1 to 3, and on channel 0 after the boot where no bank freezes. -/
theorem Chip.commitGo_goWith {m : Chip} {k : Nat} (h : k = 0 → m.booting = false ∧ ((m.pend 0).isSome = true ∨ m.bank 0 = {})) :
    ∃ judge, m.commitGo k false = m.goWith k judge := by
  by_cases hk : k = 0
  · subst hk
    obtain ⟨hb, hg⟩ := h rfl
    exact ⟨fun _ => none, by simp [Chip.commitGo, hb, hg]⟩
  · exact ⟨_, if_pos hk⟩

theorem Chip.commitGo_booting {m : Chip} (h : m.booting = true) :
    m.commitGo 0 false = m.result 0 ⟨CC.busy, 0, 0, 0⟩ false false false := by
  simp [Chip.commitGo, h]

/-! ### ABORT -/

/-- COMMIT_RES after the end of a commit. -/
theorem Chip.reg_res_finish (m : Chip) {k : Nat} (hk : k < 4) (v : Verdict) (aborted trap rej : Bool) :
    (m.finish k v aborted trap rej).reg (R.COMMIT_RES k).addr = BitVec.ofNat 32 (resNat v aborted trap rej) :=
  (Chip.commits_reg (m.commits_finish k v aborted trap rej) (show 0x40000 ≤ 0x04001C + 0x100 * k by omega)
      (show 0x04001C + 0x100 * k < 0x80000 by omega)).trans <|
    (Chip.reg_put64_other _ (f := R.COMMIT_RES_OBJ_LO k) (show 0x04001C + 0x100 * k ≠ 0x040020 + 0x100 * k by omega)
      (show 0x04001C + 0x100 * k ≠ 0x040020 + 0x100 * k + 4 by omega) _).trans (Chip.reg_setReg_same _ _ _)

/-- The ABORTED bit of COMMIT_RES. -/
theorem bits_aborted_resNat {v : Verdict} (hr : v.rule < 16) (hu : v.unit < 256) (aborted trap rej : Bool) :
    bits (BitVec.ofNat 32 (resNat v aborted trap rej)).toNat 30 30 = bit aborted := by
  have ha := bit_le aborted
  have ht := bit_le trap
  have hj := bit_le rej
  have hc := v.code.isLt
  simp only [bits, resNat, BitVec.toNat_ofNat]
  omega

theorem Chip.dropCommit_none {m : Chip} {k : Nat} (hp : m.pend k = none) (aborted : Bool) : m.dropCommit k aborted = m := by
  simp [Chip.dropCommit, hp]

/-- A cancelled commit ends with SUPERSEDED; the message to the twin and the stop of its check program leave the engine alone. -/
theorem Chip.dropCommit_finish {m : Chip} {k : Nat} (hp : (m.pend k).isSome = true) (aborted : Bool) :
    ∃ n : Chip, n.commits = m.commits ∧
      m.dropCommit k aborted = (n.finish k ⟨CC.superseded, 0, 0, 0⟩ aborted false false).commitWatch := by
  obtain ⟨p, hp⟩ := Option.isSome_iff_exists.mp hp
  have hcancel : ∀ a : Chip, a.commits = m.commits → ∃ n : Chip, n.commits = m.commits ∧
      a.cancelCommit k aborted = n.finish k ⟨CC.superseded, 0, 0, 0⟩ aborted false false := fun a ha => by
    refine ⟨if a.phase k = 2 then a.checkStop k else a, ?_, if_neg (by simp [Chip.commits_pend ha, hp])⟩
    split
    · exact (a.commits_checkStop k).trans ha
    · exact ha
  have htold : (if p.forwarded ∨ 3 ≤ m.phase k then m.stream "COMMIT" [k, 5] else m).commits = m.commits := by
    split
    · exact m.commits_stream _ _
    · rfl
  obtain ⟨n, hn, hc⟩ := hcancel _ htold
  exact ⟨n, hn, by simp only [Chip.dropCommit, hp, hc]⟩

/-- A commit cancelled by ABORT outside the boot: what the boot's next step leaves of it. -/
theorem Chip.dropCommit_aborted {m : Chip} {k : Nat} (hk : k < 4) (hp : (m.pend k).isSome = true) (hb : m.boot.running = false) :
    (m.dropCommit k true).bootStep.Ended k ⟨CC.superseded, 0, 0, 0⟩ false false ∧
      (m.dropCommit k true).bootStep.get (R.COMMIT_RES_ABORTED k) = 1 := by
  obtain ⟨n, hn, he⟩ := Chip.dropCommit_finish hp true
  have hbn : n.boot.running = false := (congrArg (·.running) (Chip.commits_boot hn)).trans hb
  have hw := (n.finish k ⟨CC.superseded, 0, 0, 0⟩ true false false).commits_commitWatch
  rw [he]
  refine ⟨Chip.ended_watched hbn hk (show 0 < 16 by decide) (show 0 < 256 by decide) true false false, ?_⟩
  rw [Chip.bootStep_calm (by rw [Chip.commits_boot hw, Chip.boot_finish]; exact hbn),
    Chip.commits_get hw (show 0x40000 ≤ 0x04001C + 0x100 * k by omega) (show 0x04001C + 0x100 * k < 0x80000 by omega)]
  have hr := n.reg_res_finish hk ⟨CC.superseded, 0, 0, 0⟩ true false false
  rw [Chip.get, show (R.COMMIT_RES_ABORTED k).addr = (R.COMMIT_RES k).addr from rfl, hr]
  exact bits_aborted_resNat (show 0 < 16 by decide) (show 0 < 256 by decide) true false false

/-! ### O30 -/

/-- Settles O30: GO is `Chip.goWith` wherever it judges no set of channel 0, and ABORT ends the pending commit as `Chip.finish` does. -/
theorem commitSets : Obligations.CommitSets := by
  unfold Obligations.CommitSets
  refine ⟨fun k hk => ?freezes, fun k => ?empty, fun k => ?pending, ?booting, fun k => ?discard, fun k => ?aborts, fun k => ?nothing⟩
  case freezes =>
    refine shows_of_act (f := (·.commitGo k.val false)) (fun _ => rfl) fun m ⟨hp, hb⟩ => ?_
    obtain ⟨judge, hg⟩ := Chip.commitGo_goWith (m := m) fun h => absurd h hk
    rw [hg, Chip.goWith_freezes hp hb]
    obtain ⟨hpending, hphase⟩ := Chip.stat_pending_phase ((m.setBank k.val {}).setPend k.val (m.frozen k.val (judge (m.bank k.val)))) k.val
    exact ⟨by rw [Chip.bank_setPhase, Chip.bank_put, Chip.bank_setPend, Chip.bank_setBank_same], hpending, hphase, fun _ _ => rfl,
      m.frozen k.val (judge (m.bank k.val)), by rw [Chip.pend_setPhase, Chip.pend_put, Chip.pend_setPend], rfl, rfl, rfl, rfl, rfl, rfl⟩
  case empty =>
    refine turns_of_act (f := (·.commitGo k.val false)) (fun _ => rfl) fun m ⟨hp, hb, h0⟩ => ?_
    obtain ⟨judge, hg⟩ := Chip.commitGo_goWith (m := m) fun h => ⟨h0 h, .inr (h ▸ hb)⟩
    rw [hg, Chip.goWith_empty hp hb]
    exact m.result_code k.val (code := CC.ok) rfl
  case pending =>
    refine turns_of_act (f := (·.commitGo k.val false)) (fun _ => rfl) fun m ⟨hp, h0⟩ => ?_
    obtain ⟨judge, hg⟩ := Chip.commitGo_goWith (m := m) fun h => ⟨h0 h, .inl (h ▸ hp)⟩
    rw [hg, Chip.goWith_pending hp]
    exact m.result_code k.val (code := CC.busy) rfl
  case booting =>
    exact turns_of_act (f := (·.commitGo 0 false)) (fun _ => rfl) fun m h => (Chip.commitGo_booting h).trans (m.result_code 0 (code := CC.busy) rfl)
  case discard =>
    exact shows_of_act (f := (·.discard k.val)) (fun _ => rfl) fun m _ => ⟨m.bank_setBank_same _ _, m.pend_setBank _ _ _, m.byte_setBank _ _⟩
  case aborts =>
    refine shows_of_act (f := fun m => (m.dropCommit k.val true).bootStep) (fun _ => rfl) fun m ⟨hp, hb, _⟩ => ?_
    obtain ⟨e, haborted⟩ := Chip.dropCommit_aborted k.isLt hp hb
    exact ⟨e.pend, e.res.code, haborted, e.pending⟩
  case nothing =>
    refine turns_of_act (f := fun m => (m.dropCommit k.val true).bootStep) (fun _ => rfl) fun m ⟨hp, hb⟩ => ?_
    rw [Chip.dropCommit_none hp, Chip.bootStep_calm hb]
    rfl

end Sys2Proof.Machine
end

section
/-! PROOFS. Words of the loop engine's rules: numbers as bytes in memory, 64-bit registers, and a counter that sticks. -/

namespace Sys2Proof.Machine

open Sys2Proof

/-! ### Numbers as bytes -/

@[simp] theorem le_length (n v : Nat) : (le n v).length = n := by
  induction n generalizing v with
  | zero => rfl
  | succ n ih => rw [le, List.length_cons, ih]

/-- The bytes of a number spell it, cut to their count. -/
theorem ofLe_le (n v : Nat) : ofLe (le n v) = v % 256 ^ n := by
  induction n generalizing v with
  | zero => rw [Nat.pow_zero, Nat.mod_one]; rfl
  | succ n ih => rw [le, ofLe, ih, BitVec.toNat_ofNat, show 256 ^ (n + 1) = 256 * 256 ^ n from Nat.pow_succ', Nat.mod_mul]

/-- The bytes of a low part and of a high part are those of the whole. -/
theorem le_append (n k a b : Nat) (ha : a < 256 ^ n) : le n a ++ le k b = le (n + k) (a + 256 ^ n * b) := by
  induction n generalizing a with
  | zero => rw [Nat.pow_zero] at ha; simp [le, show a = 0 by omega]
  | succ n ih =>
    rw [Nat.pow_succ'] at ha ⊢
    have hlow : BitVec.ofNat 8 (a + 256 * 256 ^ n * b) = BitVec.ofNat 8 a := by
      apply BitVec.eq_of_toNat_eq
      rw [BitVec.toNat_ofNat, BitVec.toNat_ofNat, Nat.mul_assoc]
      omega
    have hhigh : (a + 256 * 256 ^ n * b) / 256 = a / 256 + 256 ^ n * b := by
      rw [Nat.mul_assoc]
      omega
    rw [show n + 1 + k = n + k + 1 by omega, le, le, hlow, hhigh, List.cons_append, ih _ (by omega)]

/-- Bytes written in two runs, one behind the other. -/
theorem Chip.setBytes_append (m : Chip) (sp : Space) (i : Nat) (l x : List Byte) :
    (m.setBytes sp i l).setBytes sp (i + l.length) x = m.setBytes sp i (l ++ x) := by
  induction l generalizing m i with
  | nil => rfl
  | cons b t ih => rw [List.cons_append, Chip.setBytes, Chip.setBytes, ← ih, List.length_cons, Nat.add_assoc, Nat.add_comm 1]

/-- Two words written one behind the other are one 64-bit number. -/
theorem Chip.wr_words (m : Chip) (sp : Space) (a : Nat) (lo hi : Word) :
    (m.wr sp a 4 lo.toNat).wr sp (a + 4) 4 hi.toNat = m.wr sp a 8 (lo.toNat + 2 ^ 32 * hi.toNat) := by
  have h := m.setBytes_append sp a (le 4 lo.toNat) (le 4 hi.toNat)
  rw [le_length, le_append 4 4 _ _ lo.isLt] at h
  exact h

/-- A number written reads back, cut to its bytes. -/
theorem Chip.rd_wr_same (m : Chip) (sp : Space) (a n v : Nat) (hn : n ≤ 2 ^ 40) : (m.wr sp a n v).rd sp a n = v % 256 ^ n := by
  have h := m.bytes_setBytes_same sp a (le n v) (Nat.le_trans (Nat.le_of_eq (le_length n v)) hn)
  rw [le_length] at h
  rw [Chip.rd, Chip.wr, h, ofLe_le]

/-- A 64-bit number written reads back as its two words. -/
theorem Chip.rd_wr_words (m : Chip) (sp : Space) (a : Nat) (lo hi : Word) :
    (m.wr sp a 8 (lo.toNat + 2 ^ 32 * hi.toNat)).rd sp a 8 = lo.toNat + 2 ^ 32 * hi.toNat := by
  have := lo.isLt
  have := hi.isLt
  exact (m.rd_wr_same sp a 8 _ (by decide)).trans (Nat.mod_eq_of_lt (by omega))

@[simp] theorem Chip.regs_wr (m : Chip) (sp : Space) (a n v : Nat) : (m.wr sp a n v).regs = m.regs := m.regs_setBytes _ _ _

theorem Chip.byte_wr_other (m : Chip) {sp sq : Space} {a n j : Nat} (h : ∀ k, k < n → sq.key j ≠ sp.key (a + k)) (v : Nat) :
    (m.wr sp a n v).byte sq j = m.byte sq j :=
  m.byte_setBytes_other _ fun k hk => h k (by rwa [le_length] at hk)

/-- The key of an offset in a space, counted back. -/
theorem Space.key_sub (sp : Space) {i d : Nat} (hd : d ≤ i) (hi : i < 2 ^ 40) : sp.key i - d = sp.key (i - d) := by
  unfold Space.key
  omega

/-! ### Registers

The first two are the laws of one field and of two disjoint fields with their bounds written out: `decide` finds their conditions. -/

theorem Chip.get_put_field (m : Chip) (a hi lo v : Nat) (h : lo ≤ hi) (h32 : hi < 32) :
    (m.put ⟨a, hi, lo⟩ v).get ⟨a, hi, lo⟩ = v % 2 ^ (hi + 1 - lo) :=
  m.get_put_same h h32 v

theorem Chip.get_put_disjoint (m : Chip) (a : Nat) {hi lo hi' lo' : Nat} (v : Nat) (h : lo ≤ hi) (h32 : hi' < 32) (ho : hi' < lo ∨ hi < lo') :
    (m.put ⟨a, hi, lo⟩ v).get ⟨a, hi', lo'⟩ = m.get ⟨a, hi', lo'⟩ :=
  m.get_put_apart (f := ⟨a, hi, lo⟩) (g := ⟨a, hi', lo'⟩) rfl h h32 ho v

theorem Chip.get_put64_other (m : Chip) {f g : FRef} (h0 : g.addr ≠ f.addr) (h1 : g.addr ≠ f.addr + 4) (v : DWord) :
    (m.put64 f v).get g = m.get g := by
  rw [Chip.get, Chip.get, m.reg_put64_other h0 h1]

theorem Chip.get64_put_other (m : Chip) {f g : FRef} (h0 : g.addr ≠ f.addr) (h1 : g.addr + 4 ≠ f.addr) (v : Nat) :
    (m.put f v).get64 g = m.get64 g := by
  rw [Chip.get64, Chip.get64, Chip.reg_put_other _ h0, Chip.reg_put_other _ h1]

/-- A 32-bit diagnostic counter after a count: one more, or its largest value (R22). -/
theorem Chip.get_count_min (m : Chip) {c : FRef} {sat : Option FRef} (h0 : c.lo = 0) (h1 : c.hi = 31) (hs : ∀ f, sat = some f → f.addr ≠ c.addr) :
    (m.count c sat).get c = min 0xFFFFFFFF (m.get c + 1) := by
  have hlt : m.get c < 2 ^ 32 := by
    rw [Chip.get, h0, h1]
    exact bits_lt _ 31 0
  by_cases h : m.get c < 0xFFFFFFFF
  · rw [m.get_count sat h0 h1 hs h]
    omega
  · have hkept : (m.count c sat).get c = m.get c := by
      cases sat with
      | none => simp only [Chip.count, if_neg h]
      | some f =>
        simp only [Chip.count, if_neg h]
        split
        · exact Chip.get_put_other _ (hs f rfl).symm _
        · rfl
    rw [hkept]
    omega

@[simp] theorem Chip.req_setReq_same (m : Chip) (r : Req) (x : ReqSt) : (m.setReq r x).req r = x := AMap.get_put_same _ _ _ _

end Sys2Proof.Machine
end

section
/-! PROOFS. Writes to a loop's active bank (R269): counted without SINGLE; with it a low word is held, and its high word applies both. -/

namespace Sys2Proof.Machine

open Sys2Proof

theorem Chip.loopBank_lt (m : Chip) (n : Nat) : m.loopBank n < 2 := bits_lt _ 28 28

/-- The offset of a loop's active bank, which is where its single writes go. -/
def Chip.bankBase (m : Chip) (n : Nat) : Nat := bankOff n (m.loopBank n)

theorem Chip.bankBase_lt (m : Chip) {n : Nat} (hn : n < 512) : m.bankBase n < 2 ^ 30 := by
  have := m.loopBank_lt n
  unfold Chip.bankBase bankOff
  omega

/-- A refused write is counted in LOOP_REJ_CNT. -/
theorem Chip.get_rejCnt_loopCount (m : Chip) : (m.loopCount 2).get R.LOOP_REJ_CNT = min 0xFFFFFFFF (m.get R.LOOP_REJ_CNT + 1) :=
  m.get_count_min (c := R.LOOP_REJ_CNT) rfl rfl fun f hf => by obtain rfl := Option.some.inj hf; decide

variable {m : Chip} {r : Req} {n off : Nat} {v : Word}

theorem Chip.singleWrite_refused (h : (m.loopEnt n).single = false) : m.singleWrite r n off v = m.loopCount 2 := by
  simp [Chip.singleWrite, h]

/-- The low word of a coefficient waits for its high word. -/
theorem Chip.singleWrite_low (h : (m.loopEnt n).single = true) (h8 : off % 8 = 0) (hc : off < 1088) :
    m.singleWrite r n off v =
      m.setReq r { m.req r with held := reassoc (m.req r).held ((Space.win .loopBank).key (m.bankBase n + off)) v } := by
  simp [Chip.singleWrite, h, h8, hc, Chip.bankBase]

/-- The high word of a coefficient whose low word is held applies both as one number. -/
theorem Chip.singleWrite_high {lo : Word} (h : (m.loopEnt n).single = true) (hn : n < 512) (h8 : off % 8 = 4) (hc : off < 1088)
    (hlo : assoc (m.req r).held ((Space.win .loopBank).key (m.bankBase n + (off - 4))) = some lo) :
    ∃ x : ReqSt, m.singleWrite r n off v = (m.setReq r x).wr (.win .loopBank) (m.bankBase n + (off - 4)) 8 (lo.toNat + 2 ^ 32 * v.toNat) := by
  have hb := m.bankBase_lt hn
  have hlow : m.bankBase n + off - 4 = m.bankBase n + (off - 4) := by omega
  have hkey : (Space.win .loopBank).key (m.bankBase n + off) - 4 = (Space.win .loopBank).key (m.bankBase n + (off - 4)) := by
    rw [Space.key_sub _ (by omega) (by omega), hlow]
  have hoff : m.bankBase n + off = m.bankBase n + (off - 4) + 4 := by omega
  refine ⟨{ m.req r with held := unassoc (m.req r).held ((Space.win .loopBank).key (m.bankBase n + (off - 4))) }, ?_⟩
  rw [← Chip.wr_words, ← hoff]
  unfold Chip.bankBase at hlow hkey hlo ⊢
  simp [Chip.singleWrite, h, h8, hlow, hkey, hlo]

end Sys2Proof.Machine
end

section
/-! PROOFS. LOOP_SWAP_CMD.GO (R268): its three refusals, and the set of channel 3 that it freezes. -/

namespace Sys2Proof.Machine

open Sys2Proof

/-- LOOP_SWAP_RES with DONE and a code. -/
def Chip.swapResult (m : Chip) (code : Nat) : Chip := (m.put R.LOOP_SWAP_RES_DONE 1).put R.LOOP_SWAP_RES_CODE code

/-- The bank of a swap: the edit copies of the named loops for their inactive banks, and the loops (R268). -/
def Chip.swapBank (m : Chip) : Bank where
  bytes := (m.swapSet.map fun n => (m.editCopy n).zipIdx.map fun e =>
    ((Win.loopBank, bankOff n (1 - m.loopBank n) + e.2, e.1) : Win × Nat × Byte)).flatten
  loops := m.swapSet

/-- Channel 3 with the bank of a swap, its mode and its instant. -/
def Chip.swapStaged (m : Chip) (b : Bool) : Chip :=
  ((m.setBank 3 m.swapBank).put (R.COMMIT_MODE_MODE 3) (if b then 2 else 0)).put64 (R.COMMIT_AT_LO 3) (m.get64 R.LOOP_SWAP_AT_LO)

theorem Chip.loops_swapBank (m : Chip) : m.swapBank.loops = m.swapSet := by rw [Chip.swapBank]

theorem Chip.length_editCopy (m : Chip) (n : Nat) : (m.editCopy n).length = 1152 := by
  rw [Chip.editCopy, List.length_map, List.length_range]

/-- Each named loop gives its 1152 bytes. -/
theorem Chip.length_swapBank (m : Chip) : m.swapBank.bytes.length = 1152 * m.swapSet.length := by
  simp only [Chip.swapBank, List.length_flatten, List.map_map, Function.comp_def, List.length_map, List.length_zipIdx, Chip.length_editCopy,
    List.map_const', List.sum_replicate_nat]
  exact Nat.mul_comm _ _

theorem Chip.bank_put64 (m : Chip) (f : FRef) (v : DWord) (k : Nat) : (m.put64 f v).bank k = m.bank k := rfl

theorem Chip.pend_put64 (m : Chip) (f : FRef) (v : DWord) (k : Nat) : (m.put64 f v).pend k = m.pend k := rfl

theorem Chip.bank_swapStaged (m : Chip) (b : Bool) : (m.swapStaged b).bank 3 = m.swapBank := by
  rw [Chip.swapStaged, Chip.bank_put64, Chip.bank_put, Chip.bank_setBank_same]

theorem Chip.pend_swapStaged (m : Chip) (b : Bool) : (m.swapStaged b).pend 3 = m.pend 3 := by
  rw [Chip.swapStaged, Chip.pend_put64, Chip.pend_put, Chip.pend_setBank]

theorem Chip.mode_swapStaged (m : Chip) (b : Bool) : (m.swapStaged b).get (R.COMMIT_MODE_MODE 3) = if b then 2 else 0 := by
  rw [Chip.swapStaged, Chip.get_put64_other _ (by decide) (by decide), Chip.get_put_same _ (by decide) (by decide)]
  cases b <;> rfl

theorem Chip.instant_swapStaged (m : Chip) (b : Bool) : (m.swapStaged b).get64 (R.COMMIT_AT_LO 3) = m.get64 R.LOOP_SWAP_AT_LO :=
  Chip.get64_put64 _ _ _

/-- The commit that GO makes of a swap. -/
theorem Chip.frozen_swapStaged (m : Chip) (b : Bool) (v : Option Verdict) :
    let p := (m.swapStaged b).frozen 3 v
    p.set.loops = m.swapSet ∧ p.mode = (if b then 2 else 0) ∧ p.instant = m.get64 R.LOOP_SWAP_AT_LO ∧
      p.set.bytes.length = 1152 * m.swapSet.length := by
  refine ⟨?_, m.mode_swapStaged b, m.instant_swapStaged b, ?_⟩
  · rw [← m.loops_swapBank, ← m.bank_swapStaged b, Chip.frozen]
  · rw [← m.length_swapBank, ← m.bank_swapStaged b, Chip.frozen]

/-! ### The answers -/

section
variable {m : Chip} {b : Bool}

theorem Chip.swapGo_closed (h : m.unitOpen UK.loop = false) : m.swapGo b = m.swapResult 0x1 := by
  rw [Chip.swapGo, h]
  rfl

theorem Chip.swapGo_pending (h : m.unitOpen UK.loop = true) (hp : (m.pend 3).isSome = true) : m.swapGo b = m.swapResult 0xE := by
  rw [Chip.swapGo, h, hp]
  rfl

theorem Chip.swapGo_unfit (h : m.unitOpen UK.loop = true) (hp : m.pend 3 = none) (hn : ∃ n ∈ m.swapSet, (m.loopEnt n).enabled = false) :
    m.swapGo b = m.swapResult 0x8 := by
  have hany : m.swapSet.any (fun n => !(m.loopEnt n).enabled) = true := by simpa using hn
  rw [Chip.swapGo, if_neg (by simp [h]), if_neg (by simp [hp]), if_pos hany]
  rfl

/-- A swap that is not refused is GO on channel 3 with its bank. -/
theorem Chip.swapGo_goWith (h : m.unitOpen UK.loop = true) (hp : m.pend 3 = none) (hn : ∀ n ∈ m.swapSet, (m.loopEnt n).enabled = true) :
    ∃ judge, m.swapGo b = if (((m.swapStaged b).goWith 3 judge).pend 3).isSome then (m.swapStaged b).goWith 3 judge
      else ((m.swapStaged b).goWith 3 judge).swapResult 0 := by
  have hany : ¬ m.swapSet.any (fun n => !(m.loopEnt n).enabled) = true := by simpa using hn
  refine ⟨fun x => firstFail [((m.swapStaged b).withSwap x).loopC9,
    (m.swapStaged b).ruleC10 3 (if b then 2 else 0) 0 (m.get64 R.LOOP_SWAP_AT_LO)], ?_⟩
  rw [Chip.swapGo, if_neg (by simp [h]), if_neg (by simp [hp]), if_neg hany]
  rfl

theorem Chip.swapGo_freezes (h : m.unitOpen UK.loop = true) (hp : m.pend 3 = none) (hs : m.swapSet ≠ [])
    (hn : ∀ n ∈ m.swapSet, (m.loopEnt n).enabled = true) :
    ∃ v, m.swapGo b =
      ((((m.swapStaged b).setBank 3 {}).setPend 3 ((m.swapStaged b).frozen 3 v)).put (R.COMMIT_STAT_PENDING 3) 1).setPhase 3 1 := by
  obtain ⟨judge, hgo⟩ := Chip.swapGo_goWith (b := b) h hp hn
  have hbank : (m.swapStaged b).bank 3 ≠ {} := by
    rw [m.bank_swapStaged]
    exact fun e => hs (by rw [← m.loops_swapBank, e])
  have hpend : (m.swapStaged b).pend 3 = none := (m.pend_swapStaged b).trans hp
  rw [Chip.goWith_freezes hpend hbank] at hgo
  refine ⟨_, hgo.trans (if_pos ?_)⟩
  rw [Chip.pend_setPhase, Chip.pend_put, Chip.pend_setPend]
  rfl

end

/-! ### Beside the mode that the command stores -/

theorem Chip.swapSet_put (m : Chip) (v : Nat) : (m.put R.LOOP_SWAP_CMD_MODE v).swapSet = m.swapSet := by
  refine List.filter_congr fun n hn => ?_
  have := List.mem_range.mp hn
  rw [Chip.get_put_other _ (show 0x300100 + 4 * (n / 32) ≠ 0x300140 by omega)]

theorem Chip.loopEnt_put (m : Chip) (f : FRef) (v n : Nat) : (m.put f v).loopEnt n = m.loopEnt n :=
  congrArg loopEntOf (Chip.bytes_of_mem rfl _ _ _)

end Sys2Proof.Machine
end

section
/-! PROOFS. Test generators (R270, R271): the refusals of GO, the test that it starts, and ABORT. -/

namespace Sys2Proof.Machine

open Sys2Proof

/-- The generator that GO sets up from its registers. -/
def Chip.genOf (m : Chip) (g : Nat) : Gen where
  loop := m.get (R.LOOP_TG_CTL_LOOP g)
  out := m.on (R.LOOP_TG_CTL_TARGET g)
  typ := m.get (R.LOOP_TG_CTL_TYPE g)
  order := m.get (R.LOOP_TG_CTL_ORDER g)
  amp := m.get64 (R.LOOP_TG_AMP_LO g)
  n := m.get (R.LOOP_TG_LEN_LEN g)
  rep := if m.get (R.LOOP_TG_LEN_REPEAT g) = 0 then 1 else m.get (R.LOOP_TG_LEN_REPEAT g)
  f0 := m.get64 (R.LOOP_TG_F0_LO g)
  f1 := m.get64 (R.LOOP_TG_F1_LO g)
  r := 2 ^ m.get (R.LOOP_TG_CTL_ORDER g) - 1

/-- A generator without samples fits no loop. -/
theorem Gen.fit_of_empty {x : Gen} (h : x.n = 0) (period : Nat) : x.fit period = false := by
  simp [Gen.fit, h]

/-- A step of a finite amplitude, with samples, fits every loop. -/
theorem Gen.fit_of_step {x : Gen} (ht : x.typ = 0) (hn : x.n ≠ 0) (ha : Fp.finite x.amp = true) (period : Nat) : x.fit period = true := by
  simp [Gen.fit, ht, ha, Nat.one_le_iff_ne_zero.mpr hn]

theorem Gen.value_of_step {x : Gen} (h : x.typ = 0) (period : Nat) : x.value period = x.amp := by
  simp only [Gen.value, h]

/-! ### GO -/

section
variable {m : Chip} {g : Nat}

theorem Chip.testGo_closed (h : m.unitOpen UK.loop = false) : m.testGo g = m.put (R.LOOP_TG_STAT_CODE g) 0x1 := by
  rw [Chip.testGo, h]
  rfl

theorem Chip.testGo_busy (h : m.unitOpen UK.loop = true) (hg : (assoc m.loop.gens g).isSome = true) :
    m.testGo g = m.put (R.LOOP_TG_STAT_CODE g) 0xE := by
  rw [Chip.testGo, h, hg]
  rfl

/-- GO for a loop that is not enabled, or with parameters that do not fit it. -/
theorem Chip.testGo_unfit (h : m.unitOpen UK.loop = true) (hg : assoc m.loop.gens g = none)
    (hx : (m.loopEnt (m.genOf g).loop).enabled = false ∨ (m.genOf g).fit (m.loopEnt (m.genOf g).loop).period = false) :
    m.testGo g = m.put (R.LOOP_TG_STAT_CODE g) 0x8 := by
  rw [Chip.testGo, if_neg (by simp [h]), if_neg (by simp [hg])]
  refine if_pos ?_
  simp only [Bool.or_eq_true, Bool.not_eq_true']
  exact hx.imp .inl id

/-- GO for an enabled loop beside no other test. -/
theorem Chip.testGo_starts (h : m.unitOpen UK.loop = true) (hg : m.loop.gens = []) (he : (m.loopEnt (m.genOf g).loop).enabled = true)
    (hx : (m.genOf g).fit (m.loopEnt (m.genOf g).loop).period = true) :
    m.testGo g = ((((m.setGens [(g, m.genOf g)]).put (R.LOOP_TG_STAT_CODE g) 0).put (R.LOOP_TG_STAT_RUNNING g) 1).put
      (R.LOOP_TG_STAT_ABORTED g) 0).testBit (m.genOf g).loop := by
  rw [Chip.testGo, if_neg (by simp [h]), if_neg (by simp [hg, assoc])]
  refine (if_neg ?_).trans ?_
  · simp only [hg, List.any_nil, Bool.or_false, Bool.or_eq_true, Bool.not_eq_true', not_or, Bool.not_eq_false]
    exact ⟨he, hx⟩
  · rw [hg]
    rfl

end

/-! ### The registers of a test -/

/-- LOOP_L_STAT.TEST leaves every register below the loops' own. -/
theorem Chip.get_testBit_other (m : Chip) (n : Nat) {f : FRef} (h : f.addr < 0x301000) : (m.testBit n).get f = m.get f :=
  Chip.get_put_other _ (show f.addr ≠ 0x301004 + 0x10 * n by omega) _

/-- LOOP_L_STAT.TEST of a loop with a running test. -/
theorem Chip.get_testBit_same {m : Chip} {g : Nat} {x : Gen} (h : (g, x) ∈ m.loop.gens) :
    (m.testBit x.loop).get (R.LOOP_L_STAT_TEST x.loop) = 1 := by
  have hany : m.loop.gens.any (fun e => e.2.loop == x.loop) = true := List.any_eq_true.mpr ⟨_, h, by simp⟩
  rw [Chip.testBit, hany]
  exact m.get_put_same (f := R.LOOP_L_STAT_TEST x.loop) (Nat.le_refl 27) (show 27 < 32 by decide) 1

/-- LOOP_TG_STAT of a test that starts. -/
theorem Chip.stat_started (m : Chip) (g : Nat) :
    let t := ((m.put (R.LOOP_TG_STAT_CODE g) 0).put (R.LOOP_TG_STAT_RUNNING g) 1).put (R.LOOP_TG_STAT_ABORTED g) 0
    t.get (R.LOOP_TG_STAT_RUNNING g) = 1 ∧ t.get (R.LOOP_TG_STAT_CODE g) = 0 := by
  simp (disch := decide) [R.LOOP_TG_STAT_RUNNING, R.LOOP_TG_STAT_CODE, R.LOOP_TG_STAT_ABORTED, Chip.get_put_field, Chip.get_put_disjoint]

/-- LOOP_TG_STAT of a test that ends by ABORT. -/
theorem Chip.stat_aborted (m : Chip) (g : Nat) :
    let t := ((m.put (R.LOOP_TG_STAT_RUNNING g) 0).put (R.LOOP_TG_STAT_CODE g) 0x6).put (R.LOOP_TG_STAT_ABORTED g) 1
    t.get (R.LOOP_TG_STAT_RUNNING g) = 0 ∧ t.get (R.LOOP_TG_STAT_ABORTED g) = 1 ∧ t.get (R.LOOP_TG_STAT_CODE g) = 0x6 := by
  simp (disch := decide) [R.LOOP_TG_STAT_RUNNING, R.LOOP_TG_STAT_CODE, R.LOOP_TG_STAT_ABORTED, Chip.get_put_field, Chip.get_put_disjoint]

/-! ### ABORT -/

theorem Chip.testEnd_idle {m : Chip} {g : Nat} (h : assoc m.loop.gens g = none) (code : Half) (aborted : Bool) :
    m.testEnd g code aborted = m := by
  rw [Chip.testEnd, h]

/-- ABORT of the one test that runs: no test is left, and LOOP_TG_STAT shows the end. -/
theorem Chip.testEnd_aborts {m : Chip} {g : Nat} {x : Gen} (hg : g < 4) (h : m.loop.gens = [(g, x)]) :
    let t := m.testEnd g CC.superseded true
    t.loop.gens = [] ∧ t.get (R.LOOP_TG_STAT_RUNNING g) = 0 ∧ t.get (R.LOOP_TG_STAT_ABORTED g) = 1 ∧ t.get (R.LOOP_TG_STAT_CODE g) = 0x6 := by
  have hfound : assoc m.loop.gens g = some x := by simp [h, assoc]
  have hrest : unassoc m.loop.gens g = [] := by simp [h, unassoc]
  obtain ⟨hrunning, haborted, hcode⟩ := (m.setGens []).stat_aborted g
  have hstat : ∀ (n : Chip) (e : Event) {f : FRef}, f.addr = 0x300204 + 0x40 * g → ((n.testBit x.loop).post e).get f = n.get f :=
    fun n e f hf => by rw [Chip.get_post _ e (by simp [evrAddr]; omega), Chip.get_testBit_other _ _ (by omega)]
  rw [Chip.testEnd, hfound, hrest]
  exact ⟨congrArg (·.gens) (Chip.post_loop _ _), (hstat _ _ rfl).trans hrunning, (hstat _ _ rfl).trans haborted, (hstat _ _ rfl).trans hcode⟩

end Sys2Proof.Machine
end

section
/-! PROOFS. The capture (R272) and the statement of the loop engine's swaps, single writes, tests and capture (O43). -/

namespace Sys2Proof.Machine

open Sys2Proof

/-! ### Capture -/

/-- The capture armed: no sample held, and waiting for its trigger. -/
def Chip.capArmed (m : Chip) : Chip := ((m.setCap []).put R.LOOP_CAP_STAT_STATE 1).put R.LOOP_CAP_STAT_FILL 0

/-- The capture triggered: recording, with the league time of its trigger. -/
def Chip.capTriggered (m : Chip) : Chip := (m.put R.LOOP_CAP_STAT_STATE 2).put64 R.LOOP_CAP_TRIG_LO m.stamp

/-- A capture runs while it waits for its trigger and while it records. -/
def Chip.capRuns (m : Chip) : Prop := m.get R.LOOP_CAP_STAT_STATE = 1 ∨ m.get R.LOOP_CAP_STAT_STATE = 2

theorem Chip.state_capArmed (m : Chip) : m.capArmed.get R.LOOP_CAP_STAT_STATE = 1 := by
  simp (disch := decide) [Chip.capArmed, R.LOOP_CAP_STAT_STATE, R.LOOP_CAP_STAT_FILL, Chip.get_put_field, Chip.get_put_disjoint]

theorem Chip.fill_capArmed (m : Chip) : m.capArmed.get R.LOOP_CAP_STAT_FILL = 0 :=
  Chip.get_put_same _ (by decide) (by decide) 0

theorem Chip.state_capTriggered (m : Chip) : m.capTriggered.get R.LOOP_CAP_STAT_STATE = 2 :=
  (Chip.get_put64_other _ (by decide) (by decide) _).trans (Chip.get_put_same _ (by decide) (by decide) 2)

theorem Chip.fill_capTriggered (m : Chip) : m.capTriggered.get R.LOOP_CAP_STAT_FILL = m.get R.LOOP_CAP_STAT_FILL :=
  (Chip.get_put64_other _ (by decide) (by decide) _).trans
    (Chip.get_put_apart _ (f := R.LOOP_CAP_STAT_STATE) (g := R.LOOP_CAP_STAT_FILL) rfl (by decide) (by decide) (.inl (by decide)) 2)

theorem Chip.trig_capArmed (m : Chip) : m.capArmed.get R.LOOP_CAP_CTL_TRIG = m.get R.LOOP_CAP_CTL_TRIG :=
  (Chip.get_put_other _ (by decide) 0).trans (Chip.get_put_other _ (by decide) 1)

theorem Chip.capArm_running {m : Chip} (h : m.capRuns) : m.capArm = m := if_pos h

/-- ARM of a capture that does not run: TRIG 0 and 3 trigger at once. -/
theorem Chip.capArm_idle {m : Chip} (h : ¬ m.capRuns) :
    m.capArm = if m.get R.LOOP_CAP_CTL_TRIG = 0 ∨ m.get R.LOOP_CAP_CTL_TRIG = 3 then m.capArmed.capTriggered else m.capArmed := by
  have htrigger : m.capArmed.capTrigger = m.capArmed.capTriggered := if_pos m.state_capArmed
  rw [← htrigger, ← m.trig_capArmed]
  exact if_neg h

/-- The end of a running capture. -/
theorem Chip.capEnd_running {m : Chip} (h : m.capRuns) (why : Nat) : ∃ e, m.capEnd why = (m.put R.LOOP_CAP_STAT_STATE 3).post e :=
  ⟨_, if_pos h⟩

theorem Chip.capEnd_idle {m : Chip} (h : ¬ m.capRuns) (why : Nat) : m.capEnd why = m := if_neg h

/-! ### The statement -/

/-- A swap's refusal answers beside the mode that the command stores. -/
theorem turns_loopSwapGo {b : Bool} {code : Nat} {pre : Chip → Prop}
    (h : ∀ m, pre m → (m.put R.LOOP_SWAP_CMD_MODE (bit b)).swapGo b = (m.put R.LOOP_SWAP_CMD_MODE (bit b)).swapResult code) :
    Turns (.loopSwapGo b) pre (fun m => ((m.put R.LOOP_SWAP_CMD_MODE (bit b)).put R.LOOP_SWAP_RES_DONE 1).put R.LOOP_SWAP_RES_CODE code) :=
  turns_of_act (f := fun m => (m.put R.LOOP_SWAP_CMD_MODE (bit b)).swapGo b) (fun _ => rfl) h

/-- Settles O43: each clause is one case of the command's operation. -/
theorem loopSwapsTestsAndCapture : Obligations.LoopSwapsTestsAndCapture := by
  unfold Obligations.LoopSwapsTestsAndCapture
  refine ⟨fun b => ?closed, fun b => ?pending, fun b => ?unfit, fun b => ?freezes,
    ⟨fun r n w v => ?refused, fun r n w v => ?low, fun r n w v lo => ?high⟩,
    ⟨fun g => ?testClosed, fun g => ?testBusy, fun g => ?testUnfit, fun g => ?testStarts, fun g x => ?aborts, fun g => ?nothing⟩,
    ⟨?arms, ?armRunning, ?stops, ?stopIdle⟩⟩
  case closed => exact turns_loopSwapGo fun m h => Chip.swapGo_closed h
  case pending => exact turns_loopSwapGo fun m ⟨h, hp⟩ => Chip.swapGo_pending h hp
  case unfit =>
    refine turns_loopSwapGo fun m ⟨h, hp, hn⟩ => Chip.swapGo_unfit h hp ?_
    simpa only [Chip.swapSet_put, Chip.loopEnt_put] using hn
  case freezes =>
    refine shows_of_act (f := fun m => (m.put R.LOOP_SWAP_CMD_MODE (bit b)).swapGo b) (fun _ => rfl) fun m ⟨h, hp, hs, hn⟩ => ?_
    have hset := m.swapSet_put (bit b)
    obtain ⟨v, hgo⟩ := Chip.swapGo_freezes (m := m.put R.LOOP_SWAP_CMD_MODE (bit b)) (b := b) h hp (by rwa [hset])
      (by simpa only [hset, Chip.loopEnt_put] using hn)
    obtain ⟨hloops, hmode, hinstant, hbytes⟩ := (m.put R.LOOP_SWAP_CMD_MODE (bit b)).frozen_swapStaged b v
    rw [hgo]
    rw [hset] at hloops hbytes
    rw [Chip.get64_put_other _ (by decide) (by decide)] at hinstant
    exact ⟨(Chip.stat_pending_phase _ 3).1, _, by rw [Chip.pend_setPhase, Chip.pend_put, Chip.pend_setPend], hloops, hmode, hinstant, hbytes⟩
  case refused =>
    refine shows_of_act (f := (·.singleWrite r n.val (4 * w.val) v)) (fun _ => rfl) fun m h => ?_
    rw [Chip.singleWrite_refused h]
    exact ⟨fun sp i => congrArg (AMap.get _ · _) (m.count_mem _ _), m.count_reqs _ _, m.get_rejCnt_loopCount⟩
  case low =>
    refine shows_of_act (f := (·.singleWrite r n.val (4 * w.val) v)) (fun _ => rfl) fun m ⟨h, hw, hc⟩ => ?_
    rw [Chip.singleWrite_low h (by omega) (by omega)]
    exact ⟨fun _ _ => rfl, rfl, by rw [Chip.req_setReq_same]; exact assoc_reassoc_same _ _ _⟩
  case high =>
    refine shows_of_act (f := (·.singleWrite r n.val (4 * w.val) v)) (fun _ => rfl) fun m ⟨h, hw, hc, hlo⟩ => ?_
    obtain ⟨x, hx⟩ := Chip.singleWrite_high (v := v) h n.isLt (off := 4 * w.val) (by omega) (by omega) hlo
    have hbase : m.bankBase n.val + 4 * w.val - 4 = m.bankBase n.val + (4 * w.val - 4) := by omega
    rw [hx]
    refine ⟨?_, Chip.regs_wr _ _ _ _ _, fun sp i hi => ?_⟩
    · rw [← hbase]
      exact Chip.rd_wr_words _ _ _ lo v
    · refine Chip.byte_wr_other _ (fun k hk => ?_) _
      rw [Nat.add_assoc]
      exact hi k hk
  case testClosed => exact turns_of_act (f := (·.testGo g.val)) (fun _ => rfl) fun m h => Chip.testGo_closed h
  case testBusy => exact turns_of_act (f := (·.testGo g.val)) (fun _ => rfl) fun m ⟨h, hg⟩ => Chip.testGo_busy h hg
  case testUnfit =>
    exact turns_of_act (f := (·.testGo g.val)) (fun _ => rfl) fun m ⟨h, hg, hx⟩ =>
      Chip.testGo_unfit h hg (hx.imp_right fun hn => Gen.fit_of_empty hn _)
  case testStarts =>
    refine shows_of_act (f := (·.testGo g.val)) (fun _ => rfl) fun m ⟨h, hg, he, ht, hn, ha⟩ => ?_
    rw [Chip.testGo_starts h hg he (Gen.fit_of_step ht hn ha _)]
    obtain ⟨hrunning, hcode⟩ := (m.setGens [(g.val, m.genOf g.val)]).stat_started g.val
    have hbelow : 0x300204 + 0x40 * g.val < 0x301000 := by omega
    exact ⟨(Chip.get_testBit_other _ _ hbelow).trans hrunning, (Chip.get_testBit_other _ _ hbelow).trans hcode,
      Chip.get_testBit_same (g := g.val) (List.mem_singleton.mpr rfl), m.genOf g.val, rfl, rfl, rfl, rfl, rfl, Gen.value_of_step ht⟩
  case aborts => exact shows_of_act (f := (·.testEnd g.val CC.superseded true)) (fun _ => rfl) fun m h => Chip.testEnd_aborts g.isLt h
  case nothing => exact turns_of_act (f := (·.testEnd g.val CC.superseded true)) (fun _ => rfl) fun m h => Chip.testEnd_idle h _ _
  case arms =>
    refine shows_of_act (f := Chip.capArm) (fun _ => rfl) fun m h => ?_
    by_cases ht : m.get R.LOOP_CAP_CTL_TRIG = 0 ∨ m.get R.LOOP_CAP_CTL_TRIG = 3
    · rw [Chip.capArm_idle h, if_pos ht]
      have hnot : m.get R.LOOP_CAP_CTL_TRIG ∉ [1, 2] := by
        simp only [List.mem_cons, List.not_mem_nil, or_false]
        omega
      exact ⟨rfl, (Chip.fill_capTriggered _).trans m.fill_capArmed, fun _ => ⟨Chip.state_capTriggered _, Chip.get64_put64 _ _ _⟩,
        fun hw => absurd hw hnot⟩
    · rw [Chip.capArm_idle h, if_neg ht]
      exact ⟨rfl, m.fill_capArmed, fun h0 => absurd (.inl h0) ht, fun _ => m.state_capArmed⟩
  case armRunning => exact turns_of_act (f := Chip.capArm) (fun _ => rfl) fun m h => Chip.capArm_running h
  case stops =>
    refine shows_of_act (f := (·.capEnd 1)) (fun _ => rfl) fun m h => ?_
    obtain ⟨e, he⟩ := Chip.capEnd_running h 1
    rw [he]
    exact ⟨(Chip.get_post _ e (by decide)).trans (Chip.get_put_same _ (by decide) (by decide) 3), congrArg (·.cap) (Chip.post_loop _ e)⟩
  case stopIdle => exact turns_of_act (f := (·.capEnd 1)) (fun _ => rfl) fun m h => Chip.capEnd_idle h 1

end Sys2Proof.Machine
end

section
/-! PROOFS. What a unit's write of a point leaves alone: the totals, the metering DSP, the clocks, and the registers of METER. -/

namespace Sys2Proof.Machine

open Sys2Proof

/-! ### What metering keeps -/

/-- What metering keeps and reads: the totals, the DSP, the clocks, and the registers of block 13 (METER). -/
def Chip.metering (m : Chip) : Totals × Meter × Clk × (Nat → Word) :=
  (m.totals, m.meter, m.clk, fun i => m.reg (0x340000 + i % 0x40000))

section
variable {m n : Chip}

theorem Chip.metering_ext (ht : m.totals = n.totals) (hx : m.meter = n.meter) (hc : m.clk = n.clk)
    (hr : ∀ a, 0x340000 ≤ a → m.reg a = n.reg a) : m.metering = n.metering := by
  rw [Chip.metering, Chip.metering, ht, hx, hc]
  exact congrArg (n.totals, n.meter, n.clk, ·) (funext fun i => hr _ (by omega))

variable (h : m.metering = n.metering)
include h

theorem Chip.metering_totals : m.totals = n.totals := congrArg Prod.fst h

theorem Chip.metering_meter : m.meter = n.meter := congrArg (·.2.1) h

theorem Chip.metering_now : m.now = n.now := congrArg (·.2.2.1.league / 2 ^ 32) h

theorem Chip.metering_tot (c : Nat) : m.tot c = n.tot c := by rw [Chip.tot, Chip.tot, Chip.metering_totals h]

theorem Chip.metering_reg {a : Nat} (h0 : 0x340000 ≤ a) (h1 : a < 0x380000) : m.reg a = n.reg a := by
  have e := congrFun (congrArg (·.2.2.2) h) (a - 0x340000)
  simpa only [Chip.metering, show 0x340000 + (a - 0x340000) % 0x40000 = a by omega] using e

theorem Chip.metering_get {f : FRef} (h0 : 0x340000 ≤ f.addr) (h1 : f.addr < 0x380000) : m.get f = n.get f := by
  rw [Chip.get, Chip.get, Chip.metering_reg h h0 h1]

theorem Chip.metering_get64 {f : FRef} (h0 : 0x340000 ≤ f.addr) (h1 : f.addr + 4 < 0x380000) : m.get64 f = n.get64 f := by
  rw [Chip.get64, Chip.get64, Chip.metering_reg h h0 (by omega), Chip.metering_reg h (by omega) h1]

end

/-- What an operation leaves for each entry of a list, it leaves for the list. -/
theorem Chip.foldl_leaves {α β : Type} {v : Chip → β} {f : Chip → α → Chip} (h : ∀ m x, v (f m x) = v m) (l : List α) (m : Chip) :
    v (l.foldl f m) = v m := by
  induction l generalizing m with
  | nil => rfl
  | cons x t ih => exact (ih _).trans (h m x)

/-- A one-bit field reads what was put into it. -/
theorem Chip.get_put_bit (m : Chip) (a : Nat) {i v : Nat} (h : i < 32) (hv : v < 2) : (m.put ⟨a, i, i⟩ v).get ⟨a, i, i⟩ = v := by
  rw [m.get_put_field a i i v (Nat.le_refl i) h, Nat.add_sub_cancel_left]
  exact Nat.mod_eq_of_lt hv

/-- The event rings' registers lie low. -/
theorem evrAddr_above {a : Nat} (h : 0x1200 ≤ a) : evrAddr a = false := by simp [evrAddr]; omega

/-! ### Parts, registers and events -/

@[simp] theorem Chip.metering_withPts (m : Chip) (x) : (m.withPts x).metering = m.metering := rfl
@[simp] theorem Chip.metering_withTxn (m : Chip) (x) : (m.withTxn x).metering = m.metering := rfl
@[simp] theorem Chip.metering_withOut (m : Chip) (x) : (m.withOut x).metering = m.metering := rfl

theorem Chip.metering_put (m : Chip) {f : FRef} (h : f.addr < 0x340000) (v : Nat) : (m.put f v).metering = m.metering :=
  Chip.metering_ext rfl rfl rfl fun _ _ => Chip.reg_put_other _ (by omega) _

theorem Chip.metering_count (m : Chip) {c f : FRef} (hc : c.addr < 0x340000) (hf : f.addr < 0x340000) :
    (m.count c (some f)).metering = m.metering :=
  Chip.metering_ext (m.count_totals c _) (m.count_meter c _) (m.count_clk c _) fun _ _ => m.reg_count_other (by omega) fun g hg => by
    obtain rfl := Option.some.inj hg; omega

@[simp] theorem Chip.metering_post (m : Chip) (e : Event) : (m.post e).metering = m.metering :=
  Chip.metering_ext (m.post_totals e) (m.post_meter e) (m.post_clk e) fun _ _ => m.reg_post e (evrAddr_above (by omega))

@[simp] theorem Chip.metering_postAt (m : Chip) (t : DWord) (e : Event) : (m.postAt t e).metering = m.metering :=
  Chip.metering_ext (m.postAt_totals t e) (m.postAt_meter t e) (m.postAt_clk t e) fun _ _ => m.reg_postAt t e (evrAddr_above (by omega))

@[simp] theorem Chip.metering_postWhen (m : Chip) (t : Option DWord) (e : Event) : (m.postWhen t e).metering = m.metering := by
  cases t <;> simp [Chip.postWhen]

@[simp] theorem Chip.metering_stream (m : Chip) (name : String) (body : List Nat) : (m.stream name body).metering = m.metering := by
  simp [Chip.stream, Chip.emit, apply_ite Chip.metering]

/-! ### The transaction engine -/

@[simp] theorem Chip.metering_setTxs (m : Chip) (l : List Tx) : (m.setTxs l).metering = m.metering :=
  Chip.metering_put _ (by decide) _

@[simp] theorem Chip.metering_sendPlain (m : Chip) (n type cls : Nat) (payload : List Byte) :
    (m.sendPlain n type cls payload).metering = m.metering := by
  simp [Chip.sendPlain, Chip.nextSeq, Chip.setSta, Chip.sendFrame, Chip.emit, apply_ite Chip.metering]

@[simp] theorem Chip.metering_holdOut (m : Chip) (t : Tx) : (m.holdOut t).metering = m.metering := by
  unfold Chip.holdOut
  dsimp only
  split <;> simp

/-- The request of one output is held or queued. -/
@[simp] theorem Chip.metering_singleOut (m : Chip) (tag : BitVec 40) (r : Route) (value second : DWord) :
    (m.singleOut tag r value second).metering = m.metering := by
  simp [Chip.singleOut, Chip.txAccept, apply_ite Chip.metering]

/-! ### The point store -/

@[simp] theorem Chip.metering_store (m : Chip) (i : Nat) (r : PointRec) : (m.store i r).metering = m.metering := by
  simp [Chip.store, Chip.setRec]

@[simp] theorem Chip.metering_setForces (m : Chip) (l : List (Nat × Force)) : (m.setForces l).metering = m.metering :=
  Chip.metering_put _ (by decide) _

@[simp] theorem Chip.metering_ptCount (m : Chip) {i : Nat} (h : i < 4) : (m.ptCount i).metering = m.metering :=
  m.metering_count (show 0x140010 + 4 * i < _ by omega) (show 0x140004 < _ by decide)

@[simp] theorem Chip.metering_offerSubs (m : Chip) (tag : BitVec 40) (image : List Byte) : (m.offerSubs tag image).metering = m.metering :=
  Chip.foldl_leaves (fun _ _ => by simp [apply_ite Chip.metering]) _ _

@[simp] theorem Chip.metering_settle (m : Chip) (i : Nat) (d : Desc) (old new : PointRec) (t : Option DWord) :
    (m.settle i d old new t).metering = m.metering := by
  simp [Chip.settle, apply_ite Chip.metering]

@[simp] theorem Chip.metering_touch (m : Chip) (i : Nat) : (m.touch i).metering = m.metering := by
  simp [Chip.touch, Chip.pairEvent, Chip.pairMark, apply_ite Chip.metering]

@[simp] theorem Chip.metering_fold (m : Chip) (i : Nat) : (m.fold i).metering = m.metering := by
  unfold Chip.fold
  split <;> simp [Chip.dropOverlay, apply_ite Chip.metering]

@[simp] theorem Chip.metering_writeLocal (m : Chip) (i : Nat) (w : PtWrite) : (m.writeLocal i w).2.metering = m.metering := by
  unfold Chip.writeLocal
  dsimp only
  split
  · simp
  · split <;>
      simp [Chip.refuseWrite, Chip.pairMark, Chip.pairEvent, Chip.holdWrite, Chip.dropForce, Chip.routeOut, apply_ite Chip.metering]

@[simp] theorem Chip.metering_unitWrite (m : Chip) (tag : BitVec 40) (v second : DWord) (q : Half) :
    (m.unitWrite tag v second q).metering = m.metering := by
  unfold Chip.unitWrite Chip.ptWrite
  split
  · rfl
  · split <;> simp [Chip.rangeFault]

end Sys2Proof.Machine
end

section
/-! PROOFS. Waveform channels and pulse inputs (R276, R279, R282, R283): stuck bitstreams, RMS windows, dips, pulses and their chatter. -/

namespace Sys2Proof.Machine

open Sys2Proof

/-! ### Stuck bitstreams (R276) -/

theorem Chip.modFaulted_eq {m : Chip} {c : Nat} {b : Bool} (h : m.get (R.METER_SDM_STAT_MOD_FAULT c) = bit b) : m.modFaulted c = b := by
  rw [Chip.modFaulted, Chip.on, h]
  cases b <;> rfl

/-- A channel whose fault stands as it is said, or that does not work, changes nothing. -/
theorem Chip.modFault_idle {m : Chip} {c : Nat} {b : Bool}
    (h : ¬ (m.hasWave = true ∧ m.dspOn = true ∧ m.on (R.METER_SDM_CFG_EN c) = true) ∨ m.get (R.METER_SDM_STAT_MOD_FAULT c) = bit b) :
    m.modFault c b = m := by
  refine if_pos ?_
  obtain h | h := h
  · simp only [Bool.or_eq_true, Bool.not_eq_true']
    grind
  · simp [Chip.modFaulted_eq h]

/-- A fault that sets in or ends shows in MOD_FAULT, and is posted. -/
theorem Chip.modFault_turns {m : Chip} {c : Nat} {b : Bool}
    (h : m.hasWave = true ∧ m.dspOn = true ∧ m.on (R.METER_SDM_CFG_EN c) = true) (hf : m.get (R.METER_SDM_STAT_MOD_FAULT c) = bit !b) :
    m.modFault c b = (m.put (R.METER_SDM_STAT_MOD_FAULT c) (bit b)).post (ev 13 0x0707 3 c 0 (le 1 (bit b))) := by
  obtain ⟨hw, hd, he⟩ := h
  refine if_neg ?_
  simp [hw, hd, he, Chip.modFaulted_eq hf]

/-- MOD_FAULT of a working channel turns, and no register beside its own does. -/
theorem Chip.stat_modFault {m : Chip} {c : Nat} {b : Bool}
    (h : m.hasWave = true ∧ m.dspOn = true ∧ m.on (R.METER_SDM_CFG_EN c) = true) (hf : m.get (R.METER_SDM_STAT_MOD_FAULT c) = bit !b) :
    (m.modFault c b).get (R.METER_SDM_STAT_MOD_FAULT c) = bit b ∧ SameRegs [(R.METER_SDM_STAT c).addr] m (m.modFault c b) := by
  rw [Chip.modFault_turns h hf]
  refine ⟨?_, fun a ha hr => ?_⟩
  · rw [Chip.get_post _ _ (evrAddr_above (Nat.le_add_right_of_le (by decide)))]
    exact m.get_put_bit _ (by decide) (by cases b <;> decide)
  · rw [Chip.reg_post _ _ (by simpa [evrAddr] using hr)]
    exact Chip.reg_put_other (f := R.METER_SDM_STAT_MOD_FAULT c) _ (fun e => ha (List.mem_singleton.mpr e)) _

/-! ### RMS windows (R279) -/

theorem Chip.windowEnd_takes {m : Chip} {p : Nat} (w : MWindow) (h : m.hasWave = true) (hd : m.dspOn = true) (hp : p < 10)
    (he : m.on (R.METER_MP_CFG_EN p) = true) :
    m.windowEnd p w = m.withMeter { m.meter with windows := AMap.put {} p w m.meter.windows } := by
  refine if_pos ?_
  rw [if_pos hp, h, hd, he]
  rfl

theorem Chip.windowEnd_off {m : Chip} (p : Nat) (w : MWindow) (h : m.dspOn = false ∨ m.hasWave = false) : m.windowEnd p w = m := by
  refine if_neg ?_
  obtain h | h := h <;> simp [h]

/-! ### Dips (R282) -/

/-- The half-cycle voltage of a place, in per cent of the declared voltage. -/
def Chip.voltPct (m : Chip) (p : Nat) (v : List DWord) (i : Nat) : DWord :=
  Fp.fdiv (Fp.fmul (v.getD i 0) (Fp.fofNat 100)) (m.get64 (R.METER_MP_UDECL_LO p))

/-- The dip threshold of a point. -/
def Chip.dipPct (m : Chip) (p : Nat) : DWord := Fp.fofNat (m.get (R.METER_MP_THR_DIP p))

/-- The hysteresis of a point. -/
def Chip.hystPct (m : Chip) (p : Nat) : DWord := Fp.fdiv (Fp.fofNat (m.get (R.METER_MP_THR_HYST p))) (Fp.fofNat 10)

/-- The dip of a point after a half cycle: any used voltage below the threshold starts it, any below it plus the hysteresis keeps it. -/
def Chip.dipAfter (m : Chip) (p : Nat) (v : List DWord) : Option VoltEv :=
  let used := usedPlaces (m.get (R.METER_MP_CFG_WIRING p))
  let low := fun i => Fp.gt (m.dipPct p) (m.voltPct p v i)
  (stepVolt m.now (assoc m.meter.dips p) (used.any low) (used.any fun i => Fp.gt (Fp.fadd (m.dipPct p) (m.hystPct p)) (m.voltPct p v i))
    ((used.map (m.voltPct p v)).foldl Fp.fmin (m.voltPct p v 0)) Fp.fmin ((used.filter low).foldl (fun a i => a + 2 ^ i) 0)).1

section
variable {m : Chip} {p : Nat} {v : DWord} {e : VoltEv} (hw : m.get (R.METER_MP_CFG_WIRING p) = 2)
include hw

/-- A single-phase point without a dip starts one below the threshold. -/
theorem Chip.dipAfter_starts (h : assoc m.meter.dips p = none) (hv : Fp.gt (m.dipPct p) (m.voltPct p [v] 0) = true) :
    ∃ e, m.dipAfter p [v] = some e ∧ e.start = m.now ∧ e.mask = 1 := by
  simp [Chip.dipAfter, stepVolt, usedPlaces, hw, h, hv]

/-- A dip of a single-phase point goes on below the threshold plus the hysteresis. -/
theorem Chip.dipAfter_stays (h : assoc m.meter.dips p = some e)
    (hv : Fp.gt (Fp.fadd (m.dipPct p) (m.hystPct p)) (m.voltPct p [v] 0) = true) : ∃ f, m.dipAfter p [v] = some f ∧ f.start = e.start := by
  simp [Chip.dipAfter, stepVolt, usedPlaces, hw, h, hv]

/-- It ends at or above that. -/
theorem Chip.dipAfter_ends (h : assoc m.meter.dips p = some e)
    (hv : Fp.gt (Fp.fadd (m.dipPct p) (m.hystPct p)) (m.voltPct p [v] 0) = false) : m.dipAfter p [v] = none := by
  simp [Chip.dipAfter, stepVolt, usedPlaces, hw, h, hv]

end

/-- A list of voltage events in which point p has the given one, or none. -/
def keepVolt (l : List (Nat × VoltEv)) (p : Nat) : Option VoltEv → List (Nat × VoltEv)
  | some e => reassoc l p e
  | none => unassoc l p

@[simp] theorem assoc_keepVolt (l : List (Nat × VoltEv)) (p : Nat) (x : Option VoltEv) : assoc (keepVolt l p x) p = x := by
  cases x
  · exact assoc_unassoc_same _ _
  · exact assoc_reassoc_same _ _ _

/-- The end of a voltage event posts and changes nothing of the DSP's own. -/
theorem Chip.meter_voltEnd (m : Chip) (p : Nat) (code : Half) (sev : Nat) (x : Option VoltEv) :
    (match x with | some e => m.voltEnd p code sev e | none => m).meter = m.meter := by
  cases x
  · rfl
  · exact m.post_meter _

/-- A half cycle of an enabled point takes its dip one step. -/
theorem Chip.dips_halfCycle {m : Chip} {p : Nat} (h : m.hasWave = true) (hd : m.dspOn = true) (he : m.on (R.METER_MP_CFG_EN p) = true)
    (v : List DWord) : (m.halfCycle p v).meter.dips = keepVolt m.meter.dips p (m.dipAfter p v) := by
  unfold Chip.halfCycle
  rw [if_neg (by simp [h, hd, he])]
  exact congrArg (·.dips) ((Chip.meter_voltEnd _ _ _ _ _).trans <| (Chip.meter_voltEnd _ _ _ _ _).trans <|
    Chip.meter_voltEnd _ _ _ _ _)

/-! ### Pulse inputs (R283) -/

/-- Whether a pulse follows the last one of its input within MINPER. -/
def Chip.quickPulse (m : Chip) (p t : Nat) : Bool :=
  match assoc m.meter.lastPulse p with
  | some s => m.get (R.METER_PI_CFG_MINPER p) != 0 && decide (t < s + m.get (R.METER_PI_CFG_MINPER p) * 100000)
  | none => false

theorem Chip.quickPulse_within {m : Chip} {p t s : Nat} (hs : assoc m.meter.lastPulse p = some s)
    (h0 : m.get (R.METER_PI_CFG_MINPER p) ≠ 0) (ht : t < s + m.get (R.METER_PI_CFG_MINPER p) * 100000) : m.quickPulse p t = true := by
  simp [Chip.quickPulse, hs, h0, ht]

/-- The DSP once a pulse of an input has been counted. -/
def Meter.pulsed (x : Meter) (p t : Nat) : Meter :=
  { x with pulses := AMap.put 0 p (AMap.get 0 x.pulses p + 1) x.pulses, lastPulse := reassoc x.lastPulse p t }

/-- The chip once a pulse of an input has been counted. -/
def Chip.pulsed (m : Chip) (p t : Nat) : Chip := (m.put (R.METER_PI_STAT_LEVEL p) 1).setMeter (m.meter.pulsed p t)

/-- The chip once a pulse of an input has been found quick. -/
def Chip.chattered (m : Chip) (p : Nat) : Chip :=
  let m1 := m.put (R.METER_PI_STAT_CHATTER p) 1
  if m1.meter.chatter.contains p then m1
  else (m1.setMeter { m1.meter with chatter := p :: m1.meter.chatter }).post (ev 13 0x0708 2 p m1.totals.interval [])

/-- A pulse found quick shows in CHATTER, and is counted all the same. -/
theorem Chip.chattered_shows (m : Chip) (p : Nat) :
    (m.chattered p).get (R.METER_PI_STAT_CHATTER p) = 1 ∧ (m.chattered p).get (R.METER_PI_STAT_LEVEL p) = m.get (R.METER_PI_STAT_LEVEL p) ∧
      ∃ l, (m.chattered p).meter = { m.meter with chatter := l } := by
  have hchatter : (m.put (R.METER_PI_STAT_CHATTER p) 1).get (R.METER_PI_STAT_CHATTER p) = 1 := m.get_put_bit _ (by decide) (by decide)
  have hlevel : (m.put (R.METER_PI_STAT_CHATTER p) 1).get (R.METER_PI_STAT_LEVEL p) = m.get (R.METER_PI_STAT_LEVEL p) :=
    m.get_put_disjoint _ 1 (by decide) (by decide) (.inr (by decide))
  have hring : evrAddr (0x340C04 + 8 * p) = false := evrAddr_above (Nat.le_add_right_of_le (by decide))
  unfold Chip.chattered
  dsimp only
  split
  · exact ⟨hchatter, hlevel, _, rfl⟩
  · exact ⟨(Chip.get_post _ _ hring).trans hchatter, (Chip.get_post _ _ hring).trans hlevel, _, Chip.post_meter _ _⟩

theorem Chip.pulseEdge_off {m : Chip} {p : Nat} (h : ¬ (m.dspOn = true ∧ m.on (R.METER_PI_CFG_EN p) = true)) (level : Bool) (t : Nat) :
    m.pulseEdge p level t = m := by
  refine if_pos ?_
  simp only [Bool.or_eq_true, Bool.not_eq_true']
  grind

section
variable {m : Chip} {p : Nat} (h : m.dspOn = true ∧ m.on (R.METER_PI_CFG_EN p) = true)
include h

theorem Chip.pulseEdge_falls (t : Nat) : m.pulseEdge p false t = m.put (R.METER_PI_STAT_LEVEL p) 0 := by
  obtain ⟨hd, he⟩ := h
  simp [Chip.pulseEdge, hd, he, bit]

/-- A rising edge counts one pulse; a quick one sets CHATTER, and is posted once in an interval. -/
theorem Chip.pulseEdge_rises (t : Nat) :
    m.pulseEdge p true t = if m.quickPulse p t = true then (m.pulsed p t).chattered p else m.pulsed p t := by
  obtain ⟨hd, he⟩ := h
  have hmin : (m.put (R.METER_PI_STAT_LEVEL p) 1).get (R.METER_PI_CFG_MINPER p) = m.get (R.METER_PI_CFG_MINPER p) :=
    Chip.get_put_other _ (show 0x340C00 + 8 * p ≠ 0x340C04 + 8 * p by omega) _
  unfold Chip.pulseEdge
  rw [if_neg (by simp [hd, he])]
  simp only [bit, Bool.not_true, Bool.false_eq_true, if_false, if_true, hmin]
  by_cases hq : m.quickPulse p t = true
  · rw [if_pos hq]
    exact if_neg (show ¬ (!m.quickPulse p t) = true by simp [hq])
  · rw [if_neg hq]
    exact if_pos (show (!m.quickPulse p t) = true by simp [hq])

/-- A rising edge shows the level, one more pulse, and its instant. -/
theorem Chip.pulseEdge_counts (t : Nat) :
    (m.pulseEdge p true t).get (R.METER_PI_STAT_LEVEL p) = 1 ∧
      AMap.get 0 (m.pulseEdge p true t).meter.pulses p = AMap.get 0 m.meter.pulses p + 1 ∧
      assoc (m.pulseEdge p true t).meter.lastPulse p = some t := by
  have hlevel : (m.pulsed p t).get (R.METER_PI_STAT_LEVEL p) = 1 := m.get_put_bit _ (by decide) (by decide)
  have hpulses : AMap.get 0 (m.pulsed p t).meter.pulses p = AMap.get 0 m.meter.pulses p + 1 := AMap.get_put_same _ _ _ _
  have hlast : assoc (m.pulsed p t).meter.lastPulse p = some t := assoc_reassoc_same _ _ _
  rw [Chip.pulseEdge_rises h]
  split
  · obtain ⟨-, hkept, l, hmeter⟩ := (m.pulsed p t).chattered_shows p
    rw [hkept, hmeter]
    exact ⟨hlevel, hpulses, hlast⟩
  · exact ⟨hlevel, hpulses, hlast⟩

end

end Sys2Proof.Machine
end

section
/-! PROOFS. Records of the totals (R289, R290): reading an intact record, writing one, and what a fold adds. -/

namespace Sys2Proof.Machine

open Sys2Proof

/-! ### Records -/

/-- A record as it is written: complements, next generation, CRC. -/
def TotRec.seal (r : TotRec) : TotRec :=
  let r1 := { r with totalC := ~~~r.total, wrapC := ~~~r.wrap, gen := r.gen + 1 }
  { r1 with crc := crc32c r1.body }

/-- A record that was written is intact, whatever it holds. -/
theorem TotRec.seal_sound (r : TotRec) :
    r.seal.intact = true ∧ r.seal.totalC = ~~~r.seal.total ∧ r.seal.wrapC = ~~~r.seal.wrap ∧ r.seal.crc = crc32c r.seal.body := by
  have hcrc : r.seal.crc = crc32c r.seal.body := rfl
  refine ⟨?_, rfl, rfl, hcrc⟩
  rw [TotRec.intact, ← hcrc]
  simp [TotRec.seal]

/-- A record that takes an interval's count. -/
def TotRec.folded (r : TotRec) (count interval ended : Nat) (clamped gap : Bool) : TotRec :=
  ({ r with
      total := BitVec.ofNat 64 (r.total.toNat + count)
      wrap := if decide (2 ^ 64 ≤ r.total.toNat + count) && r.wrap != 0xFFFF then r.wrap + 1 else r.wrap
      last := BitVec.ofNat 32 interval
      ended := BitVec.ofNat 64 ended }.setFlag 1 clamped).setFlag 2 gap

section
variable (r : TotRec) (count interval ended : Nat) (clamped gap : Bool)

/-- Without a carry the total takes the count and the wrap count stays. -/
theorem TotRec.folded_within (h : r.total.toNat + count < 2 ^ 64) :
    (r.folded count interval ended clamped gap).total.toNat = r.total.toNat + count ∧ (r.folded count interval ended clamped gap).wrap = r.wrap := by
  refine ⟨(BitVec.toNat_ofNat _ _).trans (Nat.mod_eq_of_lt h), if_neg ?_⟩
  rw [decide_eq_false (Nat.not_le.mpr h), Bool.false_and]
  exact Bool.false_ne_true

/-- A carry out of bit 63 keeps the total modulo 2^64 and goes to the wrap count. -/
theorem TotRec.folded_carries (h : 2 ^ 64 ≤ r.total.toNat + count) (hw : r.wrap ≠ 0xFFFF) :
    (r.folded count interval ended clamped gap).total = r.total + BitVec.ofNat 64 count ∧
      (r.folded count interval ended clamped gap).wrap = r.wrap + 1 := by
  constructor
  · show BitVec.ofNat 64 (r.total.toNat + count) = _
    rw [BitVec.ofNat_add, BitVec.ofNat_toNat, BitVec.setWidth_eq]
  · exact if_pos (by rw [decide_eq_true h, Bool.true_and]; exact bne_iff_ne.mpr hw)

end

/-- Both copies of a record that was written hold it sealed. -/
@[simp] theorem Chip.tot_setTot_same (m : Chip) (c : Nat) (r : TotRec) : (m.setTot c r).tot c = (r.seal, r.seal) :=
  AMap.get_put_same _ _ _ _

/-- An intact primary is read as it stands. -/
theorem Chip.readTot_intact {m : Chip} {c : Nat} (h : (m.tot c).1.intact = true) : m.readTot c = ((m.tot c).1, m) := by
  unfold Chip.readTot
  exact if_pos h

/-! ### Folds -/

/-- The chip once a record has been written and its carry counted. -/
def Chip.tookFold (m : Chip) (c : Nat) (r : TotRec) (carry : Bool) : Chip := if carry then (m.setTot c r).meterCount 0 else m.setTot c r

theorem Chip.foldChan_bad {m : Chip} {c : Nat} (h : (m.tot c).1.intact = true) (hb : (m.tot c).1.bad = true) (count interval ended : Nat)
    (clamped gap skip : Bool) : m.foldChan c count interval ended clamped gap skip = m := by
  unfold Chip.foldChan
  rw [Chip.readTot_intact h]
  exact if_pos (by rw [hb, Bool.true_or])

/-- A fold into an intact record that is not BAD and not skipped; the event and the point's write leave metering alone. -/
theorem Chip.metering_foldChan {m : Chip} {c interval : Nat} {skip : Bool} (h : (m.tot c).1.intact = true) (hb : (m.tot c).1.bad = false)
    (hs : skip = true → newer (BitVec.ofNat 32 interval) (m.tot c).1.last = true) (count ended : Nat) (clamped gap : Bool) :
    (m.foldChan c count interval ended clamped gap skip).metering =
      (m.tookFold c ((m.tot c).1.folded count interval ended clamped gap) (decide (2 ^ 64 ≤ (m.tot c).1.total.toNat + count))).metering := by
  unfold Chip.foldChan
  rw [Chip.readTot_intact h]
  refine (congrArg Chip.metering (if_neg ?_)).trans ?_
  · rw [hb, Bool.false_or]
    cases skip <;> simp_all
  · simp only [apply_ite Chip.metering, Chip.metering_unitWrite, ite_self]
    unfold Chip.tookFold
    split <;> simp [TotRec.folded]

section
variable (m : Chip) (c : Nat) (r : TotRec) (carry : Bool)

@[simp] theorem Chip.meter_tookFold : (m.tookFold c r carry).meter = m.meter := by
  unfold Chip.tookFold
  split
  · exact Chip.count_meter _ _ _
  · rfl

theorem Chip.totals_tookFold : (m.tookFold c r carry).totals = (m.setTot c r).totals := by
  unfold Chip.tookFold
  split
  · exact Chip.count_totals _ _ _
  · rfl

@[simp] theorem Chip.tot_tookFold_same : (m.tookFold c r carry).tot c = (r.seal, r.seal) := by
  rw [Chip.tot, Chip.totals_tookFold]
  exact m.tot_setTot_same c r

/-- A carry counts in METER_WRAP_CNT. -/
theorem Chip.wrapCnt_tookFold : (m.tookFold c r true).get R.METER_WRAP_CNT = min 0xFFFFFFFF (m.get R.METER_WRAP_CNT + 1) :=
  Chip.get_count_min (m.setTot c r) (c := R.METER_WRAP_CNT) (sat := some ⟨0x340004, 26, 26⟩) rfl rfl
    fun f hf => by obtain rfl := Option.some.inj hf; decide

end

/-! ### TOTAL_FOLD (R289) -/

/-- The CLOSING bank is folded: nothing is left to fold, and FOLDING is clear. -/
def Chip.foldEnded (m : Chip) : Chip :=
  ((m.setTotals { m.totals with closing := [], closingDue := false }).setMeter
    { m.meter with foldV := [], foldClamp := [], gapRecs := false }).put R.METER_STAT_FOLDING 0

@[simp] theorem Chip.tot_foldEnded (m : Chip) (c : Nat) : m.foldEnded.tot c = m.tot c := rfl

theorem Chip.folding_foldEnded (m : Chip) : m.foldEnded.get R.METER_STAT_FOLDING = 0 := Chip.get_put_bit _ _ (by decide) (by decide)

theorem Chip.wrapCnt_foldEnded (m : Chip) : m.foldEnded.get R.METER_WRAP_CNT = m.get R.METER_WRAP_CNT := Chip.get_put_other _ (by decide) 0

theorem Chip.totalFold_idle {m : Chip} (h : m.totals.closingDue = false) (hv : m.meter.foldV = []) : m.totalFold = m :=
  if_pos (by rw [h, hv]; rfl)

/-- The record of a channel once it has taken its count of the CLOSING bank. -/
def Chip.closed (m : Chip) (c : Nat) : TotRec :=
  (m.tot c).1.folded (AMap.get 0 m.totals.closing c) m.totals.previous m.totals.start (m.meter.foldClamp.contains c) m.meter.gapRecs

section
variable {m : Chip} {c : Nat} (h : m.totals.closingDue = true) (hm : m.totals.map = [c]) (hv : m.meter.foldV = [])
include h hm hv

/-- The fold of a CLOSING bank of one channel. -/
theorem Chip.totalFold_one :
    m.totalFold = (m.foldChan c (AMap.get 0 m.totals.closing c) m.totals.previous m.totals.start (m.meter.foldClamp.contains c)
      m.meter.gapRecs false).foldEnded := by
  unfold Chip.totalFold
  rw [if_neg (by simp [h]), h, hm, hv]
  rfl

theorem Chip.closingDue_totalFold : m.totalFold.totals.closingDue = false := by
  rw [Chip.totalFold_one h hm hv]
  rfl

theorem Chip.folding_totalFold : m.totalFold.get R.METER_STAT_FOLDING = 0 := by
  rw [Chip.totalFold_one h hm hv, Chip.folding_foldEnded]

variable (hi : (m.tot c).1.intact = true)
include hi

/-- A BAD record takes nothing. -/
theorem Chip.tot_totalFold_bad (hb : (m.tot c).1.bad = true) : m.totalFold.tot c = m.tot c := by
  rw [Chip.totalFold_one h hm hv, Chip.foldChan_bad hi hb, Chip.tot_foldEnded]

variable (hb : (m.tot c).1.bad = false)
include hb

theorem Chip.tot_totalFold : m.totalFold.tot c = ((m.closed c).seal, (m.closed c).seal) := by
  rw [Chip.totalFold_one h hm hv, Chip.tot_foldEnded,
    Chip.metering_tot (Chip.metering_foldChan hi hb (fun e => absurd e Bool.false_ne_true) _ _ _ _), Chip.tot_tookFold_same]
  rfl

theorem Chip.wrapCnt_totalFold (hc : 2 ^ 64 ≤ (m.tot c).1.total.toNat + AMap.get 0 m.totals.closing c) :
    m.totalFold.get R.METER_WRAP_CNT = min 0xFFFFFFFF (m.get R.METER_WRAP_CNT + 1) := by
  rw [Chip.totalFold_one h hm hv, Chip.wrapCnt_foldEnded,
    Chip.metering_get (Chip.metering_foldChan hi hb (fun e => absurd e Bool.false_ne_true) _ _ _ _) (by decide) (by decide),
    decide_eq_true hc, Chip.wrapCnt_tookFold]

end

end Sys2Proof.Machine
end

section
/-! PROOFS. Accumulation intervals (R288, R289, R292): what a residue update shows, and the interval that a close opens. -/

namespace Sys2Proof.Machine

open Sys2Proof

/-! ### Residues (R276, R292) -/

/-- What a list of keys sets, each to what belongs to it, each of them reads. -/
theorem AMap.get_foldl_put {α : Type} [DecidableEq α] (d : α) (f : Nat → α) {l : List Nat} {c : Nat} (z : AMap α)
    (h : AMap.get d z c = f c ∨ c ∈ l) : AMap.get d (l.foldl (fun a n => AMap.put d n (f n) a) z) c = f c := by
  induction l generalizing z with
  | nil => exact h.resolve_right List.not_mem_nil
  | cons n t ih =>
    refine ih _ ?_
    by_cases e : c = n
    · exact .inl (by rw [e, AMap.get_put_same])
    · exact h.imp (AMap.get_put_other d d e _ _).trans fun hc => (List.mem_cons.mp hc).resolve_left e

/-- Channels marked OVR read so. -/
theorem Chip.get_ovr_foldl {l : List Nat} {c : Nat} (m : Chip) (h : m.get (R.METER_SDM_STAT_OVR c) = 1 ∨ c ∈ l) :
    (l.foldl (fun a n => a.put (R.METER_SDM_STAT_OVR n) 1) m).get (R.METER_SDM_STAT_OVR c) = 1 := by
  induction l generalizing m with
  | nil => exact h.resolve_right List.not_mem_nil
  | cons n t ih =>
    refine ih _ ?_
    by_cases e : c = n
    · exact .inl (e ▸ m.get_put_bit _ (by decide) (by decide))
    · exact h.imp (Chip.get_put_other _ (show 0x340104 + 0x10 * c ≠ 0x340104 + 0x10 * n by omega) _).trans
        fun hc => (List.mem_cons.mp hc).resolve_left e

/-- The channel table lies in memory. -/
theorem Chip.mchan_of_mem {m n : Chip} (h : m.mem = n.mem) : m.mchan = n.mchan :=
  funext fun _ => congrArg mchanOf (Chip.bytes_of_mem h _ _ _)

theorem Chip.slotChans_of_mem {m n : Chip} (h : m.mem = n.mem) : m.slotChans = n.slotChans := by
  simp only [Chip.slotChans, Chip.mchans, Chip.rows, Chip.mchan_of_mem h, h]

/-- A PULSE channel has accumulated its pulses by their weight, and its fraction. -/
theorem Chip.chanLsb_pulse {m : Chip} {c : Nat} (h : (m.mchan c).kind = 2) (l : List Energy) :
    m.chanLsb l c = Fp.fadd (Fp.fofNat (AMap.get 0 m.meter.pulses (m.mchan c).source * (m.mchan c).param)) (AMap.get 0 m.meter.frac c) := by
  unfold Chip.chanLsb
  simp only [h]

/-- The OVR marks of a residue update. -/
def Chip.marked (m : Chip) (ovr : List Nat) : Chip := (ovr.filter (· < 64)).foldl (fun a c => a.put (R.METER_SDM_STAT_OVR c) 1) m

theorem Chip.residue_off {m : Chip} (h : m.dspOn = false) (l : List Energy) (ovr : List Nat) : m.residue l ovr = m :=
  if_pos (by rw [h]; rfl)

/-- A residue update marks the channels of `ovr` and sets every slot to its channel's whole LSB. -/
theorem Chip.residue_on {m : Chip} (h : m.dspOn = true) (l : List Energy) (ovr : List Nat) :
    m.residue l ovr = (m.marked ovr).setTotals { (m.marked ovr).totals with
      opened := (m.marked ovr).slotChans.foldl (fun a n => AMap.put 0 n ((wholeLsb ((m.marked ovr).chanLsb l n)).1 % 2 ^ 32) a) [] } :=
  if_neg (by rw [h]; exact Bool.false_ne_true)

theorem Chip.ovr_residue {m : Chip} {c : Nat} {ovr : List Nat} (h : m.dspOn = true) (hc : c ∈ ovr) (hlt : c < 64) (l : List Energy) :
    (m.residue l ovr).get (R.METER_SDM_STAT_OVR c) = 1 := by
  rw [Chip.residue_on h]
  exact Chip.get_ovr_foldl _ (.inr (List.mem_filter.mpr ⟨hc, decide_eq_true hlt⟩))

/-- The slot of a PULSE channel after a residue update. -/
theorem Chip.slot_residue {m : Chip} {c : Nat} (h : m.dspOn = true) (hc : c ∈ m.slotChans) (hk : (m.mchan c).kind = 2) (l : List Energy)
    (ovr : List Nat) :
    AMap.get 0 (m.residue l ovr).totals.opened c =
      (wholeLsb (Fp.fadd (Fp.fofNat (AMap.get 0 m.meter.pulses (m.mchan c).source * (m.mchan c).param)) (AMap.get 0 m.meter.frac c))).1 % 2 ^ 32 := by
  have hmem : (m.marked ovr).mem = m.mem := Chip.foldl_leaves (v := Chip.mem) (f := fun a c => a.put (R.METER_SDM_STAT_OVR c) 1) (fun _ _ => rfl) _ m
  have hmeter : (m.marked ovr).meter = m.meter := Chip.foldl_leaves (v := Chip.meter) (f := fun a c => a.put (R.METER_SDM_STAT_OVR c) 1) (fun _ _ => rfl) _ m
  have hchan := Chip.mchan_of_mem hmem
  rw [Chip.residue_on h, Chip.slotChans_of_mem hmem]
  refine (AMap.get_foldl_put 0 (fun n => (wholeLsb ((m.marked ovr).chanLsb l n)).1 % 2 ^ 32) [] (.inr hc)).trans ?_
  rw [Chip.chanLsb_pulse (by rw [hchan, hk]), hchan, hmeter]

/-! ### The number and the instant of an interval -/

/-- The number of the open interval and the league time. -/
def Chip.epoch (m : Chip) : Nat × Nat := (m.totals.interval, m.now)

theorem Chip.epoch_of_metering {m n : Chip} (h : m.metering = n.metering) : m.epoch = n.epoch := by
  rw [Chip.epoch, Chip.epoch, Chip.metering_totals h, Chip.metering_now h]

@[simp] theorem Chip.epoch_setTot (m : Chip) (c : Nat) (r : TotRec) : (m.setTot c r).epoch = m.epoch := rfl

@[simp] theorem Chip.epoch_post (m : Chip) (e : Event) : (m.post e).epoch = m.epoch := Chip.epoch_of_metering (m.metering_post e)

@[simp] theorem Chip.epoch_meterCount (m : Chip) (k : Nat) : (m.meterCount k).epoch = m.epoch := by
  simp [Chip.epoch, Chip.meterCount, Chip.now]

@[simp] theorem Chip.epoch_unitWrite (m : Chip) (tag : BitVec 40) (v second : DWord) (q : Half) : (m.unitWrite tag v second q).epoch = m.epoch :=
  Chip.epoch_of_metering (m.metering_unitWrite tag v second q)

@[simp] theorem Chip.epoch_readTot (m : Chip) (c : Nat) : (m.readTot c).2.epoch = m.epoch := by
  unfold Chip.readTot
  dsimp only
  split
  · rfl
  · split <;> simp

@[simp] theorem Chip.epoch_foldChan (m : Chip) (c count interval ended : Nat) (clamped gap skip : Bool) :
    (m.foldChan c count interval ended clamped gap skip).epoch = m.epoch := by
  simp [Chip.foldChan, apply_ite Chip.epoch]

theorem Chip.epoch_foldEnded (m : Chip) : m.foldEnded.epoch = m.epoch := rfl

theorem Chip.epoch_totalFold (m : Chip) : m.totalFold.epoch = m.epoch := by
  unfold Chip.totalFold
  dsimp only
  split
  · rfl
  · exact (Chip.epoch_foldEnded _).trans (Chip.foldl_leaves (fun _ _ => Chip.epoch_foldChan _ _ _ _ _ _ _ _) _ m)

/-! ### INTERVAL_CLOSE (R288) -/

/-- In chip n the interval behind that of chip m has opened, and the one of m waits for its fold. -/
structure Chip.Opens (m n : Chip) : Prop where
  interval : n.totals.interval = (m.totals.interval + 1) % 2 ^ 32
  start : n.totals.start = m.now
  due : n.totals.closingDue = true
  isOpen : n.totals.isOpen = true
  slots : n.totals.opened = []
  pulses : n.meter.pulses = []
  virt : n.meter.vacc = []
  folding : n.get R.METER_STAT_FOLDING = 1

/-- A close opens the next interval, whether a fold was still in progress or not. -/
theorem Chip.closeNow_opens (m : Chip) (l : List Energy) : m.Opens (m.closeNow l) := by
  have hepoch : (if m.on R.METER_STAT_FOLDING then m.totalFold else m).epoch = m.epoch := by
    rw [apply_ite Chip.epoch, Chip.epoch_totalFold, ite_self]
  exact { interval := congrArg (fun e => (e.1 + 1) % 2 ^ 32) hepoch, start := congrArg Prod.snd hepoch, due := rfl, isOpen := rfl, slots := rfl,
          pulses := rfl, virt := rfl, folding := Chip.get_put_bit _ _ (by decide) (by decide) }

/-- What leaves metering alone leaves the opened interval. -/
theorem Chip.Opens.of_metering {m n k : Chip} (ho : m.Opens n) (h : k.metering = n.metering) : m.Opens k := by
  obtain ⟨interval, start, due, isOpen, slots, pulses, virt, folding⟩ := ho
  have htotals := Chip.metering_totals h
  have hmeter := Chip.metering_meter h
  have hstat : k.get R.METER_STAT_FOLDING = n.get R.METER_STAT_FOLDING := Chip.metering_get h (by decide) (by decide)
  constructor <;> simpa only [htotals, hmeter, hstat]

/-- The peaks of the channels lie beside. -/
theorem Chip.Opens.peaks {m n : Chip} (ho : m.Opens n) (l : List (Nat × Nat)) :
    m.Opens (l.foldl (fun a e => a.put (R.METER_SDM_STAT_PEAK e.1) e.2) n) := by
  induction l generalizing n with
  | nil => exact ho
  | cons e t ih =>
    refine ih { ho with folding := ?_ }
    exact (Chip.get_put_other _ (show 0x340004 ≠ 0x340104 + 0x10 * e.1 by omega) _).trans ho.folding

@[simp] theorem Chip.metering_writeBlock (m : Chip) (tag : BitVec 40) (i : Nat) (l : List (Option DWord)) :
    (m.writeBlock tag i l).metering = m.metering := by
  induction l generalizing m i with
  | nil => rfl
  | cons x t ih =>
    cases x with
    | none => exact ih m (i + 1)
    | some v => exact (ih _ (i + 1)).trans (Chip.metering_unitWrite _ _ _ _ _)

theorem Chip.metering_instants (m : Chip) : m.instants.metering = m.metering := by
  unfold Chip.instants
  split
  · rfl
  · exact (Chip.foldl_leaves (fun _ _ => by simp [apply_ite Chip.metering]) _ _).trans <|
      Chip.foldl_leaves (fun _ _ => by simp [apply_ite Chip.metering]) _ _

theorem Chip.intervalClose_opens {m : Chip} (h : m.dspOn = true) (hd : m.closeDue = true) (l : List Energy) (k : List (Nat × Nat)) :
    m.Opens (m.intervalClose l k) := by
  unfold Chip.intervalClose
  rw [if_pos (by rw [h, hd]; rfl)]
  exact ((m.closeNow_opens l).of_metering (Chip.metering_instants _)).peaks _

theorem Chip.intervalClose_idle {m : Chip} (h : m.dspOn = false ∨ m.closeDue = false) (l : List Energy) (k : List (Nat × Nat)) :
    m.intervalClose l k = m :=
  if_neg (by obtain h | h := h <;> simp [h])

end Sys2Proof.Machine
end

section
/-! PROOFS. Start-up (R292, R293): the flush record, the lost interval and its marker; and the statement of metering (O44). -/

namespace Sys2Proof.Machine

open Sys2Proof

/-! ### The lost-interval marker -/

theorem Chip.get64_setReg_other (m : Chip) {a : Nat} {g : FRef} (h0 : g.addr ≠ a) (h1 : g.addr + 4 ≠ a) (w : Word) :
    (m.setReg a w).get64 g = m.get64 g := by
  rw [Chip.get64, Chip.get64, Chip.reg_setReg_other _ h0, Chip.reg_setReg_other _ h1]

/-- The lost-interval marker set: start and length, number of channels, LOST. -/
def Chip.lostMarker (m : Chip) (start : DWord) (len : Word) (channels lost : Nat) : Chip :=
  (((m.put64 R.METER_LOST_START_LO start).setReg R.METER_LOST_LEN.addr len).put R.METER_LOST_CNT_CHANNELS channels).put R.METER_STAT_LOST lost

section
variable (m : Chip) (start : DWord) (len : Word) (channels : Nat) {lost : Nat}

theorem Chip.lost_lostMarker (h : lost < 2) : (m.lostMarker start len channels lost).get R.METER_STAT_LOST = lost :=
  Chip.get_put_bit _ _ (by decide) h

theorem Chip.channels_lostMarker (h : channels < 2 ^ 16) : (m.lostMarker start len channels lost).get R.METER_LOST_CNT_CHANNELS = channels :=
  (Chip.get_put_other _ (by decide) _).trans <| (Chip.get_put_same _ (by decide) (by decide) _).trans (Nat.mod_eq_of_lt h)

theorem Chip.len_lostMarker : (m.lostMarker start len channels lost).get R.METER_LOST_LEN = fieldOf R.METER_LOST_LEN len :=
  (Chip.get_put_other _ (by decide) _).trans <| (Chip.get_put_other _ (by decide) _).trans (Chip.get_setReg_same _ R.METER_LOST_LEN _)

theorem Chip.tot_lostMarker (c : Nat) : (m.lostMarker start len channels lost).tot c = m.tot c := rfl

theorem Chip.start_lostMarker : (m.lostMarker start len channels lost).get64 R.METER_LOST_START_LO = start :=
  (Chip.get64_put_other _ (by decide) (by decide) _).trans <| (Chip.get64_put_other _ (by decide) (by decide) _).trans <|
    (Chip.get64_setReg_other _ (by decide) (by decide) _).trans (Chip.get64_put64 _ _ _)

end

/-- A write of 0 clears the marker. -/
theorem Chip.lostClear_zero (m : Chip) : m.lostClear 0 = m.lostMarker 0 0 0 0 := rfl

theorem Chip.lostClear_other {v : Word} (h : v ≠ 0) (m : Chip) : m.lostClear v = m := if_neg h

/-- A record that has lost the interval of the given start. -/
def TotRec.lostAt (r : TotRec) (start : Nat) : TotRec :=
  { r with lostStart := BitVec.ofNat 64 start, lost := (if r.lost = 0xFFFF then r.lost else r.lost + 1) }

/-- A lost interval of one channel: its record, the marker, and an event. -/
theorem Chip.markLost_one {m : Chip} {c : Nat} (h : (m.tot c).1.intact = true) (hb : (m.tot c).1.bad = false) (start : Nat) (len : Word) :
    m.markLost start len [c] = ((m.setTot c ((m.tot c).1.lostAt start)).lostMarker (BitVec.ofNat 64 start) len 1 1).post
      (ev 13 0x0703 3 0 start (le 4 len.toNat ++ le 2 1)) := by
  unfold Chip.markLost
  rw [List.foldl_cons, Chip.readTot_intact h]
  simp only [hb]
  rfl

/-! ### FLUSH_RECOVERY -/

/-- The chip once the recovery of this start has begun. -/
def Chip.recovering (m : Chip) : Chip := m.setMeter { m.meter with recovered := true }

@[simp] theorem Chip.tot_recovering (m : Chip) (c : Nat) : m.recovering.tot c = m.tot c := rfl

/-- The totals once a flush record has been folded. -/
def Totals.unflushed (t : Totals) (f : Flush) : Totals :=
  { t with flush := none, opened := [], closing := [], closingDue := false, isOpen := false, interval := (f.interval + 1) % 2 ^ 32 }

/-- The totals once what was open has been marked lost. -/
def Totals.unopened (t : Totals) (interval : Nat) : Totals :=
  { t with opened := [], closing := [], closingDue := false, isOpen := false, slotsLost := false, virt := [], interval := (interval + 1) % 2 ^ 32 }

theorem Chip.get_setTotals (m : Chip) (x : Totals) (f : FRef) : (m.setTotals x).get f = m.get f := rfl

theorem Chip.meter_setTotals (m : Chip) (x : Totals) : (m.setTotals x).meter = m.meter := rfl

theorem Chip.get64_setTotals (m : Chip) (x : Totals) (f : FRef) : (m.setTotals x).get64 f = m.get64 f := rfl

theorem Chip.tot_unflushed (m : Chip) (f : Flush) (c : Nat) : (m.setTotals (m.totals.unflushed f)).tot c = m.tot c := rfl

theorem Chip.tot_unopened (m : Chip) (interval c : Nat) : (m.setTotals (m.totals.unopened interval)).tot c = m.tot c := rfl

/-- The length that a lost interval is given. -/
def lostLen (pf start : Nat) : Word := if pf = 0 then 0xFFFFFFFF else BitVec.ofNat 32 ((pf - start) / 1000000)

theorem Chip.recover_done {m : Chip} (h : m.meter.recovered = true) (pf : Nat) : m.recover pf = m := if_pos h

section
variable {m : Chip} {c : Nat} (h : m.meter.recovered = false) (hm : m.totals.map = [c])
include h hm

/-- A flush record without an unfolded CLOSING bank, of one channel, is folded. -/
theorem Chip.recover_flush {f : Flush} (hf : m.totals.flush = some f) (hc : f.closingDue = false) (pf : Nat) :
    m.recover pf = (m.recovering.foldChan c (AMap.get 0 f.opened c) f.interval f.pf false false true).setTotals
      ((m.recovering.foldChan c (AMap.get 0 f.opened c) f.interval f.pf false false true).totals.unflushed f) := by
  unfold Chip.recover
  rw [if_neg (by simp [h])]
  dsimp only
  rw [hf, hm]
  simp only [hc]
  rfl

/-- An open interval of one channel without a flush record is marked lost. -/
theorem Chip.recover_lost (hf : m.totals.flush = none) (ho : m.totals.isOpen = true) (hc : m.totals.closingDue = false) (pf : Nat) :
    m.recover pf = (m.recovering.markLost m.totals.start (lostLen pf m.totals.start) [c]).setTotals
      ((m.recovering.markLost m.totals.start (lostLen pf m.totals.start) [c]).totals.unopened m.totals.interval) := by
  unfold Chip.recover
  rw [if_neg (by simp [h])]
  dsimp only
  rw [hf, hm]
  simp only [hc, ho]
  rfl

variable (hi : (m.tot c).1.intact = true) (hb : (m.tot c).1.bad = false)
include hi hb

/-- The record of a channel takes the count of the flush record's OPEN bank, once for its interval. -/
theorem Chip.recover_takes {f : Flush} (hf : m.totals.flush = some f) (hc : f.closingDue = false)
    (hn : newer (BitVec.ofNat 32 f.interval) (m.tot c).1.last = true) (pf : Nat) :
    (m.recover pf).meter.recovered = true ∧ (m.recover pf).totals.flush = none ∧
      ((m.recover pf).tot c).1 = ((m.tot c).1.folded (AMap.get 0 f.opened c) f.interval f.pf false false).seal := by
  have hfold := Chip.metering_foldChan (m := m.recovering) hi hb (skip := true) (fun _ => hn) (AMap.get 0 f.opened c) f.pf false false
  rw [Chip.recover_flush h hm hf hc]
  refine ⟨?_, rfl, ?_⟩
  · rw [Chip.meter_setTotals, Chip.metering_meter hfold, Chip.meter_tookFold]
    rfl
  · rw [Chip.tot_unflushed, Chip.metering_tot hfold, Chip.tot_tookFold_same, Chip.tot_recovering]

/-- What a lost interval of one channel leaves: the marker, and the record with its total. -/
theorem Chip.recover_marks (hf : m.totals.flush = none) (ho : m.totals.isOpen = true) (hc : m.totals.closingDue = false) (pf : Nat) :
    let n := m.recover pf
    n.get R.METER_STAT_LOST = 1 ∧ n.get64 R.METER_LOST_START_LO = BitVec.ofNat 64 m.totals.start ∧ n.get R.METER_LOST_CNT_CHANNELS = 1 ∧
      (n.tot c).1 = ((m.tot c).1.lostAt m.totals.start).seal ∧ n.totals.isOpen = false := by
  have hpost := congrArg Chip.metering (Chip.markLost_one (m := m.recovering) hi hb m.totals.start (lostLen pf m.totals.start))
  rw [Chip.metering_post] at hpost
  rw [Chip.recover_lost h hm hf ho hc]
  simp only [Chip.get_setTotals, Chip.get64_setTotals, Chip.tot_unopened]
  refine ⟨?_, ?_, ?_, ?_, rfl⟩
  · rw [Chip.metering_get hpost (by decide) (by decide), Chip.lost_lostMarker _ _ _ _ (by decide)]
  · rw [Chip.metering_get64 hpost (by decide) (by decide), Chip.start_lostMarker]
  · rw [Chip.metering_get hpost (by decide) (by decide), Chip.channels_lostMarker _ _ _ _ (by decide)]
  · rw [Chip.metering_tot hpost, Chip.tot_lostMarker, Chip.tot_setTot_same, Chip.tot_recovering]

end

/-! ### The statement -/

/-- The two commands of a channel's fault: which of them, and its number. -/
theorem fault_cases {c : Fin 64} {e : Instr × Nat} (he : e ∈ [(Instr.modFault c, 1), (.modFaultCleared c, 0)]) :
    ∃ b, e.2 = bit b ∧ ∀ s, exec e.1 s = s.act (·.modFault c.val b) := by
  obtain rfl | he := List.mem_cons.mp he
  · exact ⟨true, rfl, fun _ => rfl⟩
  · obtain rfl := List.mem_singleton.mp he
    exact ⟨false, rfl, fun _ => rfl⟩

/-- Settles O44: each clause is one case of the command's operation. -/
theorem meterWork : Obligations.MeterWork := by
  unfold Obligations.MeterWork
  refine ⟨fun c e he => ⟨?fault, ?faultStands⟩, fun p r q f => ?window, fun p r q f => ?windowOff,
    ⟨fun p v => ?dipStarts, fun p v e => ?dipStays, fun p v e => ?dipEnds⟩,
    ⟨fun p t => ?rise, fun p t s => ?quick, fun p t => ?fall, fun p b t => ?inputOff⟩,
    fun l o => ?residue, fun l o => ?residueOff, fun l k => ?close, fun l k => ?closeIdle,
    ⟨fun c r => ?folds, fun c r => ?carries, fun c r => ?bad, ?foldIdle, ?recovered, fun c r f => ?flush, fun c r => ?lost⟩, fun v => ?clear⟩
  case fault =>
    obtain ⟨b, hb, hc⟩ := fault_cases he
    refine shows_of_act (f := (·.modFault c.val b)) hc fun m ⟨hon, hf⟩ => ?_
    rw [hb]
    exact Chip.stat_modFault hon (hf.trans (by rw [hb]; cases b <;> rfl))
  case faultStands =>
    obtain ⟨b, hb, hc⟩ := fault_cases he
    refine turns_of_act (f := (·.modFault c.val b)) hc fun m h => Chip.modFault_idle (hb ▸ h)
  case window => exact turns_of_act (f := (·.windowEnd p.val ⟨r, q, f⟩)) (fun _ => rfl) fun m ⟨hw, hd, hp, he⟩ => Chip.windowEnd_takes _ hw hd hp he
  case windowOff => exact turns_of_act (f := (·.windowEnd p.val ⟨r, q, f⟩)) (fun _ => rfl) fun m h => Chip.windowEnd_off _ _ h
  case dipStarts =>
    refine shows_of_act (f := (·.halfCycle p.val [v])) (fun _ => rfl) fun m ⟨⟨h, hd, he, hw⟩, hnone, hv⟩ => ?_
    rw [Chip.dips_halfCycle h hd he, assoc_keepVolt]
    exact Chip.dipAfter_starts hw hnone hv
  case dipStays =>
    refine shows_of_act (f := (·.halfCycle p.val [v])) (fun _ => rfl) fun m ⟨⟨h, hd, he, hw⟩, hsome, hv⟩ => ?_
    rw [Chip.dips_halfCycle h hd he, assoc_keepVolt]
    exact Chip.dipAfter_stays hw hsome hv
  case dipEnds =>
    refine shows_of_act (f := (·.halfCycle p.val [v])) (fun _ => rfl) fun m ⟨⟨h, hd, he, hw⟩, hdips, hv⟩ => ?_
    have hsome : assoc m.meter.dips p.val = some e := by simp [hdips, assoc]
    rw [Chip.dips_halfCycle h hd he, Chip.dipAfter_ends hw hsome hv, hdips]
    simp [keepVolt, unassoc]
  case rise =>
    refine shows_of_act (f := (·.pulseEdge p.val true t.toNat)) (fun _ => rfl) fun m h => ?_
    exact Chip.pulseEdge_counts h _
  case quick =>
    refine shows_of_act (f := (·.pulseEdge p.val true t.toNat)) (fun _ => rfl) fun m ⟨h, hs, h0, ht⟩ => ?_
    rw [Chip.pulseEdge_rises h, if_pos (Chip.quickPulse_within hs h0 ht)]
    exact (Chip.chattered_shows _ _).1
  case fall => exact turns_of_act (f := (·.pulseEdge p.val false t.toNat)) (fun _ => rfl) fun m h => Chip.pulseEdge_falls h _
  case inputOff => exact turns_of_act (f := (·.pulseEdge p.val b t.toNat)) (fun _ => rfl) fun m h => Chip.pulseEdge_off h _ _
  case residue =>
    exact shows_of_act (f := (·.residue l o)) (fun _ => rfl) fun m h =>
      ⟨fun c hc hlt => Chip.ovr_residue h hc hlt _, fun c hc hk => Chip.slot_residue h hc hk _ _⟩
  case residueOff => exact turns_of_act (f := (·.residue l o)) (fun _ => rfl) fun m h => Chip.residue_off h _ _
  case close =>
    refine shows_of_act (f := (·.intervalClose l k)) (fun _ => rfl) fun m ⟨h, hd⟩ => ?_
    obtain ⟨hinterval, hstart, hdue, hopen, hslots, hpulses, hvirt, hfolding⟩ := Chip.intervalClose_opens h hd l k
    exact ⟨hinterval, hstart, hdue, hopen, hslots, hpulses, hvirt, hfolding⟩
  case closeIdle => exact turns_of_act (f := (·.intervalClose l k)) (fun _ => rfl) fun m h => Chip.intervalClose_idle h _ _
  case folds =>
    refine shows_of_act (f := Chip.totalFold) (fun _ => rfl) fun m ⟨⟨hd, hm, hv, hr, hi⟩, hb, hlt⟩ => ?_
    subst hr
    obtain ⟨htotal, hwrap⟩ := TotRec.folded_within _ _ m.totals.previous m.totals.start (m.meter.foldClamp.contains c) m.meter.gapRecs hlt
    rw [Chip.tot_totalFold hd hm hv hi hb]
    exact ⟨Chip.closingDue_totalFold hd hm hv, Chip.folding_totalFold hd hm hv, rfl, TotRec.seal_sound _, htotal, hwrap, rfl, rfl⟩
  case carries =>
    refine shows_of_act (f := Chip.totalFold) (fun _ => rfl) fun m ⟨⟨hd, hm, hv, hr, hi⟩, hb, hc, hw⟩ => ?_
    subst hr
    obtain ⟨htotal, hwrap⟩ := TotRec.folded_carries _ _ m.totals.previous m.totals.start (m.meter.foldClamp.contains c) m.meter.gapRecs hc hw
    rw [Chip.tot_totalFold hd hm hv hi hb]
    exact ⟨htotal, hwrap, Chip.wrapCnt_totalFold hd hm hv hi hb hc⟩
  case bad =>
    refine shows_of_act (f := Chip.totalFold) (fun _ => rfl) fun m ⟨⟨hd, hm, hv, hr, hi⟩, hb⟩ => ?_
    subst hr
    exact ⟨Chip.tot_totalFold_bad hd hm hv hi hb, Chip.folding_totalFold hd hm hv⟩
  case foldIdle => exact turns_of_act (f := Chip.totalFold) (fun _ => rfl) fun m ⟨hd, hv⟩ => Chip.totalFold_idle hd hv
  case recovered =>
    exact turns_of_act (f := fun m => m.recover (m.get64 R.KEEP_PF_TIME_LO).toNat) (fun _ => rfl) fun m h => Chip.recover_done h _
  case flush =>
    refine shows_of_act (f := fun m => m.recover (m.get64 R.KEEP_PF_TIME_LO).toNat) (fun _ => rfl)
      fun m ⟨h, hf, hc, hm, hr, hi, hb, hn, hlt⟩ => ?_
    subst hr
    obtain ⟨hrecovered, hnone, hrec⟩ := Chip.recover_takes h hm hi hb hf hc hn (m.get64 R.KEEP_PF_TIME_LO).toNat
    obtain ⟨htotal, -⟩ := TotRec.folded_within _ _ f.interval f.pf false false hlt
    rw [hrec]
    exact ⟨hrecovered, hnone, htotal, TotRec.seal_sound _⟩
  case lost =>
    refine shows_of_act (f := fun m => m.recover (m.get64 R.KEEP_PF_TIME_LO).toNat) (fun _ => rfl)
      fun m ⟨h, hf, ho, hc, hm, hr, hi, hb, hlt⟩ => ?_
    subst hr
    obtain ⟨hlost, hstart, hcount, hrec, hclosed⟩ := Chip.recover_marks h hm hi hb hf ho hc (m.get64 R.KEEP_PF_TIME_LO).toNat
    have hnum : (BitVec.ofNat 64 m.totals.start).toNat = m.totals.start := (BitVec.toNat_ofNat _ _).trans (Nat.mod_eq_of_lt hlt)
    rw [hstart, hrec]
    exact ⟨hlost, hnum, hcount, rfl, hnum, hclosed⟩
  case clear =>
    refine shows_of_act (f := (·.lostClear v)) (fun _ => rfl) fun m _ => ?_
    by_cases hv : v = 0
    · subst hv
      rw [if_pos rfl, Chip.lostClear_zero]
      exact ⟨Chip.lost_lostMarker _ _ _ _ (by decide), Chip.channels_lostMarker _ _ _ _ (by decide), Chip.len_lostMarker _ _ _ _,
        Chip.start_lostMarker _ _ _ _⟩
    · rw [if_neg hv]
      exact Chip.lostClear_other hv m

end Sys2Proof.Machine
end
